-- ==== Sys2Proof/Word.lean ====
section
/-! DEFINITION. The plain words of the part: bytes, 32-bit registers and their simplest arithmetic (R3, R5, R6). -/

namespace Sys2Proof

/-- One byte. -/
abbrev Byte := BitVec 8

/-- One register word: every register is 32 bits wide (R6). -/
abbrev Word := BitVec 32

end Sys2Proof
end

