-- ==== Sys2Proof/Syntax.lean ====
section
/-! DEFINITION. The commands of the block: one constructor of `Instr` per row of the opcode table, with the row's
operands. An operand is what the outside gives with the command (an agent, an offset, a value, received data, a
measured value); everything else a command needs it finds in the state. -/

namespace Sys2Proof

/-- The two agents whose accesses reach BAR0 (R42): host software and the Management Controller. -/
inductive Agent where
  | host
  | mgc
  deriving DecidableEq, Repr

/-- The carriers of HPP, in the order R362 takes requests of one microsecond. -/
inductive Carrier where
  | mailbox
  | udp
  | can0
  | can1
  deriving DecidableEq, Repr

/-- What an HPP request carries beside its payload (R357): the carrier it came on, the source address on that
carrier, SRC, DST, TID, and VERSION. -/
structure Hpp where
  carrier : Carrier
  peer : Nat
  src : Nat
  dst : Nat
  tid : Nat
  deriving DecidableEq, Repr

/-- A physical engine pCE r.q.s, or the spare pCE r.S (R18). -/
structure EngId where
  region : Nat
  quad : Nat
  slot : Nat
  spare : Bool
  deriving DecidableEq, Repr

/-- A magazine as it is inserted in a bay: what its NVMe controller reports (R276, R277) and the blocks it holds, as
(block, 4096 bytes) pairs. -/
structure Magazine where
  serial : List Byte
  blocks : Nat
  /-- The numbers of its active namespaces. -/
  namespaces : List Nat
  lbaBytes : Nat
  metaBytes : Nat
  mqes : Nat
  timeout500 : Nat
  hasDsm : Bool
  /-- A volatile write cache is present. -/
  hasVwc : Bool
  speed : Nat
  width : Nat
  media : List (Nat × List Byte)
  deriving DecidableEq, Repr

/-- A requester of buffer pools, by its fixed 8-bit ID (R258). -/
abbrev ReqId := Nat

/-- A DRAM request: who makes it (0x23 the host over CXL.mem, 0x10 to 0x1F a DMA channel, every other number a block of the device), whether
it reads or writes, where, and the bytes written (R233). -/
structure DramReq where
  agent : Nat
  addr : Nat
  len : Nat
  data : Option (List Byte)
  deriving DecidableEq, Repr

/-- What the ECC logic finds when a line is read (R228, R230): nothing, a correctable error, or an uncorrectable
error with its syndrome and half. -/
inductive EccFinding where
  | clean
  | correctable
  | uncorrectable (synd half : Nat)
  deriving DecidableEq, Repr

/-- What a Gang Link Beacon symbol brings beside the epoch (R69): the lead's DTC, the eighths of a ns by which it arrives after this clock,
and the column count that the lead sets at its Beacon (R31). -/
structure GangSymbol where
  dtc : Nat
  frac : Nat
  columns : Nat
  deriving DecidableEq, Repr

/-- A physical lane of the Pixel Port, and the invalid blocks and control blocks of an unknown type that it has had since its errors were
last reported (R72). -/
structure LaneErrors where
  lane : Nat
  errors : Nat
  deriving DecidableEq, Repr

/-- A back-channel message that a STATUS block acknowledges (R75): the link and the message's code. -/
structure AckCode where
  link : Nat
  code : Nat
  deriving DecidableEq, Repr

/-- What the initialisation finds (R237): per channel, the density code (Gb) of each responding rank, and the temperatures at which the ranks
2c + k were trained. -/
structure InitRanks where
  sizes : List (List Nat)
  temps : List Int
  deriving DecidableEq, Repr

/-- What goes wrong while an engine codes a tile-stripe: what ECC finds in its local SRAM and in the partition (R202), and the bytes that
upsets of the encode pipe change in the record it makes (R181, R182): of a code-block, its plane count (place 0) or byte i of its segments
(place i + 1), and of an escape segment. -/
structure JobFaults where
  sram : EccFinding
  part : EccFinding
  coded : List (Nat × Nat × Byte)
  escape : List (Nat × Byte)
  deriving DecidableEq, Repr

/-- A frame on a CAN FD bus (R390, R391). -/
structure CanFrame where
  fd : Bool
  ext : Bool
  brs : Bool
  id : Nat
  data : List Byte
  deriving DecidableEq, Repr

/-- What a scrub read finds in a row or a metadata block (R309). -/
inductive ScrubFinding where
  | good
  | chunkError (members : List Nat)
  | parityMismatch
  /-- The metadata block at an LBA of a member cannot be read or is not valid. -/
  | badMeta (member lba : Nat)
  deriving DecidableEq, Repr

/-- The commands, in the order of the opcode table. The docstring of each names the rule its row cites. -/
inductive Instr where
  /-- REGISTER_WRITE (R424): agent `a` writes `v` to the register at BAR0 offset `off`. -/
  | registerWrite (a : Agent) (off : Nat) (v : Word)
  /-- UNALIGNED_ACCESS (R7): an access of `size` bytes at byte offset `off`; `w` is the value written, if it writes. -/
  | unalignedAccess (a : Agent) (off size : Nat) (w : Option Word)
  /-- RESERVED_OFFSET_ACCESS (R40). -/
  | reservedOffsetAccess (a : Agent) (off : Nat) (w : Option Word)
  /-- GANG_WINDOW_ACCESS (R43): `reply` is what the follower's BAR0 returns for a read. -/
  | gangWindowAccess (a : Agent) (off : Nat) (w : Option Word) (reply : Word)
  /-- TIMER_BEACON_INSTANT (R45). -/
  | timerBeaconInstant
  /-- BEACON_IN_EDGE (R46). -/
  | beaconInEdge
  /-- FLYWHEEL_EDGE (R46). -/
  | flywheelEdge
  /-- BEACON_MISS (R46). -/
  | beaconMiss
  /-- BEACON_EDGE (R50). -/
  | beaconEdge
  /-- BEACON_OUT_END (R50). -/
  | beaconOutEnd
  /-- BEACON_RUN (R48). -/
  | beaconRun (a : Agent)
  /-- BEACON_STOP (R48). -/
  | beaconStop (a : Agent)
  /-- FORCE_COMMIT (R57). -/
  | forceCommit (a : Agent)
  /-- BU_CLR_COUNTS (R50). -/
  | buClrCounts (a : Agent)
  /-- EPOCH_PRESET (R58). -/
  | epochPreset (a : Agent) (v : Word)
  /-- GANG_BEACON_SYMBOL (R69): the epoch that the symbol carries, and what else it brings. -/
  | gangBeaconSymbol (epoch : Word) (sym : GangSymbol)
  /-- GANG_SYMBOL_TIMEOUT (R69). -/
  | gangSymbolTimeout
  /-- TB_SET (R61). -/
  | tbSet (a : Agent)
  /-- TB_STEP (R61). -/
  | tbStep (a : Agent)
  /-- TB_LOCK (R486). -/
  | tbLock (a : Agent)
  /-- TB_UNLOCK (R486). -/
  | tbUnlock (a : Agent)
  /-- TB_REF_CHANGE (R486). -/
  | tbRefChange (a : Agent) (ref : Nat)
  /-- LTC_IN_WORD (R65): the word's timecode (layout of TB_LTC_IN), its user bits, and the time the word took. -/
  | ltcInWord (tc user : Word) (frameNs : Nat)
  /-- LTC_IN_TIMEOUT (R65). -/
  | ltcInTimeout
  /-- LTC_LOAD (R67). -/
  | ltcLoad (a : Agent)
  /-- LTC_OUT_FRAME_START (R67). -/
  | ltcOutFrameStart
  /-- PPR_ENABLE (R76). -/
  | pprEnable (a : Agent)
  /-- PPR_RETRAIN (R76). -/
  | pprRetrain (a : Agent)
  /-- PPR_CLR_COUNTS (R76). -/
  | pprClrCounts (a : Agent)
  /-- BLOCK_LOCK_GAINED (R74) on physical lane `lane`. -/
  | blockLockGained (lane : Nat)
  /-- BLOCK_LOCK_LOST (R74) on a lane, with its errors. -/
  | blockLockLost (lane : LaneErrors)
  /-- TRAIN_RETRY (R76) of a link. -/
  | trainRetry (link : Nat)
  /-- ALIGN_BLOCK (R74): an ALIGN block on a lane, with its errors, and the logical lane, link number and marker count that the block
  carries, arriving at block slot `slot` of the lane. -/
  | alignBlock (lane : LaneErrors) (logical link count slot : Nat)
  /-- STATUS_ACK (R75): the message acknowledged; `refused` is byte 2 of the STATUS block. -/
  | statusAck (code : AckCode) (refused : Bool)
  /-- BACK_CHANNEL_ACK_TIMEOUT (R75). -/
  | backChannelAckTimeout
  /-- SUBST_GO (R77). -/
  | substGo (a : Agent)
  /-- SUBST_UNDO (R78). -/
  | substUndo (a : Agent)
  /-- SUBST_ERROR_THRESHOLD (R77): the lane whose errors of the frame exceed the threshold, with the counts. -/
  | substErrorThreshold (lane errors : Nat)
  /-- LINE_PACKET (R82) received on a link: the bytes between its SOP and its EOP (R80). -/
  | linePacket (link : Nat) (p : List Byte)
  /-- METADATA_PACKET (R84) received on a link: its bytes likewise. -/
  | metadataPacket (link : Nat) (p : List Byte)
  /-- ENGINE_JOB (R201): engine `e` takes its next job, and what goes wrong on the way, as JobFaults lists it. -/
  | engineJob (e : EngId) (sram part : EccFinding) (coded : List (Nat × Nat × Byte)) (escape : List (Nat × Byte))
  /-- MACRO_OP_BOUNDARY (R213). -/
  | macroOpBoundary (e : EngId)
  /-- MACHINE_CHECK (R214): cause, word address, failing quarters, macro-op in progress. -/
  | machineCheck (e : EngId) (cause ucAddr quarter macroOp : Nat)
  /-- MACRO_OP_WATCHDOG (R214). -/
  | macroOpWatchdog (e : EngId) (ucAddr macroOp : Nat)
  /-- CONTROL_STORE_SCRUB (R215) of one word, and whether its parity is found wrong. -/
  | controlStoreScrub (e : EngId) (ucAddr : Nat) (parityBad : Bool)
  /-- CE_HALT (R207). -/
  | ceHalt (a : Agent) (e : EngId)
  /-- CE_RESUME (R207). -/
  | ceResume (a : Agent) (e : EngId)
  /-- CE_LOAD (R220). -/
  | ceLoad (a : Agent) (e : EngId)
  /-- CE_RESET (R27). -/
  | ceReset (a : Agent) (e : EngId)
  /-- CE_UNRETIRE (R209). -/
  | ceUnretire (a : Agent) (e : EngId)
  /-- CE_ADMIT (R223). -/
  | ceAdmit (a : Agent) (e : EngId)
  /-- CE_CLR_COUNTS (R224). -/
  | ceClrCounts (a : Agent) (e : EngId)
  /-- CE_IA_READ (R224); `ecc` is what the ECC of an SRAM space finds. -/
  | ceIaRead (a : Agent) (e : EngId) (ecc : EccFinding)
  /-- MICROCODE_LOAD_DONE (R218); `readBackOk` is the final read-back. -/
  | microcodeLoadDone (e : EngId) (readBackOk : Bool)
  /-- ENGINE_RESET_DONE (R221); the read-back and SELF_TEST outcomes. -/
  | engineResetDone (e : EngId) (readBackOk selfTestOk : Bool)
  /-- ENGINE_UNGATE_DONE (R208), and the first word whose parity the check of the control store finds wrong: its address and its
  failing quarters. -/
  | engineUngateDone (e : EngId) (bad : Option (Nat × Nat))
  /-- FAL_DECISION (R147). -/
  | falDecision
  /-- FAL_WAIT_TIMEOUT (R146). -/
  | falWaitTimeout
  /-- FAL_CLR_COUNTS (R147). -/
  | falClrCounts (a : Agent)
  /-- PACKER_FRAME_START (R150). -/
  | packerFrameStart
  /-- PACKER_ROW_EMIT (R136). -/
  | packerRowEmit
  /-- PACKER_FRAME_DONE (R155). -/
  | packerFrameDone
  /-- PKR_CLR_COUNTS (R155). -/
  | pkrClrCounts (a : Agent)
  /-- DECODE_UNIT (R186). -/
  | decodeUnit
  /-- LMC_ENABLE (R237). -/
  | lmcEnable (a : Agent)
  /-- LMC_INIT_DONE (R237): what the ranks answer; whether a die needs refresh management; whether training failed. -/
  | lmcInitDone (ranks : InitRanks) (needsRfm trainFailed : Bool)
  /-- DRAM_REQUEST (R233) and what ECC finds in each of its lines, from the first on; in a line not listed, nothing. -/
  | dramRequest (r : DramReq) (ecc : List EccFinding)
  /-- WRITE_QUEUE_DRAIN (R234) of a channel. -/
  | writeQueueDrain (ch : Nat)
  /-- OPEN_ROW_TIMEOUT (R235). -/
  | openRowTimeout (ch cs bank : Nat)
  /-- MR4_POLL (R236): of every die of every rank, the refresh-rate field, the over-temperature report and the temperature. -/
  | mr4Poll (readings : List (List (Nat × Bool × Int)))
  /-- REFRESH_DUE (R236). -/
  | refreshDue (rank bank : Nat)
  /-- PATROL_SCRUB_READ (R231) and what ECC finds. -/
  | patrolScrubRead (rank : Nat) (ecc : EccFinding)
  /-- CE_LIMIT_REACHED (R232). -/
  | ceLimitReached (rank : Nat)
  /-- RETRAIN_DUE (R238): drift in ps and temperature now. -/
  | retrainDue (rank drift : Nat) (temp : Int)
  /-- RETRAIN_FORCE_TIMEOUT (R239). -/
  | retrainForceTimeout
  /-- RANK_RETRAIN_DONE (R239). -/
  | rankRetrainDone (rank : Nat)
  /-- LMC_RETRAIN (R238). -/
  | lmcRetrain (a : Agent) (pos : Nat)
  /-- LMC_RETIRE (R240). -/
  | lmcRetire (a : Agent) (pos : Nat)
  /-- LMC_THAW (R244). -/
  | lmcThaw (a : Agent) (pos : Nat)
  /-- LMC_CLR_COUNTS (R230). -/
  | lmcClrCounts (a : Agent)
  /-- CLR_CAPTURE (R230) of a channel. -/
  | clrCapture (a : Agent) (ch : Nat)
  /-- MIGRATION_GRANULE_COPY (R241): what ECC finds on the source and on the spare. -/
  | migrationGranuleCopy (src spare : EccFinding)
  /-- MIGRATION_COPY_DONE (R241). -/
  | migrationCopyDone
  /-- QUEUE_ENTRY_WRITE (R247): the producer of queue `q` (lane `lane`) writes an entry with this header and body;
  `copiesDiffer` says whether the two pointer copies are found to differ at this update (R250). -/
  | queueEntryWrite (q lane : Nat) (epoch row column kind flags : Nat) (body : List Byte) (copiesDiffer : Bool)
  /-- PUSH_WINDOW_WRITE (R252): a write of `data` at offset `off` of queue `q`'s push window. -/
  | pushWindowWrite (q off : Nat) (data : List Byte)
  /-- PUSH_END (R252). -/
  | pushEnd (a : Agent) (q : Nat)
  /-- OQ_POP (R253). -/
  | oqPop (a : Agent) (q : Nat)
  /-- BPM_INIT (R256). -/
  | bpmInit (a : Agent) (p : Nat)
  /-- BPM_INIT_DONE (R256). -/
  | bpmInitDone (p : Nat)
  /-- BPM_ALLOC (R259). -/
  | bpmAlloc (r : ReqId) (p : Nat)
  /-- BPM_FREE (R260). -/
  | bpmFree (r : ReqId) (p addr : Nat)
  /-- BPM_HANDOVER (R261). -/
  | bpmHandover (r : ReqId) (p addr newOwner : Nat)
  /-- DMA_ENABLE (R265): a write of EN. -/
  | dmaEnable (a : Agent) (ch : Nat) (en : Bool)
  /-- DMA_KICK (R265). -/
  | dmaKick (a : Agent) (ch : Nat)
  /-- DMA_POLL (R265). -/
  | dmaPoll (ch : Nat)
  /-- DMA_RESUME (R270). -/
  | dmaResume (a : Agent) (ch : Nat)
  /-- DMA_SKIP (R270). -/
  | dmaSkip (a : Agent) (ch : Nat)
  /-- DMA_ABORT (R270). -/
  | dmaAbort (a : Agent) (ch : Nat)
  /-- DMA_DESCRIPTOR (R268). -/
  | dmaDescriptor (ch : Nat)
  /-- DMA_DESCRIPTOR_COMPLETE (R267). -/
  | dmaDescriptorComplete (ch : Nat)
  /-- MOVE (R271): the program of channel `ch` is at a MOVE. -/
  | dmaMove (ch : Nat)
  /-- LOOP (R271). -/
  | dmaLoop (ch : Nat)
  /-- WAIT (R271). -/
  | dmaWait (ch : Nat)
  /-- SIGNAL (R271). -/
  | dmaSignal (ch : Nat)
  /-- END (R271). -/
  | dmaEnd (ch : Nat)
  /-- DMA_WAIT_TIMEOUT (R271). -/
  | dmaWaitTimeout (ch : Nat)
  /-- MAG_PRESENCE_EDGE (R279): a magazine comes, or goes. -/
  | magPresenceEdge (bay : Nat) (m : Option Magazine)
  /-- MOOR_PRESENCE_STABLE (R279). -/
  | moorPresenceStable (bay : Nat)
  /-- MAG_LINK_UP (R279): the speed and width codes trained, or none when training failed. -/
  | magLinkUp (bay : Nat) (link : Option (Nat × Nat))
  /-- MAG_CONTROLLER_READY (R279): whether CSTS.RDY came and admin commands and queue creation succeed. -/
  | magControllerReady (bay : Nat) (ready adminOk queuesOk : Bool)
  /-- MOOR_COMPLETE (R279). -/
  | moorComplete (bay : Nat)
  /-- MOOR (R279). -/
  | moor (a : Agent) (bays : Nat)
  /-- UNMOOR (R281). -/
  | unmoor (a : Agent) (bays : Nat)
  /-- FORMAT (R307). -/
  | format (a : Agent) (bays : Nat)
  /-- OPEN (R294). -/
  | openClip (a : Agent)
  /-- CLOSE (R297). -/
  | closeClip (a : Agent) (reason : Nat)
  /-- DELETE_LAST (R308). -/
  | deleteLast (a : Agent)
  /-- REBUILD (R306). -/
  | rebuild (a : Agent)
  /-- REBUILD_DONE (R306). -/
  | rebuildDone
  /-- MGH_CLR_COUNTS (R309). -/
  | mghClrCounts (a : Agent)
  /-- NVME_COMPLETION (R277): a completion of queue `vec` of bay `bay`, in error or not. -/
  | nvmeCompletion (bay vec : Nat) (error : Bool)
  /-- NVME_COMMAND_TIMEOUT (R278). -/
  | nvmeCommandTimeout (bay : Nat)
  /-- COMMIT_ROUND_START (R295). -/
  | commitRoundStart
  /-- ROUND_AGE_TIMEOUT (R295). -/
  | roundAgeTimeout
  /-- COMMIT_ROUND_END (R296): the Flush time of each bay in µs. -/
  | commitRoundEnd (flushUs : List Nat)
  /-- SMART_LOG_POLL (R275). -/
  | smartLogPoll
  /-- MAG_SCRUB_READ (R309) and what it finds. -/
  | magScrubRead (f : ScrubFinding)
  /-- RQ_DOORBELL (R310). -/
  | rqDoorbell (a : Agent) (bay : Nat)
  /-- MAG_READ_REQUEST (R310): `readOk` is the magazine's answer. -/
  | magReadRequest (bay : Nat) (readOk : Bool)
  /-- CXL_LINK_UP (R311): CXL mode, speed and width codes of CXP_STATUS. -/
  | cxlLinkUp (cxlMode : Bool) (speed width : Nat)
  /-- HOST_ARRIVAL (R326). -/
  | hostArrival
  /-- HOST_DEPARTURE (R325): whether the link is lost (or only Memory Space Enable cleared). -/
  | hostDeparture (linkLost : Bool)
  /-- LINK_RESET (R327). -/
  | linkReset
  /-- HDM_DECODER_COMMIT (R314): the host physical base the decoder is given. -/
  | hdmDecoderCommit (base : Nat)
  /-- CXL_MEM_REQUEST (R315): offset in the HDM range, bytes read, or bytes written, and what ECC finds in its lines. -/
  | cxlMemRequest (off len : Nat) (w : Option (List Byte)) (ecc : List EccFinding)
  /-- TO_HOST (R316). -/
  | toHost (a : Agent)
  /-- TO_DEVICE (R317). -/
  | toDevice (a : Agent)
  /-- BIAS_CHANGE_DONE (R316). -/
  | biasChangeDone
  /-- CACHE_FLUSH (R321). -/
  | cacheFlush (a : Agent)
  /-- CXP_CLR_COUNTS (R321). -/
  | cxpClrCounts (a : Agent)
  /-- VIRAL_RECEIVED (R312). -/
  | viralReceived
  /-- GET_TIMESTAMP (R322). -/
  | getTimestamp
  /-- GET_SUPPORTED_LOGS (R322). -/
  | getSupportedLogs
  /-- GET_LOG (R322): the log asked for, by whether it is the Command Effects Log. -/
  | getLog (commandEffects : Bool)
  /-- HPP_REQUEST (R323): the input payload of the mailbox command, and its opcode. -/
  | hppRequest (opcode : Nat) (payload : List Byte)
  /-- ETH_FRAME_RECEIVED (R351) on a port: the frame's bytes, its FCS the last four. -/
  | ethFrameReceived (port : Nat) (frame : List Byte)
  /-- ETH_TS_POP (R342). -/
  | ethTsPop (a : Agent) (port : Nat)
  /-- ETH_RING_KICK_TX (R330). -/
  | ethRingKickTx (a : Agent) (port : Nat)
  /-- ETH_RING_KICK_RX (R330). -/
  | ethRingKickRx (a : Agent) (port : Nat)
  /-- ETH_TX_DESCRIPTOR (R330). -/
  | ethTxDescriptor (port : Nat)
  /-- EGRESS_FRAME_START (R346). -/
  | egressFrameStart (port : Nat)
  /-- EGRESS_FRAME_DONE (R330). -/
  | egressFrameDone (port : Nat)
  /-- GATE_ENTRY_CHANGE (R348). -/
  | gateEntryChange (port : Nat)
  /-- GATE_COMMIT (R349). -/
  | gateCommit (a : Agent) (port : Nat)
  /-- GATE_LIST_START (R349). -/
  | gateListStart (port : Nat)
  /-- ETH_CLR_COUNTS (R351). -/
  | ethClrCounts (a : Agent) (port : Nat)
  /-- SENDER_ENABLE (R341). -/
  | senderEnable (a : Agent) (k : Nat)
  /-- PROXY_FRAME_TICK (R334). -/
  | proxyFrameTick
  /-- SENDER_PACKET_DUE (R340). -/
  | senderPacketDue (k : Nat)
  /-- PROXY_PICTURE_DONE (R331). -/
  | proxyPictureDone
  /-- REVIEW_GO (R331). -/
  | reviewGo (a : Agent)
  /-- PXP_CLR_COUNTS (R335). -/
  | pxpClrCounts (a : Agent)
  /-- PXP_LUT_WRITE (R332). -/
  | pxpLutWrite (a : Agent) (v : Word)
  /-- PTP_SYNC (R344): the offset from the master in ns, and the rate the servo steers to. -/
  | ptpSync (offset : Int) (adj : Int)
  /-- PTP_ANNOUNCE (R343): port, clockIdentity and the rank the best master clock algorithm gives its data set. -/
  | ptpAnnounce (port clockId rank : Nat)
  /-- ANNOUNCE_TIMEOUT (R344). -/
  | announceTimeout
  /-- READ (R358). -/
  | hppRead (h : Hpp) (index sub : Nat)
  /-- WRITE (R353). -/
  | hppWrite (h : Hpp) (index sub typ : Nat) (value : List Byte)
  /-- READ_BLOCK (R361). -/
  | hppReadBlock (h : Hpp) (index sub offset count : Nat)
  /-- WRITE_BLOCK (R361). -/
  | hppWriteBlock (h : Hpp) (index sub typ offset total : Nat) (data : List Byte)
  /-- BLOCK_SEQUENCE_TIMEOUT (R361). -/
  | blockSequenceTimeout (carrier : Carrier) (peer index sub : Nat)
  /-- HPP_UNSUPPORTED (R358). -/
  | hppUnsupported (h : Hpp) (op version : Nat)
  /-- CAN_REASSEMBLY_TIMEOUT (R365). -/
  | canReassemblyTimeout (c src : Nat)
  /-- ANSWER (R372): an ANSWER from node `src` (0 when unassigned) on CAN `c`. -/
  | answer (c src uid vendor product : Nat) (name : List Byte)
  /-- ROLL_CALL (R372) of another master. -/
  | rollCall (c src round : Nat)
  /-- HEARTBEAT (R369). -/
  | heartbeat (c src : Nat)
  /-- HEARTBEAT_TIMER (R369). -/
  | heartbeatTimer
  /-- ROLL_CALL_TIMER (R372) of a bus. -/
  | rollCallTimer (c : Nat)
  /-- UDP_CONTROLLER_TIMEOUT (R370): the controller's address. -/
  | udpControllerTimeout (peer : Nat)
  /-- COMMIT_NOTIFY_TIMER (R368). -/
  | commitNotifyTimer
  /-- CLIP_START (R378). -/
  | clipStart (h : Hpp)
  /-- CLIP_STOP (R379). -/
  | clipStop (h : Hpp)
  /-- STORAGE_MOOR (R381). -/
  | storageMoor (h : Hpp) (bays : Nat)
  /-- STORAGE_UNMOOR (R381). -/
  | storageUnmoor (h : Hpp) (bays : Nat)
  /-- STORAGE_FORMAT (R381). -/
  | storageFormat (h : Hpp) (bays : Nat)
  /-- STORAGE_DELETE_LAST (R381). -/
  | storageDeleteLast (h : Hpp)
  /-- STORAGE_REBUILD (R381). -/
  | storageRebuild (h : Hpp)
  /-- DECODE_START (R383). -/
  | decodeStart (h : Hpp)
  /-- DECODE_STOP (R383). -/
  | decodeStop (h : Hpp)
  /-- DEVICE_RESET (R384). -/
  | deviceReset (h : Hpp) (arg : Word)
  /-- STORE (R388). -/
  | store (h : Hpp)
  /-- DEFAULTS (R356). -/
  | defaults (h : Hpp)
  /-- AUTO_STORE_TIMER (R388). -/
  | autoStoreTimer
  /-- CONFIG_STORE_START (R388). -/
  | configStoreStart
  /-- FW_IMAGE (R478): the whole image of the finished block transfer. -/
  | fwImage (h : Hpp) (image : List Byte)
  /-- FW_ACTIVATE (R479). -/
  | fwActivate (h : Hpp)
  /-- FW_CONFIRM (R475). -/
  | fwConfirm (h : Hpp)
  /-- EPOCH_COMMIT (R478). -/
  | epochCommit (h : Hpp) (which : Nat)
  /-- UC_IMAGE (R478). -/
  | ucImage (h : Hpp) (image : List Byte)
  /-- UC_SELECT (R478). -/
  | ucSelect (h : Hpp)
  /-- RETAIN (R394). -/
  | retain (a : Agent)
  /-- OFF (R394). -/
  | off (a : Agent)
  /-- KPR_CLR_COUNTS (R394). -/
  | kprClrCounts (a : Agent)
  /-- ENTRY_ABORT (R396): the wake bit that ended the entry, or none for an HPP request. -/
  | entryAbort (wake : Option Nat)
  /-- ENTRY_COMPLETE (R395). -/
  | entryComplete
  /-- IDLE_TIMER (R393). -/
  | idleTimer
  /-- WAKE_EVENT (R399): the bit of AON_WAKE_EN whose event occurs. -/
  | wakeEvent (bit : Nat)
  /-- PWR_FAIL_FALL (R401). -/
  | pwrFailFall
  /-- HOLDUP_OFF_ENTRY (R401). -/
  | holdupOffEntry
  /-- PWR_FAIL_RISE (R402). -/
  | pwrFailRise
  /-- GRANT_FORMATION (R408). -/
  | grantFormation
  /-- DEFICIT_LIMIT (R407). -/
  | deficitLimit
  /-- RAMP_SLOT (R412). -/
  | rampSlot
  /-- TEMP_SAMPLE (R413): the 24 raw readings in units of 1/16 °C, each with the outcome of its self-check. -/
  | tempSample (readings : List (Int × Bool))
  /-- COLLECTOR_SELF_FAULT (R422). -/
  | collectorSelfFault
  /-- FC_RAISE (R419). -/
  | fcRaise (a : Agent) (v : Word)
  /-- FC_FIRST_CLR (R420). -/
  | fcFirstClr (a : Agent)
  /-- FC_PHASE_WRITE (R417). -/
  | fcPhaseWrite (a : Agent) (v : Word)
  /-- BASIC (R425). -/
  | basic (a : Agent)
  /-- RESTORE (R425). -/
  | restore (a : Agent)
  /-- FC_CLR_COUNTS (R420). -/
  | fcClrCounts (a : Agent)
  /-- POR_RELEASE (R434): the sampled straps and whether the Daymark's CRC is right. -/
  | porRelease (bootSrc clkMode gangId : Nat)
  /-- RESET_N_FALL (R429). -/
  | resetNFall
  /-- RESET_N_RISE (R430). -/
  | resetNRise
  /-- PWRGD_FALL (R457). -/
  | pwrgdFall
  /-- SUPPLY_BELOW_TRIP (R455). -/
  | supplyBelowTrip
  /-- DOMAIN_RELEASE (R431): 0 IOD, 1 CD0, 2 CD1, 3 PHY. -/
  | domainRelease (d : Nat)
  /-- LOCK_FAIL_TIMEOUT (R431). -/
  | lockFailTimeout (d : Nat)
  /-- RSTC_WARM (R429). -/
  | rstcWarm (a : Agent)
  /-- RSTC_DIE (R430). -/
  | rstcDie (a : Agent) (die : Nat)
  /-- RSTC_ENGINE (R430). -/
  | rstcEngine (a : Agent) (e : EngId)
  /-- RSTC_COLD (R429). -/
  | rstcCold (a : Agent)
  /-- RSTC_LINK (R429). -/
  | rstcLink (a : Agent)
  /-- WATCHDOG_EXPIRY (R432). -/
  | watchdogExpiry
  /-- WATCHDOG_KICK (R432). -/
  | watchdogKick (a : Agent) (v : Word)
  /-- WATCHDOG_CONFIG (R432). -/
  | watchdogConfig (a : Agent) (v : Word)
  /-- GANG_LINK_TRAINED (R33): the measured latency in units of 0.5 ns. -/
  | gangLinkTrained (latency : Nat)
  /-- GANG_LINK_FAIL (R33). -/
  | gangLinkFail
  /-- ICU_SOURCE_EVENT (R437): the new level of a wired source's input (a pulse is high then low). -/
  | icuSourceEvent (n : Nat) (level : Bool)
  /-- ICU_DOORBELL (R436). -/
  | icuDoorbell (v : Word)
  /-- ICU_MGC_CLAIM (R442). -/
  | icuMgcClaim (a : Agent)
  /-- ICU_MGC_COMPLETE (R442). -/
  | icuMgcComplete (a : Agent) (v : Word)
  /-- ICU_HV_CLAIM (R443). -/
  | icuHvClaim (vec : Nat)
  /-- ICU_HV_COMPLETE (R444). -/
  | icuHvComplete (vec : Nat) (v : Word)
  /-- ICU_PEND_SET (R439). -/
  | icuPendSet (a : Agent) (n : Nat) (v : Word)
  /-- ICU_PEND_CLR (R439). -/
  | icuPendClr (a : Agent) (n : Nat) (v : Word)
  /-- CLR_ONE (R438). -/
  | clrOne (a : Agent) (n : Nat)
  /-- CLR_ALL (R438). -/
  | clrAll (a : Agent)
  /-- MSIX_HOLDOFF_EXPIRY (R445) of a vector. -/
  | msixHoldoffExpiry (vec : Nat)
  /-- MAIN_PWR_EN_RAISE (R454). -/
  | mainPwrEnRaise
  /-- LOGBOOK_HOUR (R481). -/
  | logbookHour
  /-- LOGBOOK_BUCKET_REFILL (R482). -/
  | logbookBucketRefill
  /-- AGEING_MEASURE (R483): the twelve readings, corrected to 25 °C. -/
  | ageingMeasure (readings : List Nat)
  /-- LOW_WORD_LATCH_READ (R6) of the low word at `off`. -/
  | lowWordLatchRead (a : Agent) (off : Nat)
  /-- MAG_LINK_DOWN (R305). -/
  | magLinkDown (bay : Nat)
  /-- MOOR_PERST_RELEASE (R279). -/
  | moorPerstRelease (bay : Nat)
  /-- MOOR_STEP_TIMEOUT (R279). -/
  | moorStepTimeout (bay : Nat)
  /-- MAG_SHUTDOWN_COMPLETE (R275). -/
  | magShutdownComplete (bay : Nat)
  /-- BAY_MOOR_AFRESH (R461). -/
  | bayMoorAfresh
  /-- CACHE_FLUSH_DONE (R321). -/
  | cacheFlushDone
  /-- HPP_WARM_RESET_APPLY (R384). -/
  | hppWarmResetApply
  /-- CONFIG_STORE_DONE (R388): whether the slot read back as written. -/
  | configStoreDone (readBackOk : Bool)
  /-- CAN_FRAME_RECEIVED (R391). -/
  | canFrameReceived (c : Nat) (f : CanFrame)
  /-- CAN_FRAME_SENT (R391): sent, or aborted at bus-off. -/
  | canFrameSent (c : Nat) (aborted : Bool)
  /-- CAN_RING_KICK (R391): TX and RX bits. -/
  | canRingKick (a : Agent) (c : Nat) (tx rx : Bool)
  /-- CAN_BUS_OFF_RECOVERY (R390). -/
  | canBusOffRecovery (c : Nat)
  /-- AON_SUPPLY_LOST (R454). -/
  | aonSupplyLost
  /-- FOLLOWER_READOUT_END (R146). -/
  | followerReadoutEnd
  /-- GANG_SHORTFALL_REPORT (R31): the columns the follower can fund. -/
  | gangShortfallReport (n : Nat)
  deriving DecidableEq, Repr

end Sys2Proof
end

