-- ==== Sys2Proof/Decode.lean ====
section
/-! DEFINITION. The commands that a word spells by the bits of the opcode table. No row of this hardware's table gives
any bit (every row is an operation or an event, named and not encoded), so no word spells a command (log entry 2). -/

namespace Sys2Proof

/-- The command that `w` spells on `nbits` bits: none, since no row of the table gives bits. -/
def decodeTableWord (_nbits _w : Nat) : Option Instr := none

end Sys2Proof
end

