-- ==== Sys2Proof/Config.lean ====
section
/-! DEFINITION. The free values of the model: what the manual leaves open and does not let an implementation fix. Each
is a constant without a body, so that nothing can be proved of the value it gives. -/

namespace Sys2Proof.Config

/-- A fresh free value: the `n`-th value that the manual leaves open in a run (a SET_ID drawn at FORMAT, an HPP round
number, a read of an unreadable word). Log entry 4. -/
opaque freeWord : Nat → BitVec 64

/-- A byte of host memory (or of another address the block does not hold) that the block has not written. Log entry 5. -/
opaque hostByte : Nat → BitVec 8

/-- Whether a signature over a body verifies under the key of a Daymark (R473): key, body, signature. Log entry 6. -/
opaque signatureOk : List (BitVec 8) → List (BitVec 8) → List (BitVec 8) → Bool

/-- The bank (bits 3:0), row (bits 21:4) and first column (bits 39:22) of a 2 KiB block of a rank: the manual gives no map from blocks to
rows (log entry 12). -/
opaque dramPlace : Nat → BitVec 64

/-- The SEC-DED code of a half line, by its 256 data bits and the line's device address: the manual gives no generator of the code (R228,
log entry 12). -/
opaque secDed : Nat → Nat → BitVec 16

/-- Whether the Proxy Path rounds a quotient that is not whole up (R333): a weight quantised to 1/256, or a weighted sum,
by numerator and denominator; the manual names no rounding (log entry 22). -/
opaque roundUp : Nat → Nat → Bool

/-- The text of a sender's SDP description (R337, R356), by the words of the sender's registers and of the Proxy Path's format: the manual
gives no text (log entry 48). -/
opaque sdpText : List Nat → List (BitVec 8)

end Sys2Proof.Config
end

