-- ==== Sys2Proof/Machine/Bytes.lean ====
section
/-! DEFINITION. Byte strings: byte order (R5), bits, and the CRCs of the part. A byte is a number below 256. -/

namespace Sys2Proof.Machine

/-- The bytes of operands and memories as numbers. -/
def toNats (l : List Byte) : List Nat := l.map (·.toNat)

/-- Numbers as bytes. -/
def toBytes (l : List Nat) : List Byte := l.map (BitVec.ofNat 8)

/-- `n` bytes of `v`, least significant first (R5). -/
def le : Nat → Nat → List Nat
  | 0, _ => []
  | n + 1, v => v % 256 :: le n (v / 256)

/-- The number whose bytes, least significant first, are `l`. -/
def unle : List Nat → Nat
  | [] => 0
  | b :: t => b % 256 + 256 * unle t

/-- `n` bytes of `v`, most significant first. -/
def be (n v : Nat) : List Nat := (le n v).reverse

/-- The `n`-byte little-endian number at offset `o` of `l`; bytes past the end count as 0. -/
def rdLe (l : List Nat) (o n : Nat) : Nat := unle ((l.drop o).take n)

/-- `l` cut or padded with zero bytes to length `n`. -/
def fit (n : Nat) (l : List Nat) : List Nat := l.take n ++ List.replicate (n - l.length) 0

/-- One bit step of a reflected CRC. -/
def crcBit (poly c : Nat) : Nat := if c % 2 = 1 then (c / 2) ^^^ poly else c / 2

/-- One byte step of a reflected CRC. -/
def crcByte (poly c b : Nat) : Nat :=
  crcBit poly (crcBit poly (crcBit poly (crcBit poly (crcBit poly (crcBit poly (crcBit poly (crcBit poly
    (c ^^^ (b % 256)))))))))

/-- CRC-32C as R80 defines it: polynomial 0x1EDC_6F41 reflected, initial value and final XOR all ones. -/
def crc32c (l : List Nat) : Nat := (l.foldl (crcByte 0x82F63B78) 0xFFFFFFFF) ^^^ 0xFFFFFFFF

/-- The FCS of an Ethernet frame (R329). IEEE 802.3 gives it, not the manual: PRESUMED, log entry 71. -/
def crc32 (l : List Nat) : Nat := (l.foldl (crcByte 0xEDB88320) 0xFFFFFFFF) ^^^ 0xFFFFFFFF

/-- One byte step of the CRC-8 of the back channel (R75): polynomial 0x07, most significant bit first. -/
def crc8Byte (c b : Nat) : Nat :=
  (List.range 8).foldl (fun c _ => if c ≥ 128 then ((c * 2) % 256) ^^^ 7 else c * 2) (c ^^^ (b % 256))

/-- The CRC-8 of R75, initial value 0. -/
def crc8 (l : List Nat) : Nat := l.foldl crc8Byte 0

/-- The bits of a byte, most significant first. -/
def byteBits (b : Nat) : List Nat := [b / 128 % 2, b / 64 % 2, b / 32 % 2, b / 16 % 2, b / 8 % 2, b / 4 % 2, b / 2 % 2, b % 2]

/-- The low `n` bits of `v`, most significant first. -/
def bitsOf : Nat → Nat → List Nat
  | 0, _ => []
  | n + 1, v => v / 2 ^ n % 2 :: bitsOf n v

/-- The number that bits spell, most significant first. -/
def ofBits (l : List Nat) : Nat := l.foldl (fun a b => 2 * a + b % 2) 0

/-- Bits grouped into bytes, most significant first; the last byte is filled with zeros. -/
def packBits : List Nat → List Nat
  | a :: b :: c :: d :: e :: f :: g :: h :: t => ofBits [a, b, c, d, e, f, g, h] :: packBits t
  | [] => []
  | l => [ofBits (l ++ List.replicate (8 - l.length) 0)]

/-- Bit `i` of `n`. -/
def bitAt (n i : Nat) : Nat := n / 2 ^ i % 2

/-- `n` as a two's-complement number of width `w`. -/
def signed (w n : Nat) : Int := let n := n % 2 ^ w; if n < 2 ^ (w - 1) then n else (n : Int) - 2 ^ w

/-- The two's-complement code of `i` on `w` bits. -/
def unsigned (w : Nat) (i : Int) : Nat := (i % (2 ^ w : Int)).toNat

/-- Rounding up division. -/
def ceilDiv (a b : Nat) : Nat := (a + b - 1) / b

/-- The 32-bit comparison of R52: `a` is later than `b`. -/
def later (a b : Nat) : Bool :=
  let d := (a + 2 ^ 32 - b % 2 ^ 32) % 2 ^ 32
  decide (1 ≤ d ∧ d < 2 ^ 31)

/-- Replace element `i` of a list. -/
def setAt {α : Type} (l : List α) (i : Nat) (v : α) : List α := l.set i v

end Sys2Proof.Machine
end

