-- ==== Sys2Proof/Machine/Codec.lean ====
section
/-! DEFINITION. The ELOA coding tools (R94 to R133): decorrelation, the 5/3 wavelet, bit-plane passes, contexts, the range
coder, stuffing, escape payloads. The passes are written once over a coder that either takes each bin or yields it, so
that the encoder and the decoder visit the same bins by definition. -/

namespace Sys2Proof.Machine

/-! ### Sub-planes and colour decorrelation (R96 to R99) -/

/-- Sample (y, x) of a tile-stripe held line by line. -/
def sampleAt (s : List (List Nat)) (y x : Nat) : Nat := (s.getD y []).getD x 0

/-- The colour of site `k` (0 TL, 1 TR, 2 BL, 3 BR) of a CFA code (R88). -/
def cfaSite (cfa k : Nat) : Nat := cfa / 4 ^ k % 4

/-- The first site of colour `c`, and the second (for the two G sites) (R96). -/
def sitesOf (cfa c : Nat) : List Nat := (List.range 4).filter (fun k => cfaSite cfa k = c)

/-- The sample of site `k` of cell (i, j) (R96). -/
def siteSample (s : List (List Nat)) (i j k : Nat) : Int := (sampleAt s (2 * i + k / 2) (2 * j + k % 2) : Nat)

/-- The forward decorrelation of one cell (R97): components Gs, Gd, Cr, Cb. -/
def decorr (d : Nat) (r g1 g2 b : Int) : Int × Int × Int × Int :=
  let gs := (g1 + g2) / 2
  (gs - 2 ^ (d - 1), g1 - g2, r - gs, b - gs)

/-- The inverse decorrelation of one cell (R98): R, G1, G2, B. -/
def recorr (d : Nat) (gsS gd cr cb : Int) : Int × Int × Int × Int :=
  let gs := gsS + 2 ^ (d - 1)
  let g2 := gs - gd / 2
  (cr + gs, g2 + gd, g2, cb + gs)

/-- The components of a tile-stripe `w` wide (R96, R97, R99): four of 8 × w/2, or one of 16 × w. -/
def components (mono : Bool) (cfa d w : Nat) (s : List (List Nat)) : List (List (List Int)) :=
  if mono then
    [(List.range 16).map fun y => (List.range w).map fun x => (sampleAt s y x : Int) - 2 ^ (d - 1)]
  else
    let rs := (sitesOf cfa 0).getD 0 0
    let g1 := (sitesOf cfa 1).getD 0 0
    let g2 := (sitesOf cfa 1).getD 1 0
    let bs := (sitesOf cfa 2).getD 0 0
    let cell := fun i j => decorr d (siteSample s i j rs) (siteSample s i j g1) (siteSample s i j g2)
      (siteSample s i j bs)
    let plane := fun (f : Int × Int × Int × Int → Int) =>
      (List.range 8).map fun i => (List.range (w / 2)).map fun j => f (cell i j)
    [plane (·.1), plane (·.2.1), plane (·.2.2.1), plane (·.2.2.2)]

/-- Element (y, x) of an array of integers held row by row. -/
def intAt (a : List (List Int)) (y x : Nat) : Int := (a.getD y []).getD x 0

/-- A sample clipped to the depth (R132). -/
def clipSample (d : Nat) (v : Int) : Nat := if v < 0 then 0 else if v ≥ 2 ^ d then 2 ^ d - 1 else v.toNat

/-- The samples before clipping that components give (R98, R99). -/
def rawSamples (mono : Bool) (cfa d w : Nat) (c : List (List (List Int))) : List (List Int) :=
  if mono then
    (List.range 16).map fun y => (List.range w).map fun x => intAt (c.getD 0 []) y x + 2 ^ (d - 1)
  else
    let rs := (sitesOf cfa 0).getD 0 0
    let g1 := (sitesOf cfa 1).getD 0 0
    let bs := (sitesOf cfa 2).getD 0 0
    (List.range 16).map fun y => (List.range w).map fun x =>
      let i := y / 2
      let j := x / 2
      let k := 2 * (y % 2) + x % 2
      let q := recorr d (intAt (c.getD 0 []) i j) (intAt (c.getD 1 []) i j) (intAt (c.getD 2 []) i j)
        (intAt (c.getD 3 []) i j)
      if k = rs then q.1 else if k = bs then q.2.2.2 else if k = g1 then q.2.1 else q.2.2.1

/-! ### The 5/3 lifting wavelet (R100 to R102) -/

/-- The forward 1-D transform (R100): low band, high band. -/
def lift (x : List Int) : List Int × List Int :=
  let n := x.length
  let at' := fun k => x.getD (if k = n then n - 2 else k) 0
  let d := (List.range (n / 2)).map fun k => at' (2 * k + 1) - (at' (2 * k) + at' (2 * k + 2)) / 2
  let s := (List.range (n / 2)).map fun k => at' (2 * k) + (d.getD (k - 1) 0 + d.getD k 0 + 2) / 4
  (s, d)

/-- The inverse 1-D transform (R101). -/
def unlift (s d : List Int) : List Int :=
  let h := s.length
  let ev := (List.range h).map fun k => s.getD k 0 - (d.getD (k - 1) 0 + d.getD k 0 + 2) / 4
  (List.range (2 * h)).map fun i =>
    let k := i / 2
    if i % 2 = 0 then ev.getD k 0
    else d.getD k 0 + (ev.getD k 0 + ev.getD (if k + 1 = h then h - 1 else k + 1) 0) / 2

/-- Columns of an array as rows. -/
def transpose (a : List (List Int)) : List (List Int) :=
  (List.range (a.getD 0 []).length).map fun x => a.map fun r => r.getD x 0

/-- R100 on every row: the left halves and the right halves. -/
def liftRows (a : List (List Int)) : List (List Int) × List (List Int) :=
  let r := a.map lift
  (r.map (·.1), r.map (·.2))

/-- R101 on every row. -/
def unliftRows (l h : List (List Int)) : List (List Int) := (l.zip h).map fun p => unlift p.1 p.2

/-- One two-dimensional level (R102): LL, HL, LH, HH. -/
def level2d (a : List (List Int)) : List (List Int) × List (List Int) × List (List Int) × List (List Int) :=
  let (l, h) := liftRows a
  let (ll, lh) := liftRows (transpose l)
  let (hl, hh) := liftRows (transpose h)
  (transpose ll, transpose hl, transpose lh, transpose hh)

/-- The inverse of one two-dimensional level. -/
def unlevel2d (ll hl lh hh : List (List Int)) : List (List Int) :=
  unliftRows (transpose (unliftRows (transpose ll) (transpose lh))) (transpose (unliftRows (transpose hl) (transpose hh)))

/-- The eight bands of a component in the order of R103: LL3, HL3, HL2, LH2, HH2, HL1, LH1, HH1. -/
def bands (a : List (List Int)) : List (List (List Int)) :=
  let (ll1, hl1, lh1, hh1) := level2d a
  let (ll2, hl2, lh2, hh2) := level2d ll1
  let (ll3, hl3) := liftRows ll2
  [ll3, hl3, hl2, lh2, hh2, hl1, lh1, hh1]

/-- The component that eight bands give (R102, inverse). -/
def unbands (b : List (List (List Int))) : List (List Int) :=
  let g := fun i => b.getD i []
  unlevel2d (unlevel2d (unliftRows (g 0) (g 1)) (g 2) (g 3) (g 4)) (g 5) (g 6) (g 7)

/-- Rows and columns of band `b` of a column `w` wide (R103). -/
def bandSize (mono : Bool) (w b : Nat) : Nat × Nat :=
  let m := if mono then 2 else 1
  if b ≤ 1 then (2 * m, w / 16 * m) else if b ≤ 4 then (2 * m, w / 8 * m) else (4 * m, w / 4 * m)

/-- The orientation class of band `b` (R103). -/
def bandOrient (b : Nat) : Nat := [0, 1, 1, 2, 3, 1, 2, 3].getD b 0

/-! ### The range coder (R115 to R119) -/

/-- The initial p of context `c` (R111). -/
def ctxInit (c : Nat) : Nat := if c < 36 then (if c % 9 = 0 then 28672 else 16384) else if c < 40 then 28672 else 16384

/-- The shift of context `c` (R111). -/
def ctxShift (c : Nat) : Nat := if c < 40 then 4 else 5

/-- All contexts at the start of a segment (R115). -/
def ctxStart : Array Nat := ((List.range 52).map ctxInit).toArray

/-- The update of p after a bin (R115). -/
def ctxUpdate (p sh bin : Nat) : Nat := if bin = 0 then p + (32768 - p) / 2 ^ sh else p - p / 2 ^ sh

/-- The encoder state (R116). `out` holds the emitted bytes, newest first; `bins` counts the bins coded (R138). -/
structure RangeEnc where
  low : Nat
  range : Nat
  cache : Option Nat
  pending : Nat
  out : List Nat
  bins : Nat
  deriving DecidableEq, Repr

/-- The encoder before the first bin (R116). -/
def RangeEnc.start : RangeEnc := ⟨0, 0xFFFFFFFF, none, 0, [], 0⟩

/-- shift_low (R116). -/
def RangeEnc.shiftLow (e : RangeEnc) : RangeEnc :=
  if e.low < 0xFF000000 ∨ e.low ≥ 0x100000000 then
    let carry := e.low / 2 ^ 32
    let out := match e.cache with | some c => (c + carry) % 256 :: e.out | none => e.out
    let out := List.replicate e.pending ((0xFF + carry) % 256) ++ out
    { e with low := (e.low * 256) % 2 ^ 32, cache := some (e.low / 2 ^ 24 % 256), pending := 0, out := out }
  else { e with low := (e.low * 256) % 2 ^ 32, pending := e.pending + 1 }

/-- Normalisation (R116): at most three shifts are ever due. -/
def RangeEnc.norm : Nat → RangeEnc → RangeEnc
  | 0, e => e
  | n + 1, e => if e.range < 0x01000000 then RangeEnc.norm n { e.shiftLow with range := e.range * 256 } else e

/-- encode(bin, p) (R116). -/
def RangeEnc.encode (e : RangeEnc) (p bin : Nat) : RangeEnc :=
  let split := e.range / 2 ^ 15 * p
  let e := { e with bins := e.bins + 1 }
  RangeEnc.norm 4 (if bin = 0 then { e with range := split }
    else { e with low := e.low + split, range := e.range - split })

/-- The bytes with termination at this point, oldest first, trailing zero bytes removed (R117). -/
def RangeEnc.finish (e : RangeEnc) : List Nat :=
  let low := (e.low + 0x00FFFFFF) &&& 0x1FF000000
  let carry := low / 2 ^ 32
  let out := match e.cache with | some c => (c + carry) % 256 :: e.out | none => e.out
  let out := List.replicate e.pending ((0xFF + carry) % 256) ++ out
  ((low / 2 ^ 24 % 256 :: out).dropWhile (· = 0)).reverse

/-- The decoder state (R119): `bytes` are the bytes still to come, after which zeros follow; `bins` counts the bins decoded (R181). -/
structure RangeDec where
  code : Nat
  range : Nat
  bytes : List Nat
  bins : Nat
  deriving DecidableEq, Repr

/-- The decoder before the first bin (R119). -/
def RangeDec.start (l : List Nat) : RangeDec :=
  ⟨l.getD 0 0 * 2 ^ 24 + l.getD 1 0 * 2 ^ 16 + l.getD 2 0 * 2 ^ 8 + l.getD 3 0, 0xFFFFFFFF, l.drop 4, 0⟩

/-- Normalisation (R119). -/
def RangeDec.norm : Nat → RangeDec → RangeDec
  | 0, d => d
  | n + 1, d =>
    if d.range < 0x01000000 then
      RangeDec.norm n ⟨(d.code * 256 + d.bytes.getD 0 0) % 2 ^ 32, d.range * 256, d.bytes.drop 1, d.bins⟩
    else d

/-- decode(p) (R119). -/
def RangeDec.decode (d : RangeDec) (p : Nat) : Nat × RangeDec :=
  let split := d.range / 2 ^ 15 * p
  let d := { d with bins := d.bins + 1 }
  if d.code < split then (0, RangeDec.norm 4 { d with range := split })
  else (1, RangeDec.norm 4 { d with code := d.code - split, range := d.range - split })

/-- A coder of bins: it takes each bin (`enc`) or yields it (`dec`). -/
inductive Coder where
  | enc (e : RangeEnc) (ctx : Array Nat)
  | dec (d : RangeDec) (ctx : Array Nat)
  deriving DecidableEq, Repr

/-- Code a bin in context `c`: the bin `b` is taken, or another is yielded (R115). -/
def Coder.bin (k : Coder) (c b : Nat) : Nat × Coder :=
  match k with
  | .enc e ctx =>
    let p := ctx.getD c 0
    (b, .enc (e.encode p b) (ctx.setIfInBounds c (ctxUpdate p (ctxShift c) b)))
  | .dec d ctx =>
    let p := ctx.getD c 0
    let (v, d) := d.decode p
    (v, .dec d (ctx.setIfInBounds c (ctxUpdate p (ctxShift c) v)))

/-- Code a uniform bin (R111). -/
def Coder.uniform (k : Coder) (b : Nat) : Nat × Coder :=
  match k with
  | .enc e ctx => (b, .enc (e.encode 16384 b) ctx)
  | .dec d ctx => let (v, d) := d.decode 16384; (v, .dec d ctx)

/-! ### Bit-plane passes (R106 to R114) -/

/-- The state of one code-block under coding: its size, orientation, true values (all 0 in a decoder), and for every
value splane + 1 (0 while insignificant), the magnitude and sign known so far and the lowest plane known. -/
structure BlockState where
  h : Nat
  w : Nat
  o : Nat
  val : Array Int
  sp : Array Nat
  mag : Array Nat
  neg : Array Bool
  known : Array Nat
  coder : Coder
  deriving DecidableEq, Repr

/-- sig at (y, x), 0 outside the code-block (R107). -/
def BlockState.sig (s : BlockState) (y x : Int) : Nat :=
  if 0 ≤ y ∧ y < s.h ∧ 0 ≤ x ∧ x < s.w then (if s.sp.getD (y.toNat * s.w + x.toNat) 0 = 0 then 0 else 1) else 0

/-- +1, −1 or 0 by the sign of a significant neighbour (R113). -/
def BlockState.sgn (s : BlockState) (y x : Int) : Int :=
  if s.sig y x = 0 then 0 else if s.neg.getD (y.toNat * s.w + x.toNat) false then -1 else 1

/-- run_ok (R107). -/
def BlockState.runOk (s : BlockState) (y x : Int) : Bool :=
  decide (x + 3 < s.w) && s.sig y (x - 1) == 0 && (List.range 4).all (fun i => s.sig y (x + i) == 0) &&
    (List.range 6).all (fun i => s.sig (y - 1) (x - 1 + i) == 0)

/-- The significance context (R112). -/
def BlockState.sigCtx (s : BlockState) (y x : Int) : Nat :=
  let w := s.sig y (x - 1)
  let n := s.sig (y - 1) x
  let q := s.sig (y - 1) (x - 1) + s.sig (y - 1) (x + 1)
  let u := if s.o = 1 then (if n = 1 then 2 else if w = 1 then 1 else 0)
    else if s.o = 3 then w + n else (if w = 1 then 2 else if n = 1 then 1 else 0)
  9 * s.o + (3 * u + min q 2)

/-- The sign context (R113). -/
def BlockState.signCtx (s : BlockState) (y x : Int) : Nat :=
  (40 + 3 * (s.sgn y (x - 1) + 1) + (s.sgn (y - 1) x + 1)).toNat

/-- The refinement context (R114). -/
def BlockState.refCtx (s : BlockState) (p : Nat) (y x : Int) (splane : Nat) : Nat :=
  if splane > p + 1 then 51
  else
    let any := (List.range 3).any fun i => (List.range 3).any fun j =>
      !(i == 1 && j == 1) && s.sig (y - 1 + i) (x - 1 + j) == 1
    if any then 50 else 49

/-- Bit `p` of the true magnitude at index `i`. -/
def BlockState.bitOf (s : BlockState) (i p : Nat) : Nat := bitAt (s.val.getD i 0).natAbs p

/-- Index `i` becomes significant at plane `p`; its sign is coded (R107, R108). -/
def BlockState.become (s : BlockState) (p y x : Nat) : BlockState :=
  let i := y * s.w + x
  let c := s.signCtx y x
  let s : BlockState := ⟨s.h, s.w, s.o, s.val, s.sp.setIfInBounds i (p + 1), s.mag.setIfInBounds i (2 ^ p), s.neg,
    s.known.setIfInBounds i p, s.coder⟩
  let (g, k) := s.coder.bin c (if s.val.getD i 0 < 0 then 1 else 0)
  { s with neg := s.neg.setIfInBounds i (g == 1), coder := k }

/-- The significance pass of plane `p` over one row from `x` on (R107). -/
def BlockState.sigRow (p y : Nat) : Nat → Nat → BlockState → BlockState
  | 0, _, s => s
  | fuel + 1, x, s =>
    if x ≥ s.w then s
    else if x % 4 = 0 && s.runOk y x then
      let i := y * s.w + x
      let t := (List.range 4).map fun j => s.bitOf (i + j) p
      let (b, k) := s.coder.bin (36 + s.o) (if t.any (· = 1) then 1 else 0)
      let s := { s with coder := k }
      if b = 0 then BlockState.sigRow p y fuel (x + 4) s
      else
        let j0 := t.findIdx (· = 1)
        let (hi, k) := s.coder.uniform (j0 / 2 % 2)
        let (lo, k) := k.uniform (j0 % 2)
        let j := 2 * hi + lo
        BlockState.sigRow p y fuel (x + j + 1) ({ s with coder := k }.become p y (x + j))
    else if s.sig y x = 0 then
      let (b, k) := s.coder.bin (s.sigCtx y x) (s.bitOf (y * s.w + x) p)
      let s := { s with coder := k }
      BlockState.sigRow p y fuel (x + 1) (if b = 1 then s.become p y x else s)
    else BlockState.sigRow p y fuel (x + 1) s

/-- The significance pass of plane `p` (R107). -/
def BlockState.sigPass (s : BlockState) (p : Nat) : BlockState :=
  (List.range s.h).foldl (fun s y => BlockState.sigRow p y (s.w + 1) 0 s) s

/-- The refinement of one value in the pass of plane `p` (R109). -/
def BlockState.refine (p : Nat) (s : BlockState) (i : Nat) : BlockState :=
  let sp := s.sp.getD i 0
  if sp > p + 1 then
    let y := i / s.w
    let x := i % s.w
    let (b, k) := s.coder.bin (s.refCtx p y x (sp - 1)) (s.bitOf i p)
    ⟨s.h, s.w, s.o, s.val, s.sp, s.mag.setIfInBounds i (s.mag.getD i 0 + b * 2 ^ p), s.neg, s.known.setIfInBounds i p, k⟩
  else s

/-- The refinement pass of plane `p` (R109). -/
def BlockState.refPass (s : BlockState) (p : Nat) : BlockState := (List.range (s.h * s.w)).foldl (BlockState.refine p) s

/-- Pass `k` of a code-block with plane count `P` (R106). -/
def BlockState.pass (P k : Nat) (s : BlockState) : BlockState :=
  if k = 1 then s.sigPass (P - 1) else if k % 2 = 0 then s.sigPass (P - 1 - k / 2) else s.refPass (P - 1 - k / 2)

/-- The states after passes 1 to `n`, in order (R106). -/
def BlockState.passes (P : Nat) : Nat → BlockState → List BlockState
  | 0, _ => []
  | n + 1, s => (List.range (n + 1)).foldl (fun (acc : List BlockState × BlockState) k =>
      let t := BlockState.pass P (k + 1) acc.2
      (acc.1 ++ [t], t)) ([], s) |>.1

/-- The reconstruction of value `i` after the passes coded so far (R110). -/
def BlockState.recon (s : BlockState) (i : Nat) : Int :=
  if s.sp.getD i 0 = 0 then 0
  else
    let b := s.known.getD i 0
    let m := s.mag.getD i 0 + (if b > 0 then 2 ^ (b - 1) else 0)
    if s.neg.getD i false then -(m : Int) else m

/-- All reconstructed values, row by row. -/
def BlockState.values (s : BlockState) : List (List Int) :=
  (List.range s.h).map fun y => (List.range s.w).map fun x => s.recon (y * s.w + x)

/-- A code-block before its first pass. -/
def BlockState.start (h w o : Nat) (v : List (List Int)) (k : Coder) : BlockState :=
  let n := h * w
  ⟨h, w, o, v.flatten.toArray, Array.replicate n 0, Array.replicate n 0, Array.replicate n false, Array.replicate n 0, k⟩

/-- The bit length of `n`. -/
def bitLen (n : Nat) : Nat := if n = 0 then 0 else n.log2 + 1

/-- The plane count the HL6480 uses (R105). -/
def planeCount (v : List (List Int)) : Nat := bitLen (v.flatten.foldl (fun m x => max m x.natAbs) 0)

/-! ### Stuffing (R120, R121) -/

/-- The stuffing of a bit sequence: `acc` and `n` are the bits waiting (R120). -/
def stuffBits : List Nat → Nat → Nat → List Nat
  | [], acc, n => if n > 0 then [acc * 2 ^ (8 - n)] else []
  | v :: t, acc, n =>
    let a := acc * 2 + v
    if n + 1 = 8 then (if a = 0xFF then a :: stuffBits t 0 1 else a :: stuffBits t 0 0) else stuffBits t a (n + 1)

/-- stuff(raw) (R120). -/
def stuff (raw : List Nat) : List Nat := stuffBits (raw.flatMap byteBits) 0 0

/-- The bits of a segment with the stuffed bits dropped, or none on a stuffing violation (R121). -/
def destuffBits : List Nat → Bool → Option (List Nat)
  | [], _ => some []
  | b :: t, afterFF =>
    if afterFF && b ≥ 128 then none
    else (destuffBits t (b == 0xFF)).map fun r => (if afterFF then (byteBits b).drop 1 else byteBits b) ++ r

/-- The raw bytes of a segment: the whole bytes formed from its own bits (R121). -/
def destuff (seg : List Nat) : Option (List Nat) :=
  (destuffBits seg false).map fun b => packBits (b.take (b.length / 8 * 8))

/-- The bytes the range decoder reads: the raw bytes and the bits that remain (R119, R121). -/
def destuffAll (seg : List Nat) : Option (List Nat) := (destuffBits seg false).map packBits

/-- The coded form of one code-block: its plane count, and for each k from 1 to 2P − 1 the segment Seg_k and the
reconstruction it gives. -/
structure CodedBlock where
  planes : Nat
  segs : List (List Nat)
  values : List (List (List Int))
  /-- Bins coded up to the end of each pass. -/
  bins : List Nat
  /-- The tail of each pass: the bytes that termination adds there (R141). -/
  tails : List Nat
  deriving DecidableEq, Repr

/-- Code one code-block (R105, R106, R117). -/
def codeBlock (h w o : Nat) (v : List (List Int)) : CodedBlock :=
  let P := planeCount v
  let st := BlockState.passes P (2 * P - 1) (BlockState.start h w o v (.enc RangeEnc.start ctxStart))
  let raw := fun (s : BlockState) => match s.coder with | .enc e _ => e.finish | .dec _ _ => []
  let bins := fun (s : BlockState) => match s.coder with | .enc e _ => e.bins | .dec _ _ => 0
  let tail := fun (s : BlockState) =>
    match s.coder with | .enc e _ => 1 + e.pending + (if e.cache.isSome then 1 else 0) | .dec _ _ => 0
  ⟨P, st.map (fun s => stuff (raw s)), st.map (·.values), st.map bins, st.map tail⟩

/-- Decode a code-block truncated to `k` passes from its segment (R119): its values and the bins decoded; none on a stuffing
violation. -/
def decodeBlockBins (h w o P k : Nat) (seg : List Nat) : Option (List (List Int) × Nat) :=
  if k = 0 then some ((List.range h).map fun _ => List.replicate w 0, 0)
  else
    (destuffAll seg).map fun raw =>
      let s := BlockState.start h w o [] (.dec (RangeDec.start raw) ctxStart)
      let t := (BlockState.passes P k s).getLast?.getD s
      (t.values, match t.coder with | .dec d _ => d.bins | .enc _ _ => 0)

/-- The values of a code-block truncated to `k` passes (R119). -/
def decodeBlock (h w o P k : Nat) (seg : List Nat) : Option (List (List Int)) := (decodeBlockBins h w o P k seg).map (·.1)

/-! ### Escape stripes (R129 to R131) -/

/-- The payload of an escape stripe: the samples in raster order, `d` bits each (R129). -/
def escapePayload (d w : Nat) (s : List (List Nat)) : List Nat :=
  packBits ((List.range 16).flatMap fun y => (List.range w).flatMap fun x => bitsOf d (sampleAt s y x))

/-- How often byte `b` occurs. -/
def occurrences (l : List Nat) (b : Nat) : Nat := l.foldl (fun n x => if x = b then n + 1 else n) 0

/-- The key of an escape stripe: the complement of the byte value that occurs fewest times, the lowest on a tie (R131). -/
def escapeKey (y : List Nat) : Nat :=
  let counts := y.foldl (fun (a : Array Nat) b => a.setIfInBounds b (a.getD b 0 + 1)) (Array.replicate 256 0)
  let best := (List.range 256).foldl (fun (b : Nat) v => if counts.getD v 0 < counts.getD b 0 then v else b) 0
  best ^^^ 0xFF

/-- The segment of an escape stripe under key `k` (R130). -/
def escapeSeg (k : Nat) (y : List Nat) : List Nat := stuff (k :: y.map (· ^^^ k))

/-- The samples of an escape segment, or none when it is too short or violates stuffing (R130, R133). -/
def escapeSamples (d w : Nat) (seg : List Nat) : Option (List (List Nat)) :=
  match destuff seg with
  | none => none
  | some raw =>
    let n := 2 * w * d
    if raw.length < n + 1 then none
    else
      let k := raw.getD 0 0
      let bits := (((raw.drop 1).take n).map (· ^^^ k)).flatMap byteBits
      some ((List.range 16).map fun y => (List.range w).map fun x => ofBits ((bits.drop ((y * w + x) * d)).take d))

end Sys2Proof.Machine
end

