-- ==== Sys2Proof/Machine/RateControl.lean ====
section
/-! DEFINITION. Rate control (R135 to R152) as arithmetic: bounds, the cycle budget, pass records, the frame decision and
admission. -/

namespace Sys2Proof.Machine

/-- The coded height of a frame (R89, R137). -/
def codedHeight (h : Nat) : Nat := if h = 1080 then 1088 else h

/-- The raw size of a frame in bytes (R137). -/
def rawSize (w h d : Nat) : Nat := w * codedHeight h * d / 8

/-- The bounds of the target T (R137). -/
def targetOk (w h d : Nat) (temporal : Bool) (t : Nat) : Bool :=
  let raw := rawSize w h d
  decide (ceilDiv raw (if temporal then 8 else 20) ≤ t) && decide (t ≤ raw / 3)

/-- The bin budget of a tile-stripe `w` wide (R138). -/
def binBudget (w : Nat) : Nat := 320 * w - 2048

/-- The number of code-blocks (R103). -/
def blockCount (mono : Bool) : Nat := if mono then 8 else 32

/-- The record overhead of a coded record (R171). -/
def recordOverhead (mono : Bool) : Nat := 2 + (64 * blockCount mono + 30) / 15

/-- The sum of squares of a code-block. -/
def sumSq (v : List (List Int)) : Nat := v.flatten.foldl (fun a x => a + x.natAbs ^ 2) 0

/-- The squared error between two arrays (E_k of R141). -/
def errSq (v u : List (List Int)) : Nat := ((v.flatten).zip u.flatten).foldl (fun a p => a + (p.1 - p.2).natAbs ^ 2) 0

/-- The weight shift of component `c` and band `b` (R141): `FAL_WEIGHT` is 3 bits a band, then 2 bits a component. -/
def weightShift (weight c b : Nat) : Nat := weight / 2 ^ (2 * c + 24) % 4 + weight / 2 ^ (3 * b) % 8

/-- D_k with its saturation (R141). -/
def dist (shift e0 ek : Nat) : Nat := min (2 ^ shift * (e0 - ek)) (2 ^ 64 - 1)

/-- A hull point (k, L, D) (R142). -/
abbrev HullPoint := Nat × Nat × Nat

/-- The inner loop of R142: place point (k, l, d) on a hull held last point first. -/
def hullPlace (k l d : Nat) : Nat → List HullPoint → List HullPoint
  | 0, h => h
  | fuel + 1, h =>
    match h with
    | [] => [(k, l, d)]
    | (k1, l1, d1) :: t =>
      if d ≤ d1 then h
      else if l ≤ l1 then (if t = [] then [(k, l, d)] else hullPlace k l d fuel t)
      else
        match t with
        | (_, l0, d0) :: _ =>
          if (d1 - d0) * (l - l1) ≤ (d - d1) * (l1 - l0) then hullPlace k l d fuel t else (k, l, d) :: h
        | [] => (k, l, d) :: (k1, l1, d1) :: t

/-- The upper convex hull of a code-block, first point first (R142): lengths, distances and tails of k = 1 to 2P − 1. -/
def hull (P : Nat) (len dst tail : List Nat) : List HullPoint :=
  ((List.range (2 * P - 1)).foldl (fun h i =>
    if i + 1 < 2 * P - 1 ∧ tail.getD i 0 > 8 then h
    else hullPlace (i + 1) (len.getD i 0) (dst.getD i 0) (h.length + 1) h) [(0, 0, 0)]).reverse

/-- The slope code of a step (R143). -/
def slopeCode (dd dl : Nat) : Nat :=
  let e : Int := (bitLen dd : Int) - bitLen dl
  let e : Int := if e ≥ 0 then (if dd < dl * 2 ^ e.toNat then e - 1 else e)
    else (if dd * 2 ^ (-e).toNat < dl then e - 1 else e)
  let m : Int := if e ≥ 0 then (16 * dd / (dl * 2 ^ e.toNat) : Nat) - 16
    else (16 * dd * 2 ^ (-e).toNat / dl : Nat) - 16
  (min (max (16 * (e + 64) + m) 0) 4095).toNat

/-- The steps of a hull (R143): slope code, ΔL, and k of the point each step ends at. -/
def hullSteps : List HullPoint → List (Nat × Nat × Nat)
  | (_, l0, d0) :: (k1, l1, d1) :: t => (slopeCode (d1 - d0) (l1 - l0), l1 - l0, k1) :: hullSteps ((k1, l1, d1) :: t)
  | _ => []

/-- What a decision gives (R147): lim, quota, above. -/
structure Decision where
  lim : Nat
  quota : Nat
  above : Nat
  oversize : Bool
  qcapped : Bool
  allFit : Bool
  deriving DecidableEq, Repr

/-- The scan of R147 over codes c − 1 down to 0. -/
def decideScan (qcap : Bool) (q a : Nat) (h : Nat → Nat) : Nat → Nat → Decision
  | 0, cum => ⟨0, 0, cum, false, false, true⟩
  | c + 1, cum =>
    if qcap ∧ c < q then ⟨q, 0, cum, false, true, false⟩
    else if cum + h c > a then ⟨c + 1, a - cum, cum, false, false, false⟩
    else decideScan qcap q a h c (cum + h c)

/-- The room a frame has for truncatable segments (R147): T − F − 8 in CFS, T − F in QCAP. -/
def room (mode t f : Nat) : Int := if mode = 1 then (t : Int) - f - 8 else (t : Int) - f

/-- The frame decision (R147). An oversize frame under GROW carries lim 4096 (R152). -/
def decideFrame (mode t q f : Nat) (h : Nat → Nat) : Decision :=
  if room mode t f < 0 then ⟨4096, 0, 0, true, false, false⟩
  else decideScan (mode == 2) q (room mode t f).toNat h 4096 0

/-- The admission of steps (R150): the pass count chosen and the quota that remains. -/
def admitSteps (lim : Nat) : Nat → Nat → List (Nat × Nat × Nat) → Nat × Nat
  | k, quota, [] => (k, quota)
  | k, quota, (code, dl, k1) :: t =>
    if code ≥ lim then admitSteps lim k1 quota t
    else if code + 1 = lim ∧ dl ≤ quota then admitSteps lim k1 (quota - dl) t
    else (k, quota)

/-- The bins a histogram takes from a hull (R144): (slope code, ΔL) of every step. -/
def hullBins (h : List HullPoint) : List (Nat × Nat) := (hullSteps h).map fun s => (s.1, s.2.1)

end Sys2Proof.Machine
end

