-- ==== Sys2Proof/Machine/Bitstream.lean ====
section
/-! DEFINITION. The ELOA bitstream (R159 to R180): sealed blocks, headers, tile-stripe records, metadata segments, the
index, the closing header, the filler and dropped-frame records, as bytes. -/

namespace Sys2Proof.Machine

/-- The length of a sealed block of `n` raw bytes (R162). -/
def sealedLen (n : Nat) : Nat := (16 * n + 14) / 15

/-- A sealed block (R162). -/
def sealBlock (raw : List Nat) : List Nat := fit (sealedLen raw.length) (stuff raw)

/-- The first `n` raw bytes of a sealed block, or none when it breaks R121 or ends early (R198). -/
def openSeal (n : Nat) (l : List Nat) : Option (List Nat) :=
  match destuff (l.take (sealedLen n)) with
  | none => none
  | some r => if r.length < n then none else some (r.take n)

/-- What the headers of a frame say (R164, R165), as fixed at its Beacon. A column is (units, slot, quad, region, spare,
follower). -/
structure FrameInfo where
  epoch : Nat
  clipFrame : Nat
  beaconTime : Nat
  timeQ : Nat
  subframe : Nat
  timecode : Nat
  rateNum : Nat
  rateDen : Nat
  target : Nat
  mode : Nat
  temporal : Bool
  verify : Bool
  verifyF : Bool
  ganged : Bool
  mono : Bool
  index : Bool
  depth : Nat
  cfa : Nat
  width : Nat
  height : Nat
  cols : List (Nat × Nat × Nat × Nat × Bool × Bool)
  deriving DecidableEq, Repr

/-- A code-block of a queued record: its plane count and, for every point kept as a candidate (the whole code-block
among them), the pass count and the segment; its hull (R142) is empty when it is not truncatable. -/
structure BlockRec where
  planes : Nat
  segs : List (Nat × List Nat)
  hull : List HullPoint
  deriving DecidableEq, Repr

/-- A tile-stripe record as it is queued (R167): form 0 coded, 1 escape, 2 lost, 3 coded and kept as it came (its bytes
after the marker in `seg`); recorded from patched input; a verify replacement; PRED; the code-blocks of a coded record; the segment of
an escape record. -/
structure TsRec where
  form : Nat
  patched : Bool
  replaced : Bool
  pred : Bool
  blocks : List BlockRec
  seg : List Nat
  deriving DecidableEq, Repr

/-- A lost record (R170). -/
def TsRec.lost : TsRec := ⟨2, false, false, false, [], []⟩

/-- The status code of a record (R176): lost before verify replacement, that before patched. -/
def TsRec.status (r : TsRec) : Nat := if r.form = 2 then 2 else if r.replaced then 3 else if r.patched then 1 else 0

/-- 1 for true. -/
def b2n (b : Bool) : Nat := if b then 1 else 0

/-- The FLAGS byte (R165). -/
def FrameInfo.flags (f : FrameInfo) : Nat :=
  f.mode % 4 + 4 * b2n f.temporal + 8 * b2n f.verify + 16 * b2n f.ganged + 32 * b2n f.mono + 64 * b2n f.index +
    128 * b2n f.verifyF

/-- A column entry (R166). -/
def colEntry (c : Nat × Nat × Nat × Nat × Bool × Bool) : Nat :=
  c.1 % 32 + 32 * (c.2.1 % 4) + 128 * (c.2.2.1 % 4) + 512 * (c.2.2.2.1 % 4) + 2048 * b2n c.2.2.2.2.1 +
    4096 * b2n c.2.2.2.2.2

/-- The raw opening header (R164). -/
def FrameInfo.rawHeader (f : FrameInfo) : List Nat :=
  [1, f.flags, f.depth % 256, if f.mono then 0 else f.cfa % 256] ++ le 2 f.width ++ le 2 f.height ++
    [f.cols.length % 256, 0] ++ le 4 f.epoch ++ le 4 f.clipFrame ++ le 8 f.beaconTime ++ [f.timeQ % 256, f.subframe % 256] ++
    le 4 f.timecode ++ le 4 f.rateNum ++ le 2 f.rateDen ++ le 4 (if f.mode = 0 then 0 else f.target) ++ [0, 0] ++
    f.cols.flatMap fun c => le 2 (colEntry c)

/-- FRM and the sealed opening header (R163). -/
def FrameInfo.opening (f : FrameInfo) : List Nat := [0xFF, 0xF0] ++ sealBlock f.rawHeader

/-- Stripe rows of the frame (R163). -/
def FrameInfo.rows (f : FrameInfo) : Nat := codedHeight f.height / 16

/-- The marker of a record of form `form` (R160). -/
def recMarker (form : Nat) (rowStart : Bool) : List Nat := [0xFF, 0xF2 + 2 * form + b2n rowStart]

/-- The segment of a code-block kept to `k` passes. -/
def BlockRec.seg (b : BlockRec) (k : Nat) : List Nat := if k = 0 then [] else ((b.segs.find? (·.1 = k)).map (·.2)).getD []

/-- The pass count of the whole code-block (R106). -/
def BlockRec.whole (b : BlockRec) : Nat := if b.planes = 0 then 0 else 2 * b.planes - 1

/-- One entry of the code-block table (R168). -/
def tableEntry (P kept len : Nat) : Nat := P % 32 + 32 * (kept % 64) + 2 ^ 11 * (len % 2 ^ 20)

/-- The bytes of a coded record in which code-block i keeps the passes of `kept` and carries that segment (R168). -/
def codedRecord (rowStart pred : Bool) (kept : List (Nat × Nat × List Nat)) : List Nat :=
  recMarker 0 rowStart ++ sealBlock (b2n pred :: kept.flatMap fun k => le 4 (tableEntry k.1 k.2.1 k.2.2.length)) ++
    kept.flatMap (·.2.2)

/-- The bytes of a record with every code-block whole (R168, R170). -/
def TsRec.bytes (r : TsRec) (rowStart : Bool) : List Nat :=
  match r.form with
  | 0 => codedRecord rowStart r.pred (r.blocks.map fun b => (b.planes, b.whole, b.seg b.whole))
  | 1 => recMarker 1 rowStart ++ r.seg
  | 3 => recMarker 0 rowStart ++ r.seg
  | _ => recMarker 2 rowStart

/-- The bytes a record adds to the fixed part F of a frame that has a decision (R145). -/
def TsRec.fixedSize (mono temporal : Bool) (r : TsRec) : Nat :=
  match r.form with
  | 0 => recordOverhead mono +
      (if temporal then (r.blocks.zipIdx.filter (·.2 % 8 ≤ 1)).foldl (fun a b => a + (b.1.seg b.1.whole).length) 0 else 0)
  | 1 => 2 + r.seg.length
  | 3 => 2 + r.seg.length
  | _ => 2

/-- Truncation of one code-block under a descriptor (R150, R185): the entry kept and the quota that remains. A segment
whose length is not L_k is emitted with KEPT 0. The last component reports that failure. -/
def BlockRec.admitted (b : BlockRec) (lim quota : Nat) : (Nat × Nat × List Nat) × Nat × Bool :=
  match b.hull with
  | [] => ((b.planes, b.whole, b.seg b.whole), quota, false)
  | (k0, _, _) :: _ =>
    let (k, q) := admitSteps lim k0 quota (hullSteps b.hull)
    let l := ((b.hull.find? (·.1 = k)).map (·.2.1)).getD 0
    if (b.seg k).length = l then ((b.planes, k, b.seg k), q, false) else ((b.planes, 0, []), q, true)

/-- The queued form of a code-block with values `v` (R141, R142): with its hull when it is truncatable, else whole. -/
def blockRec (trunc : Bool) (shift : Nat) (v : List (List Int)) (cb : CodedBlock) : BlockRec :=
  let n := 2 * cb.planes - 1
  let whole := (n, cb.segs.getD (n - 1) [])
  if cb.planes = 0 then ⟨0, [], if trunc then [(0, 0, 0)] else []⟩
  else if trunc then
    let e0 := sumSq v
    let h := hull cb.planes (cb.segs.map (·.length)) (cb.values.map fun u => dist shift e0 (errSq v u)) cb.tails
    let keep := (h.map (·.1)).filter fun k => decide (0 < k ∧ k < n)
    ⟨cb.planes, keep.map (fun k => (k, cb.segs.getD (k - 1) [])) ++ [whole], h⟩
  else ⟨cb.planes, [whole], []⟩

/-- All code-blocks of a record under a descriptor, in order (R150): entries kept, quota left, failures. -/
def admitBlocks (lim : Nat) : Nat → List BlockRec → List (Nat × Nat × List Nat) × Nat × Nat
  | q, [] => ([], q, 0)
  | q, b :: t =>
    let (e, q1, bad) := b.admitted lim q
    let (es, q2, n) := admitBlocks lim q1 t
    (e :: es, q2, n + b2n bad)

/-- A MET segment (R172). -/
def metSegment (kind : Nat) (payload : List Nat) : List Nat :=
  [0xFF, 0xF1] ++ sealBlock ([kind, 0, 0, 0] ++ le 4 payload.length) ++ stuff payload

/-- IDX and the frame index (R174). -/
def indexPart (offs : List Nat) : List Nat := [0xFF, 0xF8] ++ sealBlock (offs.flatMap (le 4))

/-- The status map (R176): 2 bits a tile-stripe, in order. -/
def statusMap : List Nat → List Nat
  | [] => []
  | [a] => [a % 4]
  | [a, b] => [a % 4 + 4 * (b % 4)]
  | [a, b, c] => [a % 4 + 4 * (b % 4) + 16 * (c % 4)]
  | a :: b :: c :: d :: t => (a % 4 + 4 * (b % 4) + 16 * (c % 4) + 64 * (d % 4)) :: statusMap t

/-- The raw closing header up to its status map (R175): `len` is the length of the frame's bytes before it. -/
def closingRaw (len epoch cflags lim filler rows : Nat) (status : List Nat) : List Nat :=
  let m := statusMap status
  le 4 epoch ++ le 2 cflags ++ [0, 0] ++ le 2 lim ++ [0, 0] ++ le 4 (len + 2 + sealedLen (28 + m.length) + filler) ++ le 4 filler ++
    le 2 rows ++ [0, 0] ++ m

/-- FRAME_CRC (R177). -/
def frameCrc (soFar raw : List Nat) : Nat := crc32c (soFar ++ [0xFF, 0xF9] ++ raw)

/-- The closing header and the filler that follow `soFar`, the frame's bytes up to there (R175, R177, R178). -/
def closingPart (soFar raw : List Nat) (filler : Nat) : List Nat :=
  [0xFF, 0xF9] ++ sealBlock (raw ++ le 4 (frameCrc soFar raw)) ++
    (if filler = 0 then [] else [0xFF, 0xFA] ++ List.replicate (filler - 2) 0)

/-- The length of CLS and the closing header of a frame of `r` rows and `n` columns (R175). -/
def closingLen (r n : Nat) : Nat := 2 + sealedLen (28 + ceilDiv (2 * r * n) 8)

/-- A dropped-frame record (R179). -/
def droppedRecord (epoch clipFrame beaconTime reason : Nat) : List Nat :=
  [0xFF, 0xFB] ++ sealBlock (le 4 epoch ++ le 4 clipFrame ++ le 8 beaconTime ++ [reason % 256, 0, 0, 0])

/-- The sensor metadata payload of KIND 0x01 (R173): each packet preceded by its length. -/
def sensorPayload (packets : List (List Nat)) : List Nat := packets.flatMap fun p => le 2 p.length ++ p

/-- The header and metadata bytes of F: everything but the records (R145). -/
def fixedFrame (f : FrameInfo) (metas : List (List Nat)) : Nat :=
  f.opening.length + metas.foldl (fun a m => a + m.length) 0 +
    (if f.index then 2 + sealedLen (4 * f.rows) else 0) + closingLen f.rows f.cols.length

end Sys2Proof.Machine
end

