-- ==== Sys2Proof/Machine/Decoder.lean ====
section
/-! DEFINITION. Decoding (R186 to R199): parsing a frame unit, decoding its records, concealment, the decode report and
what a reader does with malformed input. -/

namespace Sys2Proof.Machine

/-- The parts of a stream: marker code and the bytes up to the next marker; bytes before the first marker are ignored
(R161, R198). A reserved marker 0xFC to 0xFF and its bytes form no part. -/
def splitParts : List Nat → List (Nat × List Nat)
  | 0xFF :: m :: t =>
    if m ≥ 0xF0 then (m, []) :: splitParts t
    else
      match splitParts (m :: t) with
      | (0, c) :: ps => (0, 0xFF :: c) :: ps
      | ps => (0, [0xFF]) :: ps
  | b :: t =>
    match splitParts t with
    | (0, c) :: ps => (0, b :: c) :: ps
    | ps => (0, [b]) :: ps
  | [] => []

/-- Join each marker with the bytes that follow it. -/
def joinParts : List (Nat × List Nat) → List (Nat × List Nat)
  | (m, _) :: (0, c) :: t => if m = 0 then joinParts ((0, c) :: t) else (m, c) :: joinParts t
  | (m, _) :: t => if m = 0 then joinParts t else (m, []) :: joinParts t
  | [] => []

/-- The parts of a frame unit, reserved markers left out. -/
def unitParts (l : List Nat) : List (Nat × List Nat) := (joinParts (splitParts l)).filter (·.1 < 0xFC)

/-- The opening header of a raw block (R164), before its checks. -/
def parseHeader (r : List Nat) : FrameInfo :=
  let fl := r.getD 1 0
  let n := r.getD 8 0
  { epoch := rdLe r 10 4, clipFrame := rdLe r 14 4, beaconTime := rdLe r 18 8, timeQ := r.getD 26 0,
    subframe := r.getD 27 0, timecode := rdLe r 28 4, rateNum := rdLe r 32 4, rateDen := rdLe r 36 2,
    target := rdLe r 38 4, mode := fl % 4, temporal := bitAt fl 2 == 1, verify := bitAt fl 3 == 1,
    verifyF := bitAt fl 7 == 1, ganged := bitAt fl 4 == 1, mono := bitAt fl 5 == 1, index := bitAt fl 6 == 1,
    depth := r.getD 2 0, cfa := r.getD 3 0, width := rdLe r 4 2, height := rdLe r 6 2,
    cols := (List.range n).map fun c =>
      let e := rdLe r (44 + 2 * c) 2
      (e % 32, e / 32 % 4, e / 128 % 4, e / 512 % 4, bitAt e 11 == 1, bitAt e 12 == 1) }

/-- A CFA code with exactly one R, two G and one B (R88). -/
def cfaOk (cfa : Nat) : Bool :=
  (sitesOf cfa 0).length == 1 && (sitesOf cfa 1).length == 2 && (sitesOf cfa 2).length == 1

/-- Width, height and depth within R87. -/
def rasterOk (w h d : Nat) : Bool :=
  decide (2048 ≤ w ∧ w ≤ 16384 ∧ w % 64 = 0) && (h == 1080 || decide (1088 ≤ h ∧ h ≤ 8640 ∧ h % 16 = 0)) &&
    [10, 12, 14, 16].contains d

/-- A stream's width may be a whole ganged frame, twice R87's, and a multiple of 128 (R31, R87). -/
def streamWidthOk (ganged : Bool) (w : Nat) : Bool :=
  if ganged then decide (4096 ≤ w ∧ w ≤ 32768 ∧ w % 128 = 0) else decide (2048 ≤ w ∧ w ≤ 16384 ∧ w % 64 = 0)

/-- The checks of an opening header (R164, R166, R198). -/
def FrameInfo.valid (f : FrameInfo) : Bool :=
  let n := f.cols.length
  f.mode != 3 && [10, 12, 14, 16].contains f.depth && (f.mono || cfaOk f.cfa) && streamWidthOk f.ganged f.width &&
    (f.height == 1080 || decide (1088 ≤ f.height ∧ f.height ≤ 8640 ∧ f.height % 16 = 0)) && decide (1 ≤ n ∧ n ≤ 128) &&
    f.cols.all (fun c => decide (4 ≤ c.1 ∧ c.1 ≤ 16)) && f.cols.foldl (fun a c => a + c.1) 0 * 32 == f.width &&
    (if f.ganged then n % 2 == 0 && f.cols.zipIdx.all (fun c => c.1.2.2.2.2.2 == decide (n / 2 ≤ c.2))
     else f.cols.all (fun c => c.2.2.2.2.2 == false))

/-- The first pixel of column `c` (R166). -/
def FrameInfo.colStart (f : FrameInfo) (c : Nat) : Nat := 32 * (f.cols.take c).foldl (fun a x => a + x.1) 0

/-- The width of column `c` in pixels. -/
def FrameInfo.colWidth (f : FrameInfo) (c : Nat) : Nat := 32 * (f.cols.getD c (0, 0, 0, 0, false, false)).1

/-- A reference (R187): LL3 and HL3 of every component of a tile-stripe decoded from a valid coded record, by its row,
first pixel and width, and whether both are whole. -/
structure Ref where
  row : Nat
  x0 : Nat
  w : Nat
  whole : Bool
  vals : List (List (List Int))
  deriving DecidableEq, Repr

/-- What became of one tile-stripe. One that cannot be decoded is malformed (R133), or lacks its reference (R192), or both. -/
inductive TileResult where
  | decoded (lines : List (List Nat)) (ref : Option Ref) (truncated : Bool)
  | failed (malformed refMissing : Bool)
  | lost
  | missing
  deriving DecidableEq, Repr

/-- What a reader knows of the previous frame (R124): nothing, that it was not recorded, or its columns (first pixel, width) and the
tile-stripes (row, first pixel) recorded as escape stripes or as lost. -/
inductive Past where
  | unknown
  | unrecorded
  | tiles (cols bad : List (Nat × Nat))
  deriving DecidableEq, Repr

/-- R124 items 1 and 2 forbid the prediction of a tile-stripe. -/
def Past.forbids (p : Past) (row x0 w : Nat) : Bool :=
  match p with
  | .unknown => false
  | .unrecorded => true
  | .tiles cols bad => !cols.contains (x0, w) || bad.contains (row, x0)

/-- The entries of a code-block table (R168): P, KEPT, LEN. -/
def parseTable (r : List Nat) (c : Nat) : List (Nat × Nat × Nat) :=
  (List.range c).map fun b =>
    let e := rdLe r (1 + 4 * b) 4
    (e % 32, e / 32 % 64, e / 2 ^ 11 % 2 ^ 20)

/-- The validity of a code-block table (R169). -/
def tableOk (t : List (Nat × Nat × Nat)) : Bool :=
  t.all fun e => decide (e.1 ≤ 21) && (if e.1 = 0 then e.2.1 == 0 else decide (e.2.1 ≤ 2 * e.1 - 1)) &&
    (e.2.1 != 0 || e.2.2 == 0)

/-- Cut a byte string into pieces of the given lengths. -/
def cutBy : List Nat → List Nat → List (List Nat)
  | [], _ => []
  | n :: t, l => l.take n :: cutBy t (l.drop n)

/-- Add two arrays. -/
def addArr (a b : List (List Int)) : List (List Int) := (a.zip b).map fun p => (p.1.zip p.2).map fun q => q.1 + q.2

/-- A coded record's bytes after the marker, parsed (R168): PRED, the table, and the segment of every code-block; none when the sealed
table cannot be read. -/
def parseCoded (c : Nat) (l : List Nat) : Option (Bool × List (Nat × Nat × Nat) × List Nat) :=
  (openSeal (1 + 4 * c) l).map fun r => (r.getD 0 0 % 2 == 1, parseTable r c, l.drop (sealedLen (1 + 4 * c)))

/-- The values and the bins of every code-block of a parsed record; none for a code-block whose segment breaks R121. -/
def decodeBlocks (mono : Bool) (w : Nat) (t : List (Nat × Nat × Nat)) (segs : List Nat) : List (Option (List (List Int) × Nat)) :=
  ((t.zip (cutBy (t.map (·.2.2)) segs)).zipIdx).map fun p =>
    let (h, bw) := bandSize mono w (p.2 % 8)
    decodeBlockBins h bw (bandOrient (p.2 % 8)) p.1.1.1 p.1.1.2.1 p.1.2

/-- The values of a predicted tile-stripe (R128): the reference is added in bands 0 and 1. -/
def addRef (ref : Ref) (vals : List (List (List Int))) : List (List (List Int)) :=
  vals.zipIdx.map fun v => if v.2 % 8 ≤ 1 then addArr v.1 (ref.vals.getD (2 * (v.2 / 8) + v.2 % 8) []) else v.1

/-- The samples before clipping of a tile-stripe with these values (R101, R98, R99). -/
def samplesOf (mono : Bool) (cfa d w : Nat) (vals : List (List (List Int))) : List (List Int) :=
  rawSamples mono cfa d w ((List.range (blockCount mono / 8)).map fun k => unbands ((vals.drop (8 * k)).take 8))

/-- Decode a coded record's bytes after the marker (R168, R186, R133). `ref` is its reference, `forbidden` says that R124 forbids its
prediction. The table, the segments and the prediction are all judged, whatever the others give. -/
def decodeCoded (f : FrameInfo) (w row x0 : Nat) (ref : Option Ref) (forbidden : Bool) (l : List Nat) : TileResult :=
  match parseCoded (blockCount f.mono) l with
  | none => .failed true false
  | some (pred, t, segs) =>
    let badTable := !tableOk t || t.foldl (fun a e => a + e.2.2) 0 != segs.length || (pred && !f.temporal)
    let badPred := pred && (forbidden || ref.any (!·.whole))
    let noRef := pred && f.temporal && ref.isNone
    let dec := decodeBlocks f.mono w t segs
    if badTable || badPred || dec.any (·.isNone) then .failed true noRef
    else if noRef then .failed false true
    else
      let vals := dec.map fun b => (b.map (·.1)).getD []
      let vals := match ref with | some r => if pred then addRef r vals else vals | none => vals
      let raw := samplesOf f.mono f.cfa f.depth w vals
      let whole := t.all fun e => e.1 == 0 || e.2.1 == 2 * e.1 - 1
      if whole && raw.any (·.any fun v => decide (v < 0 ∨ v ≥ 2 ^ f.depth)) then .failed true false
      else
        let refWhole := t.zipIdx.all fun e => decide (2 ≤ e.2 % 8) || e.1.1 == 0 || e.1.2.1 == 2 * e.1.1 - 1
        let ref' : Ref := ⟨row, x0, w, refWhole, (vals.zipIdx.filter (·.2 % 8 ≤ 1)).map (·.1)⟩
        .decoded (raw.map (·.map (clipSample f.depth))) (some ref') (!whole)

/-- Decode one record: its marker code and bytes (R186). -/
def decodeRecord (f : FrameInfo) (refs : List Ref) (past : Past) (row col : Nat) (m : Nat) (l : List Nat) : TileResult :=
  let w := f.colWidth col
  let x0 := f.colStart col
  if m / 2 = 0xF2 / 2 then
    decodeCoded f w row x0 (refs.find? fun r => r.row == row && r.x0 == x0 && r.w == w) (past.forbids row x0 w) l
  else if m / 2 = 0xF4 / 2 then
    match escapeSamples f.depth w l with
    | none => .failed true false
    | some s => .decoded s none false
  else .lost

/-- Place the records of a frame at their rows and columns (R198): (row, column, marker, bytes). The first record opens
row 0; a row-start record opens the next row; without one, a full row is followed by column 0 of the next. -/
def placeRecords (n rows : Nat) : List (Nat × List Nat) → Nat → Nat → Bool → List (Nat × Nat × Nat × List Nat)
  | [], _, _, _ => []
  | (m, c) :: t, row, col, first =>
    let (row, col) := if first then (0, 0) else if m % 2 = 1 then (if col = 0 then (row, 0) else (row + 1, 0)) else (row, col)
    let rest := if col + 1 = n then placeRecords n rows t (row + 1) 0 false else placeRecords n rows t row (col + 1) false
    if row < rows then (row, col, m, c) :: rest else rest

/-- The record parts of a frame: those before the first MET, IDX, CLS or FIL part (R198). -/
def recordParts (ps : List (Nat × List Nat)) : List (Nat × List Nat) := ps.takeWhile fun p => decide (0xF2 ≤ p.1 ∧ p.1 ≤ 0xF7)

/-- A decoded picture: its format, its coded lines, and the tile-stripes concealed in it, (row, x0, width). -/
structure Picture where
  width : Nat
  height : Nat
  depth : Nat
  mono : Bool
  cfa : Nat
  lines : List (List Nat)
  concealed : List (Nat × Nat × Nat)
  deriving DecidableEq, Repr

/-- The picture has the format of frame `f`. -/
def Picture.sameFormat (p : Picture) (f : FrameInfo) : Bool :=
  p.width == f.width && p.height == f.height && p.depth == f.depth && p.mono == f.mono && p.cfa == f.cfa

/-- What a decode job carries from unit to unit (R187, R197, R198). -/
structure DecodeCtx where
  refs : List Ref
  past : Past
  prev : Option Picture
  lastHeader : Option FrameInfo
  expect : Option Nat
  deriving DecidableEq, Repr

/-- A decode report (R191) before it is laid out. -/
structure Report where
  epoch : Nat
  clipFrame : Nat
  beaconTime : Nat
  status : Nat
  concealed : Nat
  malformed : Nat
  lost : Nat
  timecode : Nat
  subframe : Nat
  timeQ : Nat
  deriving DecidableEq, Repr

/-- The 32 bytes of a decode report (R191). -/
def Report.bytes (r : Report) : List Nat :=
  le 4 r.epoch ++ le 4 r.clipFrame ++ le 8 r.beaconTime ++ le 2 r.status ++ le 2 (min r.concealed 0xFFFF) ++
    le 2 (min r.malformed 0xFFFF) ++ le 2 (min r.lost 0xFFFF) ++ le 4 r.timecode ++ [r.subframe % 256, r.timeQ % 256, 0, 0]

/-- The 16 lines of a tile-stripe cut from a picture's lines. -/
def cutTile (lines : List (List Nat)) (row x0 w : Nat) : List (List Nat) :=
  (List.range 16).map fun y => ((lines.getD (16 * row + y) []).drop x0).take w

/-- Two tile-stripes of one row overlap. -/
def overlaps (a b : Nat × Nat × Nat) : Bool := a.1 == b.1 && decide (a.2.1 < b.2.1 + b.2.2 ∧ b.2.1 < a.2.1 + a.2.2)

/-- Temporal concealment (R194). -/
def concealTemporal (prev : Option Picture) (f : FrameInfo) (row x0 w : Nat) : Option (List (List Nat)) :=
  match prev with
  | none => none
  | some p =>
    if p.sameFormat f && !(p.concealed.any (overlaps (row, x0, w))) then some (cutTile p.lines row x0 w) else none

/-- Spatial concealment (R195) from the lines of the tile-stripes decoded at the rows above and below. -/
def concealSpatial (above below : Option (List (List Nat))) (w : Nat) : Option (List (List Nat)) :=
  match above, below with
  | none, none => none
  | some a, none => some ((List.range 16).map fun y => (List.range w).map fun x => sampleAt a (14 + y % 2) x)
  | none, some b => some ((List.range 16).map fun y => (List.range w).map fun x => sampleAt b (y % 2) x)
  | some a, some b =>
    some ((List.range 16).map fun y => (List.range w).map fun x =>
      (sampleAt a (14 + y % 2) x * (16 + y % 2 - y) + sampleAt b (y % 2) x * (y + 2 - y % 2) + 9) / 18)

/-- Flat concealment (R196). -/
def concealFlat (d w : Nat) : List (List Nat) := (List.range 16).map fun _ => List.replicate w (2 ^ (d - 1))

/-- Concealment of a tile-stripe by the methods of mode `mode` in order (R193). -/
def conceal (mode : Nat) (prev : Option Picture) (f : FrameInfo) (res : Nat → Nat → TileResult) (row c : Nat) :
    List (List Nat) :=
  let w := f.colWidth c
  let near := fun (r : Option Nat) => r.bind fun r =>
    if r < f.rows then (match res r c with | .decoded l _ _ => some l | _ => none) else none
  let t := if mode = 0 then concealTemporal prev f row (f.colStart c) w else none
  let s := if mode ≤ 1 then concealSpatial (near (if row = 0 then none else some (row - 1))) (near (some (row + 1))) w
    else none
  (t.orElse fun _ => s).getD (concealFlat f.depth w)

/-- What one frame unit gives: the picture (none when none is written), the report, the metadata payloads delivered
(kind, bytes), the next context. -/
structure UnitResult where
  pic : Option Picture
  report : Report
  metas : List (Nat × List Nat)
  ctx : DecodeCtx
  deriving DecidableEq, Repr

/-- The closing header of a frame, or none when it is missing, malformed or of another epoch (R198). -/
def parseClosing (f : FrameInfo) (ps : List (Nat × List Nat)) : Option (List Nat) :=
  match ps.find? (·.1 = 0xF9) with
  | none => none
  | some (_, c) =>
    match openSeal (28 + ceilDiv (2 * f.rows * f.cols.length) 8) c with
    | none => none
    | some r => if rdLe r 0 4 = f.epoch then some r else none

/-- The stream from its first FRM or DRP marker on (R198). -/
def fromUnit : List Nat → List Nat
  | 0xFF :: m :: t => if m = 0xF0 ∨ m = 0xFB then 0xFF :: m :: t else if m ≥ 0xF0 then fromUnit t else fromUnit (m :: t)
  | _ :: t => fromUnit t
  | [] => []

/-- The stream bytes before its first CLS marker, whatever parts they form (R177). -/
def beforeClosing : List Nat → List Nat
  | 0xFF :: m :: t => if m = 0xF9 then [] else if m ≥ 0xF0 then 0xFF :: m :: beforeClosing t else 0xFF :: beforeClosing (m :: t)
  | b :: t => b :: beforeClosing t
  | [] => []

/-- A valid audio payload (R173). -/
def audioOk (p : List Nat) : Bool :=
  let ch := p.getD 0 0
  let n := rdLe p 8 4
  decide (1 ≤ ch ∧ ch ≤ 16) && p.getD 1 0 == 24 && [48000, 96000].contains (rdLe p 4 4) && p.length == 12 + 3 * ch * n

/-- The metadata payloads a reader delivers (R172, R173, R198): the first MET of each known KIND, whole. -/
def deliverMetas : List (Nat × List Nat) → List Nat → List (Nat × List Nat)
  | [], _ => []
  | (m, c) :: t, seen =>
    if m ≠ 0xF1 then deliverMetas t seen
    else
      match openSeal 8 c with
      | none => deliverMetas t seen
      | some r =>
        let kind := r.getD 0 0
        let len := rdLe r 4 4
        if !([1, 2, 3].contains kind) || seen.contains kind then deliverMetas t seen
        else
          match destuff (c.drop (sealedLen 8)) with
          | none => deliverMetas t (kind :: seen)
          | some p =>
            if p.length < len || (kind == 2 && !audioOk (p.take len)) then deliverMetas t (kind :: seen)
            else (kind, p.take len) :: deliverMetas t (kind :: seen)

/-- A whole concealed frame (R197): the previous picture repeated, or the flat picture at the last valid header's format,
or none. -/
def wholeConcealed (ctx : DecodeCtx) : Option Picture :=
  match ctx.prev, ctx.lastHeader with
  | some p, _ =>
    some { p with concealed := (List.range (codedHeight p.height / 16)).map fun j => (j, 0, p.width) }
  | none, some f =>
    some ⟨f.width, f.height, f.depth, f.mono, f.cfa,
      (List.range (codedHeight f.height)).map (fun _ => List.replicate f.width (2 ^ (f.depth - 1))),
      (List.range f.rows).map fun j => (j, 0, f.width)⟩
  | none, none => none

/-- The unit that conceals a whole frame (R197, R490) with these report fields and status bits, of which `past` is known. Nothing of
such a frame is delivered: the frame is malformed or skipped whole (R198). -/
def concealUnit (ctx : DecodeCtx) (epoch clipFrame beaconTime status : Nat) (past : Past) : UnitResult :=
  let p := wholeConcealed ctx
  let n := match p, ctx.lastHeader with | some _, some f => f.rows * f.cols.length | _, _ => 0
  ⟨p, ⟨epoch, clipFrame, beaconTime, status + 2, n, 0, 0, 0, 0, 0⟩, [],
    { ctx with refs := [], past := past, prev := p, expect := some ((clipFrame + 1) % 2 ^ 32) }⟩

/-- The number of results that satisfy `p`. -/
def countTiles (rs : List (Nat × Nat × TileResult)) (p : TileResult → Bool) : Nat := (rs.filter fun r => p r.2.2).length

/-- Decode a frame whose opening header is valid (R186): its bytes from FRM on, and its parts. -/
def decodeFrame (ctx : DecodeCtx) (mode : Nat) (f : FrameInfo) (index : Nat) (unit : List Nat) (ps : List (Nat × List Nat)) :
    UnitResult :=
  let n := f.cols.length
  let same := match ctx.lastHeader with
    | some g => g.width == f.width && g.height == f.height && g.depth == f.depth && g.mono == f.mono && g.cfa == f.cfa
    | none => false
  let refs := if same then ctx.refs else []
  let past := match ctx.past with | .tiles _ _ => if same then ctx.past else .unrecorded | p => p
  let placed := placeRecords n f.rows (recordParts (ps.drop 1)) 0 0 true
  let res := placed.map fun p => (p.1, p.2.1, decodeRecord f refs past p.1 p.2.1 p.2.2.1 p.2.2.2)
  let get := fun r c => ((res.find? fun x => x.1 == r && x.2.1 == c).map (·.2.2)).getD .missing
  let all := (List.range f.rows).flatMap fun r => (List.range n).map fun c => (r, c, get r c)
  let isDec := fun (t : TileResult) => match t with | .decoded _ _ _ => true | _ => false
  let tile := fun r c => match get r c with | .decoded l _ _ => l | _ => conceal mode ctx.prev f get r c
  let lines := (List.range f.rows).flatMap fun r =>
    let ts := (List.range n).map fun c => tile r c
    (List.range 16).map fun y => ts.flatMap fun t => t.getD y []
  let conc := (all.filter fun x => !isDec x.2.2).map fun x => (x.1, f.colStart x.2.1, f.colWidth x.2.1)
  let cl := parseClosing f ps
  let raw := cl.getD []
  let m := ceilDiv (2 * f.rows * n) 8
  let code := fun i => raw.getD (24 + i / 4) 0 / 4 ^ (i % 4) % 4
  let codes := if cl.isSome then (List.range (f.rows * n)).map code else []
  let crcBad := cl.isSome && crc32c (beforeClosing unit ++ [0xFF, 0xF9] ++ raw.take (24 + m)) != rdLe raw (24 + m) 4
  let bit := fun (b : Bool) (k : Nat) => if b then 2 ^ k else 0
  let st := bit (all.any fun x => isDec x.2.2) 0 + bit (!conc.isEmpty) 1 + bit crcBad 4 + bit cl.isNone 5 +
    bit (all.any fun x => match x.2.2 with | .failed _ r => r | _ => false) 6 +
    bit (all.any fun x => match x.2.2 with | .decoded _ _ t => t | _ => false) 7 + bit (codes.contains 1) 8 +
    bit (codes.contains 3) 9 + bit (!f.verify || (f.ganged && !f.verifyF)) 10 + bit (cl.isSome && bitAt (rdLe raw 4 2) 1 == 1) 11
  let pic : Picture := ⟨f.width, f.height, f.depth, f.mono, f.cfa, lines, conc⟩
  ⟨some pic,
    ⟨f.epoch, index, f.beaconTime, st, conc.length, countTiles all (fun t => match t with | .failed m _ => m | _ => false), countTiles all (· == .lost),
      f.timecode, f.subframe, f.timeQ⟩,
    deliverMetas ps [],
    { refs := res.filterMap (fun x => match x.2.2 with | .decoded _ r _ => r | _ => none),
      past := .tiles ((List.range n).map fun c => (f.colStart c, f.colWidth c))
        ((placed.filter fun p => decide (0xF4 ≤ p.2.2.1)).map fun p => (p.1, f.colStart p.2.1)),
      prev := some pic, lastHeader := some f, expect := some ((f.clipFrame + 1) % 2 ^ 32) }⟩

/-- The unit that conceals a whole frame whose index cannot be read (R490): that of its slot, or the one expected; a first
unit without either has 0, and the next is not checked. -/
def concealUnknown (ctx : DecodeCtx) (slot : Option Nat) (status : Nat) : UnitResult :=
  let u := concealUnit ctx 0 (slot.getD (ctx.expect.getD 0)) 0 status .unknown
  if slot.isNone && ctx.expect.isNone then { u with ctx := { u.ctx with expect := none } } else u

/-- Decode one frame unit (R186, R191, R197, R198). `slot` is the clip frame index of the slot it was read from, for
SOURCE 0 (R490). -/
def decodeUnit (ctx : DecodeCtx) (mode : Nat) (slot : Option Nat) (unit : List Nat) : UnitResult :=
  let ps := unitParts (fromUnit unit)
  match ps with
  | [] => concealUnknown ctx slot 8
  | (m, c) :: _ =>
    if m = 0xFB then
      match openSeal 20 c with
      | none => concealUnknown ctx slot 4
      | some r => concealUnit ctx (rdLe r 0 4) (slot.getD (rdLe r 4 4)) (rdLe r 8 8) 4 .unrecorded
    else
      match openSeal 44 c with
      | none => concealUnknown ctx slot 8
      | some r0 =>
        if r0.getD 0 0 ≠ 1 then concealUnknown ctx slot (2 ^ 12)
        else
          match openSeal (44 + 2 * r0.getD 8 0) c with
          | none => concealUnknown ctx slot 8
          | some r =>
            let f := parseHeader r
            if f.valid then
              let index := slot.getD f.clipFrame
              let back := match ctx.expect with
                | some e => !(later index ((e + 2 ^ 32 - 1) % 2 ^ 32))
                | none => false
              let gap := match ctx.expect with | some e => e != index | none => false
              let ctx := if back || gap then { ctx with refs := [], past := .unknown } else ctx
              let u := decodeFrame ctx mode f index (fromUnit unit) ps
              { u with ctx := { u.ctx with expect := some ((index + 1) % 2 ^ 32) } }
            else concealUnknown ctx slot 8

/-- The clip frame indices missing before a unit with index `i` (R198). -/
def missingBefore (ctx : DecodeCtx) (i : Nat) : List Nat :=
  match ctx.expect with
  | none => []
  | some e => if later i e then (List.range ((i + 2 ^ 32 - e) % 2 ^ 32)).map fun k => (e + k) % 2 ^ 32 else []

/-- The clip frame index that a unit's own header or dropped-frame record carries, when it can be read (R490). -/
def unitIndex (unit : List Nat) : Option Nat :=
  match unitParts (fromUnit unit) with
  | [] => none
  | (m, c) :: _ =>
    if m = 0xFB then (openSeal 20 c).map fun r => rdLe r 4 4
    else
      match openSeal 44 c with
      | none => none
      | some r0 =>
        if r0.getD 0 0 ≠ 1 then none
        else
          match openSeal (44 + 2 * r0.getD 8 0) c with
          | none => none
          | some r => if (parseHeader r).valid then some (parseHeader r).clipFrame else none

end Sys2Proof.Machine
end

