-- ==== Sys2Proof/Machine/Registers.lean ====
section
/-! DEFINITION. The register tables of the chapters: for every register its BAR0 offset (R37, R38), its array strides,
its reset value (R10) and its fields with their access codes (R9); and a name for every field of the tables. Reserved
bits have no entry: they read 0 and ignore writes (R8). -/

namespace Sys2Proof.Machine

/-- The access codes of R9. -/
inductive Access where
  | ro
  | rw
  | rwb
  | rwh
  | w1c
  | w1s
  | wo
  deriving DecidableEq, Repr

/-- One field of a register table: its low bit, its width, its access code. -/
structure RegField where
  lo : Nat
  width : Nat
  acc : Access
  deriving DecidableEq, Repr

/-- One register of a register table. A register of an array has `n1` copies `s1` bytes apart, and those `n2` copies
`s2` bytes apart. A 64-bit quantity has `wide` set and occupies two words, the low word first (R6). -/
structure RegSpec where
  off : Nat
  wide : Bool
  s1 : Nat
  n1 : Nat
  s2 : Nat
  n2 : Nat
  reset : Nat → Nat → Nat
  fields : List RegField

/-- A field by name: the BAR0 offset of its register, its low bit and its width. A field that reaches above bit 31
lies in a 64-bit quantity. -/
structure Fld where
  off : Nat
  lo : Nat
  width : Nat
  deriving DecidableEq, Repr

/-- The in-service class of fault source `n` (R416): 0 corrected, 1 contained, 2 fatal. The class of the sources 0xF0
to 0xFF is as raised; the phase table says so itself, and 0 stands here (R417). -/
def faultClass (n : Nat) : Nat :=
  if [0x00, 0x03, 0x2B, 0x3A, 0x57].contains n then 2
  else if [0x04, 0x05, 0x08, 0x11, 0x19, 0x1A, 0x20, 0x21, 0x23, 0x29, 0x2A, 0x30, 0x32, 0x33, 0x39, 0x41, 0x48, 0x55,
    0x56].contains n then 1
  else 0

/-- The reset value of `FC_BELL_MASKn` (R423): 1 for each source of class contained or fatal. -/
def bellMaskReset (n : Nat) : Nat :=
  (List.range 32).foldl (fun a b => if faultClass (32 * n + b) = 0 then a else a + 2 ^ b) 0

/-- The default sense of wired source `n` (R435, coded as R437): 01 rising for the pulse sources, else 00 level. -/
def icuSenseReset (n : Nat) : Nat :=
  if [1, 2, 3, 4, 24, 25, 28, 29, 32, 33, 34, 35, 48, 49].contains n then 1 else 0

/-- The default costs of R405 in mW. -/
def keeperCost (n : Nat) : Nat :=
  [800, 700, 70, 500, 1000, 250, 2300, 400, 1000, 45, 28, 15, 25, 16, 9, 600, 350].getD n 0

/-- The default class of flow `f` (R345). -/
def flowClassReset (f : Nat) : Nat :=
  if f ≤ 1 then 5 else if f = 2 then 7 else if f = 3 then 4 else 0

/-- The registers of the BU block. -/
def regTableBU : List RegSpec := [
  /- BU_CTRL -/ ⟨0x0, false, 1, 1, 1, 1, fun _ _ => 0, [⟨0, 1, .rw⟩, ⟨1, 2, .rwb⟩, ⟨3, 1, .rw⟩, ⟨4, 1, .rw⟩]⟩,
  /- BU_STATUS -/ ⟨0x4, false, 1, 1, 1, 1, fun _ _ => 0, [⟨0, 1, .ro⟩, ⟨1, 2, .ro⟩, ⟨3, 1, .ro⟩, ⟨4, 1, .ro⟩, ⟨5, 1, .ro⟩, ⟨6, 1, .ro⟩]⟩,
  /- BU_RATE_NUM -/ ⟨0x8, false, 1, 1, 1, 1, fun _ _ => 0x18, [⟨0, 32, .rwb⟩]⟩,
  /- BU_RATE_DEN -/ ⟨0xC, false, 1, 1, 1, 1, fun _ _ => 1, [⟨0, 16, .rwb⟩]⟩,
  /- BU_PHASE -/ ⟨0x10, false, 1, 1, 1, 1, fun _ _ => 0, [⟨0, 32, .rwb⟩]⟩,
  /- BU_IN_WIN -/ ⟨0x14, false, 1, 1, 1, 1, fun _ _ => 0, [⟨0, 24, .rwb⟩]⟩,
  /- BU_OUT_WIDTH -/ ⟨0x18, false, 1, 1, 1, 1, fun _ _ => 4, [⟨0, 8, .rw⟩]⟩,
  /- BU_MISS_LIMIT -/ ⟨0x1C, false, 1, 1, 1, 1, fun _ _ => 8, [⟨0, 8, .rw⟩]⟩,
  /- BU_FRAME_EPOCH -/ ⟨0x20, false, 1, 1, 1, 1, fun _ _ => 0, [⟨0, 32, .ro⟩]⟩,
  /- BU_EPOCH_PRESET -/ ⟨0x24, false, 1, 1, 1, 1, fun _ _ => 0, [⟨0, 32, .rwh⟩]⟩,
  /- BU_SHADOW_EPOCH -/ ⟨0x28, false, 1, 1, 1, 1, fun _ _ => 1, [⟨0, 32, .ro⟩]⟩,
  /- BU_LAST_WR_EPOCH_HOST -/ ⟨0x2C, false, 1, 1, 1, 1, fun _ _ => 0, [⟨0, 32, .ro⟩]⟩,
  /- BU_LAST_WR_EPOCH_MGC -/ ⟨0x30, false, 1, 1, 1, 1, fun _ _ => 0, [⟨0, 32, .ro⟩]⟩,
  /- BU_BEACON_TIME -/ ⟨0x34, true, 1, 1, 1, 1, fun _ _ => 0, [⟨0, 64, .ro⟩]⟩,
  /- BU_CMD -/ ⟨0x3C, false, 1, 1, 1, 1, fun _ _ => 0, [⟨0, 1, .wo⟩, ⟨1, 1, .wo⟩]⟩,
  /- BU_COUNTS -/ ⟨0x40, false, 1, 1, 1, 1, fun _ _ => 0, [⟨0, 16, .ro⟩, ⟨16, 16, .ro⟩]⟩,
  /- BU_COUNTS2 -/ ⟨0x44, false, 1, 1, 1, 1, fun _ _ => 0, [⟨0, 16, .ro⟩, ⟨16, 16, .ro⟩]⟩,
  /- BU_GANG -/ ⟨0x48, false, 1, 1, 1, 1, fun _ _ => 0, [⟨0, 16, .ro⟩, ⟨16, 16, .ro⟩]⟩]

/-- The registers of the TB block. -/
def regTableTB : List RegSpec := [
  /- TB_CTRL -/ ⟨0x40000, false, 1, 1, 1, 1, fun _ _ => 0, [⟨0, 2, .rw⟩]⟩,
  /- TB_QUALITY -/ ⟨0x40004, false, 1, 1, 1, 1, fun _ _ => 0, [⟨0, 3, .ro⟩]⟩,
  /- TB_DTC -/ ⟨0x40008, true, 1, 1, 1, 1, fun _ _ => 0, [⟨0, 64, .ro⟩]⟩,
  /- TB_SET -/ ⟨0x40010, true, 1, 1, 1, 1, fun _ _ => 0, [⟨0, 64, .rw⟩]⟩,
  /- TB_CMD -/ ⟨0x40018, false, 1, 1, 1, 1, fun _ _ => 0, [⟨0, 1, .wo⟩, ⟨1, 1, .wo⟩, ⟨2, 1, .wo⟩, ⟨3, 1, .wo⟩]⟩,
  /- TB_ADJ -/ ⟨0x4001C, false, 1, 1, 1, 1, fun _ _ => 0, [⟨0, 32, .rw⟩]⟩,
  /- TB_SLEEP_TICKS -/ ⟨0x40020, true, 1, 1, 1, 1, fun _ _ => 0, [⟨0, 48, .ro⟩]⟩,
  /- TB_LTC_CTRL -/ ⟨0x40030, false, 1, 1, 1, 1, fun _ _ => 0, [⟨0, 3, .rw⟩, ⟨3, 1, .rw⟩, ⟨4, 2, .rw⟩]⟩,
  /- TB_LTC_IN -/ ⟨0x40034, false, 1, 1, 1, 1, fun _ _ => 0, [⟨24, 8, .ro⟩, ⟨16, 8, .ro⟩, ⟨8, 8, .ro⟩, ⟨7, 1, .ro⟩, ⟨0, 6, .ro⟩]⟩,
  /- TB_LTC_BEACON -/ ⟨0x40038, false, 1, 1, 1, 1, fun _ _ => 0, [⟨24, 8, .ro⟩, ⟨16, 8, .ro⟩, ⟨8, 8, .ro⟩, ⟨7, 1, .ro⟩, ⟨0, 6, .ro⟩]⟩,
  /- TB_LTC_PRESET -/ ⟨0x4003C, false, 1, 1, 1, 1, fun _ _ => 0, [⟨24, 8, .rw⟩, ⟨16, 8, .rw⟩, ⟨8, 8, .rw⟩, ⟨7, 1, .rw⟩, ⟨0, 6, .rw⟩]⟩,
  /- TB_LTC_STAT -/ ⟨0x40040, false, 1, 1, 1, 1, fun _ _ => 0, [⟨0, 1, .ro⟩, ⟨1, 1, .ro⟩, ⟨2, 1, .ro⟩, ⟨8, 8, .ro⟩]⟩,
  /- TB_LTC_IN_USER -/ ⟨0x40044, false, 1, 1, 1, 1, fun _ _ => 0, [⟨0, 32, .ro⟩]⟩,
  /- TB_LTC_USER -/ ⟨0x40048, false, 1, 1, 1, 1, fun _ _ => 0, [⟨0, 32, .rw⟩]⟩,
  /- TB_LTC_CMD -/ ⟨0x4004C, false, 1, 1, 1, 1, fun _ _ => 0, [⟨0, 1, .wo⟩]⟩,
  /- TB_TOD_OFFSET -/ ⟨0x40050, false, 1, 1, 1, 1, fun _ _ => 0x25, [⟨0, 32, .rw⟩]⟩]

/-- The registers of the PPR block. -/
def regTablePPR : List RegSpec := [
  /- PPR_CTRL -/ ⟨0x80000, false, 1, 1, 1, 1, fun _ _ => 0x7F0, [⟨0, 1, .rw⟩, ⟨1, 2, .rwh⟩, ⟨3, 1, .rwb⟩, ⟨4, 1, .rw⟩, ⟨5, 1, .rw⟩, ⟨6, 4, .rwh⟩, ⟨10, 1, .rwh⟩]⟩,
  /- PPR_FMT0 -/ ⟨0x80004, false, 1, 1, 1, 1, fun _ _ => 0x8701000, [⟨0, 16, .rwb⟩, ⟨16, 16, .rwb⟩]⟩,
  /- PPR_FMT1 -/ ⟨0x80008, false, 1, 1, 1, 1, fun _ _ => 0x309, [⟨0, 2, .rwb⟩, ⟨2, 1, .rwb⟩, ⟨3, 8, .rwb⟩]⟩,
  /- PPR_LINK_STATUS -/ ⟨0x8000C, false, 1, 1, 1, 1, fun _ _ => 0x3E00000, [⟨0, 17, .ro⟩, ⟨17, 4, .ro⟩, ⟨21, 5, .ro⟩, ⟨26, 1, .ro⟩]⟩,
  /- PPR_SUBST -/ ⟨0x80010, false, 1, 1, 1, 1, fun _ _ => 0, [⟨0, 4, .rw⟩, ⟨4, 1, .wo⟩, ⟨5, 1, .wo⟩]⟩,
  /- PPR_SUB_THRESH -/ ⟨0x80014, false, 1, 1, 1, 1, fun _ _ => 0x40, [⟨0, 16, .rw⟩]⟩,
  /- PPR_SKEW -/ ⟨0x80018, false, 1, 1, 1, 1, fun _ _ => 0, [⟨0, 32, .ro⟩]⟩,
  /- PPR_DISCARD -/ ⟨0x80020, false, 1, 1, 1, 1, fun _ _ => 0, [⟨0, 16, .ro⟩, ⟨16, 16, .ro⟩]⟩,
  /- PPR_LOST -/ ⟨0x80024, false, 1, 1, 1, 1, fun _ _ => 0, [⟨0, 16, .ro⟩, ⟨16, 16, .ro⟩]⟩,
  /- PPR_LATE -/ ⟨0x80028, false, 1, 1, 1, 1, fun _ _ => 0, [⟨0, 16, .ro⟩, ⟨16, 16, .ro⟩]⟩,
  /- PPR_CMD -/ ⟨0x8002C, false, 1, 1, 1, 1, fun _ _ => 0, [⟨0, 1, .wo⟩, ⟨1, 1, .wo⟩]⟩,
  /- PPR_EVENTS -/ ⟨0x80030, false, 1, 1, 1, 1, fun _ _ => 0, [⟨0, 1, .w1c⟩, ⟨1, 1, .w1c⟩, ⟨2, 1, .w1c⟩, ⟨3, 1, .w1c⟩, ⟨4, 1, .w1c⟩, ⟨5, 1, .w1c⟩, ⟨6, 1, .w1c⟩]⟩,
  /- PPR_ERR_LANE -/ ⟨0x80040, false, 4, 17, 1, 1, fun _ _ => 0, [⟨0, 16, .ro⟩, ⟨16, 16, .ro⟩]⟩]

/-- The registers of the TLR block. -/
def regTableTLR : List RegSpec := [
  /- TLR_CTRL -/ ⟨0xC0000, false, 1, 1, 1, 1, fun _ _ => 0, [⟨0, 1, .rwh⟩]⟩,
  /- TLR_STATUS -/ ⟨0xC0004, false, 1, 1, 1, 1, fun _ _ => 0, [⟨0, 7, .ro⟩, ⟨7, 1, .ro⟩]⟩,
  /- TLR_EPOCH -/ ⟨0xC0008, false, 1, 1, 1, 1, fun _ _ => 0, [⟨0, 32, .ro⟩]⟩,
  /- TLR_REJECT -/ ⟨0xC000C, false, 1, 1, 1, 1, fun _ _ => 0, [⟨0, 16, .ro⟩]⟩,
  /- TLR_OVERFLOW -/ ⟨0xC0010, false, 1, 1, 1, 1, fun _ _ => 0, [⟨0, 16, .ro⟩]⟩,
  /- TLR_BIND -/ ⟨0xC0100, false, 4, 64, 1, 1, fun _ _ => 0, [⟨0, 2, .ro⟩, ⟨2, 2, .ro⟩, ⟨4, 2, .ro⟩, ⟨6, 1, .ro⟩, ⟨7, 1, .ro⟩, ⟨8, 8, .ro⟩, ⟨16, 9, .ro⟩]⟩]

/-- The registers of the FAL block. -/
def regTableFAL : List RegSpec := [
  /- FAL_CTRL -/ ⟨0x100000, false, 1, 1, 1, 1, fun _ _ => 0, [⟨0, 1, .rwh⟩, ⟨1, 2, .rwh⟩, ⟨3, 1, .rwh⟩, ⟨4, 1, .rwh⟩]⟩,
  /- FAL_TARGET -/ ⟨0x100004, false, 1, 1, 1, 1, fun _ _ => 0, [⟨0, 32, .rwb⟩]⟩,
  /- FAL_QFLOOR -/ ⟨0x100008, false, 1, 1, 1, 1, fun _ _ => 0, [⟨0, 12, .rwb⟩]⟩,
  /- FAL_WEIGHT -/ ⟨0x10000C, false, 1, 1, 1, 1, fun _ _ => 0x5229392E, [⟨0, 24, .rwb⟩, ⟨24, 8, .rwb⟩]⟩,
  /- FAL_STATUS -/ ⟨0x100010, false, 1, 1, 1, 1, fun _ _ => 0, [⟨0, 1, .ro⟩, ⟨1, 1, .ro⟩, ⟨2, 1, .ro⟩, ⟨3, 1, .ro⟩, ⟨4, 1, .ro⟩]⟩,
  /- FAL_DEC_EPOCH -/ ⟨0x100014, false, 1, 1, 1, 1, fun _ _ => 0, [⟨0, 32, .ro⟩]⟩,
  /- FAL_DEC_TSTAR -/ ⟨0x100018, false, 1, 1, 1, 1, fun _ _ => 0, [⟨0, 13, .ro⟩]⟩,
  /- FAL_DEC_FIXED -/ ⟨0x10001C, false, 1, 1, 1, 1, fun _ _ => 0, [⟨0, 32, .ro⟩]⟩,
  /- FAL_DEC_ABOVE -/ ⟨0x100020, false, 1, 1, 1, 1, fun _ _ => 0, [⟨0, 32, .ro⟩]⟩,
  /- FAL_DEC_QUOTA -/ ⟨0x100024, false, 1, 1, 1, 1, fun _ _ => 0, [⟨0, 32, .ro⟩]⟩,
  /- FAL_DEC_TIME -/ ⟨0x100028, false, 1, 1, 1, 1, fun _ _ => 0, [⟨0, 32, .ro⟩]⟩,
  /- FAL_COUNTS -/ ⟨0x10002C, false, 1, 1, 1, 1, fun _ _ => 0, [⟨0, 16, .ro⟩, ⟨16, 16, .ro⟩]⟩,
  /- FAL_ESC -/ ⟨0x100030, false, 1, 1, 1, 1, fun _ _ => 0, [⟨0, 16, .ro⟩, ⟨16, 16, .ro⟩]⟩,
  /- FAL_CMD -/ ⟨0x100034, false, 1, 1, 1, 1, fun _ _ => 0, [⟨0, 1, .wo⟩]⟩,
  /- FAL_EVENTS -/ ⟨0x100038, false, 1, 1, 1, 1, fun _ _ => 0, [⟨0, 1, .w1c⟩, ⟨1, 1, .w1c⟩, ⟨2, 1, .w1c⟩, ⟨3, 1, .w1c⟩, ⟨4, 1, .w1c⟩]⟩,
  /- FAL_ESC2 -/ ⟨0x10003C, false, 1, 1, 1, 1, fun _ _ => 0, [⟨0, 16, .ro⟩, ⟨16, 16, .ro⟩]⟩,
  /- FAL_HIST_SEL -/ ⟨0x100040, false, 1, 1, 1, 1, fun _ _ => 0, [⟨0, 12, .rw⟩]⟩,
  /- FAL_HIST_DATA -/ ⟨0x100044, false, 1, 1, 1, 1, fun _ _ => 0, [⟨0, 32, .ro⟩]⟩]

/-- The registers of the PKR block. -/
def regTablePKR : List RegSpec := [
  /- PKR_CTRL -/ ⟨0x140000, false, 1, 1, 1, 1, fun _ _ => 0, [⟨0, 1, .rwh⟩]⟩,
  /- PKR_STATUS -/ ⟨0x140004, false, 1, 1, 1, 1, fun _ _ => 0, [⟨0, 1, .ro⟩, ⟨1, 3, .ro⟩]⟩,
  /- PKR_EMIT_EPOCH -/ ⟨0x140008, false, 1, 1, 1, 1, fun _ _ => 0, [⟨0, 32, .ro⟩]⟩,
  /- PKR_LAST_SIZE -/ ⟨0x14000C, false, 1, 1, 1, 1, fun _ _ => 0, [⟨0, 32, .ro⟩]⟩,
  /- PKR_LAST_TIE -/ ⟨0x140010, false, 1, 1, 1, 1, fun _ _ => 0, [⟨0, 32, .ro⟩]⟩,
  /- PKR_LAST_FILLER -/ ⟨0x140014, false, 1, 1, 1, 1, fun _ _ => 0, [⟨0, 32, .ro⟩]⟩,
  /- PKR_LAST_MARGIN -/ ⟨0x140018, false, 1, 1, 1, 1, fun _ _ => 0, [⟨0, 32, .ro⟩]⟩,
  /- PKR_COUNTS -/ ⟨0x14001C, false, 1, 1, 1, 1, fun _ _ => 0, [⟨0, 16, .ro⟩, ⟨16, 16, .ro⟩]⟩,
  /- PKR_CMD -/ ⟨0x140020, false, 1, 1, 1, 1, fun _ _ => 0, [⟨0, 1, .wo⟩]⟩,
  /- PKR_EVENTS -/ ⟨0x140024, false, 1, 1, 1, 1, fun _ _ => 0, [⟨0, 1, .w1c⟩, ⟨1, 1, .w1c⟩, ⟨2, 1, .w1c⟩]⟩]

/-- The registers of a region window. -/
def regTableCERG : List RegSpec := [
  /- CE_RG_CTRL -/ ⟨0x1000000, false, 4194304, 4, 1, 1, fun _ _ => 5, [⟨0, 1, .rw⟩, ⟨1, 3, .rw⟩]⟩,
  /- CE_RG_STATUS -/ ⟨0x1000004, false, 4194304, 4, 1, 1, fun _ _ => 0xF, [⟨0, 2, .ro⟩, ⟨2, 2, .ro⟩, ⟨4, 4, .ro⟩, ⟨8, 5, .ro⟩]⟩,
  /- CE_RG_UC_ADDR -/ ⟨0x1000008, true, 4194304, 4, 1, 1, fun _ _ => 0, [⟨0, 64, .rw⟩]⟩,
  /- CE_RG_UC_CRC -/ ⟨0x1000010, false, 4194304, 4, 1, 1, fun _ _ => 0, [⟨0, 32, .rw⟩]⟩,
  /- CE_RG_BANK -/ ⟨0x1000014, false, 4194304, 4, 1, 1, fun _ _ => 0, [⟨0, 2, .ro⟩]⟩,
  /- CE_RG_BANK_EPOCH0 -/ ⟨0x1000018, false, 4194304, 4, 1, 1, fun _ _ => 0, [⟨0, 32, .ro⟩]⟩,
  /- CE_RG_BANK_EPOCH1 -/ ⟨0x100001C, false, 4194304, 4, 1, 1, fun _ _ => 0, [⟨0, 32, .ro⟩]⟩,
  /- CE_RG_EVENTS -/ ⟨0x1000020, false, 4194304, 4, 1, 1, fun _ _ => 0, [⟨0, 1, .w1c⟩, ⟨1, 1, .w1c⟩, ⟨2, 1, .w1c⟩, ⟨3, 1, .w1c⟩, ⟨4, 1, .w1c⟩]⟩]

/-- The registers of a quad window. -/
def regTableCEQ : List RegSpec := [
  /- CE_Q_OCC -/ ⟨0x1040000, false, 262144, 4, 4194304, 4, fun _ _ => 0, [⟨0, 7, .ro⟩, ⟨8, 7, .ro⟩, ⟨16, 7, .ro⟩, ⟨24, 7, .ro⟩]⟩,
  /- CE_Q_ECC -/ ⟨0x1040004, false, 262144, 4, 4194304, 4, fun _ _ => 0, [⟨0, 16, .ro⟩, ⟨16, 16, .ro⟩]⟩]

/-- The registers of an engine window. -/
def regTableCEENG : List RegSpec := [
  /- CE_ENG_STATE -/ ⟨0x1200000, false, 65536, 17, 4194304, 4, fun _ _ => 0, [⟨0, 3, .ro⟩, ⟨3, 1, .ro⟩, ⟨4, 7, .ro⟩, ⟨16, 8, .ro⟩]⟩,
  /- CE_ENG_CMD -/ ⟨0x1200004, false, 65536, 17, 4194304, 4, fun _ _ => 0, [⟨0, 1, .wo⟩, ⟨1, 1, .wo⟩, ⟨2, 1, .wo⟩, ⟨3, 1, .wo⟩, ⟨4, 1, .wo⟩, ⟨5, 1, .wo⟩]⟩,
  /- CE_ENG_UC_VER -/ ⟨0x1200008, false, 65536, 17, 4194304, 4, fun _ _ => 0, [⟨0, 16, .ro⟩, ⟨16, 16, .ro⟩]⟩,
  /- CE_ENG_UC_BUILD -/ ⟨0x120000C, false, 65536, 17, 4194304, 4, fun _ _ => 0, [⟨0, 32, .ro⟩]⟩,
  /- CE_ENG_UC_EPOCH -/ ⟨0x1200010, false, 65536, 17, 4194304, 4, fun _ _ => 0, [⟨0, 32, .ro⟩]⟩,
  /- CE_ENG_UC_STAT -/ ⟨0x1200014, false, 65536, 17, 4194304, 4, fun _ _ => 0, [⟨0, 1, .ro⟩, ⟨1, 3, .ro⟩]⟩,
  /- CE_ENG_MCHK -/ ⟨0x1200018, false, 65536, 17, 4194304, 4, fun _ _ => 0, [⟨0, 13, .ro⟩, ⟨13, 4, .ro⟩, ⟨17, 3, .ro⟩, ⟨20, 8, .ro⟩, ⟨28, 1, .ro⟩]⟩,
  /- CE_ENG_MCHK_EPOCH -/ ⟨0x120001C, false, 65536, 17, 4194304, 4, fun _ _ => 0, [⟨0, 32, .ro⟩]⟩,
  /- CE_ENG_MCHK_POS -/ ⟨0x1200020, false, 65536, 17, 4194304, 4, fun _ _ => 0, [⟨0, 10, .ro⟩, ⟨10, 7, .ro⟩]⟩,
  /- CE_ENG_VCOUNT -/ ⟨0x1200024, false, 65536, 17, 4194304, 4, fun _ _ => 0, [⟨0, 16, .ro⟩, ⟨16, 16, .ro⟩]⟩,
  /- CE_ENG_VERIFIED -/ ⟨0x1200028, false, 65536, 17, 4194304, 4, fun _ _ => 0, [⟨0, 32, .ro⟩]⟩,
  /- CE_ENG_FAULTS -/ ⟨0x120002C, false, 65536, 17, 4194304, 4, fun _ _ => 0, [⟨0, 8, .ro⟩, ⟨8, 16, .ro⟩]⟩,
  /- CE_ENG_CLR -/ ⟨0x1200030, false, 65536, 17, 4194304, 4, fun _ _ => 0, [⟨0, 1, .wo⟩]⟩,
  /- CE_ENG_IA_SEL -/ ⟨0x1200040, false, 65536, 17, 4194304, 4, fun _ _ => 0, [⟨0, 2, .rwh⟩]⟩,
  /- CE_ENG_IA_ADDR -/ ⟨0x1200044, false, 65536, 17, 4194304, 4, fun _ _ => 0, [⟨0, 23, .rwh⟩]⟩,
  /- CE_ENG_IA_CMD -/ ⟨0x120005C, false, 65536, 17, 4194304, 4, fun _ _ => 0, [⟨0, 1, .wo⟩]⟩,
  /- CE_ENG_IA_DATA0 -/ ⟨0x1200048, false, 65536, 17, 4194304, 4, fun _ _ => 0, [⟨0, 32, .ro⟩]⟩,
  /- CE_ENG_IA_DATA1 -/ ⟨0x120004C, false, 65536, 17, 4194304, 4, fun _ _ => 0, [⟨0, 32, .ro⟩]⟩,
  /- CE_ENG_IA_DATA2 -/ ⟨0x1200050, false, 65536, 17, 4194304, 4, fun _ _ => 0, [⟨0, 32, .ro⟩]⟩,
  /- CE_ENG_IA_DATA3 -/ ⟨0x1200054, false, 65536, 17, 4194304, 4, fun _ _ => 0, [⟨0, 32, .ro⟩]⟩,
  /- CE_ENG_IA_DATA4 -/ ⟨0x1200058, false, 65536, 17, 4194304, 4, fun _ _ => 0, [⟨0, 16, .ro⟩]⟩]

/-- The registers of the LMC block. -/
def regTableLMC : List RegSpec := [
  /- LMC_CTRL -/ ⟨0x240000, false, 1, 1, 1, 1, fun _ _ => 0, [⟨0, 1, .rwh⟩, ⟨1, 2, .rwh⟩, ⟨3, 1, .rwh⟩, ⟨4, 2, .rwh⟩, ⟨6, 1, .rwh⟩]⟩,
  /- LMC_STATUS -/ ⟨0x240004, false, 1, 1, 1, 1, fun _ _ => 0, [⟨0, 1, .ro⟩, ⟨1, 3, .ro⟩, ⟨4, 1, .ro⟩, ⟨5, 3, .ro⟩, ⟨8, 1, .ro⟩, ⟨9, 1, .ro⟩, ⟨10, 1, .ro⟩]⟩,
  /- LMC_CAP -/ ⟨0x240008, true, 1, 1, 1, 1, fun _ _ => 0, [⟨0, 64, .ro⟩]⟩,
  /- LMC_SCHED -/ ⟨0x240010, false, 1, 1, 1, 1, fun _ _ => 0x6400C8, [⟨0, 12, .rw⟩, ⟨16, 8, .rw⟩]⟩,
  /- LMC_WQ -/ ⟨0x240014, false, 1, 1, 1, 1, fun _ _ => 0x1030, [⟨0, 6, .rw⟩, ⟨8, 6, .rw⟩]⟩,
  /- LMC_TRAIN -/ ⟨0x240018, false, 1, 1, 1, 1, fun _ _ => 0x4781E, [⟨0, 10, .rw⟩, ⟨10, 8, .rw⟩, ⟨18, 1, .rw⟩]⟩,
  /- LMC_CMD -/ ⟨0x24001C, false, 1, 1, 1, 1, fun _ _ => 0, [⟨0, 1, .wo⟩, ⟨1, 1, .wo⟩, ⟨2, 1, .wo⟩, ⟨3, 1, .wo⟩, ⟨4, 3, .wo⟩]⟩,
  /- LMC_SCRUB -/ ⟨0x240020, false, 1, 1, 1, 1, fun _ _ => 0x18, [⟨0, 8, .rw⟩]⟩,
  /- LMC_CE_LIMIT -/ ⟨0x240024, false, 1, 1, 1, 1, fun _ _ => 0x100, [⟨0, 16, .rw⟩]⟩,
  /- LMC_MIG -/ ⟨0x240028, false, 1, 1, 1, 1, fun _ _ => 0x32, [⟨0, 8, .rw⟩]⟩,
  /- LMC_MIG_PTR -/ ⟨0x240030, true, 1, 1, 1, 1, fun _ _ => 0, [⟨0, 64, .ro⟩]⟩,
  /- LMC_EVENTS -/ ⟨0x240038, false, 1, 1, 1, 1, fun _ _ => 0, [⟨0, 1, .w1c⟩, ⟨1, 1, .w1c⟩, ⟨2, 1, .w1c⟩, ⟨3, 1, .w1c⟩, ⟨4, 1, .w1c⟩, ⟨5, 1, .w1c⟩, ⟨6, 1, .w1c⟩, ⟨7, 1, .w1c⟩, ⟨8, 1, .w1c⟩, ⟨9, 1, .w1c⟩]⟩,
  /- LMC_RANK -/ ⟨0x240100, false, 4, 8, 1, 1, fun _ _ => 0, [⟨0, 3, .ro⟩, ⟨3, 5, .ro⟩, ⟨8, 8, .ro⟩, ⟨16, 16, .ro⟩]⟩,
  /- LMC_CH_POLICY -/ ⟨0x240200, false, 64, 4, 1, 1, fun _ _ => 0, [⟨0, 1, .rw⟩, ⟨1, 1, .wo⟩]⟩,
  /- LMC_CH_ERR_ADDR -/ ⟨0x240204, true, 64, 4, 1, 1, fun _ _ => 0, [⟨0, 64, .ro⟩]⟩,
  /- LMC_CH_ERR_SYND -/ ⟨0x24020C, false, 64, 4, 1, 1, fun _ _ => 0, [⟨0, 16, .ro⟩, ⟨16, 1, .ro⟩, ⟨17, 1, .ro⟩, ⟨18, 1, .ro⟩]⟩,
  /- LMC_CH_STAT -/ ⟨0x240210, false, 64, 4, 1, 1, fun _ _ => 0, [⟨0, 1, .ro⟩, ⟨1, 1, .ro⟩, ⟨8, 16, .ro⟩]⟩,
  /- LMC_CH_TRACE_SEL -/ ⟨0x240214, false, 64, 4, 1, 1, fun _ _ => 0, [⟨0, 6, .rw⟩]⟩,
  /- LMC_CH_TRACE_DATA -/ ⟨0x240218, false, 64, 4, 1, 1, fun _ _ => 0, [⟨0, 4, .ro⟩, ⟨4, 1, .ro⟩, ⟨5, 4, .ro⟩, ⟨9, 18, .ro⟩]⟩]

/-- The registers of the OQ block. -/
def regTableOQ : List RegSpec := [
  /- OQ_CTRL -/ ⟨0x180000, false, 1, 1, 1, 1, fun _ _ => 2, [⟨0, 1, .rwh⟩, ⟨1, 1, .rw⟩]⟩,
  /- OQ_DROP_MARK -/ ⟨0x180004, false, 1, 1, 1, 1, fun _ _ => 0x4B, [⟨0, 7, .rw⟩]⟩,
  /- OQ_EVENTS -/ ⟨0x180008, false, 1, 1, 1, 1, fun _ _ => 0, [⟨0, 1, .w1c⟩, ⟨1, 1, .w1c⟩, ⟨2, 1, .w1c⟩, ⟨3, 1, .w1c⟩]⟩,
  /- OQ_COUNTS -/ ⟨0x18000C, false, 1, 1, 1, 1, fun _ _ => 0, [⟨0, 16, .ro⟩, ⟨16, 16, .ro⟩]⟩,
  /- OQ_Q_RING_BASE -/ ⟨0x181000, true, 64, 72, 1, 1, fun _ _ => 0, [⟨12, 52, .rwh⟩]⟩,
  /- OQ_Q_RING_SIZE -/ ⟨0x181008, false, 64, 72, 1, 1, fun _ _ => 0, [⟨0, 32, .rwh⟩]⟩,
  /- OQ_Q_STAT -/ ⟨0x18100C, false, 64, 72, 1, 1, fun _ _ => 1, [⟨0, 1, .ro⟩, ⟨1, 1, .w1c⟩, ⟨2, 1, .ro⟩]⟩,
  /- OQ_Q_FILL -/ ⟨0x181010, false, 64, 72, 1, 1, fun _ _ => 0, [⟨0, 32, .ro⟩]⟩,
  /- OQ_Q_POP -/ ⟨0x181014, false, 64, 72, 1, 1, fun _ _ => 0, [⟨0, 32, .ro⟩]⟩,
  /- OQ_Q_PUSH_END -/ ⟨0x181018, false, 64, 72, 1, 1, fun _ _ => 0, [⟨0, 1, .wo⟩]⟩,
  /- OQ_Q_LAST -/ ⟨0x18101C, false, 64, 72, 1, 1, fun _ _ => 0, [⟨0, 32, .ro⟩]⟩,
  /- OQ_Q_STATS -/ ⟨0x181020, false, 64, 72, 1, 1, fun _ _ => 0, [⟨0, 8, .ro⟩, ⟨8, 8, .ro⟩, ⟨16, 8, .ro⟩, ⟨24, 8, .ro⟩]⟩]

/-- The registers of the BPM block. -/
def regTableBPM : List RegSpec := [
  /- BPM_EVENTS -/ ⟨0x1C0000, false, 1, 1, 1, 1, fun _ _ => 0, [⟨0, 16, .w1c⟩, ⟨16, 16, .w1c⟩]⟩,
  /- BPM_P_BASE -/ ⟨0x1C0100, true, 64, 16, 1, 1, fun _ _ => 0, [⟨12, 52, .rwh⟩]⟩,
  /- BPM_P_CFG -/ ⟨0x1C0108, false, 64, 16, 1, 1, fun _ _ => 0, [⟨0, 4, .rwh⟩, ⟨4, 1, .rwh⟩]⟩,
  /- BPM_P_COUNT -/ ⟨0x1C010C, false, 64, 16, 1, 1, fun _ _ => 1, [⟨0, 21, .rwh⟩]⟩,
  /- BPM_P_OWNER_BASE -/ ⟨0x1C0110, true, 64, 16, 1, 1, fun _ _ => 0, [⟨0, 64, .rwh⟩]⟩,
  /- BPM_P_FREE -/ ⟨0x1C0118, false, 64, 16, 1, 1, fun _ _ => 0, [⟨0, 21, .ro⟩]⟩,
  /- BPM_P_LOW_MARK -/ ⟨0x1C011C, false, 64, 16, 1, 1, fun _ _ => 0, [⟨0, 21, .rw⟩]⟩,
  /- BPM_P_ALLOC -/ ⟨0x1C0120, true, 64, 16, 1, 1, fun _ _ => 0, [⟨0, 64, .ro⟩]⟩,
  /- BPM_P_OP_ADDR -/ ⟨0x1C0128, true, 64, 16, 1, 1, fun _ _ => 0, [⟨0, 64, .rw⟩]⟩,
  /- BPM_P_OP -/ ⟨0x1C0130, false, 64, 16, 1, 1, fun _ _ => 0, [⟨0, 1, .wo⟩, ⟨1, 1, .wo⟩, ⟨8, 8, .wo⟩]⟩,
  /- BPM_P_OP_RESULT -/ ⟨0x1C0134, false, 64, 16, 1, 1, fun _ _ => 0, [⟨0, 3, .ro⟩]⟩,
  /- BPM_P_STATS -/ ⟨0x1C0138, false, 64, 16, 1, 1, fun _ _ => 0, [⟨0, 16, .ro⟩, ⟨16, 16, .ro⟩]⟩,
  /- BPM_P_INIT -/ ⟨0x1C013C, false, 64, 16, 1, 1, fun _ _ => 0, [⟨0, 1, .wo⟩, ⟨1, 1, .ro⟩, ⟨2, 1, .ro⟩]⟩]

/-- The registers of the DMA block. -/
def regTableDMA : List RegSpec := [
  /- DMA_EVT_PEND -/ ⟨0x200000, true, 1, 1, 1, 1, fun _ _ => 0, [⟨1, 63, .ro⟩]⟩,
  /- DMA_CH_CTRL -/ ⟨0x200100, false, 64, 16, 1, 1, fun _ _ => 0, [⟨0, 1, .rw⟩, ⟨1, 1, .rw⟩, ⟨2, 1, .wo⟩, ⟨3, 1, .wo⟩, ⟨4, 1, .wo⟩, ⟨5, 1, .wo⟩]⟩,
  /- DMA_CH_RING_BASE -/ ⟨0x200104, true, 64, 16, 1, 1, fun _ _ => 0, [⟨6, 58, .rwh⟩]⟩,
  /- DMA_CH_RING_SIZE -/ ⟨0x20010C, false, 64, 16, 1, 1, fun _ _ => 1, [⟨0, 13, .rwh⟩]⟩,
  /- DMA_CH_HEAD -/ ⟨0x200110, false, 64, 16, 1, 1, fun _ _ => 0, [⟨0, 12, .ro⟩]⟩,
  /- DMA_CH_STAT -/ ⟨0x200114, false, 64, 16, 1, 1, fun _ _ => 0, [⟨0, 2, .ro⟩, ⟨8, 8, .ro⟩, ⟨16, 12, .ro⟩]⟩,
  /- DMA_CH_POLL -/ ⟨0x200118, false, 64, 16, 1, 1, fun _ _ => 0, [⟨0, 16, .rw⟩]⟩,
  /- DMA_CH_DONE -/ ⟨0x20011C, false, 64, 16, 1, 1, fun _ _ => 0, [⟨0, 32, .ro⟩]⟩]

/-- The registers of the MGH block. -/
def regTableMGH : List RegSpec := [
  /- MGH_CTRL -/ ⟨0x280000, false, 1, 1, 1, 1, fun _ _ => 0x1A, [⟨0, 1, .rwh⟩, ⟨1, 1, .rw⟩, ⟨2, 1, .rwh⟩, ⟨3, 1, .rw⟩, ⟨4, 1, .rw⟩]⟩,
  /- MGH_STATUS -/ ⟨0x280004, false, 1, 1, 1, 1, fun _ _ => 0, [⟨0, 3, .ro⟩, ⟨3, 4, .ro⟩, ⟨7, 4, .ro⟩, ⟨11, 1, .ro⟩, ⟨12, 3, .ro⟩, ⟨15, 1, .ro⟩, ⟨16, 1, .ro⟩]⟩,
  /- MGH_CMD -/ ⟨0x280008, false, 1, 1, 1, 1, fun _ _ => 0, [⟨0, 1, .wo⟩, ⟨1, 1, .wo⟩, ⟨2, 1, .wo⟩, ⟨3, 1, .wo⟩, ⟨4, 1, .wo⟩, ⟨5, 1, .wo⟩, ⟨6, 1, .wo⟩, ⟨7, 1, .wo⟩, ⟨8, 4, .wo⟩, ⟨16, 3, .wo⟩]⟩,
  /- MGH_CMD_STAT -/ ⟨0x28000C, false, 1, 1, 1, 1, fun _ _ => 0, [⟨0, 1, .ro⟩, ⟨1, 3, .ro⟩, ⟨4, 4, .ro⟩]⟩,
  /- MGH_FMT0 -/ ⟨0x280010, false, 1, 1, 1, 1, fun _ _ => 0x4C, [⟨0, 3, .rw⟩, ⟨3, 1, .rw⟩, ⟨4, 4, .rw⟩]⟩,
  /- MGH_FMT1 -/ ⟨0x280014, false, 1, 1, 1, 1, fun _ _ => 0xBB8, [⟨0, 32, .rw⟩]⟩,
  /- MGH_SET_ID -/ ⟨0x280018, true, 1, 1, 1, 1, fun _ _ => 0, [⟨0, 64, .ro⟩]⟩,
  /- MGH_CLIP -/ ⟨0x280020, false, 1, 1, 1, 1, fun _ _ => 0, [⟨0, 32, .ro⟩]⟩,
  /- MGH_COMMIT_FRAMES -/ ⟨0x280024, false, 1, 1, 1, 1, fun _ _ => 0, [⟨0, 32, .ro⟩]⟩,
  /- MGH_COMMIT_EPOCH -/ ⟨0x280028, false, 1, 1, 1, 1, fun _ _ => 0, [⟨0, 32, .ro⟩]⟩,
  /- MGH_COMMIT_JSEQ -/ ⟨0x28002C, true, 1, 1, 1, 1, fun _ _ => 0, [⟨0, 64, .ro⟩]⟩,
  /- MGH_NEXT_ROW -/ ⟨0x280034, true, 1, 1, 1, 1, fun _ _ => 0, [⟨0, 64, .ro⟩]⟩,
  /- MGH_ROWS_FREE -/ ⟨0x28003C, true, 1, 1, 1, 1, fun _ _ => 0, [⟨0, 64, .ro⟩]⟩,
  /- MGH_SPACE_WARN -/ ⟨0x280044, true, 1, 1, 1, 1, fun _ _ => 0, [⟨0, 64, .rw⟩]⟩,
  /- MGH_ROUND_MAX -/ ⟨0x28004C, false, 1, 1, 1, 1, fun _ _ => 0x20, [⟨0, 8, .rw⟩]⟩,
  /- MGH_TIMEOUT -/ ⟨0x280050, false, 1, 1, 1, 1, fun _ _ => 0x7D0, [⟨0, 16, .rw⟩]⟩,
  /- MGH_STAGE_BASE -/ ⟨0x280054, true, 1, 1, 1, 1, fun _ _ => 0, [⟨12, 52, .rwh⟩]⟩,
  /- MGH_STAGE_SIZE -/ ⟨0x28005C, false, 1, 1, 1, 1, fun _ _ => 0, [⟨0, 32, .rwh⟩]⟩,
  /- MGH_EVENTS -/ ⟨0x280060, false, 1, 1, 1, 1, fun _ _ => 0, [⟨0, 1, .w1c⟩, ⟨1, 1, .w1c⟩, ⟨2, 1, .w1c⟩, ⟨3, 1, .w1c⟩, ⟨4, 1, .w1c⟩, ⟨5, 1, .w1c⟩, ⟨6, 1, .w1c⟩, ⟨7, 1, .w1c⟩, ⟨8, 1, .w1c⟩, ⟨9, 1, .w1c⟩, ⟨10, 1, .w1c⟩, ⟨11, 1, .w1c⟩]⟩,
  /- MGH_COUNTS -/ ⟨0x280064, false, 1, 1, 1, 1, fun _ _ => 0, [⟨0, 16, .ro⟩, ⟨16, 16, .ro⟩]⟩,
  /- MGH_SCRUB_ROW -/ ⟨0x280068, true, 1, 1, 1, 1, fun _ _ => 0, [⟨0, 64, .ro⟩]⟩,
  /- MGH_SCRUB_BAD -/ ⟨0x280070, true, 1, 1, 1, 1, fun _ _ => 0, [⟨0, 64, .ro⟩]⟩,
  /- MGH_SCRUB_PASSES -/ ⟨0x280078, false, 1, 1, 1, 1, fun _ _ => 0, [⟨0, 32, .ro⟩]⟩,
  /- MGH_PF_TIME -/ ⟨0x28007C, false, 1, 1, 1, 1, fun _ _ => 0, [⟨0, 32, .ro⟩]⟩,
  /- MGH_NAME -/ ⟨0x280080, false, 4, 16, 1, 1, fun _ _ => 0, [⟨0, 32, .rw⟩]⟩,
  /- MGH_MAG_STATE -/ ⟨0x280100, false, 64, 4, 1, 1, fun _ _ => 0, [⟨0, 3, .ro⟩, ⟨3, 1, .ro⟩, ⟨4, 3, .ro⟩, ⟨7, 2, .ro⟩, ⟨9, 3, .ro⟩, ⟨12, 2, .ro⟩, ⟨14, 5, .ro⟩]⟩,
  /- MGH_MAG_BLOCKS -/ ⟨0x280104, true, 64, 4, 1, 1, fun _ _ => 0, [⟨0, 64, .ro⟩]⟩,
  /- MGH_MAG_QDEPTH -/ ⟨0x28010C, false, 64, 4, 1, 1, fun _ _ => 0x400, [⟨0, 11, .rwh⟩]⟩,
  /- MGH_MAG_RATE -/ ⟨0x280110, false, 64, 4, 1, 1, fun _ _ => 0, [⟨0, 32, .ro⟩]⟩,
  /- MGH_MAG_ERR -/ ⟨0x280114, false, 64, 4, 1, 1, fun _ _ => 0, [⟨0, 16, .ro⟩, ⟨16, 16, .ro⟩]⟩,
  /- MGH_MAG_FLUSH_MAX -/ ⟨0x280118, false, 64, 4, 1, 1, fun _ _ => 0, [⟨0, 32, .ro⟩]⟩,
  /- MGH_MAG_RQ_BASE -/ ⟨0x28011C, true, 64, 4, 1, 1, fun _ _ => 0, [⟨6, 58, .rwh⟩]⟩,
  /- MGH_MAG_RQ_SIZE -/ ⟨0x280124, false, 64, 4, 1, 1, fun _ _ => 1, [⟨0, 11, .rwh⟩]⟩,
  /- MGH_MAG_RQ_DOORBELL -/ ⟨0x280128, false, 64, 4, 1, 1, fun _ _ => 0, [⟨0, 1, .wo⟩]⟩,
  /- MGH_MAG_RQ_HEAD -/ ⟨0x28012C, false, 64, 4, 1, 1, fun _ _ => 0, [⟨0, 10, .ro⟩]⟩]

/-- The registers of the CXP block. -/
def regTableCXP : List RegSpec := [
  /- CXP_STATUS -/ ⟨0x2C0000, false, 1, 1, 1, 1, fun _ _ => 0, [⟨0, 1, .ro⟩, ⟨1, 1, .ro⟩, ⟨2, 2, .ro⟩, ⟨4, 2, .ro⟩, ⟨6, 1, .ro⟩, ⟨7, 1, .ro⟩, ⟨8, 1, .ro⟩, ⟨9, 1, .ro⟩]⟩,
  /- CXP_EVENTS -/ ⟨0x2C0004, false, 1, 1, 1, 1, fun _ _ => 0, [⟨0, 1, .w1c⟩, ⟨1, 1, .w1c⟩, ⟨2, 1, .w1c⟩, ⟨3, 1, .w1c⟩, ⟨4, 1, .w1c⟩, ⟨5, 1, .w1c⟩]⟩,
  /- CXP_CTRL -/ ⟨0x2C0008, false, 1, 1, 1, 1, fun _ _ => 0, [⟨0, 6, .rwh⟩]⟩,
  /- CXP_HDM_SIZE -/ ⟨0x2C000C, true, 1, 1, 1, 1, fun _ _ => 0, [⟨0, 64, .ro⟩]⟩,
  /- CXP_BIAS_PAGE -/ ⟨0x2C0014, false, 1, 1, 1, 1, fun _ _ => 0, [⟨0, 15, .rw⟩]⟩,
  /- CXP_BIAS_CMD -/ ⟨0x2C0018, false, 1, 1, 1, 1, fun _ _ => 0, [⟨0, 1, .wo⟩, ⟨1, 1, .wo⟩]⟩,
  /- CXP_BIAS_STAT -/ ⟨0x2C001C, false, 1, 1, 1, 1, fun _ _ => 0, [⟨0, 1, .ro⟩, ⟨1, 1, .ro⟩]⟩,
  /- CXP_COUNTS -/ ⟨0x2C0020, false, 1, 1, 1, 1, fun _ _ => 0, [⟨0, 16, .ro⟩, ⟨16, 16, .ro⟩]⟩,
  /- CXP_COUNTS2 -/ ⟨0x2C0024, false, 1, 1, 1, 1, fun _ _ => 0, [⟨0, 16, .ro⟩, ⟨16, 16, .ro⟩]⟩,
  /- CXP_CMD -/ ⟨0x2C0028, false, 1, 1, 1, 1, fun _ _ => 0, [⟨0, 1, .wo⟩, ⟨1, 1, .wo⟩]⟩]

/-- The registers of the PXP block. -/
def regTablePXP : List RegSpec := [
  /- PXP_CTRL -/ ⟨0x340000, false, 1, 1, 1, 1, fun _ _ => 0, [⟨0, 1, .rwh⟩, ⟨1, 1, .rwh⟩, ⟨2, 1, .rw⟩, ⟨3, 1, .rwh⟩, ⟨4, 4, .rwh⟩]⟩,
  /- PXP_STATUS -/ ⟨0x340004, false, 1, 1, 1, 1, fun _ _ => 0, [⟨0, 1, .ro⟩]⟩,
  /- PXP_STATUS8 -/ ⟨0x340008, false, 1, 1, 1, 1, fun _ _ => 0, [⟨0, 32, .ro⟩]⟩,
  /- PXP_BLACK -/ ⟨0x34000C, false, 1, 1, 1, 1, fun _ _ => 0, [⟨0, 16, .rwb⟩]⟩,
  /- PXP_GAIN -/ ⟨0x340010, false, 1, 1, 1, 1, fun _ _ => 0x10001000, [⟨0, 16, .rwb⟩, ⟨16, 16, .rwb⟩]⟩,
  /- PXP_MATRIX -/ ⟨0x340014, false, 4, 9, 1, 1, fun i _ => if i % 4 = 0 then 4096 else 0, [⟨0, 16, .rwb⟩]⟩,
  /- PXP_LUT_SEL -/ ⟨0x340040, false, 1, 1, 1, 1, fun _ _ => 0, [⟨0, 12, .rw⟩]⟩,
  /- PXP_LUT_DATA -/ ⟨0x340044, false, 1, 1, 1, 1, fun _ _ => 0, [⟨0, 10, .rw⟩]⟩,
  /- PXP_HOST_BASE -/ ⟨0x340048, true, 1, 1, 1, 1, fun _ _ => 0, [⟨6, 58, .rwh⟩]⟩,
  /- PXP_HOST_FREE -/ ⟨0x340050, false, 1, 1, 1, 1, fun _ _ => 0, [⟨0, 8, .w1s⟩]⟩,
  /- PXP_REVIEW_BASE -/ ⟨0x340054, true, 1, 1, 1, 1, fun _ _ => 0, [⟨6, 58, .rw⟩]⟩,
  /- PXP_REVIEW_PITCH -/ ⟨0x34005C, false, 1, 1, 1, 1, fun _ _ => 0, [⟨6, 12, .rw⟩]⟩,
  /- PXP_REVIEW_FMT0 -/ ⟨0x340060, false, 1, 1, 1, 1, fun _ _ => 0, [⟨0, 32, .rw⟩]⟩,
  /- PXP_REVIEW_FMT1 -/ ⟨0x340064, false, 1, 1, 1, 1, fun _ _ => 0, [⟨0, 11, .rw⟩]⟩,
  /- PXP_CMD -/ ⟨0x340068, false, 1, 1, 1, 1, fun _ _ => 0, [⟨0, 1, .wo⟩, ⟨1, 1, .wo⟩]⟩,
  /- PXP_COUNTS -/ ⟨0x34006C, false, 1, 1, 1, 1, fun _ _ => 0, [⟨0, 16, .ro⟩, ⟨16, 16, .ro⟩]⟩,
  /- PXP_COUNTS2 -/ ⟨0x340070, false, 1, 1, 1, 1, fun _ _ => 0, [⟨0, 16, .ro⟩, ⟨16, 16, .ro⟩]⟩]

/-- The registers of the ETH block. -/
def regTableETH : List RegSpec := [
  /- ETH_SND_CTRL -/ ⟨0x300100, false, 64, 2, 1, 1, fun i _ => i * 2, [⟨0, 1, .rw⟩, ⟨1, 1, .rwh⟩, ⟨2, 1, .rwh⟩]⟩,
  /- ETH_SND_DST_IP -/ ⟨0x300104, false, 64, 2, 1, 1, fun _ _ => 0, [⟨0, 32, .rwh⟩]⟩,
  /- ETH_SND_DST_MAC -/ ⟨0x300108, true, 64, 2, 1, 1, fun _ _ => 0, [⟨0, 48, .rwh⟩, ⟨48, 12, .rwh⟩]⟩,
  /- ETH_SND_UDP -/ ⟨0x300110, false, 64, 2, 1, 1, fun _ _ => 0x138C138C, [⟨0, 16, .rwh⟩, ⟨16, 16, .rwh⟩]⟩,
  /- ETH_SND_RTP -/ ⟨0x300114, false, 64, 2, 1, 1, fun _ _ => 0x2260, [⟨0, 7, .rwh⟩, ⟨8, 6, .rwh⟩]⟩,
  /- ETH_SND_SSRC -/ ⟨0x300118, false, 64, 2, 1, 1, fun _ _ => 0, [⟨0, 32, .rwh⟩]⟩,
  /- ETH_SND_OFFSET -/ ⟨0x30011C, false, 64, 2, 1, 1, fun _ _ => 0, [⟨0, 24, .rwh⟩]⟩,
  /- ETH_SND_STAT -/ ⟨0x300120, false, 64, 2, 1, 1, fun _ _ => 0, [⟨0, 1, .ro⟩, ⟨1, 1, .ro⟩]⟩,
  /- ETH_SND_COUNTS -/ ⟨0x300124, false, 64, 2, 1, 1, fun _ _ => 0, [⟨0, 16, .ro⟩, ⟨16, 16, .ro⟩]⟩,
  /- ETH_P_CTRL -/ ⟨0x301000, false, 4096, 2, 1, 1, fun _ _ => 0, [⟨0, 1, .rwh⟩, ⟨1, 1, .rwh⟩, ⟨2, 2, .rwh⟩, ⟨4, 1, .rw⟩]⟩,
  /- ETH_P_STATUS -/ ⟨0x301004, false, 4096, 2, 1, 1, fun _ _ => 0, [⟨0, 1, .ro⟩, ⟨1, 1, .ro⟩, ⟨2, 1, .ro⟩]⟩,
  /- ETH_P_MAC -/ ⟨0x301008, true, 4096, 2, 1, 1, fun i _ => i, [⟨0, 48, .rwh⟩]⟩,
  /- ETH_P_IPV4 -/ ⟨0x301010, false, 4096, 2, 1, 1, fun _ _ => 0, [⟨0, 32, .rwh⟩]⟩,
  /- ETH_P_TS_ADJ -/ ⟨0x301014, false, 4096, 2, 1, 1, fun _ _ => 0, [⟨0, 16, .rw⟩, ⟨16, 3, .rw⟩]⟩,
  /- ETH_P_TS_INFO -/ ⟨0x301018, false, 4096, 2, 1, 1, fun _ _ => 0, [⟨0, 1, .ro⟩, ⟨1, 1, .ro⟩, ⟨2, 4, .ro⟩, ⟨16, 16, .ro⟩]⟩,
  /- ETH_P_TS_NS -/ ⟨0x30101C, true, 4096, 2, 1, 1, fun _ _ => 0, [⟨0, 64, .ro⟩]⟩,
  /- ETH_P_TXR_BASE -/ ⟨0x301024, true, 4096, 2, 1, 1, fun _ _ => 0, [⟨4, 60, .rwh⟩]⟩,
  /- ETH_P_TXR_SIZE -/ ⟨0x30102C, false, 4096, 2, 1, 1, fun _ _ => 1, [⟨0, 11, .rwh⟩]⟩,
  /- ETH_P_RXR_BASE -/ ⟨0x301030, true, 4096, 2, 1, 1, fun _ _ => 0, [⟨4, 60, .rwh⟩]⟩,
  /- ETH_P_RXR_SIZE -/ ⟨0x301038, false, 4096, 2, 1, 1, fun _ _ => 1, [⟨0, 11, .rwh⟩]⟩,
  /- ETH_P_RING_KICK -/ ⟨0x30103C, false, 4096, 2, 1, 1, fun _ _ => 0, [⟨0, 1, .wo⟩, ⟨1, 1, .wo⟩]⟩,
  /- ETH_P_GATE_BASE -/ ⟨0x301040, true, 4096, 2, 1, 1, fun _ _ => 0, [⟨0, 64, .rw⟩]⟩,
  /- ETH_P_GATE_CYCLE -/ ⟨0x301048, false, 4096, 2, 1, 1, fun _ _ => 0xF4240, [⟨0, 30, .rw⟩]⟩,
  /- ETH_P_GATE_LEN -/ ⟨0x30104C, false, 4096, 2, 1, 1, fun _ _ => 1, [⟨0, 7, .rw⟩]⟩,
  /- ETH_P_GATE_CMD -/ ⟨0x301050, false, 4096, 2, 1, 1, fun _ _ => 0, [⟨0, 1, .wo⟩]⟩,
  /- ETH_P_GATE_STAT -/ ⟨0x301054, false, 4096, 2, 1, 1, fun _ _ => 0, [⟨0, 1, .ro⟩, ⟨1, 1, .w1c⟩, ⟨2, 1, .w1c⟩]⟩,
  /- ETH_P_GATE_START -/ ⟨0x301058, true, 4096, 2, 1, 1, fun _ _ => 0, [⟨0, 64, .ro⟩]⟩,
  /- ETH_P_GATEE -/ ⟨0x301100, false, 4, 64, 4096, 2, fun _ _ => 0xF4240FF, [⟨0, 8, .rw⟩, ⟨8, 24, .rw⟩]⟩,
  /- ETH_P_F_RATE -/ ⟨0x301200, false, 16, 32, 4096, 2, fun _ _ => 0, [⟨0, 16, .rw⟩, ⟨16, 16, .rw⟩]⟩,
  /- ETH_P_F_BURST -/ ⟨0x301204, false, 16, 32, 4096, 2, fun _ _ => 0x6060606, [⟨0, 16, .rw⟩, ⟨16, 16, .rw⟩]⟩,
  /- ETH_P_F_CLASS -/ ⟨0x301208, false, 16, 32, 4096, 2, fun i _ => flowClassReset i, [⟨0, 3, .rw⟩]⟩,
  /- ETH_P_POL -/ ⟨0x301400, false, 8, 8, 4096, 2, fun _ _ => 0x400000, [⟨0, 16, .rw⟩, ⟨16, 16, .rw⟩]⟩,
  /- ETH_P_POL_DROP -/ ⟨0x301404, false, 8, 8, 4096, 2, fun _ _ => 0, [⟨0, 32, .ro⟩]⟩,
  /- ETH_P_DROP -/ ⟨0x301480, false, 4096, 2, 1, 1, fun _ _ => 0, [⟨0, 16, .ro⟩, ⟨16, 16, .ro⟩]⟩,
  /- ETH_P_RXERR -/ ⟨0x301484, false, 4096, 2, 1, 1, fun _ _ => 0, [⟨0, 8, .ro⟩, ⟨8, 8, .ro⟩, ⟨16, 8, .ro⟩, ⟨24, 8, .ro⟩]⟩,
  /- ETH_P_CMD -/ ⟨0x301488, false, 4096, 2, 1, 1, fun _ _ => 0, [⟨0, 1, .wo⟩]⟩]

/-- The registers of the CAN block. -/
def regTableCAN : List RegSpec := [
  /- CAN_C_CTRL -/ ⟨0x380000, false, 4096, 2, 1, 1, fun _ _ => 0x1A, [⟨0, 1, .rw⟩, ⟨1, 1, .rwh⟩, ⟨2, 2, .rwh⟩, ⟨4, 1, .rw⟩, ⟨5, 1, .rwh⟩]⟩,
  /- CAN_C_STATUS -/ ⟨0x380004, false, 4096, 2, 1, 1, fun _ _ => 3, [⟨0, 2, .ro⟩, ⟨8, 8, .ro⟩, ⟨16, 8, .ro⟩]⟩,
  /- CAN_C_COUNTS -/ ⟨0x380008, false, 4096, 2, 1, 1, fun _ _ => 0, [⟨0, 16, .ro⟩, ⟨16, 8, .ro⟩, ⟨24, 8, .ro⟩]⟩,
  /- CAN_C_ACCEPT -/ ⟨0x38000C, false, 4096, 2, 1, 1, fun _ _ => 1, [⟨0, 7, .rw⟩, ⟨7, 1, .rw⟩]⟩,
  /- CAN_C_TXR_BASE -/ ⟨0x380010, true, 4096, 2, 1, 1, fun _ _ => 0, [⟨4, 60, .rwh⟩]⟩,
  /- CAN_C_TXR_SIZE -/ ⟨0x380018, false, 4096, 2, 1, 1, fun _ _ => 1, [⟨0, 9, .rwh⟩]⟩,
  /- CAN_C_RXR_BASE -/ ⟨0x38001C, true, 4096, 2, 1, 1, fun _ _ => 0, [⟨4, 60, .rwh⟩]⟩,
  /- CAN_C_RXR_SIZE -/ ⟨0x380024, false, 4096, 2, 1, 1, fun _ _ => 1, [⟨0, 9, .rwh⟩]⟩,
  /- CAN_C_KICK -/ ⟨0x380028, false, 4096, 2, 1, 1, fun _ _ => 0, [⟨0, 1, .wo⟩, ⟨1, 1, .wo⟩]⟩]

/-- The registers of the KPR block. -/
def regTableKPR : List RegSpec := [
  /- KPR_CTRL -/ ⟨0x440000, false, 1, 1, 1, 1, fun _ _ => 0x2BE, [⟨0, 1, .rwh⟩, ⟨1, 1, .rw⟩, ⟨2, 4, .rw⟩, ⟨6, 8, .rw⟩]⟩,
  /- KPR_STATUS -/ ⟨0x440004, false, 1, 1, 1, 1, fun _ _ => 0, [⟨0, 2, .ro⟩, ⟨2, 1, .ro⟩, ⟨3, 1, .ro⟩, ⟨4, 1, .ro⟩, ⟨5, 2, .ro⟩]⟩,
  /- KPR_CMD -/ ⟨0x440008, false, 1, 1, 1, 1, fun _ _ => 0, [⟨0, 1, .wo⟩, ⟨1, 1, .wo⟩, ⟨2, 1, .wo⟩]⟩,
  /- KPR_LIMIT_HOST -/ ⟨0x44000C, false, 1, 1, 1, 1, fun _ _ => 0x3A98, [⟨0, 16, .rw⟩]⟩,
  /- KPR_BATT -/ ⟨0x440010, false, 1, 1, 1, 1, fun _ _ => 0xFFFF, [⟨0, 16, .rw⟩]⟩,
  /- KPR_THERM -/ ⟨0x440014, false, 1, 1, 1, 1, fun _ _ => 0x1F4705F, [⟨0, 8, .rw⟩, ⟨8, 8, .rw⟩, ⟨16, 16, .rw⟩]⟩,
  /- KPR_IDLE -/ ⟨0x440018, false, 1, 1, 1, 1, fun _ _ => 0x3E8, [⟨0, 16, .rw⟩]⟩,
  /- KPR_SCRUB -/ ⟨0x44001C, false, 1, 1, 1, 1, fun _ _ => 0x1440, [⟨0, 8, .rw⟩, ⟨8, 8, .rw⟩]⟩,
  /- KPR_PIN -/ ⟨0x440020, false, 1, 1, 1, 1, fun _ _ => 0xF0040, [⟨0, 7, .rwb⟩, ⟨8, 8, .rwb⟩, ⟨16, 4, .rwb⟩]⟩,
  /- KPR_COST -/ ⟨0x440040, false, 4, 17, 1, 1, fun i _ => keeperCost i, [⟨0, 16, .rw⟩]⟩,
  /- KPR_GRANT -/ ⟨0x440100, false, 1, 1, 1, 1, fun _ _ => 0xFF00, [⟨0, 7, .ro⟩, ⟨8, 8, .ro⟩, ⟨16, 4, .ro⟩, ⟨20, 1, .ro⟩]⟩,
  /- KPR_GRANT_EPOCH -/ ⟨0x440104, false, 1, 1, 1, 1, fun _ _ => 0, [⟨0, 32, .ro⟩]⟩,
  /- KPR_BUDGET -/ ⟨0x440108, false, 1, 1, 1, 1, fun _ _ => 0, [⟨0, 32, .ro⟩]⟩,
  /- KPR_MAND -/ ⟨0x44010C, false, 1, 1, 1, 1, fun _ _ => 0, [⟨0, 32, .ro⟩]⟩,
  /- KPR_SPENT -/ ⟨0x440110, false, 1, 1, 1, 1, fun _ _ => 0, [⟨0, 32, .ro⟩]⟩,
  /- KPR_SCRUB_GRANT -/ ⟨0x440114, false, 1, 1, 1, 1, fun _ _ => 0, [⟨0, 8, .ro⟩]⟩,
  /- KPR_GRANT_COLS -/ ⟨0x440118, false, 1, 1, 1, 1, fun _ _ => 0, [⟨0, 5, .ro⟩, ⟨8, 5, .ro⟩, ⟨16, 5, .ro⟩, ⟨24, 5, .ro⟩]⟩,
  /- KPR_REFUSE_LAST -/ ⟨0x440120, false, 1, 1, 1, 1, fun _ _ => 0, [⟨0, 8, .ro⟩, ⟨8, 1, .ro⟩, ⟨9, 2, .ro⟩]⟩,
  /- KPR_REFUSE_SEL -/ ⟨0x440124, false, 1, 1, 1, 1, fun _ _ => 0, [⟨0, 8, .rw⟩]⟩,
  /- KPR_REFUSE_DATA -/ ⟨0x440128, false, 1, 1, 1, 1, fun _ _ => 0, [⟨0, 16, .ro⟩, ⟨16, 16, .ro⟩]⟩,
  /- KPR_COUNTS -/ ⟨0x440130, false, 1, 1, 1, 1, fun _ _ => 0, [⟨0, 16, .ro⟩, ⟨16, 16, .ro⟩]⟩,
  /- KPR_COUNTS2 -/ ⟨0x440134, false, 1, 1, 1, 1, fun _ _ => 0, [⟨0, 16, .ro⟩, ⟨16, 16, .ro⟩]⟩,
  /- KPR_EVENTS -/ ⟨0x440138, false, 1, 1, 1, 1, fun _ _ => 0, [⟨0, 1, .w1c⟩, ⟨1, 1, .w1c⟩, ⟨2, 1, .w1c⟩, ⟨3, 1, .w1c⟩, ⟨4, 1, .w1c⟩, ⟨5, 1, .w1c⟩, ⟨6, 1, .w1c⟩]⟩,
  /- KPR_TEMP -/ ⟨0x440200, false, 4, 24, 1, 1, fun _ _ => 0, [⟨0, 12, .ro⟩, ⟨12, 1, .ro⟩]⟩,
  /- KPR_TMAX -/ ⟨0x440260, false, 1, 1, 1, 1, fun _ _ => 0, [⟨0, 12, .ro⟩]⟩]

/-- The registers of the AON block. -/
def regTableAON : List RegSpec := [
  /- AON_WAKE_EN -/ ⟨0x540000, false, 1, 1, 1, 1, fun _ _ => 0x5B, [⟨0, 1, .rw⟩, ⟨1, 1, .rw⟩, ⟨2, 1, .rw⟩, ⟨3, 1, .rw⟩, ⟨4, 1, .rw⟩, ⟨5, 1, .rw⟩, ⟨6, 1, .rw⟩, ⟨7, 1, .rw⟩]⟩,
  /- AON_WAKE_CAUSE -/ ⟨0x540004, false, 1, 1, 1, 1, fun _ _ => 0, [⟨0, 1, .w1c⟩, ⟨1, 1, .w1c⟩, ⟨2, 1, .w1c⟩, ⟨3, 1, .w1c⟩, ⟨4, 1, .w1c⟩, ⟨5, 1, .w1c⟩, ⟨6, 1, .w1c⟩, ⟨7, 1, .w1c⟩]⟩,
  /- AON_ALARM -/ ⟨0x540008, true, 1, 1, 1, 1, fun _ _ => 0, [⟨0, 48, .rw⟩]⟩,
  /- AON_TICKS -/ ⟨0x540010, true, 1, 1, 1, 1, fun _ _ => 0, [⟨0, 48, .ro⟩]⟩]

/-- The registers of the FC block. -/
def regTableFC : List RegSpec := [
  /- FC_CTRL -/ ⟨0x480000, false, 1, 1, 1, 1, fun _ _ => 1, [⟨0, 2, .rw⟩]⟩,
  /- FC_PHASE -/ ⟨0x480004, false, 1, 1, 1, 1, fun _ _ => 0, [⟨0, 2, .rw⟩]⟩,
  /- FC_LEVEL -/ ⟨0x480008, false, 1, 1, 1, 1, fun _ _ => 0xF0000, [⟨0, 2, .ro⟩, ⟨8, 8, .ro⟩, ⟨16, 4, .ro⟩]⟩,
  /- FC_LEVEL_CMD -/ ⟨0x48000C, false, 1, 1, 1, 1, fun _ _ => 0, [⟨0, 1, .wo⟩, ⟨1, 1, .wo⟩]⟩,
  /- FC_LEVEL_CTRL -/ ⟨0x480010, false, 1, 1, 1, 1, fun _ _ => 4, [⟨0, 8, .rw⟩]⟩,
  /- FC_FIRST -/ ⟨0x480020, false, 4, 6, 1, 1, fun _ _ => 0, [⟨0, 32, .ro⟩]⟩,
  /- FC_FIRST_CLR -/ ⟨0x480038, false, 1, 1, 1, 1, fun _ _ => 0, [⟨0, 1, .wo⟩]⟩,
  /- FC_LOG_HEAD -/ ⟨0x48003C, false, 1, 1, 1, 1, fun _ _ => 0, [⟨0, 5, .ro⟩, ⟨16, 16, .ro⟩]⟩,
  /- FC_LOG_SEL -/ ⟨0x480040, false, 1, 1, 1, 1, fun _ _ => 0, [⟨0, 5, .rw⟩]⟩,
  /- FC_LOG_DATA -/ ⟨0x480044, false, 4, 6, 1, 1, fun _ _ => 0, [⟨0, 32, .ro⟩]⟩,
  /- FC_PEND -/ ⟨0x480080, false, 4, 8, 1, 1, fun _ _ => 0, [⟨0, 32, .w1c⟩]⟩,
  /- FC_BELL_MASK -/ ⟨0x4800A0, false, 4, 8, 1, 1, fun i _ => bellMaskReset i, [⟨0, 32, .rw⟩]⟩,
  /- FC_SEV_SEL -/ ⟨0x4800C0, false, 1, 1, 1, 1, fun _ _ => 0, [⟨0, 8, .rw⟩, ⟨8, 2, .rw⟩]⟩,
  /- FC_SEV_DATA -/ ⟨0x4800C4, false, 1, 1, 1, 1, fun _ _ => 0, [⟨0, 2, .rw⟩, ⟨2, 1, .ro⟩]⟩,
  /- FC_SRC_SEL -/ ⟨0x4800C8, false, 1, 1, 1, 1, fun _ _ => 0, [⟨0, 8, .rw⟩]⟩,
  /- FC_SRC_DATA -/ ⟨0x4800CC, false, 1, 1, 1, 1, fun _ _ => 0, [⟨0, 8, .ro⟩, ⟨8, 2, .ro⟩]⟩,
  /- FC_RAISE -/ ⟨0x4800D0, false, 1, 1, 1, 1, fun _ _ => 0, [⟨0, 8, .wo⟩, ⟨8, 2, .wo⟩, ⟨16, 16, .wo⟩]⟩,
  /- FC_CMD -/ ⟨0x4800D4, false, 1, 1, 1, 1, fun _ _ => 0, [⟨0, 1, .wo⟩]⟩,
  /- FC_SELF -/ ⟨0x4800D8, false, 1, 1, 1, 1, fun _ _ => 1, [⟨0, 1, .ro⟩]⟩]

/-- The registers of the RSTC block. -/
def regTableRSTC : List RegSpec := [
  /- RSTC_CAUSE -/ ⟨0x4C0000, false, 1, 1, 1, 1, fun _ _ => 1, [⟨0, 1, .w1c⟩, ⟨1, 1, .w1c⟩, ⟨2, 1, .w1c⟩, ⟨3, 1, .w1c⟩, ⟨4, 1, .w1c⟩, ⟨5, 1, .w1c⟩]⟩,
  /- RSTC_STRAPS -/ ⟨0x4C0004, false, 1, 1, 1, 1, fun _ _ => 0, [⟨0, 2, .ro⟩, ⟨2, 2, .ro⟩, ⟨4, 2, .ro⟩]⟩,
  /- RSTC_REQ -/ ⟨0x4C0008, false, 1, 1, 1, 1, fun _ _ => 0, [⟨0, 4, .wo⟩, ⟨4, 1, .wo⟩, ⟨8, 7, .wo⟩, ⟨16, 8, .wo⟩]⟩,
  /- RSTC_HELD -/ ⟨0x4C000C, false, 1, 1, 1, 1, fun _ _ => 0, [⟨0, 2, .ro⟩]⟩,
  /- RSTC_EXTEND -/ ⟨0x4C0010, false, 1, 1, 1, 1, fun _ _ => 0, [⟨0, 32, .ro⟩]⟩,
  /- RSTC_STATUS -/ ⟨0x4C0014, false, 1, 1, 1, 1, fun _ _ => 3, [⟨0, 1, .ro⟩, ⟨1, 1, .ro⟩, ⟨2, 1, .ro⟩, ⟨3, 3, .ro⟩]⟩,
  /- RSTC_WDOG -/ ⟨0x4C0018, false, 1, 1, 1, 1, fun _ _ => 0x10FA0, [⟨0, 16, .rw⟩, ⟨16, 1, .rw⟩]⟩,
  /- RSTC_WDOG_KICK -/ ⟨0x4C001C, false, 1, 1, 1, 1, fun _ _ => 0, [⟨0, 8, .wo⟩]⟩,
  /- RSTC_COUNTS -/ ⟨0x4C0020, false, 1, 1, 1, 1, fun _ _ => 0, [⟨0, 16, .ro⟩, ⟨16, 16, .ro⟩]⟩]

/-- The registers of the ICU block. -/
def regTableICU : List RegSpec := [
  /- ICU_CTRL -/ ⟨0x500000, false, 1, 1, 1, 1, fun _ _ => 0, [⟨0, 1, .rw⟩, ⟨1, 3, .rw⟩]⟩,
  /- ICU_DOORBELL -/ ⟨0x500004, false, 1, 1, 1, 1, fun _ _ => 0, [⟨0, 9, .wo⟩]⟩,
  /- ICU_CMD -/ ⟨0x500008, false, 1, 1, 1, 1, fun _ _ => 0, [⟨0, 1, .wo⟩, ⟨1, 1, .wo⟩, ⟨16, 9, .wo⟩]⟩,
  /- ICU_MGC_CLAIM -/ ⟨0x500010, false, 1, 1, 1, 1, fun _ _ => 0x3FF, [⟨0, 10, .ro⟩, ⟨16, 8, .ro⟩]⟩,
  /- ICU_MGC_COMPLETE -/ ⟨0x500014, false, 1, 1, 1, 1, fun _ _ => 0, [⟨0, 10, .wo⟩]⟩,
  /- ICU_MGC_STAT -/ ⟨0x500018, false, 1, 1, 1, 1, fun _ _ => 0, [⟨0, 1, .ro⟩, ⟨1, 1, .ro⟩, ⟨8, 8, .ro⟩]⟩,
  /- ICU_HOST -/ ⟨0x500020, false, 1, 1, 1, 1, fun _ _ => 0, [⟨0, 1, .rw⟩, ⟨1, 1, .rw⟩]⟩,
  /- ICU_SRC -/ ⟨0x501000, false, 4, 512, 1, 1, fun i _ => icuSenseReset i * 256, [⟨0, 8, .rw⟩, ⟨8, 2, .rw⟩, ⟨10, 2, .rw⟩, ⟨12, 6, .rw⟩, ⟨18, 1, .rw⟩, ⟨19, 1, .ro⟩, ⟨20, 1, .ro⟩, ⟨21, 1, .ro⟩, ⟨24, 8, .ro⟩]⟩,
  /- ICU_PEND_SET -/ ⟨0x501800, false, 4, 16, 1, 1, fun _ _ => 0, [⟨0, 32, .w1s⟩]⟩,
  /- ICU_PEND_CLR -/ ⟨0x501840, false, 4, 16, 1, 1, fun _ _ => 0, [⟨0, 32, .wo⟩]⟩,
  /- ICU_HV_CLAIM -/ ⟨0x502000, false, 16, 64, 1, 1, fun _ _ => 0x3FF, [⟨0, 10, .ro⟩, ⟨16, 8, .ro⟩]⟩,
  /- ICU_HV_COMPLETE -/ ⟨0x502004, false, 16, 64, 1, 1, fun _ _ => 0, [⟨0, 10, .wo⟩]⟩,
  /- ICU_HV_MOD -/ ⟨0x502008, false, 16, 64, 1, 1, fun _ _ => 0, [⟨0, 12, .rw⟩, ⟨16, 8, .rw⟩, ⟨31, 1, .rw⟩]⟩,
  /- ICU_HV_STAT -/ ⟨0x50200C, false, 16, 64, 1, 1, fun _ _ => 1, [⟨0, 1, .ro⟩, ⟨1, 1, .ro⟩, ⟨2, 1, .ro⟩]⟩]

/-- The register table of the block that holds BAR0 offset `off` (R37, R38). -/
def regTableAt (off : Nat) : List RegSpec :=
  if off < 0x5C0000 then
    match off / 0x40000 with
    | 0 => regTableBU
    | 1 => regTableTB
    | 2 => regTablePPR
    | 3 => regTableTLR
    | 4 => regTableFAL
    | 5 => regTablePKR
    | 6 => regTableOQ
    | 7 => regTableBPM
    | 8 => regTableDMA
    | 9 => regTableLMC
    | 10 => regTableMGH
    | 11 => regTableCXP
    | 12 => regTableETH
    | 13 => regTablePXP
    | 14 => regTableCAN
    | 17 => regTableKPR
    | 18 => regTableFC
    | 19 => regTableRSTC
    | 20 => regTableICU
    | 21 => regTableAON
    | _ => []
  else if 0x1000000 ≤ off ∧ off < 0x2000000 then
    let d := off % 0x400000
    if d < 0x40000 then regTableCERG else if d < 0x140000 then regTableCEQ
    else if 0x200000 ≤ d ∧ d < 0x310000 then regTableCEENG else []
  else []

/-- Where offset `off` lies in the register `r`: its array indices and whether it is the high word. -/
def RegSpec.locate (r : RegSpec) (off : Nat) : Option (Nat × Nat × Bool) :=
  if off < r.off then none
  else
    let d := off - r.off
    let j := if r.n2 = 1 then 0 else d / r.s2
    let d := d - j * r.s2
    let d := if r.n2 = 1 then off - r.off else d
    let i := if r.n1 = 1 then 0 else d / r.s1
    let d := if r.n1 = 1 then d else d - i * r.s1
    if i < r.n1 ∧ j < r.n2 then
      if d = 0 then some (i, j, false) else if d = 4 ∧ r.wide then some (i, j, true) else none
    else none

/-- The register at BAR0 offset `off` in a table, with its array indices and whether `off` is its high word. -/
def regFindIn : List RegSpec → Nat → Option (RegSpec × Nat × Nat × Bool)
  | [], _ => none
  | r :: t, off =>
    match r.locate off with
    | some (i, j, h) => some (r, i, j, h)
    | none => regFindIn t off

/-- The register at BAR0 offset `off`, or none at a reserved offset (R40). -/
def regFind (off : Nat) : Option (RegSpec × Nat × Nat × Bool) :=
  if off % 4 = 0 then regFindIn (regTableAt off) off else none

/-- The value after Cold reset of the word at BAR0 offset `off` (R10); a reserved offset reads 0 (R40). -/
def regReset (off : Nat) : Word :=
  match regFind off with
  | some (r, i, j, h) => BitVec.ofNat 32 (if h then r.reset i j / 2 ^ 32 else r.reset i j % 2 ^ 32)
  | none => 0#32

/-- Bit `b` of the word at `off` (high or low word of its register) belongs to a field of access code `a`. -/
def RegSpec.maskOf (r : RegSpec) (h : Bool) (p : Access → Bool) : Nat :=
  let m := r.fields.foldl (fun m f => if p f.acc then m + (2 ^ f.width - 1) * 2 ^ f.lo else m) 0
  if h then m / 2 ^ 32 else m % 2 ^ 32

def BU_CTRL_RUN : Fld := ⟨0x0, 0, 1⟩
def BU_CTRL_SRC : Fld := ⟨0x0, 1, 2⟩
def BU_CTRL_HOLD : Fld := ⟨0x0, 3, 1⟩
def BU_CTRL_OUT_EN : Fld := ⟨0x0, 4, 1⟩
def BU_STATUS_RUNNING : Fld := ⟨0x4, 0, 1⟩
def BU_STATUS_SRC_ACTIVE : Fld := ⟨0x4, 1, 2⟩
def BU_STATUS_FLYWHEEL : Fld := ⟨0x4, 3, 1⟩
def BU_STATUS_IN_PRESENT : Fld := ⟨0x4, 4, 1⟩
def BU_STATUS_GANG_LOCK : Fld := ⟨0x4, 5, 1⟩
def BU_STATUS_PRESET_ARMED : Fld := ⟨0x4, 6, 1⟩
def BU_RATE_NUM_NUM : Fld := ⟨0x8, 0, 32⟩
def BU_RATE_DEN_DEN : Fld := ⟨0xC, 0, 16⟩
def BU_PHASE_PHASE : Fld := ⟨0x10, 0, 32⟩
def BU_IN_WIN_WIN : Fld := ⟨0x14, 0, 24⟩
def BU_OUT_WIDTH_WIDTH : Fld := ⟨0x18, 0, 8⟩
def BU_MISS_LIMIT_LIMIT : Fld := ⟨0x1C, 0, 8⟩
def BU_FRAME_EPOCH_EPOCH : Fld := ⟨0x20, 0, 32⟩
def BU_EPOCH_PRESET_EPOCH : Fld := ⟨0x24, 0, 32⟩
def BU_SHADOW_EPOCH_EPOCH : Fld := ⟨0x28, 0, 32⟩
def BU_LAST_WR_EPOCH_HOST_EPOCH : Fld := ⟨0x2C, 0, 32⟩
def BU_LAST_WR_EPOCH_MGC_EPOCH : Fld := ⟨0x30, 0, 32⟩
def BU_BEACON_TIME_TIME : Fld := ⟨0x34, 0, 64⟩
def BU_CMD_FORCE_COMMIT : Fld := ⟨0x3C, 0, 1⟩
def BU_CMD_CLR_COUNTS : Fld := ⟨0x3C, 1, 1⟩
def BU_COUNTS_RUNT : Fld := ⟨0x40, 0, 16⟩
def BU_COUNTS_FLYWHEEL : Fld := ⟨0x40, 16, 16⟩
def BU_COUNTS2_HELD : Fld := ⟨0x44, 0, 16⟩
def BU_COUNTS2_SKIPPED : Fld := ⟨0x44, 16, 16⟩
def BU_GANG_SKEW : Fld := ⟨0x48, 0, 16⟩
def BU_GANG_LATENCY : Fld := ⟨0x48, 16, 16⟩
def TB_CTRL_REF : Fld := ⟨0x40000, 0, 2⟩
def TB_QUALITY_STATE : Fld := ⟨0x40004, 0, 3⟩
def TB_DTC_NS : Fld := ⟨0x40008, 0, 64⟩
def TB_SET_VALUE : Fld := ⟨0x40010, 0, 64⟩
def TB_CMD_SET : Fld := ⟨0x40018, 0, 1⟩
def TB_CMD_STEP : Fld := ⟨0x40018, 1, 1⟩
def TB_CMD_LOCK : Fld := ⟨0x40018, 2, 1⟩
def TB_CMD_UNLOCK : Fld := ⟨0x40018, 3, 1⟩
def TB_ADJ_ADJ : Fld := ⟨0x4001C, 0, 32⟩
def TB_SLEEP_TICKS_TICKS : Fld := ⟨0x40020, 0, 48⟩
def TB_LTC_CTRL_RATE : Fld := ⟨0x40030, 0, 3⟩
def TB_LTC_CTRL_OUT_EN : Fld := ⟨0x40030, 3, 1⟩
def TB_LTC_CTRL_GEN_MODE : Fld := ⟨0x40030, 4, 2⟩
def TB_LTC_IN_HOURS : Fld := ⟨0x40034, 24, 8⟩
def TB_LTC_IN_MINUTES : Fld := ⟨0x40034, 16, 8⟩
def TB_LTC_IN_SECONDS : Fld := ⟨0x40034, 8, 8⟩
def TB_LTC_IN_DF : Fld := ⟨0x40034, 7, 1⟩
def TB_LTC_IN_FRAMES : Fld := ⟨0x40034, 0, 6⟩
def TB_LTC_BEACON_HOURS : Fld := ⟨0x40038, 24, 8⟩
def TB_LTC_BEACON_MINUTES : Fld := ⟨0x40038, 16, 8⟩
def TB_LTC_BEACON_SECONDS : Fld := ⟨0x40038, 8, 8⟩
def TB_LTC_BEACON_DF : Fld := ⟨0x40038, 7, 1⟩
def TB_LTC_BEACON_FRAMES : Fld := ⟨0x40038, 0, 6⟩
def TB_LTC_PRESET_HOURS : Fld := ⟨0x4003C, 24, 8⟩
def TB_LTC_PRESET_MINUTES : Fld := ⟨0x4003C, 16, 8⟩
def TB_LTC_PRESET_SECONDS : Fld := ⟨0x4003C, 8, 8⟩
def TB_LTC_PRESET_DF : Fld := ⟨0x4003C, 7, 1⟩
def TB_LTC_PRESET_FRAMES : Fld := ⟨0x4003C, 0, 6⟩
def TB_LTC_STAT_IN_VALID : Fld := ⟨0x40040, 0, 1⟩
def TB_LTC_STAT_RATE_MATCH : Fld := ⟨0x40040, 1, 1⟩
def TB_LTC_STAT_TC_VALID : Fld := ⟨0x40040, 2, 1⟩
def TB_LTC_STAT_SUBFRAME : Fld := ⟨0x40040, 8, 8⟩
def TB_LTC_IN_USER_BITS : Fld := ⟨0x40044, 0, 32⟩
def TB_LTC_USER_BITS : Fld := ⟨0x40048, 0, 32⟩
def TB_LTC_CMD_LOAD : Fld := ⟨0x4004C, 0, 1⟩
def TB_TOD_OFFSET_SECONDS : Fld := ⟨0x40050, 0, 32⟩
def PPR_CTRL_EN : Fld := ⟨0x80000, 0, 1⟩
def PPR_CTRL_BOND : Fld := ⟨0x80000, 1, 2⟩
def PPR_CTRL_PATCH : Fld := ⟨0x80000, 3, 1⟩
def PPR_CTRL_AUTO_SUB : Fld := ⟨0x80000, 4, 1⟩
def PPR_CTRL_BC_EN : Fld := ⟨0x80000, 5, 1⟩
def PPR_CTRL_LINK_EN : Fld := ⟨0x80000, 6, 4⟩
def PPR_CTRL_SPARE_EN : Fld := ⟨0x80000, 10, 1⟩
def PPR_FMT0_WIDTH : Fld := ⟨0x80004, 0, 16⟩
def PPR_FMT0_HEIGHT : Fld := ⟨0x80004, 16, 16⟩
def PPR_FMT1_DEPTH : Fld := ⟨0x80008, 0, 2⟩
def PPR_FMT1_MONO : Fld := ⟨0x80008, 2, 1⟩
def PPR_FMT1_CFA : Fld := ⟨0x80008, 3, 8⟩
def PPR_LINK_STATUS_BLOCK_LOCK : Fld := ⟨0x8000C, 0, 17⟩
def PPR_LINK_STATUS_LINK_UP : Fld := ⟨0x8000C, 17, 4⟩
def PPR_LINK_STATUS_SPARE_USE : Fld := ⟨0x8000C, 21, 5⟩
def PPR_LINK_STATUS_SPARE_BUSY : Fld := ⟨0x8000C, 26, 1⟩
def PPR_SUBST_LANE : Fld := ⟨0x80010, 0, 4⟩
def PPR_SUBST_GO : Fld := ⟨0x80010, 4, 1⟩
def PPR_SUBST_UNDO : Fld := ⟨0x80010, 5, 1⟩
def PPR_SUB_THRESH_COUNT : Fld := ⟨0x80014, 0, 16⟩
def PPR_SKEW_LINK0 : Fld := ⟨0x80018, 0, 8⟩
def PPR_SKEW_LINK1 : Fld := ⟨0x80018, 8, 8⟩
def PPR_SKEW_LINK2 : Fld := ⟨0x80018, 16, 8⟩
def PPR_SKEW_LINK3 : Fld := ⟨0x80018, 24, 8⟩
def PPR_DISCARD_CRC : Fld := ⟨0x80020, 0, 16⟩
def PPR_DISCARD_FORMAT : Fld := ⟨0x80020, 16, 16⟩
def PPR_LOST_LINES_LOST : Fld := ⟨0x80024, 0, 16⟩
def PPR_LOST_LINES_PATCHED : Fld := ⟨0x80024, 16, 16⟩
def PPR_LATE_LATE_LINES : Fld := ⟨0x80028, 0, 16⟩
def PPR_LATE_EARLY_FRAMES : Fld := ⟨0x80028, 16, 16⟩
def PPR_CMD_CLR_COUNTS : Fld := ⟨0x8002C, 0, 1⟩
def PPR_CMD_RETRAIN : Fld := ⟨0x8002C, 1, 1⟩
def PPR_EVENTS_LANE_LOST : Fld := ⟨0x80030, 0, 1⟩
def PPR_EVENTS_SUBST_DONE : Fld := ⟨0x80030, 1, 1⟩
def PPR_EVENTS_SUBST_FAIL : Fld := ⟨0x80030, 2, 1⟩
def PPR_EVENTS_TRAIN_FAIL : Fld := ⟨0x80030, 3, 1⟩
def PPR_EVENTS_LINE_MISSING : Fld := ⟨0x80030, 4, 1⟩
def PPR_EVENTS_LATE : Fld := ⟨0x80030, 5, 1⟩
def PPR_EVENTS_EARLY : Fld := ⟨0x80030, 6, 1⟩
def PPR_ERR_LANE_SYNC (n : Nat) : Fld := ⟨0x80040 + 0x4 * n, 0, 16⟩
def PPR_ERR_LANE_MARKER (n : Nat) : Fld := ⟨0x80040 + 0x4 * n, 16, 16⟩
def TLR_CTRL_EN : Fld := ⟨0xC0000, 0, 1⟩
def TLR_STATUS_N : Fld := ⟨0xC0004, 0, 7⟩
def TLR_STATUS_PAD : Fld := ⟨0xC0004, 7, 1⟩
def TLR_EPOCH_EPOCH : Fld := ⟨0xC0008, 0, 32⟩
def TLR_REJECT_COUNT : Fld := ⟨0xC000C, 0, 16⟩
def TLR_OVERFLOW_COUNT : Fld := ⟨0xC0010, 0, 16⟩
def TLR_BIND_SLOT (n : Nat) : Fld := ⟨0xC0100 + 0x4 * n, 0, 2⟩
def TLR_BIND_QUAD (n : Nat) : Fld := ⟨0xC0100 + 0x4 * n, 2, 2⟩
def TLR_BIND_REGION (n : Nat) : Fld := ⟨0xC0100 + 0x4 * n, 4, 2⟩
def TLR_BIND_SPARE (n : Nat) : Fld := ⟨0xC0100 + 0x4 * n, 6, 1⟩
def TLR_BIND_VALID (n : Nat) : Fld := ⟨0xC0100 + 0x4 * n, 7, 1⟩
def TLR_BIND_UNITS (n : Nat) : Fld := ⟨0xC0100 + 0x4 * n, 8, 8⟩
def TLR_BIND_START (n : Nat) : Fld := ⟨0xC0100 + 0x4 * n, 16, 9⟩
def FAL_CTRL_EN : Fld := ⟨0x100000, 0, 1⟩
def FAL_CTRL_MODE : Fld := ⟨0x100000, 1, 2⟩
def FAL_CTRL_TEMPORAL : Fld := ⟨0x100000, 3, 1⟩
def FAL_CTRL_OVERSIZE : Fld := ⟨0x100000, 4, 1⟩
def FAL_TARGET_BYTES : Fld := ⟨0x100004, 0, 32⟩
def FAL_QFLOOR_Q : Fld := ⟨0x100008, 0, 12⟩
def FAL_WEIGHT_GB : Fld := ⟨0x10000C, 0, 24⟩
def FAL_WEIGHT_GC : Fld := ⟨0x10000C, 24, 8⟩
def FAL_STATUS_BUSY : Fld := ⟨0x100010, 0, 1⟩
def FAL_STATUS_ALL_FIT : Fld := ⟨0x100010, 1, 1⟩
def FAL_STATUS_OVERSIZE : Fld := ⟨0x100010, 2, 1⟩
def FAL_STATUS_QCAPPED : Fld := ⟨0x100010, 3, 1⟩
def FAL_STATUS_TIMEOUT : Fld := ⟨0x100010, 4, 1⟩
def FAL_DEC_EPOCH_EPOCH : Fld := ⟨0x100014, 0, 32⟩
def FAL_DEC_TSTAR_LIM : Fld := ⟨0x100018, 0, 13⟩
def FAL_DEC_FIXED_BYTES : Fld := ⟨0x10001C, 0, 32⟩
def FAL_DEC_ABOVE_BYTES : Fld := ⟨0x100020, 0, 32⟩
def FAL_DEC_QUOTA_BYTES : Fld := ⟨0x100024, 0, 32⟩
def FAL_DEC_TIME_NS : Fld := ⟨0x100028, 0, 32⟩
def FAL_COUNTS_OVERSIZE : Fld := ⟨0x10002C, 0, 16⟩
def FAL_COUNTS_TIMEOUT : Fld := ⟨0x10002C, 16, 16⟩
def FAL_ESC_BUDGET : Fld := ⟨0x100030, 0, 16⟩
def FAL_ESC_SIZE : Fld := ⟨0x100030, 16, 16⟩
def FAL_CMD_CLR_COUNTS : Fld := ⟨0x100034, 0, 1⟩
def FAL_EVENTS_DECIDED : Fld := ⟨0x100038, 0, 1⟩
def FAL_EVENTS_OVERSIZE : Fld := ⟨0x100038, 1, 1⟩
def FAL_EVENTS_TIMEOUT : Fld := ⟨0x100038, 2, 1⟩
def FAL_EVENTS_LATE_RECORD : Fld := ⟨0x100038, 3, 1⟩
def FAL_EVENTS_TARGET_REJECT : Fld := ⟨0x100038, 4, 1⟩
def FAL_ESC2_FORCED : Fld := ⟨0x10003C, 0, 16⟩
def FAL_ESC2_VREPL : Fld := ⟨0x10003C, 16, 16⟩
def FAL_HIST_SEL_BIN : Fld := ⟨0x100040, 0, 12⟩
def FAL_HIST_DATA_BYTES : Fld := ⟨0x100044, 0, 32⟩
def PKR_CTRL_EN : Fld := ⟨0x140000, 0, 1⟩
def PKR_STATUS_EMITTING : Fld := ⟨0x140004, 0, 1⟩
def PKR_STATUS_WAITING : Fld := ⟨0x140004, 1, 3⟩
def PKR_EMIT_EPOCH_EPOCH : Fld := ⟨0x140008, 0, 32⟩
def PKR_LAST_SIZE_BYTES : Fld := ⟨0x14000C, 0, 32⟩
def PKR_LAST_TIE_BYTES : Fld := ⟨0x140010, 0, 32⟩
def PKR_LAST_FILLER_BYTES : Fld := ⟨0x140014, 0, 32⟩
def PKR_LAST_MARGIN_NS : Fld := ⟨0x140018, 0, 32⟩
def PKR_COUNTS_LATE : Fld := ⟨0x14001C, 0, 16⟩
def PKR_COUNTS_DROPPED : Fld := ⟨0x14001C, 16, 16⟩
def PKR_CMD_CLR_COUNTS : Fld := ⟨0x140020, 0, 1⟩
def PKR_EVENTS_FRAME_DONE : Fld := ⟨0x140024, 0, 1⟩
def PKR_EVENTS_LATE : Fld := ⟨0x140024, 1, 1⟩
def PKR_EVENTS_DROPPED : Fld := ⟨0x140024, 2, 1⟩
def CE_RG_CTRL_AUTO_RETURN (n : Nat) : Fld := ⟨0x1000000 + 0x400000 * n, 0, 1⟩
def CE_RG_CTRL_RETIRE_LIMIT (n : Nat) : Fld := ⟨0x1000000 + 0x400000 * n, 1, 3⟩
def CE_RG_STATUS_CLK_POINT (n : Nat) : Fld := ⟨0x1000004 + 0x400000 * n, 0, 2⟩
def CE_RG_STATUS_SPARE (n : Nat) : Fld := ⟨0x1000004 + 0x400000 * n, 2, 2⟩
def CE_RG_STATUS_SPARE_POS (n : Nat) : Fld := ⟨0x1000004 + 0x400000 * n, 4, 4⟩
def CE_RG_STATUS_ACTIVE (n : Nat) : Fld := ⟨0x1000004 + 0x400000 * n, 8, 5⟩
def CE_RG_UC_ADDR_ADDR (n : Nat) : Fld := ⟨0x1000008 + 0x400000 * n, 0, 64⟩
def CE_RG_UC_CRC_CRC (n : Nat) : Fld := ⟨0x1000010 + 0x400000 * n, 0, 32⟩
def CE_RG_BANK_OPEN (n : Nat) : Fld := ⟨0x1000014 + 0x400000 * n, 0, 2⟩
def CE_RG_BANK_EPOCH0_EPOCH (n : Nat) : Fld := ⟨0x1000018 + 0x400000 * n, 0, 32⟩
def CE_RG_BANK_EPOCH1_EPOCH (n : Nat) : Fld := ⟨0x100001C + 0x400000 * n, 0, 32⟩
def CE_RG_EVENTS_SPARE_IN (n : Nat) : Fld := ⟨0x1000020 + 0x400000 * n, 0, 1⟩
def CE_RG_EVENTS_SPARE_OUT (n : Nat) : Fld := ⟨0x1000020 + 0x400000 * n, 1, 1⟩
def CE_RG_EVENTS_LOAD_DONE (n : Nat) : Fld := ⟨0x1000020 + 0x400000 * n, 2, 1⟩
def CE_RG_EVENTS_LOAD_FAIL (n : Nat) : Fld := ⟨0x1000020 + 0x400000 * n, 3, 1⟩
def CE_RG_EVENTS_RETIRED (n : Nat) : Fld := ⟨0x1000020 + 0x400000 * n, 4, 1⟩
def CE_Q_OCC_SLOT0 (n : Nat) : Fld := ⟨0x1040000 + 0x40000 * (n % 4) + 0x400000 * (n / 4), 0, 7⟩
def CE_Q_OCC_SLOT1 (n : Nat) : Fld := ⟨0x1040000 + 0x40000 * (n % 4) + 0x400000 * (n / 4), 8, 7⟩
def CE_Q_OCC_SLOT2 (n : Nat) : Fld := ⟨0x1040000 + 0x40000 * (n % 4) + 0x400000 * (n / 4), 16, 7⟩
def CE_Q_OCC_SLOT3 (n : Nat) : Fld := ⟨0x1040000 + 0x40000 * (n % 4) + 0x400000 * (n / 4), 24, 7⟩
def CE_Q_ECC_CORR (n : Nat) : Fld := ⟨0x1040004 + 0x40000 * (n % 4) + 0x400000 * (n / 4), 0, 16⟩
def CE_Q_ECC_UNCORR (n : Nat) : Fld := ⟨0x1040004 + 0x40000 * (n % 4) + 0x400000 * (n / 4), 16, 16⟩
def CE_ENG_STATE_STATE (n : Nat) : Fld := ⟨0x1200000 + 0x10000 * (n % 17) + 0x400000 * (n / 17), 0, 3⟩
def CE_ENG_STATE_BUSY (n : Nat) : Fld := ⟨0x1200000 + 0x10000 * (n % 17) + 0x400000 * (n / 17), 3, 1⟩
def CE_ENG_STATE_JOBS (n : Nat) : Fld := ⟨0x1200000 + 0x10000 * (n % 17) + 0x400000 * (n / 17), 4, 7⟩
def CE_ENG_STATE_MACRO (n : Nat) : Fld := ⟨0x1200000 + 0x10000 * (n % 17) + 0x400000 * (n / 17), 16, 8⟩
def CE_ENG_CMD_HALT (n : Nat) : Fld := ⟨0x1200004 + 0x10000 * (n % 17) + 0x400000 * (n / 17), 0, 1⟩
def CE_ENG_CMD_RESUME (n : Nat) : Fld := ⟨0x1200004 + 0x10000 * (n % 17) + 0x400000 * (n / 17), 1, 1⟩
def CE_ENG_CMD_LOAD (n : Nat) : Fld := ⟨0x1200004 + 0x10000 * (n % 17) + 0x400000 * (n / 17), 2, 1⟩
def CE_ENG_CMD_RESET (n : Nat) : Fld := ⟨0x1200004 + 0x10000 * (n % 17) + 0x400000 * (n / 17), 3, 1⟩
def CE_ENG_CMD_UNRETIRE (n : Nat) : Fld := ⟨0x1200004 + 0x10000 * (n % 17) + 0x400000 * (n / 17), 4, 1⟩
def CE_ENG_CMD_ADMIT (n : Nat) : Fld := ⟨0x1200004 + 0x10000 * (n % 17) + 0x400000 * (n / 17), 5, 1⟩
def CE_ENG_UC_VER_MINOR (n : Nat) : Fld := ⟨0x1200008 + 0x10000 * (n % 17) + 0x400000 * (n / 17), 0, 16⟩
def CE_ENG_UC_VER_MAJOR (n : Nat) : Fld := ⟨0x1200008 + 0x10000 * (n % 17) + 0x400000 * (n / 17), 16, 16⟩
def CE_ENG_UC_BUILD_BUILD (n : Nat) : Fld := ⟨0x120000C + 0x10000 * (n % 17) + 0x400000 * (n / 17), 0, 32⟩
def CE_ENG_UC_EPOCH_EPOCH (n : Nat) : Fld := ⟨0x1200010 + 0x10000 * (n % 17) + 0x400000 * (n / 17), 0, 32⟩
def CE_ENG_UC_STAT_VALID (n : Nat) : Fld := ⟨0x1200014 + 0x10000 * (n % 17) + 0x400000 * (n / 17), 0, 1⟩
def CE_ENG_UC_STAT_LOAD_ERR (n : Nat) : Fld := ⟨0x1200014 + 0x10000 * (n % 17) + 0x400000 * (n / 17), 1, 3⟩
def CE_ENG_MCHK_UC_ADDR (n : Nat) : Fld := ⟨0x1200018 + 0x10000 * (n % 17) + 0x400000 * (n / 17), 0, 13⟩
def CE_ENG_MCHK_QUARTER (n : Nat) : Fld := ⟨0x1200018 + 0x10000 * (n % 17) + 0x400000 * (n / 17), 13, 4⟩
def CE_ENG_MCHK_CAUSE (n : Nat) : Fld := ⟨0x1200018 + 0x10000 * (n % 17) + 0x400000 * (n / 17), 17, 3⟩
def CE_ENG_MCHK_MACRO (n : Nat) : Fld := ⟨0x1200018 + 0x10000 * (n % 17) + 0x400000 * (n / 17), 20, 8⟩
def CE_ENG_MCHK_JOB (n : Nat) : Fld := ⟨0x1200018 + 0x10000 * (n % 17) + 0x400000 * (n / 17), 28, 1⟩
def CE_ENG_MCHK_EPOCH_EPOCH (n : Nat) : Fld := ⟨0x120001C + 0x10000 * (n % 17) + 0x400000 * (n / 17), 0, 32⟩
def CE_ENG_MCHK_POS_ROW (n : Nat) : Fld := ⟨0x1200020 + 0x10000 * (n % 17) + 0x400000 * (n / 17), 0, 10⟩
def CE_ENG_MCHK_POS_COLUMN (n : Nat) : Fld := ⟨0x1200020 + 0x10000 * (n % 17) + 0x400000 * (n / 17), 10, 7⟩
def CE_ENG_VCOUNT_CODED (n : Nat) : Fld := ⟨0x1200024 + 0x10000 * (n % 17) + 0x400000 * (n / 17), 0, 16⟩
def CE_ENG_VCOUNT_ESCAPE (n : Nat) : Fld := ⟨0x1200024 + 0x10000 * (n % 17) + 0x400000 * (n / 17), 16, 16⟩
def CE_ENG_VERIFIED_COUNT (n : Nat) : Fld := ⟨0x1200028 + 0x10000 * (n % 17) + 0x400000 * (n / 17), 0, 32⟩
def CE_ENG_FAULTS_ISOLATIONS (n : Nat) : Fld := ⟨0x120002C + 0x10000 * (n % 17) + 0x400000 * (n / 17), 0, 8⟩
def CE_ENG_FAULTS_SRAM_CORR (n : Nat) : Fld := ⟨0x120002C + 0x10000 * (n % 17) + 0x400000 * (n / 17), 8, 16⟩
def CE_ENG_CLR_CLR_COUNTS (n : Nat) : Fld := ⟨0x1200030 + 0x10000 * (n % 17) + 0x400000 * (n / 17), 0, 1⟩
def CE_ENG_IA_SEL_SPACE (n : Nat) : Fld := ⟨0x1200040 + 0x10000 * (n % 17) + 0x400000 * (n / 17), 0, 2⟩
def CE_ENG_IA_ADDR_ADDR (n : Nat) : Fld := ⟨0x1200044 + 0x10000 * (n % 17) + 0x400000 * (n / 17), 0, 23⟩
def CE_ENG_IA_CMD_READ (n : Nat) : Fld := ⟨0x120005C + 0x10000 * (n % 17) + 0x400000 * (n / 17), 0, 1⟩
def CE_ENG_IA_DATA0_DATA (n : Nat) : Fld := ⟨0x1200048 + 0x10000 * (n % 17) + 0x400000 * (n / 17), 0, 32⟩
def CE_ENG_IA_DATA1_DATA (n : Nat) : Fld := ⟨0x120004C + 0x10000 * (n % 17) + 0x400000 * (n / 17), 0, 32⟩
def CE_ENG_IA_DATA2_DATA (n : Nat) : Fld := ⟨0x1200050 + 0x10000 * (n % 17) + 0x400000 * (n / 17), 0, 32⟩
def CE_ENG_IA_DATA3_DATA (n : Nat) : Fld := ⟨0x1200054 + 0x10000 * (n % 17) + 0x400000 * (n / 17), 0, 32⟩
def CE_ENG_IA_DATA4_DATA (n : Nat) : Fld := ⟨0x1200058 + 0x10000 * (n % 17) + 0x400000 * (n / 17), 0, 16⟩
def LMC_CTRL_EN : Fld := ⟨0x240000, 0, 1⟩
def LMC_CTRL_RATE : Fld := ⟨0x240000, 1, 2⟩
def LMC_CTRL_SPARE_EN : Fld := ⟨0x240000, 3, 1⟩
def LMC_CTRL_SPARE_CH : Fld := ⟨0x240000, 4, 2⟩
def LMC_CTRL_SPARE_CS : Fld := ⟨0x240000, 6, 1⟩
def LMC_STATUS_READY : Fld := ⟨0x240004, 0, 1⟩
def LMC_STATUS_INIT_ERR : Fld := ⟨0x240004, 1, 3⟩
def LMC_STATUS_TWO_RANK : Fld := ⟨0x240004, 4, 1⟩
def LMC_STATUS_DENSITY : Fld := ⟨0x240004, 5, 3⟩
def LMC_STATUS_MIGRATING : Fld := ⟨0x240004, 8, 1⟩
def LMC_STATUS_SPARE_USED : Fld := ⟨0x240004, 9, 1⟩
def LMC_STATUS_SET_SHARE : Fld := ⟨0x240004, 10, 1⟩
def LMC_CAP_BYTES : Fld := ⟨0x240008, 0, 64⟩
def LMC_SCHED_AGE_LIMIT : Fld := ⟨0x240010, 0, 12⟩
def LMC_SCHED_OPEN_MAX : Fld := ⟨0x240010, 16, 8⟩
def LMC_WQ_HIGH : Fld := ⟨0x240014, 0, 6⟩
def LMC_WQ_LOW : Fld := ⟨0x240014, 8, 6⟩
def LMC_TRAIN_DRIFT : Fld := ⟨0x240018, 0, 10⟩
def LMC_TRAIN_MIN_WIN : Fld := ⟨0x240018, 10, 8⟩
def LMC_TRAIN_AUTO : Fld := ⟨0x240018, 18, 1⟩
def LMC_CMD_RETRAIN : Fld := ⟨0x24001C, 0, 1⟩
def LMC_CMD_RETIRE : Fld := ⟨0x24001C, 1, 1⟩
def LMC_CMD_THAW : Fld := ⟨0x24001C, 2, 1⟩
def LMC_CMD_CLR_COUNTS : Fld := ⟨0x24001C, 3, 1⟩
def LMC_CMD_POS : Fld := ⟨0x24001C, 4, 3⟩
def LMC_SCRUB_HOURS : Fld := ⟨0x240020, 0, 8⟩
def LMC_CE_LIMIT_COUNT : Fld := ⟨0x240024, 0, 16⟩
def LMC_MIG_RATE : Fld := ⟨0x240028, 0, 8⟩
def LMC_MIG_PTR_BYTES : Fld := ⟨0x240030, 0, 64⟩
def LMC_EVENTS_CE : Fld := ⟨0x240038, 0, 1⟩
def LMC_EVENTS_UE : Fld := ⟨0x240038, 1, 1⟩
def LMC_EVENTS_RETIRE_START : Fld := ⟨0x240038, 2, 1⟩
def LMC_EVENTS_RETIRE_DONE : Fld := ⟨0x240038, 3, 1⟩
def LMC_EVENTS_MIG_ABORT : Fld := ⟨0x240038, 4, 1⟩
def LMC_EVENTS_NO_SPARE : Fld := ⟨0x240038, 5, 1⟩
def LMC_EVENTS_FROZEN : Fld := ⟨0x240038, 6, 1⟩
def LMC_EVENTS_TRAIN_DONE : Fld := ⟨0x240038, 7, 1⟩
def LMC_EVENTS_TRAIN_FORCED : Fld := ⟨0x240038, 8, 1⟩
def LMC_EVENTS_TEMP : Fld := ⟨0x240038, 9, 1⟩
def LMC_RANK_STATE (n : Nat) : Fld := ⟨0x240100 + 0x4 * n, 0, 3⟩
def LMC_RANK_RATE (n : Nat) : Fld := ⟨0x240100 + 0x4 * n, 3, 5⟩
def LMC_RANK_UE (n : Nat) : Fld := ⟨0x240100 + 0x4 * n, 8, 8⟩
def LMC_RANK_CE (n : Nat) : Fld := ⟨0x240100 + 0x4 * n, 16, 16⟩
def LMC_CH_POLICY_FREEZE (n : Nat) : Fld := ⟨0x240200 + 0x40 * n, 0, 1⟩
def LMC_CH_POLICY_CLR_CAPTURE (n : Nat) : Fld := ⟨0x240200 + 0x40 * n, 1, 1⟩
def LMC_CH_ERR_ADDR_ADDR (n : Nat) : Fld := ⟨0x240204 + 0x40 * n, 0, 64⟩
def LMC_CH_ERR_SYND_SYND (n : Nat) : Fld := ⟨0x24020C + 0x40 * n, 0, 16⟩
def LMC_CH_ERR_SYND_HALF (n : Nat) : Fld := ⟨0x24020C + 0x40 * n, 16, 1⟩
def LMC_CH_ERR_SYND_VALID (n : Nat) : Fld := ⟨0x24020C + 0x40 * n, 17, 1⟩
def LMC_CH_ERR_SYND_RANK (n : Nat) : Fld := ⟨0x24020C + 0x40 * n, 18, 1⟩
def LMC_CH_STAT_FROZEN (n : Nat) : Fld := ⟨0x240210 + 0x40 * n, 0, 1⟩
def LMC_CH_STAT_TRAINING (n : Nat) : Fld := ⟨0x240210 + 0x40 * n, 1, 1⟩
def LMC_CH_STAT_TRAINS (n : Nat) : Fld := ⟨0x240210 + 0x40 * n, 8, 16⟩
def LMC_CH_TRACE_SEL_ENTRY (n : Nat) : Fld := ⟨0x240214 + 0x40 * n, 0, 6⟩
def LMC_CH_TRACE_DATA_CMD (n : Nat) : Fld := ⟨0x240218 + 0x40 * n, 0, 4⟩
def LMC_CH_TRACE_DATA_CS (n : Nat) : Fld := ⟨0x240218 + 0x40 * n, 4, 1⟩
def LMC_CH_TRACE_DATA_BANK (n : Nat) : Fld := ⟨0x240218 + 0x40 * n, 5, 4⟩
def LMC_CH_TRACE_DATA_ROWCOL (n : Nat) : Fld := ⟨0x240218 + 0x40 * n, 9, 18⟩
def OQ_CTRL_EN : Fld := ⟨0x180000, 0, 1⟩
def OQ_CTRL_DROP_EN : Fld := ⟨0x180000, 1, 1⟩
def OQ_DROP_MARK_PERCENT : Fld := ⟨0x180004, 0, 7⟩
def OQ_EVENTS_RESET : Fld := ⟨0x180008, 0, 1⟩
def OQ_EVENTS_UNDERRUN : Fld := ⟨0x180008, 1, 1⟩
def OQ_EVENTS_OVERFLOW : Fld := ⟨0x180008, 2, 1⟩
def OQ_EVENTS_DROP : Fld := ⟨0x180008, 3, 1⟩
def OQ_COUNTS_DROPPED_FRAMES : Fld := ⟨0x18000C, 0, 16⟩
def OQ_COUNTS_RESETS : Fld := ⟨0x18000C, 16, 16⟩
def OQ_Q_RING_BASE_ADDR (n : Nat) : Fld := ⟨0x181000 + 0x40 * n, 12, 52⟩
def OQ_Q_RING_SIZE_BYTES (n : Nat) : Fld := ⟨0x181008 + 0x40 * n, 0, 32⟩
def OQ_Q_STAT_EMPTY (n : Nat) : Fld := ⟨0x18100C + 0x40 * n, 0, 1⟩
def OQ_Q_STAT_UNDERRUN (n : Nat) : Fld := ⟨0x18100C + 0x40 * n, 1, 1⟩
def OQ_Q_STAT_LANES (n : Nat) : Fld := ⟨0x18100C + 0x40 * n, 2, 1⟩
def OQ_Q_FILL_BYTES (n : Nat) : Fld := ⟨0x181010 + 0x40 * n, 0, 32⟩
def OQ_Q_POP_DATA (n : Nat) : Fld := ⟨0x181014 + 0x40 * n, 0, 32⟩
def OQ_Q_PUSH_END_END (n : Nat) : Fld := ⟨0x181018 + 0x40 * n, 0, 1⟩
def OQ_Q_LAST_DATA (n : Nat) : Fld := ⟨0x18101C + 0x40 * n, 0, 32⟩
def OQ_Q_STATS_RESETS (n : Nat) : Fld := ⟨0x181020 + 0x40 * n, 0, 8⟩
def OQ_Q_STATS_OVERFLOW (n : Nat) : Fld := ⟨0x181020 + 0x40 * n, 8, 8⟩
def OQ_Q_STATS_STALE (n : Nat) : Fld := ⟨0x181020 + 0x40 * n, 16, 8⟩
def OQ_Q_STATS_TAG_REJ (n : Nat) : Fld := ⟨0x181020 + 0x40 * n, 24, 8⟩
def BPM_EVENTS_LOW : Fld := ⟨0x1C0000, 0, 16⟩
def BPM_EVENTS_BAD : Fld := ⟨0x1C0000, 16, 16⟩
def BPM_P_BASE_ADDR (n : Nat) : Fld := ⟨0x1C0100 + 0x40 * n, 12, 52⟩
def BPM_P_CFG_SIZE_LOG (n : Nat) : Fld := ⟨0x1C0108 + 0x40 * n, 0, 4⟩
def BPM_P_CFG_EN (n : Nat) : Fld := ⟨0x1C0108 + 0x40 * n, 4, 1⟩
def BPM_P_COUNT_BUFFERS (n : Nat) : Fld := ⟨0x1C010C + 0x40 * n, 0, 21⟩
def BPM_P_OWNER_BASE_ADDR (n : Nat) : Fld := ⟨0x1C0110 + 0x40 * n, 0, 64⟩
def BPM_P_FREE_COUNT (n : Nat) : Fld := ⟨0x1C0118 + 0x40 * n, 0, 21⟩
def BPM_P_LOW_MARK_COUNT (n : Nat) : Fld := ⟨0x1C011C + 0x40 * n, 0, 21⟩
def BPM_P_ALLOC_RESULT (n : Nat) : Fld := ⟨0x1C0120 + 0x40 * n, 0, 64⟩
def BPM_P_OP_ADDR_ADDR (n : Nat) : Fld := ⟨0x1C0128 + 0x40 * n, 0, 64⟩
def BPM_P_OP_FREE (n : Nat) : Fld := ⟨0x1C0130 + 0x40 * n, 0, 1⟩
def BPM_P_OP_HANDOVER (n : Nat) : Fld := ⟨0x1C0130 + 0x40 * n, 1, 1⟩
def BPM_P_OP_NEW_OWNER (n : Nat) : Fld := ⟨0x1C0130 + 0x40 * n, 8, 8⟩
def BPM_P_OP_RESULT_CODE (n : Nat) : Fld := ⟨0x1C0134 + 0x40 * n, 0, 3⟩
def BPM_P_STATS_BAD_FREE (n : Nat) : Fld := ⟨0x1C0138 + 0x40 * n, 0, 16⟩
def BPM_P_STATS_FAILS (n : Nat) : Fld := ⟨0x1C0138 + 0x40 * n, 16, 16⟩
def BPM_P_INIT_INIT (n : Nat) : Fld := ⟨0x1C013C + 0x40 * n, 0, 1⟩
def BPM_P_INIT_BUSY (n : Nat) : Fld := ⟨0x1C013C + 0x40 * n, 1, 1⟩
def BPM_P_INIT_BROKEN (n : Nat) : Fld := ⟨0x1C013C + 0x40 * n, 2, 1⟩
def DMA_EVT_PEND_LINES : Fld := ⟨0x200000, 1, 63⟩
def DMA_CH_CTRL_EN (n : Nat) : Fld := ⟨0x200100 + 0x40 * n, 0, 1⟩
def DMA_CH_CTRL_PRIO (n : Nat) : Fld := ⟨0x200100 + 0x40 * n, 1, 1⟩
def DMA_CH_CTRL_KICK (n : Nat) : Fld := ⟨0x200100 + 0x40 * n, 2, 1⟩
def DMA_CH_CTRL_RESUME (n : Nat) : Fld := ⟨0x200100 + 0x40 * n, 3, 1⟩
def DMA_CH_CTRL_SKIP (n : Nat) : Fld := ⟨0x200100 + 0x40 * n, 4, 1⟩
def DMA_CH_CTRL_ABORT (n : Nat) : Fld := ⟨0x200100 + 0x40 * n, 5, 1⟩
def DMA_CH_RING_BASE_ADDR (n : Nat) : Fld := ⟨0x200104 + 0x40 * n, 6, 58⟩
def DMA_CH_RING_SIZE_COUNT (n : Nat) : Fld := ⟨0x20010C + 0x40 * n, 0, 13⟩
def DMA_CH_HEAD_INDEX (n : Nat) : Fld := ⟨0x200110 + 0x40 * n, 0, 12⟩
def DMA_CH_STAT_STATE (n : Nat) : Fld := ⟨0x200114 + 0x40 * n, 0, 2⟩
def DMA_CH_STAT_LAST_STATUS (n : Nat) : Fld := ⟨0x200114 + 0x40 * n, 8, 8⟩
def DMA_CH_STAT_HALT_INDEX (n : Nat) : Fld := ⟨0x200114 + 0x40 * n, 16, 12⟩
def DMA_CH_POLL_US (n : Nat) : Fld := ⟨0x200118 + 0x40 * n, 0, 16⟩
def DMA_CH_DONE_COUNT (n : Nat) : Fld := ⟨0x20011C + 0x40 * n, 0, 32⟩
def MGH_CTRL_EN : Fld := ⟨0x280000, 0, 1⟩
def MGH_CTRL_AUTO_MOOR : Fld := ⟨0x280000, 1, 1⟩
def MGH_CTRL_READ_ONLY : Fld := ⟨0x280000, 2, 1⟩
def MGH_CTRL_DEGRADE_OK : Fld := ⟨0x280000, 3, 1⟩
def MGH_CTRL_SCRUB_EN : Fld := ⟨0x280000, 4, 1⟩
def MGH_STATUS_SET_STATE : Fld := ⟨0x280004, 0, 3⟩
def MGH_STATUS_MEMBERS : Fld := ⟨0x280004, 3, 4⟩
def MGH_STATUS_STALE : Fld := ⟨0x280004, 7, 4⟩
def MGH_STATUS_PARITY : Fld := ⟨0x280004, 11, 1⟩
def MGH_STATUS_WIDTH : Fld := ⟨0x280004, 12, 3⟩
def MGH_STATUS_DEGRADED : Fld := ⟨0x280004, 15, 1⟩
def MGH_STATUS_RECOVERING : Fld := ⟨0x280004, 16, 1⟩
def MGH_CMD_MOOR : Fld := ⟨0x280008, 0, 1⟩
def MGH_CMD_UNMOOR : Fld := ⟨0x280008, 1, 1⟩
def MGH_CMD_FORMAT : Fld := ⟨0x280008, 2, 1⟩
def MGH_CMD_OPEN : Fld := ⟨0x280008, 3, 1⟩
def MGH_CMD_CLOSE : Fld := ⟨0x280008, 4, 1⟩
def MGH_CMD_DELETE_LAST : Fld := ⟨0x280008, 5, 1⟩
def MGH_CMD_REBUILD : Fld := ⟨0x280008, 6, 1⟩
def MGH_CMD_CLR_COUNTS : Fld := ⟨0x280008, 7, 1⟩
def MGH_CMD_BAYS : Fld := ⟨0x280008, 8, 4⟩
def MGH_CMD_REASON : Fld := ⟨0x280008, 16, 3⟩
def MGH_CMD_STAT_BUSY : Fld := ⟨0x28000C, 0, 1⟩
def MGH_CMD_STAT_LAST : Fld := ⟨0x28000C, 1, 3⟩
def MGH_CMD_STAT_RESULT : Fld := ⟨0x28000C, 4, 4⟩
def MGH_FMT0_WIDTH : Fld := ⟨0x280010, 0, 3⟩
def MGH_FMT0_PARITY : Fld := ⟨0x280010, 3, 1⟩
def MGH_FMT0_CHUNK_LOG : Fld := ⟨0x280010, 4, 4⟩
def MGH_FMT1_RATED_MBPS : Fld := ⟨0x280014, 0, 32⟩
def MGH_SET_ID_ID : Fld := ⟨0x280018, 0, 64⟩
def MGH_CLIP_NUMBER : Fld := ⟨0x280020, 0, 32⟩
def MGH_COMMIT_FRAMES_COUNT : Fld := ⟨0x280024, 0, 32⟩
def MGH_COMMIT_EPOCH_EPOCH : Fld := ⟨0x280028, 0, 32⟩
def MGH_COMMIT_JSEQ_JSEQ : Fld := ⟨0x28002C, 0, 64⟩
def MGH_NEXT_ROW_ROW : Fld := ⟨0x280034, 0, 64⟩
def MGH_ROWS_FREE_ROWS : Fld := ⟨0x28003C, 0, 64⟩
def MGH_SPACE_WARN_ROWS : Fld := ⟨0x280044, 0, 64⟩
def MGH_ROUND_MAX_MIB : Fld := ⟨0x28004C, 0, 8⟩
def MGH_TIMEOUT_MS : Fld := ⟨0x280050, 0, 16⟩
def MGH_STAGE_BASE_ADDR : Fld := ⟨0x280054, 12, 52⟩
def MGH_STAGE_SIZE_BYTES : Fld := ⟨0x28005C, 0, 32⟩
def MGH_EVENTS_MOORED : Fld := ⟨0x280060, 0, 1⟩
def MGH_EVENTS_UNMOORED : Fld := ⟨0x280060, 1, 1⟩
def MGH_EVENTS_MOOR_FAIL : Fld := ⟨0x280060, 2, 1⟩
def MGH_EVENTS_COMMIT : Fld := ⟨0x280060, 3, 1⟩
def MGH_EVENTS_CLIP_CLOSED : Fld := ⟨0x280060, 4, 1⟩
def MGH_EVENTS_SPACE_WARN : Fld := ⟨0x280060, 5, 1⟩
def MGH_EVENTS_FULL : Fld := ⟨0x280060, 6, 1⟩
def MGH_EVENTS_MEMBER_LOST : Fld := ⟨0x280060, 7, 1⟩
def MGH_EVENTS_REBUILD_DONE : Fld := ⟨0x280060, 8, 1⟩
def MGH_EVENTS_PF_DONE : Fld := ⟨0x280060, 9, 1⟩
def MGH_EVENTS_RECOVERED : Fld := ⟨0x280060, 10, 1⟩
def MGH_EVENTS_SCRUB_ERR : Fld := ⟨0x280060, 11, 1⟩
def MGH_COUNTS_SCRUB_REPAIRED : Fld := ⟨0x280064, 0, 16⟩
def MGH_COUNTS_PARITY_MISMATCH : Fld := ⟨0x280064, 16, 16⟩
def MGH_SCRUB_ROW_ROW : Fld := ⟨0x280068, 0, 64⟩
def MGH_SCRUB_BAD_ROW : Fld := ⟨0x280070, 0, 64⟩
def MGH_SCRUB_PASSES_COUNT : Fld := ⟨0x280078, 0, 32⟩
def MGH_PF_TIME_US : Fld := ⟨0x28007C, 0, 32⟩
def MGH_NAME_BYTES (n : Nat) : Fld := ⟨0x280080 + 0x4 * n, 0, 32⟩
def MGH_MAG_STATE_STATE (n : Nat) : Fld := ⟨0x280100 + 0x40 * n, 0, 3⟩
def MGH_MAG_STATE_PRESENT (n : Nat) : Fld := ⟨0x280100 + 0x40 * n, 3, 1⟩
def MGH_MAG_STATE_SPEED (n : Nat) : Fld := ⟨0x280100 + 0x40 * n, 4, 3⟩
def MGH_MAG_STATE_LINK_WIDTH (n : Nat) : Fld := ⟨0x280100 + 0x40 * n, 7, 2⟩
def MGH_MAG_STATE_ROLE (n : Nat) : Fld := ⟨0x280100 + 0x40 * n, 9, 3⟩
def MGH_MAG_STATE_MEMBER (n : Nat) : Fld := ⟨0x280100 + 0x40 * n, 12, 2⟩
def MGH_MAG_STATE_FAIL_CODE (n : Nat) : Fld := ⟨0x280100 + 0x40 * n, 14, 5⟩
def MGH_MAG_BLOCKS_COUNT (n : Nat) : Fld := ⟨0x280104 + 0x40 * n, 0, 64⟩
def MGH_MAG_QDEPTH_ENTRIES (n : Nat) : Fld := ⟨0x28010C + 0x40 * n, 0, 11⟩
def MGH_MAG_RATE_MBPS (n : Nat) : Fld := ⟨0x280110 + 0x40 * n, 0, 32⟩
def MGH_MAG_ERR_CMD_ERR (n : Nat) : Fld := ⟨0x280114 + 0x40 * n, 0, 16⟩
def MGH_MAG_ERR_TIMEOUTS (n : Nat) : Fld := ⟨0x280114 + 0x40 * n, 16, 16⟩
def MGH_MAG_FLUSH_MAX_US (n : Nat) : Fld := ⟨0x280118 + 0x40 * n, 0, 32⟩
def MGH_MAG_RQ_BASE_ADDR (n : Nat) : Fld := ⟨0x28011C + 0x40 * n, 6, 58⟩
def MGH_MAG_RQ_SIZE_COUNT (n : Nat) : Fld := ⟨0x280124 + 0x40 * n, 0, 11⟩
def MGH_MAG_RQ_DOORBELL_RING (n : Nat) : Fld := ⟨0x280128 + 0x40 * n, 0, 1⟩
def MGH_MAG_RQ_HEAD_INDEX (n : Nat) : Fld := ⟨0x28012C + 0x40 * n, 0, 10⟩
def CXP_STATUS_LINK_UP : Fld := ⟨0x2C0000, 0, 1⟩
def CXP_STATUS_CXL_MODE : Fld := ⟨0x2C0000, 1, 1⟩
def CXP_STATUS_SPEED : Fld := ⟨0x2C0000, 2, 2⟩
def CXP_STATUS_WIDTH : Fld := ⟨0x2C0000, 4, 2⟩
def CXP_STATUS_DEGRADED : Fld := ⟨0x2C0000, 6, 1⟩
def CXP_STATUS_HOST : Fld := ⟨0x2C0000, 7, 1⟩
def CXP_STATUS_HDM_COMMITTED : Fld := ⟨0x2C0000, 8, 1⟩
def CXP_STATUS_FLUSHING : Fld := ⟨0x2C0000, 9, 1⟩
def CXP_EVENTS_HOST_UP : Fld := ⟨0x2C0004, 0, 1⟩
def CXP_EVENTS_HOST_DOWN : Fld := ⟨0x2C0004, 1, 1⟩
def CXP_EVENTS_LINK_RESET : Fld := ⟨0x2C0004, 2, 1⟩
def CXP_EVENTS_BIAS_DONE : Fld := ⟨0x2C0004, 3, 1⟩
def CXP_EVENTS_DIRTY_LOST : Fld := ⟨0x2C0004, 4, 1⟩
def CXP_EVENTS_VIRAL : Fld := ⟨0x2C0004, 5, 1⟩
def CXP_CTRL_MBOX_VEC : Fld := ⟨0x2C0008, 0, 6⟩
def CXP_HDM_SIZE_BYTES : Fld := ⟨0x2C000C, 0, 64⟩
def CXP_BIAS_PAGE_INDEX : Fld := ⟨0x2C0014, 0, 15⟩
def CXP_BIAS_CMD_TO_HOST : Fld := ⟨0x2C0018, 0, 1⟩
def CXP_BIAS_CMD_TO_DEVICE : Fld := ⟨0x2C0018, 1, 1⟩
def CXP_BIAS_STAT_BUSY : Fld := ⟨0x2C001C, 0, 1⟩
def CXP_BIAS_STAT_BIAS : Fld := ⟨0x2C001C, 1, 1⟩
def CXP_COUNTS_BIAS_MISS : Fld := ⟨0x2C0020, 0, 16⟩
def CXP_COUNTS_DIRTY_LOST : Fld := ⟨0x2C0020, 16, 16⟩
def CXP_COUNTS2_LINK_RESETS : Fld := ⟨0x2C0024, 0, 16⟩
def CXP_COUNTS2_HOST_DOWNS : Fld := ⟨0x2C0024, 16, 16⟩
def CXP_CMD_CLR_COUNTS : Fld := ⟨0x2C0028, 0, 1⟩
def CXP_CMD_CACHE_FLUSH : Fld := ⟨0x2C0028, 1, 1⟩
def PXP_CTRL_EN : Fld := ⟨0x340000, 0, 1⟩
def PXP_CTRL_SRC : Fld := ⟨0x340000, 1, 1⟩
def PXP_CTRL_HOST_EN : Fld := ⟨0x340000, 2, 1⟩
def PXP_CTRL_OUT_FMT : Fld := ⟨0x340000, 3, 1⟩
def PXP_CTRL_OUT_RATE : Fld := ⟨0x340000, 4, 4⟩
def PXP_STATUS_DEVELOPING : Fld := ⟨0x340004, 0, 1⟩
def PXP_STATUS8_EPOCH : Fld := ⟨0x340008, 0, 32⟩
def PXP_BLACK_LEVEL : Fld := ⟨0x34000C, 0, 16⟩
def PXP_GAIN_R : Fld := ⟨0x340010, 0, 16⟩
def PXP_GAIN_B : Fld := ⟨0x340010, 16, 16⟩
def PXP_MATRIX_M (n : Nat) : Fld := ⟨0x340014 + 0x4 * n, 0, 16⟩
def PXP_LUT_SEL_INDEX : Fld := ⟨0x340040, 0, 12⟩
def PXP_LUT_DATA_VALUE : Fld := ⟨0x340044, 0, 10⟩
def PXP_HOST_BASE_ADDR : Fld := ⟨0x340048, 6, 58⟩
def PXP_HOST_FREE_MAP : Fld := ⟨0x340050, 0, 8⟩
def PXP_REVIEW_BASE_ADDR : Fld := ⟨0x340054, 6, 58⟩
def PXP_REVIEW_PITCH_BYTES : Fld := ⟨0x34005C, 6, 12⟩
def PXP_REVIEW_FMT0 : Fld := ⟨0x340060, 0, 32⟩
def PXP_REVIEW_FMT1 : Fld := ⟨0x340064, 0, 11⟩
def PXP_CMD_REVIEW_GO : Fld := ⟨0x340068, 0, 1⟩
def PXP_CMD_CLR_COUNTS : Fld := ⟨0x340068, 1, 1⟩
def PXP_COUNTS_UNFUNDED : Fld := ⟨0x34006C, 0, 16⟩
def PXP_COUNTS_REPEATED : Fld := ⟨0x34006C, 16, 16⟩
def PXP_COUNTS2_HOST_SKIP : Fld := ⟨0x340070, 0, 16⟩
def PXP_COUNTS2_REVIEW_DROP : Fld := ⟨0x340070, 16, 16⟩
def ETH_SND_CTRL_EN (n : Nat) : Fld := ⟨0x300100 + 0x40 * n, 0, 1⟩
def ETH_SND_CTRL_PORT (n : Nat) : Fld := ⟨0x300100 + 0x40 * n, 1, 1⟩
def ETH_SND_CTRL_VLAN_EN (n : Nat) : Fld := ⟨0x300100 + 0x40 * n, 2, 1⟩
def ETH_SND_DST_IP_ADDR (n : Nat) : Fld := ⟨0x300104 + 0x40 * n, 0, 32⟩
def ETH_SND_DST_MAC_ADDR (n : Nat) : Fld := ⟨0x300108 + 0x40 * n, 0, 48⟩
def ETH_SND_DST_MAC_VID (n : Nat) : Fld := ⟨0x300108 + 0x40 * n, 48, 12⟩
def ETH_SND_UDP_SRC (n : Nat) : Fld := ⟨0x300110 + 0x40 * n, 0, 16⟩
def ETH_SND_UDP_DST (n : Nat) : Fld := ⟨0x300110 + 0x40 * n, 16, 16⟩
def ETH_SND_RTP_PT (n : Nat) : Fld := ⟨0x300114 + 0x40 * n, 0, 7⟩
def ETH_SND_RTP_DSCP (n : Nat) : Fld := ⟨0x300114 + 0x40 * n, 8, 6⟩
def ETH_SND_SSRC_SSRC (n : Nat) : Fld := ⟨0x300118 + 0x40 * n, 0, 32⟩
def ETH_SND_OFFSET_NS (n : Nat) : Fld := ⟨0x30011C + 0x40 * n, 0, 24⟩
def ETH_SND_STAT_RUNNING (n : Nat) : Fld := ⟨0x300120 + 0x40 * n, 0, 1⟩
def ETH_SND_STAT_REFUSED (n : Nat) : Fld := ⟨0x300120 + 0x40 * n, 1, 1⟩
def ETH_SND_COUNTS_DROPPED (n : Nat) : Fld := ⟨0x300124 + 0x40 * n, 0, 16⟩
def ETH_SND_COUNTS_LATE (n : Nat) : Fld := ⟨0x300124 + 0x40 * n, 16, 16⟩
def CAN_C_CTRL_EN (n : Nat) : Fld := ⟨0x380000 + 0x1000 * n, 0, 1⟩
def CAN_C_CTRL_NOM (n : Nat) : Fld := ⟨0x380000 + 0x1000 * n, 1, 1⟩
def CAN_C_CTRL_DATA (n : Nat) : Fld := ⟨0x380000 + 0x1000 * n, 2, 2⟩
def CAN_C_CTRL_AUTO_RECOVER (n : Nat) : Fld := ⟨0x380000 + 0x1000 * n, 4, 1⟩
def CAN_C_CTRL_LISTEN (n : Nat) : Fld := ⟨0x380000 + 0x1000 * n, 5, 1⟩
def CAN_C_STATUS_STATE (n : Nat) : Fld := ⟨0x380004 + 0x1000 * n, 0, 2⟩
def CAN_C_STATUS_TEC (n : Nat) : Fld := ⟨0x380004 + 0x1000 * n, 8, 8⟩
def CAN_C_STATUS_REC (n : Nat) : Fld := ⟨0x380004 + 0x1000 * n, 16, 8⟩
def CAN_C_COUNTS_BUS_OFF (n : Nat) : Fld := ⟨0x380008 + 0x1000 * n, 0, 16⟩
def CAN_C_COUNTS_RX_NODESC (n : Nat) : Fld := ⟨0x380008 + 0x1000 * n, 16, 8⟩
def CAN_C_COUNTS_RX_OTHER (n : Nat) : Fld := ⟨0x380008 + 0x1000 * n, 24, 8⟩
def CAN_C_ACCEPT_NODE (n : Nat) : Fld := ⟨0x38000C + 0x1000 * n, 0, 7⟩
def CAN_C_ACCEPT_ALL (n : Nat) : Fld := ⟨0x38000C + 0x1000 * n, 7, 1⟩
def CAN_C_TXR_BASE_ADDR (n : Nat) : Fld := ⟨0x380010 + 0x1000 * n, 4, 60⟩
def CAN_C_TXR_SIZE_COUNT (n : Nat) : Fld := ⟨0x380018 + 0x1000 * n, 0, 9⟩
def CAN_C_RXR_BASE_ADDR (n : Nat) : Fld := ⟨0x38001C + 0x1000 * n, 4, 60⟩
def CAN_C_RXR_SIZE_COUNT (n : Nat) : Fld := ⟨0x380024 + 0x1000 * n, 0, 9⟩
def CAN_C_KICK_TX (n : Nat) : Fld := ⟨0x380028 + 0x1000 * n, 0, 1⟩
def CAN_C_KICK_RX (n : Nat) : Fld := ⟨0x380028 + 0x1000 * n, 1, 1⟩
def KPR_CTRL_EN : Fld := ⟨0x440000, 0, 1⟩
def KPR_CTRL_AUTO : Fld := ⟨0x440000, 1, 1⟩
def KPR_CTRL_OPT_EN : Fld := ⟨0x440000, 2, 4⟩
def KPR_CTRL_HYST : Fld := ⟨0x440000, 6, 8⟩
def KPR_STATUS_STATE : Fld := ⟨0x440004, 0, 2⟩
def KPR_STATUS_DEFICIT : Fld := ⟨0x440004, 2, 1⟩
def KPR_STATUS_HOLDUP : Fld := ⟨0x440004, 3, 1⟩
def KPR_STATUS_DRAM_HOT : Fld := ⟨0x440004, 4, 1⟩
def KPR_STATUS_LIMITER : Fld := ⟨0x440004, 5, 2⟩
def KPR_CMD_RETAIN : Fld := ⟨0x440008, 0, 1⟩
def KPR_CMD_OFF : Fld := ⟨0x440008, 1, 1⟩
def KPR_CMD_CLR_COUNTS : Fld := ⟨0x440008, 2, 1⟩
def KPR_LIMIT_HOST_MW : Fld := ⟨0x44000C, 0, 16⟩
def KPR_BATT_MW : Fld := ⟨0x440010, 0, 16⟩
def KPR_THERM_T_ON : Fld := ⟨0x440014, 0, 8⟩
def KPR_THERM_T_TRIP : Fld := ⟨0x440014, 8, 8⟩
def KPR_THERM_SLOPE : Fld := ⟨0x440014, 16, 16⟩
def KPR_IDLE_MS : Fld := ⟨0x440018, 0, 16⟩
def KPR_SCRUB_MAX_MIB : Fld := ⟨0x44001C, 0, 8⟩
def KPR_SCRUB_PIPS_PER_MIB : Fld := ⟨0x44001C, 8, 8⟩
def KPR_PIN_N : Fld := ⟨0x440020, 0, 7⟩
def KPR_PIN_CP : Fld := ⟨0x440020, 8, 8⟩
def KPR_PIN_FUND : Fld := ⟨0x440020, 16, 4⟩
def KPR_COST_MW (n : Nat) : Fld := ⟨0x440040 + 0x4 * n, 0, 16⟩
def KPR_GRANT_N : Fld := ⟨0x440100, 0, 7⟩
def KPR_GRANT_CP : Fld := ⟨0x440100, 8, 8⟩
def KPR_GRANT_FUND : Fld := ⟨0x440100, 16, 4⟩
def KPR_GRANT_STALE : Fld := ⟨0x440100, 20, 1⟩
def KPR_GRANT_EPOCH_EPOCH : Fld := ⟨0x440104, 0, 32⟩
def KPR_BUDGET_PIPS : Fld := ⟨0x440108, 0, 32⟩
def KPR_MAND_PIPS : Fld := ⟨0x44010C, 0, 32⟩
def KPR_SPENT_PIPS : Fld := ⟨0x440110, 0, 32⟩
def KPR_SCRUB_GRANT_MIB : Fld := ⟨0x440114, 0, 8⟩
def KPR_GRANT_COLS_R0 : Fld := ⟨0x440118, 0, 5⟩
def KPR_GRANT_COLS_R1 : Fld := ⟨0x440118, 8, 5⟩
def KPR_GRANT_COLS_R2 : Fld := ⟨0x440118, 16, 5⟩
def KPR_GRANT_COLS_R3 : Fld := ⟨0x440118, 24, 5⟩
def KPR_REFUSE_LAST_CODE : Fld := ⟨0x440120, 0, 8⟩
def KPR_REFUSE_LAST_ABORT : Fld := ⟨0x440120, 8, 1⟩
def KPR_REFUSE_LAST_AP : Fld := ⟨0x440120, 9, 2⟩
def KPR_REFUSE_SEL_CODE : Fld := ⟨0x440124, 0, 8⟩
def KPR_REFUSE_DATA_REFUSED : Fld := ⟨0x440128, 0, 16⟩
def KPR_REFUSE_DATA_ABORTED : Fld := ⟨0x440128, 16, 16⟩
def KPR_COUNTS_DEFICIT : Fld := ⟨0x440130, 0, 16⟩
def KPR_COUNTS_STALE_GRANT : Fld := ⟨0x440130, 16, 16⟩
def KPR_COUNTS2_SLOT_WAITS : Fld := ⟨0x440134, 0, 16⟩
def KPR_COUNTS2_HOLDUP : Fld := ⟨0x440134, 16, 16⟩
def KPR_EVENTS_GRANT_CHANGE : Fld := ⟨0x440138, 0, 1⟩
def KPR_EVENTS_DEFICIT : Fld := ⟨0x440138, 1, 1⟩
def KPR_EVENTS_THERM : Fld := ⟨0x440138, 2, 1⟩
def KPR_EVENTS_DRAM_HOT : Fld := ⟨0x440138, 3, 1⟩
def KPR_EVENTS_REFUSED : Fld := ⟨0x440138, 4, 1⟩
def KPR_EVENTS_ABORTED : Fld := ⟨0x440138, 5, 1⟩
def KPR_EVENTS_HOLDUP : Fld := ⟨0x440138, 6, 1⟩
def KPR_TEMP_T (n : Nat) : Fld := ⟨0x440200 + 0x4 * n, 0, 12⟩
def KPR_TEMP_VALID (n : Nat) : Fld := ⟨0x440200 + 0x4 * n, 12, 1⟩
def KPR_TMAX_T : Fld := ⟨0x440260, 0, 12⟩
def AON_WAKE_EN_WAKE_PIN : Fld := ⟨0x540000, 0, 1⟩
def AON_WAKE_EN_CAN0 : Fld := ⟨0x540000, 1, 1⟩
def AON_WAKE_EN_CAN1 : Fld := ⟨0x540000, 2, 1⟩
def AON_WAKE_EN_BAY : Fld := ⟨0x540000, 3, 1⟩
def AON_WAKE_EN_HOST : Fld := ⟨0x540000, 4, 1⟩
def AON_WAKE_EN_ALARM : Fld := ⟨0x540000, 5, 1⟩
def AON_WAKE_EN_POWER : Fld := ⟨0x540000, 6, 1⟩
def AON_WAKE_EN_BEACON : Fld := ⟨0x540000, 7, 1⟩
def AON_WAKE_CAUSE_WAKE_PIN : Fld := ⟨0x540004, 0, 1⟩
def AON_WAKE_CAUSE_CAN0 : Fld := ⟨0x540004, 1, 1⟩
def AON_WAKE_CAUSE_CAN1 : Fld := ⟨0x540004, 2, 1⟩
def AON_WAKE_CAUSE_BAY : Fld := ⟨0x540004, 3, 1⟩
def AON_WAKE_CAUSE_HOST : Fld := ⟨0x540004, 4, 1⟩
def AON_WAKE_CAUSE_ALARM : Fld := ⟨0x540004, 5, 1⟩
def AON_WAKE_CAUSE_POWER : Fld := ⟨0x540004, 6, 1⟩
def AON_WAKE_CAUSE_BEACON : Fld := ⟨0x540004, 7, 1⟩
def AON_ALARM_TICKS : Fld := ⟨0x540008, 0, 48⟩
def AON_TICKS_TICKS : Fld := ⟨0x540010, 0, 48⟩
def FC_CTRL_FIRST_MIN : Fld := ⟨0x480000, 0, 2⟩
def FC_PHASE_PHASE : Fld := ⟨0x480004, 0, 2⟩
def FC_LEVEL_LEVEL : Fld := ⟨0x480008, 0, 2⟩
def FC_LEVEL_CAUSE : Fld := ⟨0x480008, 8, 8⟩
def FC_LEVEL_KIND : Fld := ⟨0x480008, 16, 4⟩
def FC_LEVEL_CMD_BASIC : Fld := ⟨0x48000C, 0, 1⟩
def FC_LEVEL_CMD_RESTORE : Fld := ⟨0x48000C, 1, 1⟩
def FC_LEVEL_CTRL_VFAIL_LIMIT : Fld := ⟨0x480010, 0, 8⟩
def FC_FIRST_DATA (n : Nat) : Fld := ⟨0x480020 + 0x4 * n, 0, 32⟩
def FC_FIRST_CLR_CLR : Fld := ⟨0x480038, 0, 1⟩
def FC_LOG_HEAD_NEXT : Fld := ⟨0x48003C, 0, 5⟩
def FC_LOG_HEAD_LOST : Fld := ⟨0x48003C, 16, 16⟩
def FC_LOG_SEL_ENTRY : Fld := ⟨0x480040, 0, 5⟩
def FC_LOG_DATA_DATA (n : Nat) : Fld := ⟨0x480044 + 0x4 * n, 0, 32⟩
def FC_PEND_PEND (n : Nat) : Fld := ⟨0x480080 + 0x4 * n, 0, 32⟩
def FC_BELL_MASK_MASK (n : Nat) : Fld := ⟨0x4800A0 + 0x4 * n, 0, 32⟩
def FC_SEV_SEL_SOURCE : Fld := ⟨0x4800C0, 0, 8⟩
def FC_SEV_SEL_PHASE : Fld := ⟨0x4800C0, 8, 2⟩
def FC_SEV_DATA_SEV : Fld := ⟨0x4800C4, 0, 2⟩
def FC_SEV_DATA_AS_RAISED : Fld := ⟨0x4800C4, 2, 1⟩
def FC_SRC_SEL_SOURCE : Fld := ⟨0x4800C8, 0, 8⟩
def FC_SRC_DATA_COUNT : Fld := ⟨0x4800CC, 0, 8⟩
def FC_SRC_DATA_LAST_SEV : Fld := ⟨0x4800CC, 8, 2⟩
def FC_RAISE_SOURCE : Fld := ⟨0x4800D0, 0, 8⟩
def FC_RAISE_SEV : Fld := ⟨0x4800D0, 8, 2⟩
def FC_RAISE_INFO : Fld := ⟨0x4800D0, 16, 16⟩
def FC_CMD_CLR_COUNTS : Fld := ⟨0x4800D4, 0, 1⟩
def FC_SELF_OK : Fld := ⟨0x4800D8, 0, 1⟩
def RSTC_CAUSE_POR : Fld := ⟨0x4C0000, 0, 1⟩
def RSTC_CAUSE_RESET_N : Fld := ⟨0x4C0000, 1, 1⟩
def RSTC_CAUSE_WATCHDOG : Fld := ⟨0x4C0000, 2, 1⟩
def RSTC_CAUSE_HPP : Fld := ⟨0x4C0000, 3, 1⟩
def RSTC_CAUSE_SOFT : Fld := ⟨0x4C0000, 4, 1⟩
def RSTC_CAUSE_LINK : Fld := ⟨0x4C0000, 5, 1⟩
def RSTC_STRAPS_BOOT_SRC : Fld := ⟨0x4C0004, 0, 2⟩
def RSTC_STRAPS_CLK_MODE : Fld := ⟨0x4C0004, 2, 2⟩
def RSTC_STRAPS_GANG_ID : Fld := ⟨0x4C0004, 4, 2⟩
def RSTC_REQ_REACH : Fld := ⟨0x4C0008, 0, 4⟩
def RSTC_REQ_DIE : Fld := ⟨0x4C0008, 4, 1⟩
def RSTC_REQ_ENGINE : Fld := ⟨0x4C0008, 8, 7⟩
def RSTC_REQ_KEY : Fld := ⟨0x4C0008, 16, 8⟩
def RSTC_HELD_DIE : Fld := ⟨0x4C000C, 0, 2⟩
def RSTC_EXTEND_COUNT : Fld := ⟨0x4C0010, 0, 32⟩
def RSTC_STATUS_CD0_RESET : Fld := ⟨0x4C0014, 0, 1⟩
def RSTC_STATUS_CD1_RESET : Fld := ⟨0x4C0014, 1, 1⟩
def RSTC_STATUS_LINK_RESET : Fld := ⟨0x4C0014, 2, 1⟩
def RSTC_STATUS_LOCK_FAIL : Fld := ⟨0x4C0014, 3, 3⟩
def RSTC_WDOG_MS : Fld := ⟨0x4C0018, 0, 16⟩
def RSTC_WDOG_EN : Fld := ⟨0x4C0018, 16, 1⟩
def RSTC_WDOG_KICK_KEY : Fld := ⟨0x4C001C, 0, 8⟩
def RSTC_COUNTS_WARM : Fld := ⟨0x4C0020, 0, 16⟩
def RSTC_COUNTS_DIE : Fld := ⟨0x4C0020, 16, 16⟩
def ICU_CTRL_EN : Fld := ⟨0x500000, 0, 1⟩
def ICU_CTRL_SPLIT : Fld := ⟨0x500000, 1, 3⟩
def ICU_DOORBELL_SOURCE : Fld := ⟨0x500004, 0, 9⟩
def ICU_CMD_CLR_ONE : Fld := ⟨0x500008, 0, 1⟩
def ICU_CMD_CLR_ALL : Fld := ⟨0x500008, 1, 1⟩
def ICU_CMD_SOURCE : Fld := ⟨0x500008, 16, 9⟩
def ICU_MGC_CLAIM_ID : Fld := ⟨0x500010, 0, 10⟩
def ICU_MGC_CLAIM_COUNT : Fld := ⟨0x500010, 16, 8⟩
def ICU_MGC_COMPLETE_ID : Fld := ⟨0x500014, 0, 10⟩
def ICU_MGC_STAT_LINE : Fld := ⟨0x500018, 0, 1⟩
def ICU_MGC_STAT_RUNNING_VALID : Fld := ⟨0x500018, 1, 1⟩
def ICU_MGC_STAT_RUNNING : Fld := ⟨0x500018, 8, 8⟩
def ICU_HOST_IDLE : Fld := ⟨0x500020, 0, 1⟩
def ICU_HOST_SLEEP : Fld := ⟨0x500020, 1, 1⟩
def ICU_SRC_PRIO (n : Nat) : Fld := ⟨0x501000 + 0x4 * n, 0, 8⟩
def ICU_SRC_SENSE (n : Nat) : Fld := ⟨0x501000 + 0x4 * n, 8, 2⟩
def ICU_SRC_TARGET (n : Nat) : Fld := ⟨0x501000 + 0x4 * n, 10, 2⟩
def ICU_SRC_VECTOR (n : Nat) : Fld := ⟨0x501000 + 0x4 * n, 12, 6⟩
def ICU_SRC_ENABLE (n : Nat) : Fld := ⟨0x501000 + 0x4 * n, 18, 1⟩
def ICU_SRC_PENDING (n : Nat) : Fld := ⟨0x501000 + 0x4 * n, 19, 1⟩
def ICU_SRC_IN_SERVICE (n : Nat) : Fld := ⟨0x501000 + 0x4 * n, 20, 1⟩
def ICU_SRC_INPUT (n : Nat) : Fld := ⟨0x501000 + 0x4 * n, 21, 1⟩
def ICU_SRC_COUNT (n : Nat) : Fld := ⟨0x501000 + 0x4 * n, 24, 8⟩
def ICU_PEND_SET_PEND (n : Nat) : Fld := ⟨0x501800 + 0x4 * n, 0, 32⟩
def ICU_PEND_CLR_CLR (n : Nat) : Fld := ⟨0x501840 + 0x4 * n, 0, 32⟩
def ICU_HV_CLAIM_ID (n : Nat) : Fld := ⟨0x502000 + 0x10 * n, 0, 10⟩
def ICU_HV_CLAIM_COUNT (n : Nat) : Fld := ⟨0x502000 + 0x10 * n, 16, 8⟩
def ICU_HV_COMPLETE_ID (n : Nat) : Fld := ⟨0x502004 + 0x10 * n, 0, 10⟩
def ICU_HV_MOD_HOLDOFF (n : Nat) : Fld := ⟨0x502008 + 0x10 * n, 0, 12⟩
def ICU_HV_MOD_COUNT (n : Nat) : Fld := ⟨0x502008 + 0x10 * n, 16, 8⟩
def ICU_HV_MOD_WAKE (n : Nat) : Fld := ⟨0x502008 + 0x10 * n, 31, 1⟩
def ICU_HV_STAT_ARMED (n : Nat) : Fld := ⟨0x50200C + 0x10 * n, 0, 1⟩
def ICU_HV_STAT_DUE (n : Nat) : Fld := ⟨0x50200C + 0x10 * n, 1, 1⟩
def ICU_HV_STAT_HELD (n : Nat) : Fld := ⟨0x50200C + 0x10 * n, 2, 1⟩
def ETH_P_CTRL_EN (n : Nat) : Fld := ⟨0x301000 + 0x1000 * n, 0, 1⟩
def ETH_P_CTRL_SPEED (n : Nat) : Fld := ⟨0x301000 + 0x1000 * n, 1, 1⟩
def ETH_P_CTRL_FEC (n : Nat) : Fld := ⟨0x301000 + 0x1000 * n, 2, 2⟩
def ETH_P_CTRL_GATE_EN (n : Nat) : Fld := ⟨0x301000 + 0x1000 * n, 4, 1⟩
def ETH_P_STATUS_LINK (n : Nat) : Fld := ⟨0x301004 + 0x1000 * n, 0, 1⟩
def ETH_P_STATUS_BLOCK_LOCK (n : Nat) : Fld := ⟨0x301004 + 0x1000 * n, 1, 1⟩
def ETH_P_STATUS_FEC_LOCK (n : Nat) : Fld := ⟨0x301004 + 0x1000 * n, 2, 1⟩
def ETH_P_MAC_ADDR (n : Nat) : Fld := ⟨0x301008 + 0x1000 * n, 0, 48⟩
def ETH_P_IPV4_ADDR (n : Nat) : Fld := ⟨0x301010 + 0x1000 * n, 0, 32⟩
def ETH_P_TS_ADJ_NS (n : Nat) : Fld := ⟨0x301014 + 0x1000 * n, 0, 16⟩
def ETH_P_IN_DEFCLASS_CLASS (n : Nat) : Fld := ⟨0x301014 + 0x1000 * n, 16, 3⟩
def ETH_P_TS_INFO_VALID (n : Nat) : Fld := ⟨0x301018 + 0x1000 * n, 0, 1⟩
def ETH_P_TS_INFO_DIR (n : Nat) : Fld := ⟨0x301018 + 0x1000 * n, 1, 1⟩
def ETH_P_TS_INFO_TYPE (n : Nat) : Fld := ⟨0x301018 + 0x1000 * n, 2, 4⟩
def ETH_P_TS_INFO_SEQ (n : Nat) : Fld := ⟨0x301018 + 0x1000 * n, 16, 16⟩
def ETH_P_TS_NS_NS (n : Nat) : Fld := ⟨0x30101C + 0x1000 * n, 0, 64⟩
def ETH_P_TXR_BASE_ADDR (n : Nat) : Fld := ⟨0x301024 + 0x1000 * n, 4, 60⟩
def ETH_P_TXR_SIZE_COUNT (n : Nat) : Fld := ⟨0x30102C + 0x1000 * n, 0, 11⟩
def ETH_P_RXR_BASE_ADDR (n : Nat) : Fld := ⟨0x301030 + 0x1000 * n, 4, 60⟩
def ETH_P_RXR_SIZE_COUNT (n : Nat) : Fld := ⟨0x301038 + 0x1000 * n, 0, 11⟩
def ETH_P_RING_KICK_TX (n : Nat) : Fld := ⟨0x30103C + 0x1000 * n, 0, 1⟩
def ETH_P_RING_KICK_RX (n : Nat) : Fld := ⟨0x30103C + 0x1000 * n, 1, 1⟩
def ETH_P_GATE_BASE_NS (n : Nat) : Fld := ⟨0x301040 + 0x1000 * n, 0, 64⟩
def ETH_P_GATE_CYCLE_NS (n : Nat) : Fld := ⟨0x301048 + 0x1000 * n, 0, 30⟩
def ETH_P_GATE_LEN_COUNT (n : Nat) : Fld := ⟨0x30104C + 0x1000 * n, 0, 7⟩
def ETH_P_GATE_CMD_COMMIT (n : Nat) : Fld := ⟨0x301050 + 0x1000 * n, 0, 1⟩
def ETH_P_GATE_STAT_PENDING (n : Nat) : Fld := ⟨0x301054 + 0x1000 * n, 0, 1⟩
def ETH_P_GATE_STAT_LATE_START (n : Nat) : Fld := ⟨0x301054 + 0x1000 * n, 1, 1⟩
def ETH_P_GATE_STAT_CONFIG_ERR (n : Nat) : Fld := ⟨0x301054 + 0x1000 * n, 2, 1⟩
def ETH_P_GATE_START_NS (n : Nat) : Fld := ⟨0x301058 + 0x1000 * n, 0, 64⟩
def ETH_P_GATEE_MASK (p i : Nat) : Fld := ⟨0x301100 + 0x4 * i + 0x1000 * p, 0, 8⟩
def ETH_P_GATEE_INTERVAL (p i : Nat) : Fld := ⟨0x301100 + 0x4 * i + 0x1000 * p, 8, 24⟩
def ETH_P_F_RATE_CIR (p i : Nat) : Fld := ⟨0x301200 + 0x10 * i + 0x1000 * p, 0, 16⟩
def ETH_P_F_RATE_PIR (p i : Nat) : Fld := ⟨0x301200 + 0x10 * i + 0x1000 * p, 16, 16⟩
def ETH_P_F_BURST_CBS (p i : Nat) : Fld := ⟨0x301204 + 0x10 * i + 0x1000 * p, 0, 16⟩
def ETH_P_F_BURST_PBS (p i : Nat) : Fld := ⟨0x301204 + 0x10 * i + 0x1000 * p, 16, 16⟩
def ETH_P_F_CLASS_CLASS (p i : Nat) : Fld := ⟨0x301208 + 0x10 * i + 0x1000 * p, 0, 3⟩
def ETH_P_POL_RATE (p i : Nat) : Fld := ⟨0x301400 + 0x8 * i + 0x1000 * p, 0, 16⟩
def ETH_P_POL_BURST (p i : Nat) : Fld := ⟨0x301400 + 0x8 * i + 0x1000 * p, 16, 16⟩
def ETH_P_POL_DROP_COUNT (p i : Nat) : Fld := ⟨0x301404 + 0x8 * i + 0x1000 * p, 0, 32⟩
def ETH_P_DROP_TOO_LONG (n : Nat) : Fld := ⟨0x301480 + 0x1000 * n, 0, 16⟩
def ETH_P_DROP_QFULL (n : Nat) : Fld := ⟨0x301480 + 0x1000 * n, 16, 16⟩
def ETH_P_RXERR_FCS (n : Nat) : Fld := ⟨0x301484 + 0x1000 * n, 0, 8⟩
def ETH_P_RXERR_OVERSIZE (n : Nat) : Fld := ⟨0x301484 + 0x1000 * n, 8, 8⟩
def ETH_P_RXERR_NO_DESC (n : Nat) : Fld := ⟨0x301484 + 0x1000 * n, 16, 8⟩
def ETH_P_RXERR_TS_LOST (n : Nat) : Fld := ⟨0x301484 + 0x1000 * n, 24, 8⟩
def ETH_P_CMD_CLR_COUNTS (n : Nat) : Fld := ⟨0x301488 + 0x1000 * n, 0, 1⟩

end Sys2Proof.Machine
end

