-- ==== Sys2Proof/Machine/Parts.lean ====
section
/-! DEFINITION. What the blocks of the part hold beside their registers, block by block, as plain data. -/

namespace Sys2Proof.Machine

/-- What the last access or request returned to the agent that made it. -/
inductive Resp where
  | none
  | word (v : Word)
  | unsupported
  | bytes (b : List Byte)
  /-- Data with poison (R230); none where the line cannot be served (R328, R428). -/
  | poison (b : List Byte)
  | code (n : Nat)
  /-- The list of supported logs, which names the Command Effects Log only, and that log (R322). -/
  | supportedLogs
  | effectsLog
  deriving DecidableEq, Repr

/-- An NVMe command (R275): its queue pair (0 the admin queues), its opcode, and what it is about: CNS, FID, log or queue number, or the
first block; and the blocks, the entries of the queue, or the value. -/
structure NvmeCmd where
  pair : Nat
  op : Nat
  arg : Nat
  len : Nat
  deriving DecidableEq, Repr

/-- What an HPP request asks for (R358). Values and data are bytes. -/
inductive HppOp where
  | read (index sub : Nat)
  | write (index sub typ : Nat) (value : List Nat)
  | readBlock (index sub offset count : Nat)
  | writeBlock (index sub typ offset total : Nat) (data : List Nat)
  | unsupported (op version : Nat)
  deriving DecidableEq, Repr

/-- What leaves the part: messages and frames, in the order in which they leave. -/
inductive OutMsg where
  /-- An MSI-X message of a host vector (R444). -/
  | msix (vec : Nat)
  /-- An HPP message: carrier, peer on the carrier, its bytes (R357). -/
  | hpp (c : Carrier) (peer : Nat) (b : List Byte)
  /-- A NOTIFY to the UDP subscriber or on a CAN bus is an `hpp` message; a CAN frame a controller sends (R391). -/
  | can (c : Nat) (id : Nat) (brs : Bool) (b : List Byte)
  /-- A frame on an Ethernet port, with its traffic class (R346). -/
  | eth (port cls : Nat) (b : List Byte)
  /-- A back-channel message of the Pixel Port (R75): code and the bytes after it. -/
  | backChannel (code : Nat) (args : List Nat)
  /-- A Gang Link Beacon symbol (R68). -/
  | gangSymbol (epoch : Word) (dtc : Nat)
  /-- An access carried over the Gang Link to the follower (R43). -/
  | gangAccess (a : Agent) (off : Nat) (w : Option Word)
  /-- BEACON_OUT rises (true) or falls (R50). -/
  | beaconOut (level : Bool)
  /-- An LTC_OUT word: timecode and user bits (R67). -/
  | ltcOut (tc user : Word)
  /-- A record a follower passes to the lead (R30): epoch, row, column, status code, record. -/
  | gangRecord (epoch row column : Nat) (r : TsRec)
  /-- An HPP datagram that a follower forwards to the lead (R366): the requester, and what it asks. -/
  | gangHpp (h : Hpp) (op : HppOp)
  /-- The follower's readout end (R146), and its shortfall (R31). -/
  | gangReadoutEnd (epoch : Nat)
  | gangShortfall (columns : Nat)
  /-- A command put in a queue of a magazine's controller (R275, R277). -/
  | nvme (bay : Nat) (c : NvmeCmd)
  /-- CC.EN and CC.SHN of a magazine's controller (R275, R278). -/
  | nvmeCc (bay : Nat) (en : Bool) (shn : Nat)
  /-- An MSI-X vector of a magazine is programmed with a doorbell value (R277). -/
  | nvmeVector (bay vec data : Nat)
  /-- A pin of a bay: 0 MAG_PWR_EN, 1 MAG_PERST_N (R279). -/
  | bayPin (bay pin : Nat) (level : Bool)
  /-- A CXL.cache request for a line of a host-bias HDM page (R315): the line's device address. -/
  | snoop (addr : Nat)
  /-- Ownership requests without data for each of the 32 768 lines of an HDM page (R317). -/
  | ownPage (page : Nat)
  /-- MAIN_PWR_EN (R454). -/
  | mainPwrEn (level : Bool)
  /-- A frame of one of the two ST 2110 senders was queued or cut (R340). -/
  | proxyPacket (k : Nat) (epoch : Nat) (line packet : Nat)
  deriving DecidableEq, Repr

/-- A fault record (R420). `clock` is the time-base clock in which it was raised, by which R421 groups. -/
structure FaultRec where
  source : Nat
  severity : Nat
  phase : Nat
  valid : Bool
  sameClock : Bool
  unit : Nat
  seq : Nat
  info : Nat
  epoch : Nat
  dtc : Nat
  clock : Nat
  deriving DecidableEq, Repr

/-- The Fault Collector beside its registers (R416 to R427). -/
structure Collector where
  /-- The log ring, newest first, at most 32 records. -/
  log : List FaultRec
  /-- SEQ of the next entry. -/
  seq : Nat
  first : FaultRec
  /-- Phase-table entries, key 256 × phase + source, that differ from their reset: 0 to 3, or 4 as raised. -/
  sev : List (Nat × Nat)
  /-- COUNT of each source. -/
  count : List (Nat × Nat)
  /-- LAST_SEV of each source. -/
  lastSev : List (Nat × Nat)
  /-- The latch of R422, which drives BELL_N low. -/
  latch : Bool
  /-- SAFE has been entered and its steps 3 to 5 are still to be carried out (R427). -/
  safeDue : Bool
  /-- A cause of BASIC waiting for the next snapshot: its KIND and source (R425, R491). -/
  basicDue : Option (Nat × Nat)
  /-- An accepted RESTORE waits for the next snapshot. -/
  restoreDue : Bool
  /-- Whether BASIC holds (it stays until RESTORE or a reset). -/
  basic : Bool
  /-- DEFICIT of the last 16 snapshots, newest first. -/
  deficits : List Bool
  /-- Consecutive Beacons without any Pixel Port link while a clip is open. -/
  noLink : Nat
  /-- Engines that have had a reset requested after a verify mismatch in the clip (R425). -/
  vfail : List Nat
  deriving DecidableEq, Repr

/-- One interrupt source beside its register (R437 to R439). `inService` holds the context that claimed it: 64 is the
MGC, v below 64 is host vector v. `soft` is a pending bit of a level source set by software. -/
structure IcuSource where
  count : Nat
  pend : Bool
  soft : Bool
  inService : Option Nat
  input : Bool
  deriving DecidableEq, Repr

/-- One host vector (R444, R445): whether it is disarmed, when it last sent a message, the events since then, and
whether the message is held (R445). -/
structure IcuVector where
  disarmed : Bool
  lastSent : Option Nat
  events : Nat
  held : Bool
  deriving DecidableEq, Repr

/-- The Interrupt Controller beside its registers. -/
structure Icu where
  sources : List (Nat × IcuSource)
  vectors : List (Nat × IcuVector)
  deriving DecidableEq, Repr

/-- What makes the Beacon edge that is due (R44, R46, R69). -/
inductive EdgeKind where
  | timer
  | beaconIn
  | flywheel
  /-- A symbol of the lead: its epoch, its DTC, and the column count that the lead sets (R31, R69). -/
  | gang (epoch : Word) (dtc columns : Nat)
  deriving DecidableEq, Repr

/-- The Beacon Unit beside its registers. Times are in ns of the time-base clock, where nothing else is said. -/
structure Beacon where
  /-- The edge that a source event has made and that has not come about, and its instant in units of 0.125 ns: it lags an
  edge of BEACON_IN by the synchroniser's latency (R46), the source event of a lead by 256 ns (R68), a symbol by D − L (R69). -/
  edgeDue : Option (EdgeKind × Nat)
  /-- When a lead's source event comes, at which its Gang Link symbol leaves (R68). -/
  symbolAt : Option Nat
  /-- The last Beacon edge since the Beacon started, in units of 0.125 ns. -/
  lastEdge : Option Nat
  /-- t_start of the free-running timer, on the disciplined clock in units of 2⁻³² ns, and the next k (R44). -/
  tStart : Nat
  k : Nat
  /-- The next instant of the PTP schedule, by its k (R44, R47). -/
  ptpK : Nat
  /-- The instant before which the PTP schedule makes no edge and counts none: after a start or a change (R48, R49). -/
  ptpFrom : Nat
  /-- The last BEACON_IN edge seen (R485). -/
  seen : Option Nat
  /-- Consecutive flywheel edges, and whether they have raised the fault of R46. -/
  missRun : Nat
  missTold : Bool
  /-- The BEACON_IN source has taken effect and accepted no edge (R46, R49). -/
  fresh : Bool
  /-- BEACON_OUT is high since this instant. -/
  outSince : Option Nat
  /-- Consecutive Gang Link symbols out of bound (R69). -/
  gangBad : Nat
  /-- The last Beacon-class write of each agent has been committed by no snapshot (R57, R58). -/
  waitHost : Bool
  waitMgc : Bool
  deriving DecidableEq, Repr

/-- The Time Base beside its registers (R60 to R67): timecode words lie in the layout of `TB_LTC_IN`. -/
structure TimeBase where
  /-- The DTC in units of 2⁻³² ns (R60). -/
  dtc : Nat
  /-- The disciplined time-base clock in units of 2⁻³² ns: it has the rate of the DTC, and SET and STEP leave it (R44, R45). -/
  disc : Nat
  /-- Accepted BEACON_IN edges in a row within 100 ns of P (R62), and the DTC of the last. -/
  lockRun : Nat
  lockLast : Option Nat
  /-- When the last LTC word came, and whether the words run in sequence (R65). -/
  ltcLast : Option Nat
  ltcRun : Nat
  /-- The Beacon edges since the LTC frame of LTC_IN in progress began, and since the generator's began (R66). -/
  inSub : Nat
  genSub : Nat
  /-- The generator's word and user bits, whether a load waits, whether it has begun a frame, and the next instant of its
  schedule, by its number (R67). -/
  gen : Nat
  genUser : Nat
  genLoad : Bool
  genRun : Bool
  genK : Nat
  /-- A sleep has been entered and the edge that stops the DTC is awaited (R63). -/
  sleepWait : Bool
  /-- The always-on tick count latched at that edge (R63). -/
  sleepTicks : Option Nat
  deriving DecidableEq, Repr

/-- A physical lane of the Pixel Port (R70, R74): block lock and alignment, what its last ALIGN block carried, and
its errors of the frame in progress (R77). -/
structure PpLane where
  lock : Bool
  aligned : Bool
  logical : Nat
  link : Nat
  count : Option Nat
  slot : Nat
  errors : Nat
  deriving DecidableEq, Repr

/-- A back-channel message that awaits its STATUS block, and when its last bit leaves (R75). -/
structure BcMsg where
  code : Nat
  arg : Nat
  link : Nat
  again : Bool
  sent : Nat
  deriving DecidableEq, Repr

/-- Where a substitution or undo stands (R77): logical lane, undo or not, acknowledged or not. -/
structure Subst where
  lane : Nat
  undo : Bool
  acked : Bool
  deriving DecidableEq, Repr

/-- The header of a Pixel Port packet, its length in bytes, and its samples (TYPE 0x01) or its payload bytes (R80, R81). -/
structure Packet where
  typ : Nat
  fs : Bool
  fe : Bool
  frameCnt : Nat
  line : Nat
  pixels : Nat
  depth : Nat
  bytes : Nat
  samples : List Nat
  deriving DecidableEq, Repr

/-- The Pixel Port Receiver and Tiler beside their registers. -/
structure Ingest where
  lanes : List PpLane
  /-- When the training attempt in progress of each link began (R76). -/
  trainAt : List (Nat × Nat)
  bc : List BcMsg
  /-- When the back channel has sent its last message (R75). -/
  bcFree : Nat
  subst : Option Subst
  /-- Logical lanes whose substitution waits for the readout end (R78). -/
  substWait : List Nat
  /-- A Beacon has opened a frame. -/
  opened : Bool
  /-- FRAME_CNT of the frame, once a packet set it (R82). -/
  cnt : Option Nat
  /-- The lines in the links' assembly buffers that the Tiler has not taken, and the line it takes next (R85). -/
  buf : List (Nat × Packet)
  nextLine : Nat
  /-- The accepted lines of the frame that the Tiler has taken, newest first: line and samples. -/
  lines : List (Nat × List Nat)
  /-- The last line of the frame has arrived (R86). -/
  lastLine : Bool
  /-- The stripe rows already resolved: rows below this number (R83). -/
  rowsDone : Nat
  /-- Packets of the next frame held in the links' assembly buffers (R86), oldest first. -/
  held : List (Nat × Packet)
  /-- The next frame is dropped as early, and the frame in progress was (R86). -/
  dropNext : Bool
  dropped : Bool
  /-- The count of the frame before, for late lines (R86). -/
  prevCnt : Option Nat
  /-- Metadata packets and bytes of the frame (R84). -/
  metaPackets : Nat
  metaBytes : Nat
  /-- When the readout of the frame ended (R146); none while it has not. -/
  readoutEnd : Option Nat
  /-- The binding in force, column by column: position 16r + 4q + s, spare or not, units, start (R19, R90). -/
  bind : List (Nat × Bool × Nat × Nat)
  deriving DecidableEq, Repr

/-- A job of an engine (R203): what the Tiler posts with a tile-stripe, and the tile-stripe itself as it lies in the
partition, line by line. `slot` is the position 16r + 4q + s whose partition holds it. -/
structure Job where
  epoch : Nat
  row : Nat
  column : Nat
  width : Nat
  depth : Nat
  mono : Bool
  cfa : Nat
  mode : Nat
  temporal : Bool
  predict : Bool
  verify : Bool
  forced : Bool
  patched : Bool
  slot : Nat
  lines : List (List Nat)
  deriving DecidableEq, Repr

/-- The local SRAM of an engine (R200): the contents of its areas (coefficients, the verify pipe's reconstruction, the copy of the
samples, the staged record, the hulls of the pass records), and whether the microcode scratch has been written. Where a byte of an area
lies is not given: `read` holds what the words read through the access port since the contents last changed (R224). -/
structure LocalSram where
  coeffs : List (List (List Int))
  verify : List (List Nat)
  samples : List Nat
  staging : List Nat
  passes : List (List HullPoint)
  scratch : Bool
  read : List (Nat × Nat)
  deriving DecidableEq, Repr

/-- An engine beside its registers (R200 to R221). -/
structure Engine where
  jobs : List Job
  /-- The control store: the words written or read, and the first word of the trap fill (R218). -/
  store : List (Nat × Nat)
  trapFrom : Option Nat
  /-- The dispatch table of the image loaded (R212). -/
  dispatch : List Nat
  /-- The sequencer (R211, R212): the address of the next microword, the call stack, newest first, and the macro-op in progress. -/
  pc : Nat
  stack : List Nat
  macro_ : Nat
  sram : LocalSram
  haltReq : Bool
  gateReq : Bool
  /-- A held Engine-reach reset (R27). -/
  resetHeld : Bool
  /-- When the engine last reached READY (R222). -/
  readyAt : Option Nat
  /-- ADMIT has been written; the spare has taken the engine's position, and the engine has not taken it back (R223). -/
  admitReq : Bool
  away : Bool
  /-- A load (not a reset) is in progress, and the state it returns to (R220). -/
  loadFrom : Option Nat
  /-- An ungating is in progress (R208). -/
  ungating : Bool
  /-- The address of the image that the load or reset in progress reads (R220). -/
  image : Nat
  deriving DecidableEq, Repr

/-- A histogram bank of a region (R144): the bytes of each slope code, the bytes of steps above, and the count of
records still to come from each column. -/
structure Bank where
  epoch : Nat
  bins : List (Nat × Nat)
  deriving DecidableEq, Repr

/-- A region beside its registers (R24, R144). `read` holds what the words of its SRAM read through an access port since its contents
last changed (R224). -/
structure Region where
  banks : List (Option Bank)
  read : List (Nat × Nat)
  deriving DecidableEq, Repr

/-- A grant of the Keeper (R403 to R410): columns and clock points of the four regions (3 none), the position 16r + 4q + s
of each column (R19), the funded items (verify 1, proxy 2, temporal 4, scrub 8), the pips, and whether no candidate was
admissible. -/
structure Grant where
  cols : List Nat
  cps : List Nat
  pos : List Nat
  fund : Nat
  budget : Nat
  mand : Nat
  spent : Nat
  scrub : Nat
  limiter : Nat
  deficit : Bool
  noAdmit : Bool
  deriving DecidableEq, Repr

/-- A request for ramp slots (R412), with its place in the order of that rule. -/
inductive SlotReq where
  | spareUngate (r : Nat)
  | dieUngate (d : Nat)
  /-- A codec die returns from retention (R399). -/
  | dieRestore (d : Nat)
  | clockRise (r cp : Nat)
  | engineUngate (e : Nat)
  | load (e : Nat)
  | reset (e : Nat)
  deriving DecidableEq, Repr

/-- The power states in which the IOD stands (R392); RUN, IDLE, entering and waking read in `KPR_STATUS.STATE`. -/
inductive PowerMode where
  | on
  | retain
  | off
  deriving DecidableEq, Repr

/-- An entry to RETAIN or OFF in progress (R395): its target, when it was accepted, the abort that waits for the next
abort point, by its refuser code, and a late wake (R397). -/
structure PowerEntry where
  toOff : Bool
  start : Nat
  abort : Option Nat
  late : Bool
  deriving DecidableEq, Repr

/-- The Keeper beside its registers. -/
structure Keeper where
  mode : PowerMode
  /-- The codec dies that are power-gated (R26). -/
  gated : List Bool
  grant : Grant
  /-- The grant written to the hardware-owned shadow since the last snapshot (R408). -/
  formed : Option Grant
  /-- A grant that waits for its engines to be READY before it is written (R408). -/
  forming : Option Grant
  /-- The columns the follower can fund, as it reported (R31, R411). -/
  shortfall : Option Nat
  /-- The cheapest candidate at each of the last 16 Beacons, newest first (R410). -/
  cheapest : List (List Nat × List Nat)
  deficitRun : Nat
  hot : Bool
  tripped : Bool
  /-- Tmax lies below −20 °C (R464). -/
  cold : Bool
  deadDies : List Nat
  entry : Option PowerEntry
  /-- When the conditions of IDLE began to hold without a break (R393). -/
  idleFrom : Option Nat
  /-- PWR_FAIL_N is low after its filter, and since when. -/
  powerFail : Option Nat
  /-- The requests that wait for ramp slots, and whether each has been counted as waiting past its first slot (R412). -/
  slots : List (SlotReq × Bool)
  /-- DMA kicks and an OPEN held during an entry (R395). -/
  kicks : List Nat
  heldOpen : Bool
  /-- Refusal counts: code, refusals, aborts (R394, R396). -/
  refused : List (Nat × Nat)
  aborted : List (Nat × Nat)
  deriving DecidableEq, Repr

/-- The Always-On domain beside its registers (R63, R64, R454): the phase of the 32.768 kHz counter in units of 10⁻⁹
tick, the DTC record, the pins. -/
structure AlwaysOn where
  phase : Nat
  recordValid : Bool
  recordDtc : Nat
  recordTicks : Nat
  mainPwrEn : Bool
  supply : Bool
  /-- A wake event has come in OFF (R400, R454). -/
  wakeDue : Bool
  /-- The 32.768 kHz count at which MAIN_PWR_EN fell (R454). -/
  fellAt : Option Nat
  deriving DecidableEq, Repr

/-- An event record of the Logbook (R482). -/
structure LogRecord where
  seq : Nat
  typ : Nat
  dtc : Nat
  epoch : Nat
  data : List Nat
  deriving DecidableEq, Repr

/-- The counters of the Logbook header (R481). Hours are counted in ns of RUN, IDLE and RETAIN. -/
structure LogHeader where
  seq : Nat
  runNs : Nat
  idleNs : Nat
  retainNs : Nat
  committed : Nat
  faults : List Nat
  moorings : List Nat
  cold : Nat
  warm : Nat
  holdups : Nat
  stores : Nat
  updates : Nat
  bands : List Nat
  monitors : List Nat
  next : Nat
  lost : Nat
  deriving DecidableEq, Repr

/-- The Logbook (R481, R482): the header counters, the header in force as it lies in the NOR, with its copy and slot,
the ring's records that have been written, newest first, and the append bucket. -/
structure Logbook where
  cur : LogHeader
  written : Option LogHeader
  copy : Nat
  slot : Nat
  records : List (Nat × LogRecord)
  bucket : Nat
  /-- The DTC in ns of the last hourly header, the clock of the last refill of the bucket, and the ns in RUN at the last ageing measurement. -/
  hourAt : Option Nat
  refillAt : Nat
  agedAt : Option Nat
  deriving DecidableEq, Repr

/-- A boot record (R474) with the sector and slot it lies in. -/
structure BootRecord where
  seq : Nat
  active : Nat
  trial : Nat
  sector : Nat
  slot : Nat
  deriving DecidableEq, Repr

/-- A valid slot of a configuration region (R385, R386): its number, SEQ, DTC and records, each an entry's key, TYPE and value. -/
structure ConfigSlot where
  slot : Nat
  seq : Nat
  storedAt : Nat
  values : List (Nat × Nat × List Nat)
  deriving DecidableEq, Repr

/-- The persistent store (R471) and the fused Daymark (R472). A firmware or microcode slot holds the bytes written to
it, and so do the slots of the two configuration regions (R385), by slot number; a slot not listed is erased. -/
structure Nor where
  daymark : List Nat
  fw : List (List Nat)
  boot : Option BootRecord
  uc : List (List Nat)
  ucInUse : Nat
  regionA : List (Nat × List Nat)
  regionB : List (Nat × List Nat)
  deriving DecidableEq, Repr

/-- The running MGC (R354, R475 to R479): the running image's slot (2 for an image loaded by HPP), its version and SEC_EPOCH,
whether its firmware runs (from step 4 of R476), a restart that waits for the next snapshot (R479). -/
structure Mgc where
  slot : Nat
  version : Nat
  secEpoch : Nat
  up : Bool
  restartDue : Bool
  /-- The boot ROM waits for an image (R477): 0 not, 1 on the mailbox, 2 on CAN0. -/
  loader : Nat
  /-- 1: the boot ROM is to run. 4: an image runs, and step 4 of R476 is due. 2: step 5 is awaited. 3: the MGC alone restarts (R479).
  0: none of these. -/
  boot : Nat
  /-- The boot ROM drives BELL_N low: the Daymark's CRC or both images failed (R472, R475). -/
  bell : Bool
  /-- The watchdog's period began here (R432). -/
  wdogFrom : Nat
  fwStatus : Nat
  ucStatus : Nat
  /-- Dies that have already raised 0xF1 (R483): 0 CD0, 1 CD1, 2 the IOD. -/
  aged : List Nat
  /-- Engines still to be loaded with a new image, in order, and whether their load or reset has been asked for. -/
  reload : List (Nat × Bool)
  deriving DecidableEq, Repr

/-- A partner of the Light List (R371). `missed` counts roll calls without a message, and `heard` is when its last message came (R370). -/
structure Partner where
  kind : Nat
  address : Nat
  state : Nat
  changed : Nat
  identity : List Nat
  missed : Nat
  heard : Nat
  deriving DecidableEq, Repr

/-- A kept reply (R362). -/
structure KeptReply where
  carrier : Carrier
  peer : Nat
  tid : Nat
  at_ : Nat
  reply : List Nat
  deriving DecidableEq, Repr

/-- An open WRITE_BLOCK sequence (R361). -/
structure BlockSeq where
  carrier : Carrier
  peer : Nat
  key : Nat
  total : Nat
  last : Nat
  data : List Nat
  deriving DecidableEq, Repr

/-- An event to notify (R368): number, FRAME_EPOCH at the event, data. -/
structure Note where
  event : Nat
  epoch : Nat
  data : List Nat
  deriving DecidableEq, Repr

/-- The decode job (R188, R383): the settings it was started with, the reports written, the position it reads next (a clip frame index, or bytes of the stream), the metadata bytes delivered, and the FRAME_EPOCH of
its last unit for PACE 1. -/
structure DecodeJob where
  source : Nat
  clip : Nat
  count : Nat
  src : Nat
  dst : Nat
  pitch : Nat
  buffers : Nat
  report : Nat
  meta_ : Nat
  conceal : Nat
  pace : Nat
  i : Nat
  pos : Nat
  metaPos : Nat
  lastBeacon : Option Nat
  deriving DecidableEq, Repr

/-- The Holaro Parameter Protocol and the dictionary (R352 to R388). `dict` holds the RWS and RW values that differ
from their defaults, by 256 × index + sub; texts are held as their bytes. -/
structure HppState where
  /-- Requests on CAN and UDP that wait for the MGC to restart, oldest first (R479). -/
  waiting : List (Hpp × HppOp)
  dict : List (Nat × List Nat)
  /-- What each CMD entry whose status the manual does not name reads as since it last started an action (R12), by entry. -/
  cmdStatus : List (Nat × Nat)
  replies : List KeptReply
  blocks : List BlockSeq
  notes : List Note
  commitLast : Option Nat
  commitDue : Option (List Nat)
  /-- Entry n of the Light List, n from 1, by its number. -/
  light : List (Nat × Partner)
  lightLost : Nat
  rounds : List Nat
  /-- When the last heartbeat was sent (R369). -/
  beatAt : Option Nat
  /-- What 0x2100:01 reads. -/
  clipState : Nat
  clipReason : Nat
  clipNo : Nat
  firstEpoch : Nat
  rateWarn : Bool
  lastEpoch : Option Nat
  /-- A Warm reset follows the close of the clip (R384), and when a Warm reset by command is due. -/
  resetAfter : Bool
  warmAt : Option Nat
  lastResult : Nat
  /-- 0x1180:01, when the last store began, since when values are unsaved, whether the second slot is being tried. -/
  storeState : Nat
  storeFrom : Option Nat
  unsavedFrom : Option Nat
  storeRetry : Bool
  /-- A store was requested while one is in progress. -/
  storeAgain : Bool
  storeSlot : Option (Nat × ConfigSlot)
  source : Nat
  stores : Nat
  storedAt : Nat
  inUse : List (Nat × Nat × List Nat)
  seq : Nat
  job : Option DecodeJob
  done : Nat
  ctx : DecodeCtx
  /-- The engine that holds the references of each column of the decode job's last frame, and whether they lie in the device reserve
  (R188). -/
  homes : List (Nat × Bool)
  deriving DecidableEq, Repr

/-- A CAN controller beside its registers (R365, R391): ring positions, reassembly buffers by identifier (next segment,
bytes, time of the last), the frames of MGC firmware that wait to be sent, oldest first, and when its last roll call was sent (R372). -/
structure CanCtl where
  txHead : Nat
  rxHead : Nat
  parts : List (Nat × Nat × List Nat × Nat)
  outbox : List (Nat × List Nat)
  rollAt : Option Nat
  deriving DecidableEq, Repr

/-- A frame in a port's egress queues (R345): its flow and class when it was enqueued, its bytes without FCS, the
transmit descriptor it came from with its TS bit, or the sender packet it is (sender, proxy frame, packet). -/
structure EgressFrame where
  flow : Nat
  cls : Nat
  data : List Nat
  len : Nat
  desc : Option (Nat × Bool)
  packet : Option (Nat × Nat × Nat)
  deriving DecidableEq, Repr

/-- The two buckets of a flow (R347) in units of 1/8000 byte, and when they were last filled. -/
structure Buckets where
  committed : Nat
  peak : Nat
  last : Nat
  deriving DecidableEq, Repr

/-- A gate list with its cycle and its start S on the DTC scale (R348, R349). -/
structure GateList where
  entries : List (Nat × Nat)
  cycle : Nat
  start : Nat
  deriving DecidableEq, Repr

/-- An Ethernet port beside its registers. `mask` is the gate mask in force; `ts` the timestamp FIFO, oldest first, as
direction, messageType, sequenceId and time (R342). -/
structure EthPort where
  queue : List EgressFrame
  sending : Option EgressFrame
  txHead : Nat
  rxHead : Nat
  ts : List (Nat × Nat × Nat × Nat)
  buckets : List (Nat × Buckets)
  police : List (Nat × Nat × Nat)
  oper : Option GateList
  next : Option GateList
  mask : Nat
  deriving DecidableEq, Repr

/-- A proxy picture (R332 to R334): FRAME_EPOCH and BEACON_TIME of its frame, and its lines of (Y′, Cb, Cr) with chroma
reduced to 4:2:2: each line is its samples in the order Cb, Y′, Cr, Y′. -/
structure ProxyPicture where
  epoch : Nat
  time : Nat
  wo : Nat
  ho : Nat
  lines : List (List Nat)
  deriving DecidableEq, Repr

/-- A mosaic the Proxy Path develops (R331): frame, geometry and lines of samples. -/
structure ProxyInput where
  epoch : Nat
  time : Nat
  width : Nat
  height : Nat
  depth : Nat
  mono : Bool
  cfa : Nat
  lines : List (List Nat)
  deriving DecidableEq, Repr

/-- A sender beside its registers (R339, R340): the proxy frame being sent (k, t_k) and its picture, the next packet, and
the RTP sequence number. -/
structure Sender where
  frame : Option (Nat × Nat)
  pic : Option ProxyPicture
  next : Nat
  seq : Nat
  deriving DecidableEq, Repr

/-- The Proxy Path beside its registers (R334): the picture being developed, the newest complete picture and whether it
has been taken, the picture last taken, the LUT, and the newest proxy frame number. -/
structure Proxy where
  /-- The resolved lines of the frame in progress that the Tiler has handed over (R331). -/
  gather : List (List Nat)
  input : Option ProxyInput
  newest : Option ProxyPicture
  taken : Bool
  sent : Option ProxyPicture
  lut : List (Nat × Nat)
  lastTick : Option Nat
  senders : List Sender
  deriving DecidableEq, Repr

/-- The PTP clock (R343, R344): Sync messages in a row below 100 ns, the masters heard (port, clockIdentity, rank), and
the port in use. -/
structure Ptp where
  syncRun : Nat
  masters : List (Nat × Nat × Nat)
  port : Option Nat
  deriving DecidableEq, Repr

/-- A bias change in progress (R316, R317): the page and whether it goes to device bias. -/
structure BiasChange where
  page : Nat
  toDevice : Bool
  deriving DecidableEq, Repr

/-- The function's configuration space and BAR2 as far as the manual gives them an effect (R312, R314, R323, R324, R327, R444): Memory
Space Enable, the BARs that the host has assigned, the size in Range 1 of the CXL Device DVSEC, the Unsupported Request status of AER,
MSI-X Enable, the masked vectors and the pending bits of the MSI-X table (bit v for vector v), and the interrupt enable of the mailbox
doorbell. -/
structure CxlFn where
  memEnable : Bool
  bar0 : Option Nat
  bar2 : Option Nat
  range1 : Nat
  unsupported : Bool
  msixEnable : Bool
  masked : Nat
  pba : Nat
  mboxInt : Bool
  deriving DecidableEq, Repr

/-- The CXL Port beside its registers (R311 to R328): its function, the bias table (pages that differ from `devBase`, the bias every
page was last placed in), the change in progress, the HDM decoder's base, and the modified lines of the device cache
(line address and 64 bytes), newest first. -/
structure Cxl where
  fn : CxlFn
  devBase : Bool
  pages : List (Nat × Bool)
  change : Option BiasChange
  hdmBase : Option Nat
  cache : List (Nat × List Nat)
  deriving DecidableEq, Repr

/-- A superblock (R288). Serial numbers are 20-byte strings. -/
structure Superblock where
  seq : Nat
  parity : Bool
  member : Nat
  width : Nat
  chunkLog : Nat
  setId : Nat
  missing : Nat
  mountCount : Nat
  blocks : Nat
  catLba : Nat
  catBlocks : Nat
  jrnBlocks : Nat
  jrnLba : Nat
  idxLba : Nat
  idxBlocks : Nat
  dataLba : Nat
  dataRows : Nat
  nextRow : Nat
  nextSlot : Nat
  nextClip : Nat
  rated : Nat
  lastJseq : Nat
  degradedRow : Nat
  formatTime : Nat
  mountTime : Nat
  formatter : Nat
  serials : List (List Nat)
  deriving DecidableEq, Repr

/-- A catalogue entry (R290). -/
structure CatEntry where
  state : Nat
  reason : Nat
  clipNo : Nat
  entrySeq : Nat
  setId : Nat
  firstRow : Nat
  rows : Nat
  indexFirst : Nat
  frames : Nat
  firstEpoch : Nat
  openJseq : Nat
  openTime : Nat
  closeTime : Nat
  width : Nat
  height : Nat
  depth : Nat
  cfa : Nat
  modeFlags : Nat
  keyInterval : Nat
  rateNum : Nat
  rateDen : Nat
  target : Nat
  firstTc : Nat
  lastTc : Nat
  dropped : Nat
  bytes : Nat
  name : List Nat
  deriving DecidableEq, Repr

/-- A frame entry (R291). -/
structure FrameEntry where
  clipFrame : Nat
  epoch : Nat
  firstRow : Nat
  bytes : Nat
  rows : Nat
  time : Nat
  timecode : Nat
  subframe : Nat
  unit : Nat
  cflags : Nat
  crc : Nat
  clipNo : Nat
  jseq : Nat
  deriving DecidableEq, Repr

/-- A journal block (R293). -/
structure JournalBlock where
  typ : Nat
  missing : Nat
  pos : Nat
  jseq : Nat
  setId : Nat
  clipNo : Nat
  frames : Nat
  nextRow : Nat
  nextSlot : Nat
  degradedRow : Nat
  entries : List FrameEntry
  deriving DecidableEq, Repr

/-- A unit the Magazine Host is given (R295): its frame entry, its bytes so far, whether its emission has ended, and the
rows of it that rounds have been given to write. -/
structure StagedUnit where
  entry : FrameEntry
  data : List Nat
  ended : Bool
  written : Nat
  /-- The rows of it that a round's Flush has covered. -/
  flushed : Nat
  /-- When the oldest of its unwritten rows was staged. -/
  since : Nat
  deriving DecidableEq, Repr

/-- A commit round in progress (R295): the entries its journal blocks hold, the JSEQ of the last of these blocks, and the rows it
writes. -/
structure Round where
  journal : List FrameEntry
  last : Option Nat
  rows : Nat
  deriving DecidableEq, Repr

/-- A magazine bay beside its registers (R279): the magazine inserted, its media (blocks that are not zero, by number,
without trailing zeros), the writes it holds that no Flush has covered, the mooring step it waits in and the reference of
its times, the superblock chosen, whether a command shut it down, whether no superblock has recorded its mooring, whether
the Magazine Host takes entries of its read request ring, the bytes written to it, by time, CC.EN of its controller, and when that
became ready. -/
structure Bay where
  mag : Option Magazine
  media : List (Nat × List Nat)
  volatile : List (Nat × List Nat)
  /-- 0 none, 1 presence, 2 power on, 3 link, 4 ready, 5 initialised, 6 shutting down. -/
  step : Nat
  since : Nat
  sb : Option Superblock
  sbCopyA : Bool
  unmoorDue : Bool
  fresh : Bool
  rqRun : Bool
  wrote : List (Nat × Nat)
  enabled : Bool
  readyAt : Nat
  /-- The levels of MAG_PWR_EN and MAG_PERST_N (R279, R461). -/
  pwrEn : Bool
  perst : Bool
  deriving DecidableEq, Repr

/-- The Magazine Host beside its registers (R274 to R310). -/
structure Mag where
  bays : List Bay
  /-- The set-wide superblock fields in force, and the bay of each member in service. -/
  set : Option Superblock
  members : List (Option Nat)
  missing : Nat
  degradedRow : Nat
  jseq : Nat
  appendRow : Nat
  appendSlot : Nat
  /-- The catalogue entries of the set, entry n at place n; none for a damaged clip. -/
  catalogue : List (Option CatEntry)
  /-- The recovered commit point of an OPEN clip that READ_ONLY keeps from being repaired (R303). -/
  recovered : Option JournalBlock
  clip : Option CatEntry
  closing : Option Nat
  units : List StagedUnit
  durable : List FrameEntry
  round : Option Round
  /-- A TYPE 2 journal block waits for the next round (R305). -/
  lossDue : Bool
  warned : Bool
  /-- A power-fail commit runs: since when, whether its final round has been started, whether its members are being shut down. -/
  powerFail : Option Nat
  pfFinal : Bool
  pfShut : Bool
  /-- Bays to be moored afresh after a Warm reset, since when (R461). -/
  afresh : Option Nat
  rebuild : Option Nat
  /-- The bytes that the scrub has read in a frame, with that frame's epoch (R309). -/
  scrubbed : Nat × Nat
  deriving DecidableEq, Repr

/-- A bank of a rank (R235): its open row, whether that was left open with no request queued to it, when it was last accessed, its close
predictor. -/
structure DramBank where
  row : Option Nat
  left : Bool
  last : Nat
  predictor : Nat
  deriving DecidableEq, Repr

/-- An entry of a write queue (R233): its line, its channel, when it was queued and by whom, and the bytes and the poison that the line had
before, which a thaw gives back (R244). -/
structure WqEntry where
  line : Nat
  ch : Nat
  since : Nat
  agent : Nat
  old : List Byte
  poisoned : Bool
  deriving DecidableEq, Repr

/-- A request that waits (R233): for its channel, for a page, or for room; since when. -/
structure HeldReq where
  req : DramReq
  ecc : List EccFinding
  since : Nat
  deriving DecidableEq, Repr

/-- A migration (R241): source, spare, and whether the copy has ended. -/
structure Migration where
  src : Nat
  dst : Nat
  copied : Bool
  deriving DecidableEq, Repr

/-- A rank's training and error state (R231, R232, R236, R238): its temperature at the last training and now, a
temperature above the operating range, since when a retraining is due, the next line the patrol reads, and the
corrected errors of the current clock hour. -/
structure RankTiming where
  trained : Int
  now : Int
  hot : Bool
  due : Option Nat
  scrubbed : Nat
  ceHour : Nat
  ceCount : Nat
  deriving DecidableEq, Repr

/-- The memory controller beside its registers (R225 to R244): the ranks of interleave sets A and B in order, the write queues, the requests
that wait, of which the read queues hold the first, the banks by 16 × rank + bank, the trace of each channel, newest first, the rank that
each channel trains, the chunks of check words in the cache of each channel, newest first, and the ranks in self-refresh. -/
structure Lmc where
  setA : List Nat
  setB : List Nat
  rankBytes : Nat
  /-- When `LMC_CTRL.EN` was set, while initialisation runs. -/
  initFrom : Option Nat
  wq : List WqEntry
  held : List HeldReq
  banks : List (Nat × DramBank)
  trace : List (List Nat)
  timing : List RankTiming
  training : List (Option Nat)
  checks : List (List Nat)
  selfRefresh : List Nat
  /-- A rank whose retirement waits for the next snapshot. -/
  retireDue : Option Nat
  migration : Option Migration
  /-- Ranks that stay in service for lack of a spare, whose later errors retire nothing, and those of them in which an uncorrectable error was
  found (R240). -/
  noSpare : List Nat
  stuck : List Nat
  /-- The last readout end, the length of the last blanking window in ns, whether a retraining has started in this window,
  and a retraining that starts at the next readout end whatever the window (R239). -/
  readoutAt : Option Nat
  window : Nat
  windowUsed : Bool
  forced : Bool
  deriving DecidableEq, Repr

/-- An entry of an output queue (R246). A tile-stripe entry carries its record; every other entry its body. -/
structure QEntry where
  epoch : Nat
  row : Nat
  column : Nat
  kind : Nat
  flags : Nat
  body : List Nat
  ts : Option TsRec
  deriving DecidableEq, Repr

/-- The pointers of a queue or lane, of which it keeps two copies (R250): bytes written and read, 4 KiB blocks spilled, and the (EPOCH,
ROW) of its oldest and its newest entry. -/
structure Pointers where
  writes : Nat
  reads : Nat
  spills : Nat
  oldest : Option (Nat × Nat)
  newest : Option (Nat × Nat)
  deriving DecidableEq, Repr

/-- A queue or lane (R247, R249): its entries, oldest first; bytes of the head entry that POP has taken; a gap that waits
for room (first and last epoch and row); the bytes in its head window, its ring and its tail window; its pointers, twice. -/
structure Lane where
  entries : List QEntry
  popped : Nat
  gap : Option (Nat × Nat × Nat × Nat)
  head : Nat
  ring : Nat
  tail : Nat
  ptr : Pointers
  copy : Pointers
  deriving DecidableEq, Repr

/-- An output queue beside its registers: its two lanes and the entry being pushed (R252). -/
structure OutQ where
  lanes : List Lane
  push : List Nat
  deriving DecidableEq, Repr

/-- The words that the Management Controller has written to registers in one clock (R42), by offset. -/
structure MgcWrites where
  at_ : Nat
  words : List (Nat × Word)
  deriving DecidableEq, Repr

/-- A buffer pool beside its registers (R256 to R264): the head of its free list (none at the end), and the operation
address and last result of the MGC, of the host and of each DMA channel (R258). -/
structure Pool where
  head : Option Nat
  opAddr : List Nat
  opResult : List Nat
  deriving DecidableEq, Repr

/-- A descriptor a channel has taken (R266), with its index, the bytes already moved, and, for a program, where it
stands: the offset of the next instruction, the loop counters (none idle) and the jumps each has made (R271). -/
structure DmaJob where
  index : Nat
  src : Nat
  dst : Nat
  len : Nat
  ctrl : Nat
  done : Bool
  pc : Nat
  counters : List (Option Nat)
  jumps : List Nat
  deriving DecidableEq, Repr

/-- A WAIT that found its line's latch set (R272): the line, the clock, its timeout, and where the program stood after it. -/
structure Passed where
  line : Nat
  at_ : Nat
  timeout : Nat
  pc : Nat
  deriving DecidableEq, Repr

/-- A DMA channel beside its registers: the descriptor in progress, the line and timeout of a WAIT, and the last WAIT that passed at
once. -/
structure DmaCh where
  job : Option DmaJob
  wait : Option (Nat × Nat)
  since : Nat
  polled : Nat
  passed : Option Passed
  deriving DecidableEq, Repr

/-- A clip frame on its way from its Beacon to its unit's emission (R136, R145, R150, R489), with what was in force at
its Beacon (R149). -/
structure Frame where
  info : FrameInfo
  weight : Nat
  qfloor : Nat
  lose : Bool
  predict : Bool
  escapeOnly : Bool
  /-- The REASON of the dropped-frame record that takes the unit's place. -/
  drop : Option Nat
  /-- For each system column, the next row whose record is to be queued. -/
  queued : List Nat
  /-- Tile-stripes (row, column) lost and not yet entered in their queue. -/
  lost : List (Nat × Nat)
  /-- The bank each region slice holds for the frame (R144), and the gang bank's bins. -/
  gangBins : List (Nat × Nat)
  /-- The Tiler has resolved the last row, and the follower has signalled its readout end: when (R146). -/
  readoutEnd : Option Nat
  followerEnd : Option Nat
  /-- Record bytes that count in F (R145), and the escape records among them: row, column, bytes. -/
  recBytes : Nat
  escapes : List (Nat × Nat × Nat)
  /-- Escape stripes declared lost under LOSE (R152). -/
  declared : List (Nat × Nat)
  /-- The MET segments, once they are fixed. -/
  metas : Option (List (List Nat))
  /-- The banks are closed: a later record is late (R146). -/
  closed : Bool
  decision : Option Decision
  fixed : Nat
  /-- The emission (R150): begun, the next row, the quota left, the bytes so far, the row offsets, the status codes. -/
  started : Bool
  startAt : Nat
  row : Nat
  quota : Nat
  out : List Nat
  offsets : List Nat
  status : List Nat
  /-- A record with PRED has entered its queue, or has been emitted; a tile-stripe is patched; follower records were lost with the Gang
  Link. -/
  predCoded : Bool
  predSeen : Bool
  patched : Bool
  gangLoss : Bool
  /-- Tile-stripes that failed verify. -/
  vfail : List (Nat × Nat)
  tie : Nat
  filler : Nat
  ended : Bool
  /-- CFLAGS and FRAME_CRC of the closing header. -/
  cflags : Nat
  crc : Nat
  deriving DecidableEq, Repr

/-- The clip in progress as MGC firmware set it up (R378), beside what the Magazine Host holds: its mode and settings
live in the registers. `step` is the step of R378 that comes next: 0 when no clip is open, 1 the check of a START whose
request `req` awaits its reply, 3 configuring, 4 opening, 5 open and waiting for its first Beacon, 6 recording.
`frame` is the index of the clip's next frame, `lastKey` that of the last key frame among those whose emission has ended, `dropped` says
that the newest frame is dropped, and `lastCols` is the cut of that frame (R125). `metaDone` is the newest FRAME_EPOCH whose MET
segments the Packer has written (R252). -/
structure ClipCtl where
  step : Nat
  req : Option Hpp
  frame : Nat
  lastKey : Nat
  dropped : Bool
  metaDone : Option Nat
  lastCols : List (Nat × Bool × Nat × Nat)
  stopReq : Bool
  ganged : Bool
  deriving DecidableEq, Repr

/-- A domain of R431: in reset or not; the largest reach applied since it entered reset (1 Engine, 2 Die, 3 Warm,
4 Cold); whether its PLL's lock has been counted out; when its last source was released; when its PLL was reset. -/
structure Domain where
  inReset : Bool
  reach : Nat
  counted : Bool
  released : Option Nat
  since : Nat
  deriving DecidableEq, Repr

/-- The Gang Link (R30 to R33, R68, R69): trained; the other package takes part in frames; a trained link rejoins at the
next Beacon. -/
structure Gang where
  up : Bool
  joined : Bool
  rejoin : Bool
  deriving DecidableEq, Repr

/-- The outputs of the VIO bank that blocks drive (R459): BELL_N low, BEACON_OUT, and each bay's MAG_PWR_EN and MAG_PERST_N. -/
structure OutPins where
  bell : Bool
  beaconOut : Bool
  pwrEn : List Bool
  perst : List Bool
  deriving DecidableEq, Repr

/-- The Reset Controller beside its registers: RESET_N; whether the power-on reset is released (PWRGD is high, and every Cold
reset has run to POR release); and the domains IOD, CD0, CD1, PHY. -/
structure Rstc where
  resetN : Bool
  porDone : Bool
  domains : List Domain
  linkReset : Bool
  /-- What the outputs that a Warm reset holds drove when it was asserted (R459). -/
  held : OutPins
  deriving DecidableEq, Repr

end Sys2Proof.Machine
end

