-- ==== Sys2Proof/Machine/Sparse.lean ====
section
/-! DEFINITION. Sparse maps in one canonical form: a list of (key, value) pairs with strictly rising keys in which no
entry equals what its key reads as when it is not listed. Registers, memories and tables are held in this form. -/

namespace Sys2Proof.Machine

variable {α : Type}

/-- The value at key `k`: the listed one, else the default. -/
def sget (d : Nat → α) : List (Nat × α) → Nat → α
  | [], k => d k
  | (k', v) :: t, k => if k = k' then v else sget d t k

/-- What the canonical form lists for a key: nothing where its value is the default. -/
def entryOf [DecidableEq α] (d : Nat → α) (k : Nat) (v : α) : List (Nat × α) := if v = d k then [] else [(k, v)]

/-- Write `v` at key `k`, keeping the canonical form: the entry goes in before the first key that is not below its own, and
takes the place of one with the same key. -/
def sput [DecidableEq α] (d : Nat → α) : List (Nat × α) → Nat → α → List (Nat × α)
  | [], k, v => entryOf d k v
  | e :: rest, k, v =>
    if e.1 < k then e :: sput d rest k v
    else entryOf d k v ++ if k < e.1 then e :: rest else rest

/-- Every key of the list is above `b`, the keys rise, and no entry equals its default. -/
def swfFrom [DecidableEq α] (d : Nat → α) : Nat → List (Nat × α) → Bool
  | _, [] => true
  | b, (k, v) :: t => decide (b ≤ k) && decide (v ≠ d k) && swfFrom d (k + 1) t

/-- The canonical form. -/
def swf [DecidableEq α] (d : Nat → α) (l : List (Nat × α)) : Bool := swfFrom d 0 l

/-- Forget every entry whose key satisfies `p`: those keys read as their default again. -/
def sdrop (p : Nat → Bool) (l : List (Nat × α)) : List (Nat × α) := l.filter (fun e => !p e.1)

/-- Write a run of values at rising keys. -/
def sputAll [DecidableEq α] (d : Nat → α) (l : List (Nat × α)) : Nat → List α → List (Nat × α)
  | _, [] => l
  | k, v :: vs => sputAll d (sput d l k v) (k + 1) vs

/-- Read `n` values from key `k` on. -/
def sgetAll (d : Nat → α) (l : List (Nat × α)) (k n : Nat) : List α := (List.range n).map (fun i => sget d l (k + i))

end Sys2Proof.Machine
end

