-- ==== Sys2Proof/Machine/State.lean ====
section
/-! DEFINITION. The state of the part: the register file, and, block by block, everything the chapters give the part
beside its registers; and the state right after a Cold reset. -/

namespace Sys2Proof.Machine

/-- Why a command stops the model. No command of this table does: every abnormal event of the part is a fault record
of the Fault Collector, which is state (log entry 8). -/
inductive Fault where
  /-- Raised by nothing; a closed inductive needs a constructor. Safe: no meaning answers with it. -/
  | none
  deriving DecidableEq, Repr

/-- Why a command has no meaning here. -/
inductive Refusal where
  /-- Answered by an arm of `exec` whose command has no meaning yet, and by nothing else. Safe: the model stops. -/
  | notModelled (mnemonic : String)
  deriving DecidableEq, Repr

/-- The state of the part. -/
structure State where
  /-- The commands that wait, first in, first out. -/
  pending : List Instr
  /-- The time-base clock since power-on reset, in units of 2⁻³² ns (R60). -/
  clk : Nat
  /-- How many free values have been drawn (log entry 4). -/
  draws : Nat
  /-- Every register that differs from its reset value, by BAR0 offset. -/
  regs : List (Nat × Word)
  /-- The copy in force of every Beacon-class register word that differs from its reset value (R53, R54). -/
  force : List (Nat × Word)
  /-- The high words latched by reads of low words, by requester (R6), under 32 × the high word's offset + the requester's place
  (0 the Management Controller, 1 the host, 2 + n DMA channel n). -/
  latch : List (Nat × Word)
  mgcWrites : MgcWrites
  resp : Resp
  /-- What has left the part, newest first. -/
  out : List OutMsg
  fc : Collector
  icu : Icu
  bu : Beacon
  tb : TimeBase
  ppr : Ingest
  engines : List Engine
  regions : List Region
  /-- The frames between their Beacon and the end of their emission, oldest first. -/
  frames : List Frame
  /-- References for temporal prediction by the FRAME_EPOCH of their frame (R125). -/
  refs : List (Nat × Ref)
  /-- The merged histogram of the last decision (R147). -/
  hist : List (Nat × Nat)
  queues : List OutQ
  pools : List Pool
  dma : List DmaCh
  lmc : Lmc
  /-- DRAM bytes that are not zero, by device address, and the poisoned lines (address / 64). -/
  dram : List Host.Cell
  poison : List (Nat × Bool)
  mag : Mag
  cxl : Cxl
  /-- Bytes of host memory that the block has written. -/
  hostMem : List (Nat × Option Byte)
  eth : List EthPort
  proxy : Proxy
  ptp : Ptp
  hpp : HppState
  can : List CanCtl
  clip : ClipCtl
  kpr : Keeper
  aon : AlwaysOn
  log : Logbook
  nor : Nor
  mgc : Mgc
  rstc : Rstc
  gang : Gang
  deriving DecidableEq, Repr

/-- A Daymark as the model fits it (log entry 9): the first ordering code of R1, HL6480-FL-T, every baseline 10 000, everything
else 0. -/
def daymarkReset : List Nat :=
  [69, 77, 68, 75, 1] ++ List.replicate 11 0 ++ [72, 76, 54, 52, 56, 48, 45, 70, 76, 45, 84] ++ List.replicate 29 0 ++ [16, 39, 16, 39, 16, 39, 16, 39, 16, 39, 16, 39, 16, 39, 16, 39, 16, 39, 16, 39, 16, 39, 16, 39] ++ List.replicate 172 0 ++ [122, 127, 225, 27]

/-- An empty fault record. -/
def FaultRec.none : FaultRec := ⟨0, 0, 0, false, false, 0, 0, 0, 0, 0, 0⟩

/-- The Fault Collector after a Cold reset. -/
def Collector.reset : Collector := ⟨[], 0, FaultRec.none, [], [], [], false, false, Option.none, false, false, [], 0, []⟩

/-- The Interrupt Controller after a reset. -/
def Icu.reset : Icu := ⟨[], []⟩

/-- The Beacon Unit after a reset: stopped, with no edge due. -/
def Beacon.reset : Beacon :=
  { edgeDue := none, symbolAt := none, lastEdge := none, tStart := 0, k := 0, ptpK := 0, ptpFrom := 0, seen := none, missRun := 0,
    missTold := false, fresh := false, outSince := none, gangBad := 0, waitHost := false, waitMgc := false }

/-- The Time Base after a Cold reset with no valid record (R64). -/
def TimeBase.reset : TimeBase :=
  { dtc := 0, disc := 0, lockRun := 0, lockLast := none, ltcLast := none, ltcRun := 0, inSub := 0, genSub := 0, gen := 0, genUser := 0,
    genLoad := false, genRun := false, genK := 0, sleepWait := false, sleepTicks := none }

/-- A Pixel Port lane without lock. -/
def PpLane.reset : PpLane := ⟨false, false, 0, 0, none, 0, 0⟩

/-- The Pixel Port Receiver and Tiler after a reset. -/
def Ingest.reset : Ingest :=
  { lanes := (List.range 17).map fun n => { PpLane.reset with logical := if n = 16 then 31 else n }
    trainAt := []
    bc := []
    bcFree := 0
    subst := none
    substWait := []
    opened := false
    cnt := none
    buf := []
    nextLine := 0
    lines := []
    lastLine := false
    rowsDone := 0
    held := []
    dropNext := false
    dropped := false
    prevCnt := none
    metaPackets := 0
    metaBytes := 0
    readoutEnd := none
    bind := [] }

/-- A local SRAM that is clear. -/
def LocalSram.reset : LocalSram := ⟨[], [], [], [], [], false, []⟩

/-- An engine after a reset. -/
def Engine.reset : Engine :=
  { jobs := [], store := [], trapFrom := none, dispatch := [], pc := 0, stack := [], macro_ := 0, sram := LocalSram.reset, haltReq := false,
    gateReq := false, resetHeld := false, readyAt := none, admitReq := false, away := false, loadFrom := none, ungating := false, image := 0 }

/-- A region after a reset: two empty histogram banks. -/
def Region.reset : Region := ⟨[none, none], []⟩

/-- The pointers of a queue that has held nothing. -/
def Pointers.reset : Pointers := ⟨0, 0, 0, none, none⟩

/-- An empty lane. -/
def Lane.reset : Lane := ⟨[], 0, none, 0, 0, 0, Pointers.reset, Pointers.reset⟩

/-- An empty queue. -/
def OutQ.reset : OutQ := ⟨[Lane.reset, Lane.reset], []⟩

/-- A pool whose free list has not been threaded. -/
def Pool.reset : Pool := ⟨none, List.replicate 18 0, List.replicate 18 0⟩

/-- An idle channel. -/
def DmaCh.reset : DmaCh := ⟨none, none, 0, 0, none⟩

/-- A rank nothing has been measured of. -/
def RankTiming.reset : RankTiming := ⟨0, 0, false, none, 0, 0, 0⟩

/-- The memory controller before initialisation. -/
def Lmc.reset : Lmc :=
  { setA := [], setB := [], rankBytes := 0, initFrom := none, wq := [], held := [], banks := [], trace := [[], [], [], []],
    timing := List.replicate 8 RankTiming.reset, training := List.replicate 4 none, checks := [[], [], [], []], selfRefresh := [],
    retireDue := none, migration := none, noSpare := [], stuck := [], readoutAt := none, window := 0, windowUsed := false,
    forced := false }

/-- An empty bay. -/
def Bay.reset : Bay := ⟨none, [], [], 0, 0, none, false, false, false, false, [], false, 0, false, false⟩

/-- The Magazine Host with no set. -/
def Mag.reset : Mag :=
  ⟨List.replicate 4 Bay.reset, none, [], 0, 2 ^ 64 - 1, 0, 0, 0, [], none, none, none, [], [], none, false, false, none, false, false,
    none, none, (0, 0)⟩

/-- The function after a Link-reach reset (R327), with the size of the HDM: nothing assigned or enabled, every MSI-X vector masked. -/
def CxlFn.reset (hdm : Nat) : CxlFn := ⟨false, none, none, hdm, false, false, 2 ^ 64 - 1, 0, false⟩

/-- The CXL Port: every page in host bias, no decoder, an empty cache (R315). -/
def Cxl.reset : Cxl := ⟨CxlFn.reset 0, false, [], none, none, []⟩

/-- A port with nothing queued and every gate open. -/
def EthPort.reset : EthPort := ⟨[], none, 0, 0, [], [], [], none, none, 255⟩

/-- A stopped sender. -/
def Sender.reset : Sender := ⟨none, none, 0, 0⟩

/-- The Proxy Path with no picture. -/
def Proxy.reset : Proxy := ⟨[], none, none, false, none, [], none, [Sender.reset, Sender.reset]⟩

/-- The PTP clock with no master. -/
def Ptp.reset : Ptp := ⟨0, [], none⟩

/-- The decoder with nothing decoded. -/
def DecodeCtx.reset : DecodeCtx := ⟨[], .unknown, none, none, none⟩

/-- HPP and the dictionary at its defaults, with no stored copy in use (R387). -/
def HppState.reset : HppState :=
  { waiting := [], dict := [], cmdStatus := [], replies := [], blocks := [], notes := [], commitLast := none, commitDue := none, light := [],
    lightLost := 0, rounds := [0, 0], beatAt := none, clipState := 0, clipReason := 0, clipNo := 0, firstEpoch := 0, rateWarn := false,
    lastEpoch := none, resetAfter := false, warmAt := none, lastResult := 0, storeState := 0, storeFrom := none,
    unsavedFrom := none, storeRetry := false, storeAgain := false, storeSlot := none, source := 2, stores := 0, storedAt := 0, inUse := [],
    seq := 0, job := none, done := 0, ctx := DecodeCtx.reset, homes := [] }

/-- A CAN controller that has not joined its bus. -/
def CanCtl.reset : CanCtl := ⟨0, 0, [], [], none⟩

/-- No clip. -/
def ClipCtl.reset : ClipCtl := ⟨0, none, 0, 0, false, none, [], false, false⟩

/-- A grant that names no engine. -/
def Grant.none : Grant := ⟨[0, 0, 0, 0], [3, 3, 3, 3], [], 0, 0, 0, 0, 0, 0, false, false⟩

/-- The Keeper with no grant. -/
def Keeper.reset : Keeper :=
  { mode := .on, gated := [true, true], grant := Grant.none, formed := Option.none, forming := Option.none,
    shortfall := Option.none, cheapest := [], deficitRun := 0, hot := false, tripped := false, cold := false, deadDies := [],
    entry := Option.none, idleFrom := Option.none, powerFail := Option.none, slots := [], kicks := [], heldOpen := false,
    refused := [], aborted := [] }

/-- The Always-On domain with no valid record, its supply and MAIN_PWR_EN on. -/
def AlwaysOn.reset : AlwaysOn := ⟨0, false, 0, 0, true, true, false, none⟩

/-- Logbook counters at 0. -/
def LogHeader.reset : LogHeader :=
  ⟨0, 0, 0, 0, 0, [0, 0, 0, 0], [0, 0, 0, 0], 0, 0, 0, 0, 0, [0, 0, 0, 0, 0], List.replicate 12 0, 0, 0⟩

/-- An empty Logbook with a full bucket (R482). -/
def Logbook.reset : Logbook := ⟨LogHeader.reset, none, 0, 0, [], 360, none, 0, none⟩

/-- An erased NOR (R471) beside the Daymark. -/
def Nor.reset : Nor := ⟨daymarkReset, [[], []], none, [[], []], 0, [], []⟩

/-- The MGC right after the IOD's release: its boot ROM is to run (R476). -/
def Mgc.reset : Mgc := ⟨0, 0, 0, false, false, 0, 1, false, 0, 0, 0, [], []⟩

/-- The Reset Controller right after the IOD has been released (R434 step 3): the codec dies are still in reset. -/
def Rstc.reset : Rstc :=
  ⟨true, true, [⟨false, 0, true, none, 0⟩, ⟨true, 4, false, none, 0⟩, ⟨true, 4, false, none, 0⟩, ⟨false, 0, true, none, 0⟩], false,
    ⟨false, false, [false, false, false, false], [false, false, false, false]⟩⟩

/-- The machine right after a Cold reset, with every strap 0 (R429, R434 step 3): every register at its reset value (the MAC of
Ethernet port 1 is MAC_BASE + 1, R472),
nothing queued, nothing in any memory. -/
def State.reset : State :=
  { pending := [], clk := 0, draws := 0, regs := [], force := [], latch := [], mgcWrites := ⟨0, []⟩, resp := .none, out := [],
    fc := Collector.reset, icu := Icu.reset, bu := Beacon.reset, tb := TimeBase.reset, ppr := Ingest.reset,
    engines := List.replicate 68 Engine.reset, regions := List.replicate 4 Region.reset, frames := [], refs := [],
    hist := [], queues := List.replicate 72 OutQ.reset, pools := List.replicate 16 Pool.reset,
    dma := List.replicate 16 DmaCh.reset, lmc := Lmc.reset, dram := [], poison := [], mag := Mag.reset, cxl := Cxl.reset,
    hostMem := [], eth := [EthPort.reset, EthPort.reset], proxy := Proxy.reset, ptp := Ptp.reset, hpp := HppState.reset,
    can := [CanCtl.reset, CanCtl.reset], clip := ClipCtl.reset, kpr := Keeper.reset, aon := AlwaysOn.reset,
    log := Logbook.reset, nor := Nor.reset, mgc := Mgc.reset, rstc := Rstc.reset, gang := ⟨false, false, false⟩ }

end Sys2Proof.Machine
end

