-- ==== Sys2Proof/Machine/Ops.lean ====
section
/-! DEFINITION. The shared operations: registers and their fields, free values, the raising of a fault (which on this
part stands where a processor takes an exception), service levels, events, notifications, the Logbook, and the
interrupt sources. -/

namespace Sys2Proof.Machine

/-! ## Registers -/

/-- The word at BAR0 offset `off`: for a Beacon-class field its shadow (R54). -/
def State.word (s : State) (off : Nat) : Word := sget regReset s.regs off

/-- Write the whole word at `off`. -/
def State.putWord (s : State) (off : Nat) (w : Word) : State := { s with regs := sput regReset s.regs off w }

/-- The word in force at `off`: what the last shadow commit took (R54). -/
def State.inForce (s : State) (off : Nat) : Word := sget regReset s.force off

/-- Bits `lo` to `lo + width - 1` of `n`. -/
def bits (n lo width : Nat) : Nat := n / 2 ^ lo % 2 ^ width

/-- A field of a register whose words are read by `rd`. -/
def fieldOf (rd : Nat → Word) (f : Fld) : Nat :=
  if f.lo + f.width ≤ 32 then bits (rd f.off).toNat f.lo f.width
  else bits ((rd f.off).toNat + 2 ^ 32 * (rd (f.off + 4)).toNat) f.lo f.width

/-- The value of a field. -/
def State.get (s : State) (f : Fld) : Nat := fieldOf s.word f

/-- The value in force of a Beacon-class field. -/
def State.getF (s : State) (f : Fld) : Nat := fieldOf s.inForce f

/-- Whether a one-bit field is 1. -/
def State.flag (s : State) (f : Fld) : Bool := s.get f == 1

/-- The quantity a field of high bits stands for, its low bits 0 (an address). -/
def State.getAddr (s : State) (f : Fld) : Nat := s.get f * 2 ^ f.lo

/-- `n` with bits `lo` to `lo + width - 1` replaced by `v`. -/
def insBits (n lo width v : Nat) : Nat := n - bits n lo width * 2 ^ lo + v % 2 ^ width * 2 ^ lo

/-- Write a field. -/
def State.set (s : State) (f : Fld) (v : Nat) : State :=
  if f.lo + f.width ≤ 32 then s.putWord f.off (BitVec.ofNat 32 (insBits (s.word f.off).toNat f.lo f.width v))
  else
    let n := insBits ((s.word f.off).toNat + 2 ^ 32 * (s.word (f.off + 4)).toNat) f.lo f.width v
    (s.putWord f.off (BitVec.ofNat 32 n)).putWord (f.off + 4) (BitVec.ofNat 32 (n / 2 ^ 32))

/-- Count one in a field that saturates. -/
def State.inc (s : State) (f : Fld) : State := if s.get f + 1 < 2 ^ f.width then s.set f (s.get f + 1) else s

/-- Count `n` in a field that saturates. -/
def State.incBy (s : State) (f : Fld) (n : Nat) : State := s.set f (min (s.get f + n) (2 ^ f.width - 1))

/-- Count one in a field that wraps. -/
def State.incWrap (s : State) (f : Fld) : State := s.set f (s.get f + 1)

/-- Set every field of a list to 0. -/
def State.clear (s : State) : List Fld → State
  | [] => s
  | f :: t => (s.set f 0).clear t

/-- Set bit `i` of a field. -/
def State.setBit (s : State) (f : Fld) (i : Nat) : State :=
  if bitAt (s.get f) i = 1 then s else s.set f (s.get f + 2 ^ i)

/-- Clear bit `i` of a field. -/
def State.clearBit (s : State) (f : Fld) (i : Nat) : State :=
  if bitAt (s.get f) i = 1 then s.set f (s.get f - 2 ^ i) else s

/-- Write the copy in force of a field (the shadow keeps its value). -/
def State.putForce (s : State) (off : Nat) (w : Word) : State := { s with force := sput regReset s.force off w }

/-- Do `f` only when `c` holds. -/
def State.when (s : State) (c : Bool) (f : State → State) : State := if c then f s else s

/-- Apply a function to the state for every element of a list, in order. -/
def State.each {α : Type} (s : State) (l : List α) (f : State → α → State) : State := l.foldl f s

/-! ## Time, messages and free values -/

/-- The time-base clock in ns (R60). -/
def State.now (s : State) : Nat := s.clk / 2 ^ 32

/-- The DTC in ns (R60). -/
def State.dtcNs (s : State) : Nat := s.tb.dtc / 2 ^ 32 % 2 ^ 64

/-- FRAME_EPOCH (R52). -/
def State.epoch (s : State) : Nat := s.get BU_FRAME_EPOCH_EPOCH

/-- Draw a free value (log entry 4): what the manual leaves open is bound to a constant nothing is known of. -/
def State.draw (s : State) : Nat × State := ((Config.freeWord s.draws).toNat, { s with draws := s.draws + 1 })

/-- A message leaves the part. -/
def State.emit (s : State) (m : OutMsg) : State := { s with out := m :: s.out }

/-- Answer the agent's access. -/
def State.answer (s : State) (r : Resp) : State := { s with resp := r }

/-- A value in a list sorted by key, written. -/
def aput {α : Type} (l : List (Nat × α)) (k : Nat) (v : α) : List (Nat × α) :=
  l.filter (·.1 < k) ++ (k, v) :: l.filter (k < ·.1)

/-- A value in a list sorted by key, read. -/
def aget {α : Type} (l : List (Nat × α)) (k : Nat) : Option α := (l.find? (·.1 == k)).map (·.2)

/-- A value in a list sorted by key, removed. -/
def adel {α : Type} (l : List (Nat × α)) (k : Nat) : List (Nat × α) := l.filter (·.1 != k)

/-- Insert by key, before the elements of an equal or greater key. -/
def insertBy {α : Type} (key : α → Nat) (x : α) : List α → List α
  | [] => [x]
  | y :: t => if key x ≤ key y then x :: y :: t else y :: insertBy key x t

/-- A list sorted by key; elements of an equal key keep their order. -/
def sortBy {α : Type} (key : α → Nat) (l : List α) : List α := l.foldr (insertBy key) []

/-- Replace element `i` of a list by a function of it. -/
def modAt {α : Type} (l : List α) (i : Nat) (f : α → α) : List α := l.zipIdx.map fun p => if p.2 = i then f p.1 else p.1

/-! ## Roles and places -/

/-- The package's role (R29): 0 alone, 1 lead, 2 follower. The reserved strap 11 starts as alone. -/
def State.role (s : State) : Nat := if s.get RSTC_STRAPS_GANG_ID = 3 then 0 else s.get RSTC_STRAPS_GANG_ID

/-- The block index of a BAR0 offset (R37, R416): 0 to 22 in the order of R37, 23 the Coding Engine space. -/
def blockOf (off : Nat) : Nat := if off < 0x5C0000 then off / 0x40000 else 23

/-- The number of an engine: 17r + 4q + s, or 17r + 16 for the spare (R416). -/
def engNum (e : EngId) : Nat := 17 * (e.region % 4) + (if e.spare then 16 else 4 * (e.quad % 4) + e.slot % 4)

/-- A codec die is in reset (R431). -/
def State.dieReset (s : State) (d : Nat) : Bool := s.flag (if d = 0 then RSTC_STATUS_CD0_RESET else RSTC_STATUS_CD1_RESET)

/-- A codec die is off: in reset or gated by the Keeper (R26, R428). -/
def State.dieOff (s : State) (d : Nat) : Bool := s.dieReset d || s.kpr.gated.getD d false

/-- The offset lies in the window of a codec die that is off (R26, R428). -/
def State.isOff (s : State) (off : Nat) : Bool :=
  decide (0x1000000 ≤ off ∧ off < 0x2000000) && s.dieOff ((off - 0x1000000) / 0x800000)

/-! ## The Logbook -/

/-- Append an event record to the Logbook under its bucket (R482). The ring's sector, of 1024 records, is erased before its first record is
written (R471, R481). -/
def State.logbook (s : State) (typ : Nat) (data : List Nat) : State :=
  let l := s.log
  if l.bucket = 0 then { s with log := { l with cur := { l.cur with lost := l.cur.lost + 1 } } }
  else
    let seq := l.cur.next
    let r : LogRecord := ⟨seq % 2 ^ 32, typ, s.dtcNs, s.epoch, fit 40 data⟩
    { s with log := { l with
        bucket := l.bucket - 1
        records := aput (if seq % 1024 = 0 then l.records.filter fun e => e.1 / 1024 != seq % 112640 / 1024 else l.records) (seq % 112640) r
        cur := { l.cur with next := seq + 1 } } }

/-! ## Notifications -/

/-- Send an event of R368. It is delivered to its destinations in the order of events. -/
def State.notify (s : State) (event : Nat) (data : List Nat) : State :=
  { s with hpp := { s.hpp with notes := s.hpp.notes ++ [⟨event, s.epoch, data⟩] } }

/-! ## Interrupt sources -/

/-- Interrupt source `n`. -/
def State.source (s : State) (n : Nat) : IcuSource := sget (fun _ => ⟨0, false, false, none, false⟩) s.icu.sources n

/-- Write interrupt source `n`. -/
def State.putSource (s : State) (n : Nat) (v : IcuSource) : State :=
  { s with icu := { s.icu with sources := sput (fun _ => ⟨0, false, false, none, false⟩) s.icu.sources n v } }

/-- Host vector `v`. -/
def State.vector (s : State) (v : Nat) : IcuVector := sget (fun _ => ⟨false, none, 0, false⟩) s.icu.vectors v

/-- Write host vector `v`. -/
def State.putVector (s : State) (v : Nat) (x : IcuVector) : State :=
  { s with icu := { s.icu with vectors := sput (fun _ => ⟨false, none, 0, false⟩) s.icu.vectors v x } }

/-- A source of R435: wired sources by the table, message sources 384 to 511. -/
def sourceKnown (n : Nat) : Bool :=
  decide (384 ≤ n ∧ n ≤ 511) || decide (n = 1 ∨ n = 2 ∨ n = 3 ∨ n = 4 ∨ n = 5 ∨ n = 8) || decide (10 ≤ n ∧ n ≤ 17) ||
    decide (20 ≤ n ∧ n ≤ 23) || decide (24 ≤ n ∧ n ≤ 35) || decide (40 ≤ n ∧ n ≤ 44) || n == 48 || n == 49 || n == 56 || n == 57

/-- The source is sensed by level (R437). -/
def State.isLevel (s : State) (n : Nat) : Bool := decide (n < 384) && s.get (ICU_SRC_SENSE n) == 0

/-- The target of a source: 0 none, 1 MGC, 2 host. Source 49 always has the host (R443). -/
def State.target (s : State) (n : Nat) : Nat := if n = 49 then 2 else s.get (ICU_SRC_TARGET n)

/-- The host vector of a source (R443). -/
def State.vectorOf (s : State) (n : Nat) : Nat := if n = 49 then s.get CXP_CTRL_MBOX_VEC else s.get (ICU_SRC_VECTOR n)

/-- One event of source `n` (R437, R438, R439): counted, and pending for an edge or message source. -/
def State.icuEvent (s : State) (n : Nat) : State :=
  let x := s.source n
  let s := s.putSource n { x with count := min (x.count + 1) 255, pend := x.pend || !s.isLevel n }
  if s.target n = 2 then
    let v := s.vectorOf n
    s.putVector v { s.vector v with events := (s.vector v).events + 1 }
  else s

/-- The input of wired source `n` takes a level; its change may be an event (R437). -/
def State.icuInput (s : State) (n : Nat) (level : Bool) : State :=
  let x := s.source n
  if x.input = level then s
  else
    let s := s.putSource n { x with input := level }
    let sense := s.get (ICU_SRC_SENSE n)
    if (if level then sense != 2 else decide (sense = 2 ∨ sense = 3)) then s.icuEvent n else s

/-- An internal pulse, which is a rising edge (R437). -/
def State.icuPulse (s : State) (n : Nat) : State := if s.get (ICU_SRC_SENSE n) = 2 then s else s.icuEvent n

/-! ## Faults -/

/-- The rank of a severity (R417). -/
def sevRank (v : Nat) : Nat := if v = 3 then 0 else v + 1

/-- What a phase-table entry reads as after a Cold reset (R417): 4 is as raised. The key is 256 × phase + source. -/
def sevDefault (k : Nat) : Nat := if k % 256 ≥ 0xF0 then 4 else faultClass (k % 256)

/-- The entry of a source in a phase; the SERVICE column is the in-service class (R417). -/
def State.sevEntry (s : State) (phase src : Nat) : Nat :=
  if src = 0 then 2 else if phase = 1 then sevDefault src else sget sevDefault s.fc.sev (256 * phase + src)

/-- The severity a raise takes (R417): `given` is the severity of FC_RAISE. -/
def State.severity (s : State) (src given : Nat) : Nat :=
  let e := s.sevEntry (s.get FC_PHASE_PHASE) src
  if e = 4 then given else e

/-- The service level changes at once (R425, R491). -/
def State.setLevel (s : State) (level kind cause : Nat) : State :=
  let s := ((s.set FC_LEVEL_LEVEL level).set FC_LEVEL_KIND kind).set FC_LEVEL_CAUSE cause
  (s.notify 0x0010 [level]).logbook 5 [level, kind, cause]

/-- SAFE (R427): step 1 at once; the later steps follow. -/
def State.enterSafe (s : State) (kind cause : Nat) : State :=
  if s.get FC_LEVEL_LEVEL = 3 then s
  else { s.setLevel 3 kind cause with fc := { (s.setLevel 3 kind cause).fc with safeDue := true } }

/-- Whether a fault is taken before another raised in the same clock (R421). -/
def takenBefore (a b : FaultRec) : Bool :=
  sevRank a.severity > sevRank b.severity || (a.severity == b.severity && a.source < b.source)

/-- Place a fault among those of its clock, in the order in which they are taken (R421). -/
def placeFault (r : FaultRec) : List FaultRec → List FaultRec
  | [] => [r]
  | x :: t => if takenBefore r x then r :: x :: t else x :: placeFault r t

/-- The log with one fault more (R420, R421): the faults of this clock in their order, with their SEQ and SAME_CLOCK. -/
def logFault (log : List FaultRec) (seq : Nat) (r : FaultRec) : List FaultRec × List FaultRec :=
  let same := log.takeWhile fun x => x.clock == r.clock
  let rest := log.dropWhile fun x => x.clock == r.clock
  let base := seq + 65536 - same.length
  let g := placeFault r same.reverse
  let g := g.zipIdx.map fun p => { p.1 with seq := (base + p.2) % 65536, sameClock := decide (1 < g.length) }
  (g, (g.reverse ++ rest).take 32)

/-- The first-fault record after a fault (R420, R421, R422). -/
def firstFault (firstMin : Nat) (f : FaultRec) (g : List FaultRec) (r : FaultRec) : FaultRec :=
  if r.source = 0 then (g.find? fun x => x.source == 0).getD r
  else if f.valid && (f.clock != r.clock || f.source == 0) then f
  else (g.find? fun x => sevRank x.severity ≥ sevRank firstMin).getD f

/-- Enter a fault in the collector: its counts, the log, the first-fault record (R418, R420). -/
def State.recordFault (s : State) (r : FaultRec) : State :=
  let c := s.fc
  let (g, log) := logFault c.log c.seq r
  let s := if c.log.length = 32 then s.inc FC_LOG_HEAD_LOST else s
  let s := s.set FC_LOG_HEAD_NEXT (s.get FC_LOG_HEAD_NEXT + 1)
  { s with fc := { c with
      log := log
      seq := (c.seq + 1) % 65536
      first := firstFault (s.get FC_CTRL_FIRST_MIN) c.first g r
      count := sput (fun _ => 0) c.count r.source (min (sget (fun _ => 0) c.count r.source + 1) 255)
      lastSev := sput (fun _ => 0) c.lastSev r.source r.severity } }

/-- The bytes of a fault record (R420). -/
def FaultRec.bytes (r : FaultRec) : List Nat :=
  [r.source, r.severity, r.phase, (if r.valid then 1 else 0) + (if r.sameClock then 2 else 0)] ++ le 2 r.unit ++ le 2 r.seq ++
    le 4 r.info ++ le 4 r.epoch ++ le 8 r.dtc

/-- A cause of BASIC waits for the next snapshot; of several the one with the lowest KIND (R425, R491). -/
def State.wantBasic (s : State) (kind cause : Nat) : State :=
  { s with fc := { s.fc with basicDue := match s.fc.basicDue with | some k => if k.1 ≤ kind then some k else some (kind, cause) | none => some (kind, cause) } }

/-- Raise a fault of source `src` (R416 to R418, R420 to R422): severity, record, log, pending bit, interrupt, Logbook,
notification, and SAFE or BASIC where the source or the severity leads there. `given` is the severity of FC_RAISE. -/
def State.raiseAs (s : State) (src given unit info : Nat) : State :=
  let sev := s.severity src given
  let r : FaultRec := ⟨src, sev, s.get FC_PHASE_PHASE, true, false, unit, 0, info, s.epoch, s.dtcNs, s.clk⟩
  let s := s.recordFault r
  let s := { s with log := { s.log with cur := { s.log.cur with faults := modAt s.log.cur.faults sev (· + 1) } } }
  let s := s.logbook 1 r.bytes
  if sev = 3 then s
  else
    let s := s.setBit (FC_PEND_PEND (src / 32)) (src % 32)
    let s := s.icuPulse (2 + sev)
    let s := s.notify 0x0011 [src, sev]
    let s := if src = 0x55 then s.wantBasic 0 0x55 else s
    if sev = 2 then s.enterSafe 0 src else s

/-- Raise a fault of a source whose class is its own. -/
def State.raise (s : State) (src unit info : Nat) : State := s.raiseAs src 0 unit info

/-- "Discarded and logged as a corrected configuration fault" (R416 source 0x01) for an access at `off`. -/
def State.cfg (s : State) (off : Nat) : State := s.raise 0x01 (blockOf off) off

/-- BELL_N is low (R423, R427, R472, R475). -/
def State.bellLow (s : State) : Bool :=
  s.fc.latch || s.mgc.bell || s.get FC_LEVEL_LEVEL == 3 || (List.range 8).any fun n => s.get (FC_PEND_PEND n) &&& s.get (FC_BELL_MASK_MASK n) != 0

/-! ## Accesses -/

/-- Free values, `n` of them. -/
def State.drawList : Nat → State → List Nat × State
  | 0, s => ([], s)
  | n + 1, s =>
    let (v, s) := s.draw
    let (l, s) := State.drawList n s
    (v :: l, s)

/-- A host request over CXL.io completes as an unsupported request, which AER records (R312, R428). -/
def State.unsupportedReq (s : State) : State :=
  { s with cxl := { s.cxl with fn := { s.cxl.fn with unsupported := true } } }.answer .unsupported

/-- The outcome of an access to a block that is off (R428): source 0x02, and what the requester gets. -/
def State.offAccess (s : State) (a : Agent) (off : Nat) (isRead : Bool) : State :=
  let s := s.raise 0x02 (blockOf off) off
  match a with
  | .host => s.unsupportedReq
  | .mgc => if isRead then s.answer (.word 0xDEC00FF0#32) else s

/-- A write command of an agent at `off`: off blocks first (R428), else its meaning. -/
def State.access (s : State) (a : Agent) (off : Nat) (f : State → State) : State :=
  if s.isOff off then s.offAccess a off false else f s

/-- A write only the Management Controller may make: host writes are discarded and logged. -/
def State.mgcOnly (s : State) (a : Agent) (off : Nat) (f : State → State) : State :=
  match a with
  | .host => s.cfg off
  | .mgc => f s

/-- Tag a Beacon-class write (R55), which now waits for a commit (R57, R58). -/
def State.tagWrite (s : State) (a : Agent) : State :=
  let e := s.get BU_SHADOW_EPOCH_EPOCH
  match a with
  | .host =>
    let s := s.set BU_LAST_WR_EPOCH_HOST_EPOCH e
    { s with bu := { s.bu with waitHost := true } }
  | .mgc =>
    let s := s.set BU_LAST_WR_EPOCH_MGC_EPOCH e
    { s with bu := { s.bu with waitMgc := true } }

/-! ## Light List -/

/-- Change the state of the partner of `kind` at `address` (R371): its old entry, else the lowest empty one, else the
lowest lost one, else it is counted as not listed. -/
def State.light (s : State) (kind address st : Nat) (identity : Option (List Nat)) : State :=
  let l := s.hpp.light
  let slot : Option Nat :=
    match l.find? fun e => e.2.kind == kind && e.2.address == address with
    | some e => some e.1
    | none =>
      if st = 2 then none
      else
        match (List.range 255).find? fun i => !(l.any fun e => e.1 == i + 1) with
        | some i => some (i + 1)
        | none => (l.find? fun e => e.2.state == 2).map (·.1)
  match slot with
  | none => if st = 2 then s else { s with hpp := { s.hpp with lightLost := (s.hpp.lightLost + 1) % 2 ^ 32 } }
  | some n =>
    let old := aget l n
    let same := match old with | some p => p.kind == kind && p.address == address | none => false
    let ident := identity.getD (if same then (old.map (·.identity)).getD [] else [])
    let changed := !(same && (old.map (·.state)) == some st)
    let at_ := if changed then s.dtcNs else (old.map (·.changed)).getD 0
    let s := { s with hpp := { s.hpp with light := aput l n ⟨kind, address, st, at_, ident, 0, s.now⟩ } }
    if changed then s.notify 0x0020 [n, st] else s

/-! ## Presence of clips and hosts -/

/-- A clip is open or closing at the Magazine Host (R294, R297). -/
def State.clipOpen (s : State) : Bool := s.mag.clip.isSome || decide (3 ≤ s.clip.step)

/-- A host is present (R324). -/
def State.host (s : State) : Bool := s.flag CXP_STATUS_HOST

/-- A decode job runs (R383). -/
def State.jobOpen (s : State) : Bool := s.hpp.job.isSome

/-- A decode job ends: event 0x0040 with the frame units decoded (R368, R383). -/
def State.endJob (s : State) : State :=
  match s.hpp.job with
  | none => s
  | some j => { s with hpp := { s.hpp with job := none, done := j.i } }.notify 0x0040 (le 4 j.i)

/-- The Beacon runs. -/
def State.beaconRuns (s : State) : Bool := s.flag BU_STATUS_RUNNING

/-- The nominal period in force as a fraction of ns: numerator and denominator (R44). -/
def State.period (s : State) : Nat × Nat := (10 ^ 9 * s.getF BU_RATE_DEN_DEN, s.getF BU_RATE_NUM_NUM)

/-- W as a fraction of ns with denominator 256 × the period's (R46). -/
def State.window (s : State) : Nat × Nat :=
  let (n, d) := s.period
  if s.getF BU_IN_WIN_WIN = 0 then (n, 256 * d) else (s.getF BU_IN_WIN_WIN * 256 * d, 256 * d)

/-- The time-base clock in units of 0.125 ns. -/
def State.now8 (s : State) : Nat := 8 * s.now

/-- `t` units of 0.125 ns are at least P − W (R46, R47). -/
def State.atLeastPmW (s : State) (t : Nat) : Bool :=
  let (n, d) := s.period
  let (w, _) := s.window
  decide (8 * (256 * n) ≤ 256 * d * t + 8 * w)

/-- `t` units of 0.125 ns have reached k × P + W (R46, R49, R69). -/
def State.reachedPpW (s : State) (k t : Nat) : Bool :=
  let (n, d) := s.period
  let (w, _) := s.window
  decide (8 * (256 * k * n + w) ≤ 256 * d * t)

end Sys2Proof.Machine
end

