-- ==== Sys2Proof/Machine/Dict.lean ====
section
/-! DEFINITION. The object dictionary's table (R352 to R356, R371, R374, R375, R381 to R383, R478): every entry's type,
access, default and range, and the values of its RW and RWS entries. -/

namespace Sys2Proof.Machine

/-- Access codes of the dictionary (R12). -/
inductive Acc where
  | ro
  | wo
  | rw
  | rws
  | cmd
  deriving DecidableEq, Repr

/-- The Range column. -/
inductive Range where
  | any
  | between (lo hi : Nat)
  | zeroOr (lo hi : Nat)
  | oneOf (l : List Nat)
  | width
  | height
  | cfa
  | pitch
  deriving DecidableEq, Repr

/-- A dictionary entry: key 256 × index + sub, TYPE code of R359, default. A STR or BLOB has its greatest length in `size`. -/
structure DictEntry where
  key : Nat
  typ : Nat
  acc : Acc
  dflt : Nat
  range : Range
  size : Nat
  deriving DecidableEq, Repr

/-- Bytes of a value of a TYPE code; none for text and byte strings (R11). -/
def typeSize (t : Nat) : Option Nat :=
  match t with
  | 1 => some 1
  | 2 => some 2
  | 3 => some 4
  | 4 => some 8
  | 5 => some 4
  | 6 => some 4
  | 9 => some 8
  | _ => none

/-- Entries of one index: (sub, TYPE, access, default, range). -/
def rows (index : Nat) (l : List (Nat × Nat × Acc × Nat × Range)) : List DictEntry :=
  l.map fun r => ⟨256 * index + r.1, r.2.1, r.2.2.1, r.2.2.2.1, r.2.2.2.2, (typeSize r.2.1).getD 0⟩

/-- Identity and communication (R355, R356). -/
def dictComm : List DictEntry :=
  rows 0x1000 [(1, 7, .ro, 0, .any), (2, 7, .ro, 0, .any), (3, 7, .ro, 0, .any), (4, 4, .ro, 0, .any), (5, 3, .ro, 0, .any),
    (6, 3, .ro, 0, .any), (7, 1, .ro, 0, .any), (8, 1, .ro, 0, .any), (9, 2, .ro, 1, .any)] ++
  rows 0x1100 [(1, 1, .rws, 1, .between 1 126), (2, 1, .rws, 1, .between 1 126), (3, 1, .rws, 1, .between 0 1),
    (4, 1, .rws, 2, .between 0 3), (5, 1, .rws, 3, .between 0 3), (6, 2, .rws, 1000, .zeroOr 100 10000),
    (7, 2, .rws, 5000, .zeroOr 500 60000), (8, 1, .rws, 3, .between 0 3), (9, 1, .rws, 1, .between 0 1)] ++
  rows 0x1100 [(10, 2, .rws, 47520, .between 1024 65535), (11, 3, .rws, 0, .any), (12, 3, .rws, 0, .any),
    (13, 1, .rws, 127, .between 0 127), (14, 1, .rws, 1, .between 0 3), (15, 4, .rws, 0, .any),
    (16, 2, .rws, 100, .between 10 10000), (17, 7, .ro, 0, .any), (18, 7, .ro, 0, .any)] ++
  rows 0x1180 [(1, 1, .cmd, 0, .between 0 0), (2, 3, .ro, 0, .any), (3, 1, .ro, 0, .any), (4, 9, .ro, 0, .any), (5, 1, .ro, 0, .any),
    (6, 2, .rws, 60, .zeroOr 10 3600), (7, 1, .cmd, 0, .between 0 0), (8, 3, .ro, 0, .any)] ++
  rows 0x1200 [(1, 1, .ro, 0, .any), (2, 3, .ro, 0, .any)]

/-- Recording settings and clip control (R374, R375). -/
def dictRec : List DictEntry :=
  rows 0x2000 [(1, 1, .rws, 0, .between 0 2), (2, 1, .rws, 0, .between 0 1), (3, 1, .rws, 16, .between 1 16), (4, 3, .rws, 0, .any),
    (5, 2, .rws, 100, .between 30 200), (6, 2, .rws, 0, .between 0 4095), (7, 1, .rws, 1, .between 0 1),
    (8, 1, .rws, 1, .between 0 1), (9, 2, .rws, 4096, .width), (10, 2, .rws, 2160, .height)] ++
  rows 0x2000 [(11, 1, .rws, 12, .oneOf [10, 12, 14, 16]), (12, 1, .rws, 0x61, .cfa), (13, 1, .rws, 0, .between 0 1),
    (14, 3, .rws, 24, .between 1 4294967295), (15, 2, .rws, 1, .between 1 65535), (16, 1, .rws, 0, .between 0 2),
    (17, 1, .rws, 1, .between 0 1), (18, 3, .rws, 0x5229392E, .any), (19, 1, .rws, 0, .between 0 1),
    (20, 2, .rws, 20, .between 10 40)] ++
  [⟨256 * 0x2000 + 21, 7, .rws, 0, .any, 64⟩] ++
  rows 0x2100 [(1, 1, .cmd, 0, .between 0 0), (2, 1, .cmd, 0, .between 0 0), (3, 1, .ro, 0, .any), (4, 3, .ro, 0, .any),
    (5, 3, .ro, 0, .any), (6, 3, .ro, 0, .any), (7, 3, .ro, 0, .any), (8, 3, .ro, 0, .any), (9, 1, .ro, 0, .any)]

/-- Storage, catalogue, playback (R381 to R383). -/
def dictStore : List DictEntry :=
  rows 0x3000 [(1, 1, .ro, 0, .any), (2, 1, .ro, 0, .any), (3, 4, .ro, 0, .any), (4, 4, .ro, 0, .any), (5, 3, .ro, 0, .any),
    (6, 1, .cmd, 0, .between 1 15), (7, 1, .cmd, 0, .between 1 15), (8, 1, .cmd, 0, .between 1 15), (9, 1, .cmd, 0, .between 0 0),
    (10, 1, .cmd, 0, .between 0 0)] ++
  rows 0x3000 [(11, 1, .rws, 4, .between 1 4), (12, 1, .rws, 1, .between 0 1), (13, 1, .rws, 4, .between 2 8),
    (14, 3, .rws, 3000, .between 1 4294967295), (15, 1, .rws, 1, .between 0 1), (16, 1, .rws, 1, .between 0 1),
    (17, 1, .rws, 1, .between 0 1), (18, 1, .rws, 0, .between 0 1)] ++
  (List.range 4).flatMap (fun m => rows (0x3010 + m) [(1, 3, .ro, 0, .any), (2, 4, .ro, 0, .any), (3, 7, .ro, 0, .any)]) ++
  rows 0x3100 [(1, 3, .rw, 0, .any), (2, 8, .ro, 0, .any)] ++
  rows 0x4000 [(1, 1, .rw, 0, .between 0 2), (2, 3, .rw, 0, .any), (3, 3, .rw, 0, .any), (4, 3, .rw, 1, .between 1 4294967295),
    (5, 4, .rw, 0, .any), (6, 4, .rw, 0, .any), (7, 3, .rw, 0, .pitch), (8, 1, .rw, 2, .between 1 64), (9, 4, .rw, 0, .any),
    (10, 4, .rw, 0, .any)] ++
  rows 0x4000 [(11, 1, .rw, 0, .between 0 2), (12, 1, .cmd, 0, .between 0 0), (13, 1, .cmd, 0, .between 0 0), (14, 3, .ro, 0, .any),
    (15, 3, .rw, 0, .any), (16, 1, .rw, 0, .between 0 1)]

/-- Device control, updates, the Logbook (R355, R478, R481). -/
def dictDevice : List DictEntry :=
  rows 0x5000 [(1, 1, .ro, 0, .any), (2, 3, .wo, 0, .any), (3, 1, .ro, 0, .any), (4, 8, .ro, 0, .any), (5, 9, .ro, 0, .any),
    (6, 1, .ro, 0, .any)] ++
  [⟨256 * 0x5010 + 1, 8, .wo, 0, .any, 4 * 2 ^ 20⟩] ++
  rows 0x5010 [(2, 1, .ro, 0, .any), (3, 1, .cmd, 0, .between 0 0), (4, 1, .cmd, 0, .between 0 0), (5, 1, .cmd, 0, .between 0 1)] ++
  [⟨256 * 0x5011 + 1, 8, .wo, 0, .any, 4 * 2 ^ 20⟩] ++
  rows 0x5011 [(2, 1, .ro, 0, .any), (3, 1, .cmd, 0, .between 0 0)] ++ rows 0x5020 [(1, 8, .ro, 0, .any), (2, 8, .ro, 0, .any), (3, 3, .rw, 0, .any), (4, 8, .ro, 0, .any)]

/-- The dictionary's entries but those of the Light List's partners. -/
def dictTable : List DictEntry := dictComm ++ dictRec ++ dictStore ++ dictDevice

/-- A partner's entries in the Light List, n from 1 (R371). -/
def lightRows (n : Nat) : List DictEntry :=
  rows (0x1200 + n) [(1, 1, .ro, 0, .any), (2, 4, .ro, 0, .any), (3, 1, .ro, 0, .any), (4, 9, .ro, 0, .any), (5, 8, .ro, 0, .any)]

/-- The entry of a key (R353). -/
def dictEntry (key : Nat) : Option DictEntry :=
  let i := key / 256
  if 0x1201 ≤ i ∧ i ≤ 0x12FF then (lightRows (i - 0x1200)).find? (·.key == key) else dictTable.find? (·.key == key)

/-- The default value of an entry. -/
def DictEntry.default (e : DictEntry) : List Nat := if e.typ = 7 ∨ e.typ = 8 then [] else le e.size e.dflt

/-- The value of an RW or RWS entry, as its bytes. -/
def State.dictBytes (s : State) (key : Nat) : List Nat :=
  match aget s.hpp.dict key with
  | some v => v
  | none => ((dictEntry key).map DictEntry.default).getD []

/-- The value of a number entry index:sub. -/
def State.setting (s : State) (index sub : Nat) : Nat := unle (s.dictBytes (256 * index + sub))

/-- Store the value of an entry: an entry at its default is not listed. -/
def State.putDict (s : State) (key : Nat) (v : List Nat) : State :=
  { s with hpp := { s.hpp with dict :=
      if v = ((dictEntry key).map DictEntry.default).getD [] then adel s.hpp.dict key else aput s.hpp.dict key v } }

/-- A value lies in a range (R353). `pair` is the other value a range depends on. -/
def Range.ok (r : Range) (ganged : Bool) (v : Nat) : Bool :=
  match r with
  | .any => true
  | .between lo hi => decide (lo ≤ v ∧ v ≤ hi)
  | .zeroOr lo hi => v == 0 || decide (lo ≤ v ∧ v ≤ hi)
  | .oneOf l => l.contains v
  | .width => streamWidthOk false v || (ganged && streamWidthOk true v)
  | .height => v == 1080 || decide (1088 ≤ v ∧ v ≤ 8640 ∧ v % 16 = 0)
  | .cfa => cfaOk v
  | .pitch => v % 64 == 0

end Sys2Proof.Machine
end

