-- ==== Sys2Proof/Machine/Eml.lean ====
section
/-! DEFINITION. The Eloa Magazine Layout as bytes (R283 to R293): superblocks, catalogue entries, frame entries, index and
journal blocks, where data chunks lie, and what a reader takes as the committed content of a set (R302). -/

namespace Sys2Proof.Machine

/-! ## Blocks -/

/-- Bytes without the zeros at their end. -/
def trimZeros (l : List Nat) : List Nat := (l.reverse.dropWhile (· == 0)).reverse

/-- The 4096 bytes of block `b` of a medium: what it does not list is zero. -/
def blockOn (m : List (Nat × List Nat)) (b : Nat) : List Nat := fit 4096 (sget (fun _ => []) m b)

/-- Write block `b`. -/
def writeOn (m : List (Nat × List Nat)) (b : Nat) (l : List Nat) : List (Nat × List Nat) :=
  sput (fun _ => []) m b (trimZeros (l.take 4096))

/-- The number of all ones that marks no row (R288). -/
def noRow : Nat := 2 ^ 64 - 1

/-- A structure sealed by its CRC over the bytes before it (R287). -/
def sealed (l : List Nat) : List Nat := l ++ le 4 (crc32c l)

/-- A structure of `n` bytes before its CRC is whole and has its MAGIC (R287). -/
def emlOk (n magic : Nat) (l : List Nat) : Bool := rdLe l n 4 == crc32c (fit n l) && rdLe l 0 4 == magic

/-! ## Superblocks -/

/-- The 512 bytes of a superblock copy (R288). -/
def Superblock.bytes (b : Superblock) : List Nat :=
  sealed (fit 508 (le 4 0x534C4D45 ++ [1, 0, 0, 0] ++ le 4 b.seq ++ [if b.parity then 1 else 0, b.member % 256, b.width % 256,
    b.chunkLog % 256] ++ le 8 b.setId ++ [b.missing % 256, 0, 0, 0] ++ le 4 b.mountCount ++ le 8 b.blocks ++ le 8 b.catLba ++
    le 4 b.catBlocks ++ le 4 b.jrnBlocks ++ le 8 b.jrnLba ++ le 8 b.idxLba ++ le 8 b.idxBlocks ++ le 8 b.dataLba ++
    le 8 b.dataRows ++ le 8 b.nextRow ++ le 8 b.nextSlot ++ le 4 b.nextClip ++ le 4 b.rated ++ le 8 b.lastJseq ++
    le 8 b.degradedRow ++ le 8 b.formatTime ++ le 8 b.mountTime ++ le 8 b.formatter ++
    (List.range 4).flatMap fun i => fit 20 (b.serials.getD i [])))

/-- The fields of a superblock copy. -/
def readSuper (l : List Nat) : Superblock :=
  { seq := rdLe l 8 4, parity := rdLe l 12 1 % 2 == 1, member := rdLe l 13 1, width := rdLe l 14 1, chunkLog := rdLe l 15 1,
    setId := rdLe l 16 8, missing := rdLe l 24 1, mountCount := rdLe l 28 4, blocks := rdLe l 32 8, catLba := rdLe l 40 8,
    catBlocks := rdLe l 48 4, jrnBlocks := rdLe l 52 4, jrnLba := rdLe l 56 8, idxLba := rdLe l 64 8, idxBlocks := rdLe l 72 8,
    dataLba := rdLe l 80 8, dataRows := rdLe l 88 8, nextRow := rdLe l 96 8, nextSlot := rdLe l 104 8, nextClip := rdLe l 112 4,
    rated := rdLe l 116 4, lastJseq := rdLe l 120 8, degradedRow := rdLe l 128 8, formatTime := rdLe l 136 8,
    mountTime := rdLe l 144 8, formatter := rdLe l 152 8,
    serials := (List.range 4).map fun i => fit 20 ((l.drop (160 + 20 * i)).take 20) }

/-- Blocks of a chunk, C (R283). -/
def Superblock.chunk (b : Superblock) : Nat := 2 ^ b.chunkLog

/-- Data chunks of a row, K (R283). -/
def Superblock.k (b : Superblock) : Nat := if b.parity then 3 else b.width

/-- Data bytes of a row (R283). -/
def Superblock.rowBytes (b : Superblock) : Nat := b.k * 4096 * b.chunk

/-- Two runs of blocks do not overlap. -/
def apart (a n b m : Nat) : Bool := decide (a + n ≤ b ∨ b + m ≤ a)

/-- The regions meet R286. -/
def Superblock.regionsOk (b : Superblock) : Bool :=
  let r := [(b.catLba, b.catBlocks), (b.jrnLba, b.jrnBlocks), (b.idxLba, b.idxBlocks), (b.dataLba, b.dataRows * b.chunk)]
  r.all (fun x => decide (3 ≤ x.1 ∧ x.1 + x.2 ≤ b.blocks)) &&
    r.zipIdx.all (fun x => r.zipIdx.all fun y => x.2 == y.2 || apart x.1.1 x.1.2 y.1.1 y.1.2) &&
    decide (ceilDiv b.dataRows 63 ≤ b.idxBlocks)

/-- A superblock copy is valid (R287). -/
def Superblock.ok (b : Superblock) : Bool :=
  b.setId != 0 && decide (1 ≤ b.width ∧ b.width ≤ 4 ∧ b.member < b.width ∧ 2 ≤ b.chunkLog ∧ b.chunkLog ≤ 8) &&
    (!b.parity || b.width == 4) && b.dataLba % b.chunk == 0 && b.regionsOk

/-- A superblock copy as a reader takes it: its VERSION_MAJOR and its fields, when it is valid. -/
def parseSuper (l : List Nat) : Option (Nat × Superblock) :=
  if emlOk 508 0x534C4D45 l && (readSuper l).ok then some (rdLe l 4 2, readSuper l) else none

/-- The chosen copy of a medium (R289): VERSION_MAJOR, fields, and whether it is copy A. -/
def chosen (m : List (Nat × List Nat)) : Option (Nat × Superblock × Bool) :=
  match parseSuper (blockOn m 1), parseSuper (blockOn m 2) with
  | some a, some b => if later b.2.seq a.2.seq then some (b.1, b.2, false) else some (a.1, a.2, true)
  | some a, none => some (a.1, a.2, true)
  | none, some b => some (b.1, b.2, false)
  | none, none => none

/-! ## Catalogue and frame entries -/

/-- The 512 bytes of a catalogue entry (R290). -/
def CatEntry.toBytes (e : CatEntry) : List Nat :=
  sealed (fit 508 (le 4 0x434C4D45 ++ [0, 0, e.state % 256, e.reason % 256] ++ le 4 e.clipNo ++ le 4 e.entrySeq ++ le 8 e.setId ++
    le 8 e.firstRow ++ le 8 e.rows ++ le 8 e.indexFirst ++ le 4 e.frames ++ le 4 e.firstEpoch ++ le 8 e.openJseq ++
    le 8 e.openTime ++ le 8 e.closeTime ++ le 2 e.width ++ le 2 e.height ++ [e.depth % 256, e.cfa % 256, e.modeFlags % 256,
    e.keyInterval % 256] ++ le 4 e.rateNum ++ le 2 e.rateDen ++ [0, 0] ++ le 4 e.target ++ le 4 e.firstTc ++ le 4 e.lastTc ++
    le 4 e.dropped ++ le 8 e.bytes ++ fit 64 e.name))

/-- A valid catalogue entry `n` of the set (R287, R290). -/
def parseCat (setId n : Nat) (l : List Nat) : Option CatEntry :=
  let st := rdLe l 6 1
  if emlOk 508 0x434C4D45 l && rdLe l 16 8 == setId && rdLe l 8 4 == n && decide (1 ≤ st ∧ st ≤ 3) then
    some { state := st, reason := if rdLe l 7 1 ≤ 6 then rdLe l 7 1 else 0, clipNo := n, entrySeq := rdLe l 12 4,
           setId := setId, firstRow := rdLe l 24 8, rows := rdLe l 32 8, indexFirst := rdLe l 40 8, frames := rdLe l 48 4,
           firstEpoch := rdLe l 52 4, openJseq := rdLe l 56 8, openTime := rdLe l 64 8, closeTime := rdLe l 72 8,
           width := rdLe l 80 2, height := rdLe l 82 2, depth := rdLe l 84 1, cfa := rdLe l 85 1, modeFlags := rdLe l 86 1,
           keyInterval := rdLe l 87 1, rateNum := rdLe l 88 4, rateDen := rdLe l 92 2, target := rdLe l 96 4,
           firstTc := rdLe l 100 4, lastTc := rdLe l 104 4, dropped := rdLe l 108 4, bytes := rdLe l 112 8,
           name := (l.drop 120).take 64 }
  else none

/-- The 64 bytes of a frame entry (R291). -/
def FrameEntry.toBytes (e : FrameEntry) : List Nat :=
  sealed (le 4 e.clipFrame ++ le 4 e.epoch ++ le 8 e.firstRow ++ le 4 e.bytes ++ le 4 e.rows ++ le 8 e.time ++ le 4 e.timecode ++
    [e.subframe % 256, e.unit % 256] ++ le 2 e.cflags ++ le 4 e.crc ++ le 4 e.clipNo ++ le 8 e.jseq ++ [0, 0, 0, 0])

/-- A valid frame entry (R287, R291). -/
def parseFrame (l : List Nat) : Option FrameEntry :=
  if rdLe l 60 4 == crc32c (fit 60 l) && decide (rdLe l 37 1 ≤ 1) then
    some { clipFrame := rdLe l 0 4, epoch := rdLe l 4 4, firstRow := rdLe l 8 8, bytes := rdLe l 16 4, rows := rdLe l 20 4,
           time := rdLe l 24 8, timecode := rdLe l 32 4, subframe := rdLe l 36 1, unit := rdLe l 37 1, cflags := rdLe l 38 2,
           crc := rdLe l 40 4, clipNo := rdLe l 44 4, jseq := rdLe l 48 8 }
  else none

/-! ## Index and journal blocks -/

/-- The 64-byte pieces of a block after its header. -/
def pieces (l : List Nat) (n : Nat) : List (List Nat) := (List.range n).map fun i => (l.drop (64 + 64 * i)).take 64

/-- An index block with the slots filled (R292). `n` counts index blocks from INDEX_LBA. -/
def indexBlock (setId n : Nat) (slots : List (List Nat)) : List Nat :=
  fit 4096 (sealed (fit 60 (le 4 0x494C4D45 ++ [0, 0, 0, 0] ++ le 8 (63 * n) ++ le 8 setId ++ [slots.length % 256])) ++
    slots.flatMap (fit 64))

/-- The filled slots of a valid index block (R292). -/
def parseIndex (setId n : Nat) (l : List Nat) : Option (List (List Nat)) :=
  let c := rdLe l 24 1
  if emlOk 60 0x494C4D45 l && rdLe l 8 8 == 63 * n && rdLe l 16 8 == setId && decide (c ≤ 63) then some (pieces l c) else none

/-- A journal block (R293). -/
def JournalBlock.bytes (j : JournalBlock) : List Nat :=
  let body := fit 4032 (j.entries.flatMap FrameEntry.toBytes)
  sealed (le 4 0x4A4C4D45 ++ [j.typ % 256, j.entries.length % 256, j.missing % 256, j.pos % 256] ++ le 8 j.jseq ++ le 8 j.setId ++
    le 4 j.clipNo ++ le 4 j.frames ++ le 8 j.nextRow ++ le 8 j.nextSlot ++ le 8 j.degradedRow ++ le 4 (crc32c body)) ++ body

/-- A valid journal block at place `k` of a ring of `n` (R287, R293). -/
def parseJournal (setId n k : Nat) (l : List Nat) : Option JournalBlock :=
  let c := rdLe l 5 1
  let t := rdLe l 4 1
  if emlOk 60 0x4A4C4D45 l && rdLe l 16 8 == setId && rdLe l 56 4 == crc32c (fit 4032 (l.drop 64)) && rdLe l 8 8 % n == k &&
      decide (1 ≤ t ∧ t ≤ 2 ∧ c ≤ 62) then
    some { typ := t, missing := rdLe l 6 1, pos := rdLe l 7 1, jseq := rdLe l 8 8, setId := setId, clipNo := rdLe l 24 4,
           frames := rdLe l 28 4, nextRow := rdLe l 32 8, nextSlot := rdLe l 40 8, degradedRow := rdLe l 48 8,
           entries := (pieces l c).filterMap parseFrame }
  else none

/-! ## Rows -/

/-- The member that holds data chunk `i` of row `r` (R283). -/
def Superblock.chunkMember (b : Superblock) (r i : Nat) : Nat := if b.parity then (3 - r % 4 + 1 + i) % 4 else i

/-- The bytewise XOR of chunks (R283). -/
def xorChunks (n : Nat) (l : List (List Nat)) : List Nat := l.foldl (fun a c => List.zipWith (· ^^^ ·) a (fit n c)) (List.replicate n 0)

/-- What row `r` holds on every member, for the row's data bytes (R283, R284): (member, chunk). -/
def Superblock.rowChunks (b : Superblock) (r : Nat) (data : List Nat) : List (Nat × List Nat) :=
  let n := 4096 * b.chunk
  let d := (List.range b.k).map fun i => fit n (data.drop (n * i))
  (d.zipIdx.map fun p => (b.chunkMember r p.2, p.1)) ++ (if b.parity then [(3 - r % 4, xorChunks n d)] else [])

/-- Rows that `n` bytes take (R284). -/
def Superblock.rowsOf (b : Superblock) (n : Nat) : Nat := ceilDiv n (max 1 b.rowBytes)

/-- Write a chunk at row `r` of a medium. -/
def Superblock.writeChunk (b : Superblock) (m : List (Nat × List Nat)) (r : Nat) (c : List Nat) : List (Nat × List Nat) :=
  (List.range b.chunk).foldl (fun m k => writeOn m (b.dataLba + r * b.chunk + k) ((c.drop (4096 * k)).take 4096)) m

/-- Read the chunk of row `r` on a medium. -/
def Superblock.readChunk (b : Superblock) (m : List (Nat × List Nat)) (r : Nat) : List Nat :=
  (List.range b.chunk).flatMap fun k => blockOn m (b.dataLba + r * b.chunk + k)

/-- Media of a set by member. -/
abbrev Media := List (Nat × List (Nat × List Nat))

/-- Data chunk or parity chunk of member `m` at row `r`: its own, or rebuilt from the other three (R285). -/
def Superblock.chunkOf (b : Superblock) (ms : Media) (m r : Nat) : Option (List Nat) :=
  match aget ms m with
  | some x => some (b.readChunk x r)
  | none =>
    let o := ms.filter fun x => x.1 < 4
    if b.parity && o.length == 3 then some (xorChunks (4096 * b.chunk) (o.map fun x => b.readChunk x.2 r)) else none
where
  aget (l : Media) (k : Nat) : Option (List (Nat × List Nat)) := (l.find? (·.1 == k)).map (·.2)

/-- The bytes of a unit (R284, R285). -/
def Superblock.readUnit (b : Superblock) (ms : Media) (e : FrameEntry) : Option (List Nat) :=
  let cs := (List.range (b.rowsOf e.bytes)).flatMap fun j =>
    (List.range b.k).map fun i => b.chunkOf ms (b.chunkMember (e.firstRow + j) i) (e.firstRow + j)
  if cs.any (·.isNone) then none else some ((cs.flatMap (·.getD [])).take e.bytes)

/-! ## The committed content of a set (R282, R289, R302) -/

/-- What a reader finds on a set. `media` holds the members that are present and not stale. -/
structure SetView where
  sb : Superblock
  missing : Nat
  media : Media
  journal : List JournalBlock
  head : Option JournalBlock
  catalogue : List (Option CatEntry)
  appendRow : Nat
  appendSlot : Nat
  deriving DecidableEq, Repr

/-- The valid journal blocks of the members, each JSEQ once. -/
def journalOf (b : Superblock) (ms : Media) : List JournalBlock :=
  (List.range b.jrnBlocks).flatMap fun k =>
    (ms.filterMap fun m => parseJournal b.setId b.jrnBlocks k (blockOn m.2 (b.jrnLba + k))).foldl
      (fun a j => if a.any (·.jseq == j.jseq) then a else a ++ [j]) []

/-- Block `h` of R302: the highest whose earlier blocks of the round are all found. -/
def headOf (last : Nat) (js : List JournalBlock) : Option JournalBlock :=
  let whole := fun (h : JournalBlock) =>
    let lo := max (h.jseq - h.pos) (last + 1)
    (List.range (h.jseq - lo)).all fun i => js.any (·.jseq == lo + i)
  (js.filter fun h => decide (last ≤ h.jseq) && whole h).foldl
    (fun a h => match a with | none => some h | some x => if x.jseq < h.jseq then some h else some x) none

/-- The valid copy of entry `n` with the highest ENTRY_SEQ (R302). -/
def catOf (b : Superblock) (ms : Media) (n : Nat) : Option CatEntry :=
  (ms.filterMap fun m => parseCat b.setId n (blockOn m.2 (b.catLba + n))).foldl
    (fun a e => match a with | none => some e | some x => if later e.entrySeq x.entrySeq then some e else some x) none

/-- The catalogue scan from NEXT_CLIP (R302). -/
def catScan (b : Superblock) (ms : Media) : Nat → Nat → Nat
  | 0, n => n
  | fuel + 1, n =>
    if n < b.catBlocks then
      match catOf b ms n with
      | some e => if e.state ≤ 2 then catScan b ms fuel (n + 1) else n
      | none => n
    else n

/-- Frames, append row and append slot of a clip by R302. -/
def clipEnd (head : Option JournalBlock) (e : CatEntry) : Nat × Nat × Nat :=
  if e.state = 1 then
    match head with
    | some h =>
      if h.clipNo = e.clipNo ∧ e.openJseq ≤ h.jseq then (h.frames, h.nextRow, h.nextSlot) else (0, e.firstRow, e.indexFirst)
    | none => (0, e.firstRow, e.indexFirst)
  else if e.state = 2 then (e.frames, e.firstRow + e.rows, e.indexFirst + e.frames) else (0, e.firstRow, e.indexFirst)

/-- The members without those of a mask. -/
def Media.without (ms : Media) (mask : Nat) : Media := ms.filter fun m => bitAt mask m.1 == 0

/-- The committed content of the members `ms` of a set whose set-wide fields are `b` (R282, R302). -/
def assess (b : Superblock) (ms : Media) : SetView :=
  let h0 := headOf b.lastJseq (journalOf b (ms.without b.missing))
  let mask := match h0 with | some h => if b.lastJseq < h.jseq then h.missing else b.missing | none => b.missing
  let ms := ms.without mask
  let js := journalOf b ms
  let h := headOf b.lastJseq js
  let n := catScan b ms (b.catBlocks - b.nextClip) b.nextClip
  let del := match catOf b ms (b.nextClip - 1) with | some e => b.nextClip != 0 && e.state == 3 && n == b.nextClip | none => false
  let n := if del then n - 1 else n
  let cat := (List.range n).map (catOf b ms)
  let (r, s) :=
    if del then match catOf b ms n with | some e => (e.firstRow, e.indexFirst) | none => (b.nextRow, b.nextSlot)
    else if n = b.nextClip then (b.nextRow, b.nextSlot)
    else match cat.getLast?.getD none with | some e => (clipEnd h e).2 | none => (b.nextRow, b.nextSlot)
  ⟨b, mask, ms, js, h, cat, r, s⟩

/-- The frame entry for slot `i` of a clip (R292, R302): the journal's with the highest JSEQ, else the index's. -/
def SetView.unit (v : SetView) (e : CatEntry) (i : Nat) : Option FrameEntry :=
  let fit := fun (x : FrameEntry) => x.clipNo == e.clipNo && x.clipFrame == i
  let js := v.journal.filter fun j => j.clipNo == e.clipNo && decide (e.openJseq ≤ j.jseq)
  let best := (js.flatMap fun j => (j.entries.filter fit).map fun x => (j.jseq, x)).foldl
    (fun a p => match a with | none => some p | some q => if q.1 < p.1 then some p else some q) none
  match best with
  | some p => some p.2
  | none =>
    let s := e.indexFirst + i
    v.media.findSome? fun m =>
      match parseIndex v.sb.setId (s / 63) (blockOn m.2 (v.sb.idxLba + s / 63)) with
      | some l => (l.drop (s % 63)).head?.bind fun x => (parseFrame x).bind fun y => if fit y then some y else none
      | none => none

end Sys2Proof.Machine
end

