-- ==== Sys2Proof/Machine/Memory.lean ====
section
/-! DEFINITION. The LPDDR5X Memory Controller (R225 to R244) and the accesses of the part's own blocks to DRAM and host
memory. -/

namespace Sys2Proof.Machine

/-! ## Address map -/

/-- Where device address `a` lies (R229): its rank and its position among the rank's data bytes. -/
def State.place (s : State) (a : Nat) : Option (Nat × Nat) :=
  let m := s.lmc
  let at' := fun (set : List Nat) (a : Nat) =>
    (set[(a / 256) % set.length]?).map fun r => (r, a / 256 / set.length * 256 + a % 256)
  let sizeA := m.setA.length * m.rankBytes
  if a < sizeA then at' m.setA a
  else if a < sizeA + m.setB.length * m.rankBytes then at' m.setB (a - sizeA) else none

/-- The device address of position `p` of rank `r`, when it serves an interleave set (R229). -/
def State.unplace (s : State) (r p : Nat) : Option Nat :=
  let m := s.lmc
  let at' := fun (set : List Nat) => (set.idxOf? r).map fun i => (p / 256 * set.length + i) * 256 + p % 256
  (at' m.setA).orElse fun _ => (at' m.setB).map (· + m.setA.length * m.rankBytes)

/-- Position `p` of rank `r` has been copied to the spare (R241). -/
def State.copied (s : State) (r p : Nat) : Bool :=
  match s.lmc.migration with
  | some g => g.src == r && decide (p < s.get LMC_MIG_PTR_BYTES)
  | none => false

/-- The rank and the position that serve device address `a`: below the pointer of a migration, those of the spare (R241). -/
def State.servedAt (s : State) (a : Nat) : Option (Nat × Nat) :=
  (s.place a).map fun p =>
    match s.lmc.migration with
    | some g => (if s.copied p.1 p.2 then g.dst else p.1, p.2)
    | none => p

/-- The rank that serves device address `a`. -/
def State.serving (s : State) (a : Nat) : Option Nat := (s.servedAt a).map (·.1)

/-- The device address that position `p` of rank `r` serves: of a migration's spare, that of its source below the pointer. -/
def State.lineAt (s : State) (r p : Nat) : Option Nat :=
  let a := match s.lmc.migration with
    | some g => s.unplace (if g.dst = r then g.src else r) p
    | none => s.unplace r p
  a.filter fun a => s.serving a == some r

/-- The channel of a rank. -/
def rankCh (r : Nat) : Nat := r / 2

/-- A channel serves requests and commands: the LMC is ready, and the channel is not frozen (R237, R244). -/
def State.chOn (s : State) (ch : Nat) : Bool := s.flag LMC_STATUS_READY && !s.flag (LMC_CH_STAT_FROZEN ch)

/-- A channel is retraining (R239). -/
def State.chTrains (s : State) (ch : Nat) : Bool := (s.lmc.training.getD ch none).isSome

/-- Device address `a` is served: the LMC is ready, the address exists, its channel is not frozen (R237, R244). -/
def State.dramOn (s : State) (a : Nat) : Bool :=
  match s.serving a with | none => false | some r => s.chOn (rankCh r)

/-- The channel that serves `a` is retraining (R239). -/
def State.dramWaits (s : State) (a : Nat) : Bool := match s.serving a with | none => false | some r => s.chTrains (rankCh r)

/-- The lines of a request. -/
def linesOf (a n : Nat) : List Nat := (List.range ((a + max n 1 - 1) / 64 + 1 - a / 64)).map (· + a / 64)

/-- Every line of a request is served. -/
def State.allOn (s : State) (a n : Nat) : Bool := (linesOf a n).all fun l => s.dramOn (64 * l)

/-- An access to DRAM that is off (R428): source 0x02 with unit 24; INFO would hold a BAR0 offset, which such an access
has not, and is a free value (log entry 13). -/
def State.dramOff (s : State) : State := let (v, s) := s.draw; s.raise 0x02 24 (v % 2 ^ 32)

/-! ## Bytes -/

/-- DRAM bytes at device address `a`. -/
def State.dramBytes (s : State) (a n : Nat) : List Nat := toNats (sgetAll (fun _ => 0#8) s.dram a n)

/-- A line is poisoned (R230). -/
def State.isPoisoned (s : State) (line : Nat) : Bool := sget (fun _ => false) s.poison line

/-- Some line of a run of bytes is poisoned. -/
def State.poisonedIn (s : State) (a n : Nat) : Bool :=
  s.poison.any fun e => e.2 && decide (a / 64 ≤ e.1 ∧ 64 * e.1 < a + n)

/-- Write DRAM bytes: a line written whole loses its poison (R230). -/
def State.dramPut (s : State) (a : Nat) (l : List Nat) : State :=
  { s with
    dram := sputAll (fun _ => 0#8) s.dram a (toBytes l)
    poison := s.poison.filter fun e => !(decide (a ≤ 64 * e.1 ∧ 64 * e.1 + 64 ≤ a + l.length)) }

/-- Free bytes, eight for each of `n` draws. -/
def State.freeBytes : Nat → State → List Nat × State
  | 0, s => ([], s)
  | n + 1, s =>
    let (v, s) := s.draw
    let (l, s) := State.freeBytes n s
    (le 8 v ++ l, s)

/-- A host line as the device sees it: its own modified copy, else host memory (R318, R321). -/
def State.hostLine (s : State) (line : Nat) : List Nat :=
  match aget s.cxl.cache line with
  | some b => b
  | none => (List.range 64).map fun i =>
      match sget (fun _ => none) s.hostMem (64 * line + i) with
      | some b => b.toNat
      | none => (Config.hostByte (64 * line + i)).toNat

/-- Write a modified line back to host memory (R321). -/
def State.writeBack (s : State) (line : Nat) (b : List Nat) : State :=
  { s with hostMem := sputAll (fun _ => none) s.hostMem (64 * line) ((toBytes b).map some) }

/-- The device cache takes a modified line; a full cache of 8192 lines evicts its oldest (R312, R321). -/
def State.cacheLine (s : State) (line : Nat) (b : List Nat) : State :=
  let c := (line, b) :: adel s.cxl.cache line
  let s := match (c.drop 8192).head? with | some (k, v) => s.writeBack k v | none => s
  { s with cxl := { s.cxl with cache := c.take 8192 } }

/-- The host can be reached for coherent accesses (R311, R313, R324). -/
def State.hostReach (s : State) : Bool := s.host && s.flag CXP_STATUS_CXL_MODE && s.role != 2

/-! ## Commands to the DRAM, and the trace -/

/-- A state of a rank. -/
def State.rank (s : State) (r : Nat) : Nat := s.get (LMC_RANK_STATE r)

/-- Append a command to a channel's trace of 64, unless the channel is frozen (R244). -/
def State.traceCmd (s : State) (ch cmd cs bank rc : Nat) : State :=
  if s.flag (LMC_CH_STAT_FROZEN ch) then s
  else { s with lmc := { s.lmc with trace := modAt s.lmc.trace ch fun l =>
    ((cmd + 16 * (cs % 2) + 32 * (bank % 16) + 512 * (rc % 2 ^ 18)) :: l).take 64 } }

/-- A bank (R235): its predictor starts at 2. -/
def State.bank (s : State) (k : Nat) : DramBank := sget (fun _ => ⟨none, false, 0, 2⟩) s.lmc.banks k

/-- Write a bank. -/
def State.putBank (s : State) (k : Nat) (b : DramBank) : State :=
  { s with lmc := { s.lmc with banks := sput (fun _ => ⟨none, false, 0, 2⟩) s.lmc.banks k b } }

/-- Where data position `p` of a rank lies (R228): each 2 KiB of a row holds 30 lines and their check words, 4 bytes a line, in two chunks of
64 bytes. Its bank, its row, its column and the column of its check words' chunk. -/
def dramSpot (p : Nat) : Nat × Nat × Nat × Nat :=
  let k := p / 64
  let pl := (Config.dramPlace (k / 30)).toNat
  (bits pl 0 4, bits pl 4 18, bits pl 22 18 + k % 30, bits pl 22 18 + 30 + k % 30 / 16)

/-- The check word of a line (R228): the codes of its two halves, over 256 data bits and the line's device address. -/
def State.checkWord (s : State) (line : Nat) : List (BitVec 16) :=
  [0, 32].map fun o => Config.secDed (unle (s.dramBytes (64 * line + o) 32)) (64 * line)

/-- The check words of a line come through the channel's cache of 16 KiB, 256 chunks, of which the oldest makes room; a write passes through
it (R228). What it keeps and when it writes is a DESIGN CHOICE, log entry 12. -/
def State.checkAccess (s : State) (r p : Nat) (write : Bool) : State :=
  let k := p / 64
  let (bank, _, _, col) := dramSpot p
  let chunk := 2 * (2 ^ 40 * r + k / 30) + k % 30 / 16
  let ch := rankCh r
  let hit := (s.lmc.checks.getD ch []).contains chunk
  let s := s.when (!hit) (·.traceCmd ch 2 (r % 2) bank col)
  let s := s.when write (·.traceCmd ch 3 (r % 2) bank col)
  if hit then s else { s with lmc := { s.lmc with checks := modAt s.lmc.checks ch fun l => (chunk :: l).take 256 } }

/-- A line lies in the open row of its bank. -/
def State.rowHit (s : State) (line : Nat) : Bool :=
  match s.servedAt (64 * line) with
  | none => false
  | some (r, p) => (s.bank (16 * r + (dramSpot p).1)).row == some (dramSpot p).2.1

/-- A request to a row of a bank is queued (R235). -/
def State.queuedTo (s : State) (r bank row : Nat) : Bool :=
  let there := fun (l : Nat) => match s.servedAt (64 * l) with
    | none => false
    | some (r', p) => r' == r && (dramSpot p).1 == bank && (dramSpot p).2.1 == row
  (s.lmc.wq.any fun e => there e.line) || s.lmc.held.any fun h => (linesOf h.req.addr h.req.len).any there

/-- A column command to the line at position `p` of rank `r` (R234, R235): precharge and activation as the row needs. The close predictor
moves when the access follows a row left open; when no other request to the row is queued, the row stays open or is closed as it says. -/
def State.column (s : State) (r p : Nat) (write : Bool) : State :=
  let (bank, row, col, _) := dramSpot p
  let ch := rankCh r
  let cs := r % 2
  let b := s.bank (16 * r + bank)
  let pred := if !b.left then b.predictor else if b.row = some row then min 3 (b.predictor + 1) else b.predictor - 1
  let s := if b.row = some row then s
    else ((s.when b.row.isSome (·.traceCmd ch 4 cs bank 0)).traceCmd ch 1 cs bank row)
  let s := (s.traceCmd ch (if write then 3 else 2) cs bank col).checkAccess r p write
  let more := s.queuedTo r bank row
  let stay := more || decide (2 ≤ pred)
  s.putBank (16 * r + bank) ⟨if stay then some row else none, stay && !more, s.now, pred⟩

/-- The banks of a rank are precharged, bank by bank where a row is open. -/
def State.prechargeAll (s : State) (r : Nat) : State :=
  s.each (List.range 16) fun s b =>
    let k := 16 * r + b
    if (s.bank k).row.isSome then (s.traceCmd (rankCh r) 4 (r % 2) b 0).putBank k { s.bank k with row := none, left := false } else s

/-- The ranks of a channel that are there. -/
def State.ranksOf (s : State) (ch : Nat) : List Nat := [2 * ch, 2 * ch + 1].filter fun r => s.rank r != 0

/-- A channel enters self-refresh, with an SRE to every rank, or leaves it with an SRX (R244, R395). -/
def State.selfRefresh (s : State) (ch : Nat) (enter : Bool) : State :=
  let rs := s.ranksOf ch
  let s := s.each rs fun s r => s.traceCmd ch (if enter then 9 else 10) (r % 2) 0 0
  { s with lmc := { s.lmc with selfRefresh := (if enter then rs else []) ++ s.lmc.selfRefresh.filter fun r => rankCh r != ch } }

/-! ## Errors -/

/-- Migration of rank `r` to the spare `d` starts (R241). -/
def State.startMigration (s : State) (r d : Nat) : State :=
  let s := (((s.set (LMC_RANK_STATE r) 3).set (LMC_RANK_STATE d) 4).set LMC_STATUS_MIGRATING 1).set LMC_MIG_PTR_BYTES 0
  let s := s.set LMC_EVENTS_RETIRE_START 1
  { s with lmc := { s.lmc with retireDue := none, migration := some ⟨r, d, false⟩ } }

/-- The spare that may stand in for rank `r`: designated and unused (R240). -/
def State.spareRank (s : State) (r : Nat) : Option Nat := (List.range 8).find? fun d => s.rank d == 2 && d != r

/-- A waiting retirement starts: at a snapshot, or at once while the Beacon is stopped (R241). -/
def State.migrationDue (s : State) : State :=
  match s.lmc.retireDue with
  | none => s
  | some r => match s.spareRank r with | none => s | some d => s.startMigration r d

/-- Rank `r` stays in service for lack of a spare (R240); `ue` after an uncorrectable error. -/
def State.keepRank (s : State) (r : Nat) (ue : Bool) : State :=
  { s with lmc := { s.lmc with
      noSpare := (r :: s.lmc.noSpare).dedup
      stuck := if ue && s.rank r == 1 then (r :: s.lmc.stuck).dedup else s.lmc.stuck } }

/-- Retirement of rank `r` is triggered (R240). `ue`: by an error. A later error of a rank that has stayed in service for lack of a spare
retires nothing; nor does a trigger in a rank that is retiring, retired, failed or absent. -/
def State.retireRank (s : State) (r : Nat) (ue : Bool) : State :=
  if s.lmc.retireDue = some r ∨ !([1, 2, 4].contains (s.rank r)) then s
  else if ue && s.lmc.noSpare.contains r then s.keepRank r true
  else if s.rank r == 1 && s.lmc.retireDue.isNone && s.lmc.migration.isNone && (s.spareRank r).isSome then
    let s := { s with lmc := { s.lmc with retireDue := some r } }
    s.when (!s.beaconRuns) State.migrationDue
  else ((s.keepRank r ue).set LMC_EVENTS_NO_SPARE 1).raise 0x29 r 0

/-- A channel freezes (R244): its ranks go to self-refresh, and its trace stands. -/
def State.freeze (s : State) (ch : Nat) : State :=
  (((s.selfRefresh ch true).set (LMC_CH_STAT_FROZEN ch) 1).set LMC_EVENTS_FROZEN 1).raise 0x2B ch 0

/-- A correctable error in rank `r` (R230, R232). -/
def State.correctable (s : State) (r : Nat) : State :=
  let h := s.dtcNs / (3600 * 10 ^ 9)
  let s := { s with lmc := { s.lmc with timing := modAt s.lmc.timing r fun t =>
    { t with ceHour := h, ceCount := if t.ceHour = h then t.ceCount + 1 else 1 } } }
  ((s.inc (LMC_RANK_CE r)).set LMC_EVENTS_CE 1).raise 0x28 r 0

/-- The capture registers of the channel take the first uncorrectable error since they were cleared (R230). A line without a device address
is captured under a free one (log entry 13). -/
def State.capture (s : State) (r : Nat) (line : Option Nat) (synd half : Nat) : State :=
  let ch := rankCh r
  if s.flag (LMC_CH_ERR_SYND_VALID ch) then s
  else
    let (a, s) := match line with | some l => (64 * l, s) | none => s.draw
    let s := (s.set (LMC_CH_ERR_ADDR_ADDR ch) a).set (LMC_CH_ERR_SYND_SYND ch) synd
    ((s.set (LMC_CH_ERR_SYND_HALF ch) half).set (LMC_CH_ERR_SYND_VALID ch) 1).set (LMC_CH_ERR_SYND_RANK ch) (r % 2)

/-- The migration is aborted (R242): every line stays correct on the source. -/
def State.abortMigration (s : State) (g : Migration) : State :=
  let s := (((s.set (LMC_RANK_STATE g.src) 1).set (LMC_RANK_STATE g.dst) 6).set LMC_STATUS_MIGRATING 0).set LMC_EVENTS_MIG_ABORT 1
  { s with lmc := { s.lmc with
      migration := none
      noSpare := (g.src :: s.lmc.noSpare).dedup
      stuck := (g.src :: s.lmc.stuck).dedup } }.raise 0x29 g.dst 0

/-- An uncorrectable error in rank `r` (R230, R240, R242, R244), in the line `line` where it has a device address. One of the spare during a
migration aborts that, and its line stays correct on the source; it is raised once, by the abort. -/
def State.uncorrectable (s : State) (r : Nat) (line : Option Nat) (synd half : Nat) : State :=
  let s := ((s.inc (LMC_RANK_UE r)).set LMC_EVENTS_UE 1).capture r line synd half
  let frozen := s.flag (LMC_CH_POLICY_FREEZE (rankCh r))
  match s.lmc.migration.filter fun g => g.dst == r with
  | some g => (s.abortMigration g).when frozen (·.freeze (rankCh r))
  | none =>
    let s := match line with
      | some l => { s with poison := sput (fun _ => false) s.poison l true }
      | none => s
    let s := s.raise 0x29 r 0
    if frozen then s.freeze (rankCh r) else if s.rank r = 1 then s.retireRank r true else s

/-- What ECC finds in a line as it is read (R230): a corrected one is written back. -/
def State.eccLine (s : State) (line : Nat) (e : EccFinding) : State :=
  match e, s.servedAt (64 * line) with
  | .correctable, some (r, p) => (s.column r p true).correctable r
  | .uncorrectable synd half, some (r, _) => s.uncorrectable r (some line) synd half
  | _, _ => s

/-! ## Host bias (R315, R317) -/

/-- The HDM page of a device address (R314, R315). -/
def hdmPage (a : Nat) : Option Nat := if a < 2 ^ 32 then none else some ((a - 2 ^ 32) / 2 ^ 21)

/-- Bias of an HDM page: true is device bias (R315). -/
def State.pageBias (s : State) (p : Nat) : Bool := sget (fun _ => s.cxl.devBase) s.cxl.pages p

/-- A device access to the page waits while it changes to device bias (R317). -/
def State.biasWaits (s : State) (a : Nat) : Bool :=
  match s.cxl.change, hdmPage a with
  | some c, some p => c.toDevice && c.page == p
  | _, _ => false

/-- A device access to a line of a host-bias page goes to the host, while it can be reached (R315): where the host's caches hold newer data,
which is a free value, the access completes with them. -/
def State.snoopLine (s : State) (line : Nat) : State :=
  match hdmPage (64 * line) with
  | none => s
  | some p =>
    if s.hostReach && !s.pageBias p && decide (64 * line < 2 ^ 32 + s.get CXP_HDM_SIZE_BYTES) then
      let (v, s) := (s.emit (.snoop (64 * line))).draw
      if v % 2 = 0 then s
      else
        let (b, s) := State.freeBytes 8 s
        s.dramPut (64 * line) b
    else s

/-! ## The queues (R233, R234) -/

/-- The write queue of a channel. -/
def State.wqOf (s : State) (ch : Nat) : List WqEntry := s.lmc.wq.filter (·.ch == ch)

/-- The host and the DMA, as requesters (R234, R258). -/
def external (agent : Nat) : Bool := agent == 2 || agent == 0x23 || decide (0x10 ≤ agent ∧ agent ≤ 0x1F)

/-- Something queued at `t` has passed the age limit (R234). -/
def State.aged (s : State) (t : Nat) : Bool := decide (10 * max 1 (s.get LMC_SCHED_AGE_LIMIT) ≤ s.now - t)

/-- The scheduler's choice among what is queued, oldest first (R234): whatever has passed the age limit; what hits an open row, the device's
own requests before those of the host and the DMA; the oldest. -/
def State.choose {α : Type} (s : State) (since line agent : α → Nat) (l : List α) : Option α :=
  (l.find? fun x => s.aged (since x)).orElse fun _ =>
    (l.find? fun x => s.rowHit (line x) && !external (agent x)).orElse fun _ =>
      (l.find? fun x => s.rowHit (line x)).orElse fun _ => l.head?

/-- A write leaves its queue for the DRAM; below the pointer of a migration it is applied to both ranks (R242). -/
def State.writeOut (s : State) (e : WqEntry) : State :=
  let s := { s with lmc := { s.lmc with wq := s.lmc.wq.filter fun x => x.line != e.line } }
  match s.place (64 * e.line), s.servedAt (64 * e.line) with
  | some (r, p), some (d, _) => (s.column d p true).when (d != r) (·.column r p true)
  | _, _ => s

/-- Writes of a channel leave until `low` remain and none has passed the age limit (R234). -/
def State.drainTo (low ch : Nat) : Nat → State → State
  | 0, s => s
  | fuel + 1, s =>
    let q := s.wqOf ch
    if q.length ≤ low && !q.any fun e => s.aged e.since then s
    else
      match s.choose WqEntry.since WqEntry.line WqEntry.agent q with
      | none => s
      | some e => State.drainTo low ch fuel (s.writeOut e)

/-- A burst of writes of a channel, down to LMC_WQ.LOW (R234). -/
def State.drain (ch : Nat) (s : State) : State := State.drainTo (s.get LMC_WQ_LOW) ch 64 s

/-- The write queue of a line's channel takes it: it holds the line, or has room (R233). -/
def State.hasRoom (s : State) (line : Nat) : Bool :=
  (s.lmc.wq.any fun e => e.line == line) ||
    match s.serving (64 * line) with | none => true | some r => decide ((s.wqOf (rankCh r)).length < 64)

/-- A line enters the write queue, or merges with the pending write to it (R233). -/
def State.queueLine (s : State) (agent line : Nat) : State :=
  if s.lmc.wq.any fun e => e.line == line then s
  else match s.serving (64 * line) with
    | none => s
    | some r => { s with lmc := { s.lmc with wq := s.lmc.wq ++
        [⟨line, rankCh r, s.now, agent, sgetAll (fun _ => 0#8) s.dram (64 * line) 64, s.isPoisoned line⟩] } }

/-- A line is read: a pending write to it gives its data, else a column command (R233). -/
def State.lineRead (s : State) (line : Nat) : State :=
  if s.lmc.wq.any fun e => e.line == line then s
  else match s.servedAt (64 * line) with | none => s | some (r, p) => s.column r p false

/-- Bytes within a line are written. -/
def State.lineWrite (s : State) (agent a : Nat) (l : List Nat) : State := (s.queueLine agent (a / 64)).dramPut a l

/-! ## Accesses of the part's own blocks -/

/-- A block's write to a line whose queue is full: the queue drains first. -/
def State.makeRoom (s : State) (line : Nat) : State :=
  if s.hasRoom line then s else match s.serving (64 * line) with | none => s | some r => State.drain (rankCh r) s

/-- A block of the part reads `n` bytes at `a` on the address map of log entry 7: none for poison or a failed read. What it has to wait for
(R234, R239, R317) passes within its step (log entry 90). -/
def State.memRead (s : State) (a n : Nat) : Option (List Nat) × State :=
  if a < 2 ^ 62 then
    if s.allOn a n then
      let s := s.each (linesOf a n) fun s l => (s.snoopLine l).lineRead l
      (if s.poisonedIn a n then none else some (s.dramBytes a n), s)
    else (none, s.dramOff)
  else if a < 2 ^ 63 then
    if s.hostReach then
      let h := a - 2 ^ 62
      (some ((List.range n).map fun i => (s.hostLine ((h + i) / 64)).getD ((h + i) % 64) 0), s)
    else (none, s)
  else (none, s)

/-- Cut bytes at the 64-byte lines they lie in. -/
def byLines (a : Nat) : Nat → List Nat → List (Nat × List Nat)
  | 0, _ => []
  | fuel + 1, l => if l = [] then [] else (a, l.take (64 - a % 64)) :: byLines (a + (64 - a % 64)) fuel (l.drop (64 - a % 64))

/-- Write bytes into a line. -/
def patchLine (b : List Nat) (o : Nat) (l : List Nat) : List Nat := b.take o ++ l ++ b.drop (o + l.length)

/-- A block of the part writes DRAM bytes at `a`, line by line. -/
def State.dramWrite (s : State) (a : Nat) (l : List Nat) : State :=
  s.each (byLines a (l.length + 1) l) fun s p => ((s.snoopLine (p.1 / 64)).makeRoom (p.1 / 64)).lineWrite 0 p.1 p.2

/-- A block of the part writes bytes at `a`: false for a failed write. -/
def State.memWrite (s : State) (a : Nat) (l : List Nat) : Bool × State :=
  if a < 2 ^ 62 then (if s.allOn a l.length then (true, s.dramWrite a l) else (false, s.dramOff))
  else if a < 2 ^ 63 then
    if s.hostReach then
      let h := a - 2 ^ 62
      (true, s.each (byLines h (l.length + 1) l) fun s p => s.cacheLine (p.1 / 64) (patchLine (s.hostLine (p.1 / 64)) (p.1 % 64) p.2))
    else (false, s)
  else (false, s)

/-! ## Requests (R230, R233, R234) -/

/-- The bytes that a request covers. -/
def reqSize (r : DramReq) : Nat := match r.data with | none => r.len | some d => d.length

/-- The lines of a request. -/
def reqLines (r : DramReq) : List Nat := linesOf r.addr (reqSize r)

/-- The request comes from the device itself, not from the host over CXL.mem (R315). -/
def reqDevice (r : DramReq) : Bool := r.agent != 0x23

/-- A request, cut into the writes of its lines, each with what ECC finds there; a read stays whole. -/
def reqPieces (r : DramReq) (ecc : List EccFinding) : List (DramReq × List EccFinding) :=
  match r.data with
  | none => [(r, ecc)]
  | some d => (byLines r.addr (d.length + 1) (toNats d)).zipIdx.map fun p =>
      (⟨r.agent, p.1.1, p.1.2.length, some (toBytes p.1.2)⟩, [ecc.getD p.2 .clean])

/-- A request must wait (R233, R239, R317): for its channel, for its page, for room in a write queue, or for an earlier request of its agent
to one of its lines. -/
def State.reqWaits (s : State) (earlier : List HeldReq) (r : DramReq) : Bool :=
  ((reqLines r).any fun l => s.dramWaits (64 * l) || ((reqDevice r) && s.biasWaits (64 * l)) || (r.data.isSome && !s.hasRoom l)) ||
    earlier.any fun h => h.req.agent == r.agent && (reqLines h.req).any (reqLines r).contains

/-- A request whose lines are off (R328, R428). -/
def State.serveOff (s : State) (r : DramReq) : State :=
  let s := if (reqDevice r) then s.dramOff else s.raise 0x40 0 0
  if r.data.isNone then s.answer (.poison []) else s

/-- A request is served (R230, R233). A read returns an uncorrectable or poisoned line's data with poison: those bytes are free values. What
ECC finds concerns a read, or a write that does not cover its line. -/
def State.dramServe (s : State) (r : DramReq) (ecc : List EccFinding) : State :=
  let s := s.each (reqLines r) fun s l => s.when (reqDevice r) (·.snoopLine l)
  match r.data with
  | some d =>
    let s := if r.addr % 64 = 0 ∧ d.length = 64 then s else s.eccLine (r.addr / 64) (ecc.getD 0 .clean)
    s.lineWrite r.agent r.addr (toNats d)
  | none =>
    let old := s.poisonedIn r.addr (reqSize r)
    let found := (reqLines r).zipIdx.map fun l => (l.1, ecc.getD l.2 .clean)
    let data := sgetAll (fun _ => 0#8) s.dram r.addr (reqSize r)
    let s := s.each found fun s l => (s.lineRead l.1).eccLine l.1 l.2
    if old || found.any fun l => match l.2 with | .uncorrectable _ _ => true | _ => false then
      let (b, s) := State.freeBytes (ceilDiv (reqSize r) 8) s
      s.answer (.poison (toBytes (b.take (reqSize r))))
    else s.answer (.bytes data)

/-- A request that has come is served, or waits. -/
def State.takeReq (s : State) (r : DramReq) (ecc : List EccFinding) : State :=
  if !s.allOn r.addr (reqSize r) then s.serveOff r
  else if s.reqWaits s.lmc.held r then { s with lmc := { s.lmc with held := s.lmc.held ++ [⟨r, ecc, s.now⟩] } }
  else s.dramServe r ecc

/-- The waiting requests that can be served now, of the 64 that the queues hold (R233), each with its place. -/
def State.servable (s : State) : List (Nat × HeldReq) :=
  (s.lmc.held.take 64).zipIdx.filterMap fun h =>
    if s.reqWaits (s.lmc.held.take h.2) h.1.req then none else some (h.2, h.1)

/-- Waiting requests are served in the scheduler's order (R234) while they can be. -/
def State.serveHeld : Nat → State → State
  | 0, s => s
  | fuel + 1, s =>
    match s.choose (fun h => h.2.since) (fun h => h.2.req.addr / 64) (fun h => h.2.req.agent) s.servable with
    | none => s
    | some (i, h) =>
      let s := { s with lmc := { s.lmc with held := s.lmc.held.eraseIdx i } }
      State.serveHeld fuel (if s.allOn h.req.addr (reqSize h.req) then s.dramServe h.req h.ecc else s.serveOff h.req)

/-- Waiting requests go on. -/
def State.goOn (s : State) : State := State.serveHeld s.lmc.held.length s

/-! ## Retraining -/

/-- The rank of the longest-due retraining whose channel can start it. -/
def State.retrainNext (s : State) : Option Nat :=
  let due := (List.range 8).filterMap fun r =>
    match (s.lmc.timing.getD r RankTiming.reset).due with
    | some t => if s.chOn (rankCh r) && !s.chTrains (rankCh r) then some (t, r) else none
    | none => none
  ((sortBy (fun (x : Nat × Nat) => x.1) due).head?).map (·.2)

/-- A retraining of rank `r` starts (R239): its channel serves no request; all-bank refreshes are pulled in, before which open rows close. -/
def State.startRetrain (s : State) (r : Nat) : State :=
  let ch := rankCh r
  let s := s.each (s.ranksOf ch) fun s k => (s.prechargeAll k).traceCmd ch 6 (k % 2) 0 0
  let s := s.set (LMC_CH_STAT_TRAINING ch) 1
  { s with lmc := { s.lmc with
    training := s.lmc.training.set ch (some r)
    timing := modAt s.lmc.timing r fun t => { t with due := none } } }

/-- While the Beacon is stopped due retrainings start at once (R239), one on each channel. -/
def State.retrainStopped (s : State) : State :=
  if s.beaconRuns then s
  else s.each (List.range 4) fun s _ => match s.retrainNext with | none => s | some r => s.startRetrain r

/-- A readout end (R239): at most one rank per blanking window, when the window before it was long enough, or when a
retraining is forced. -/
def State.lmcReadoutEnd (s : State) : State :=
  let s := { s with lmc := { s.lmc with readoutAt := some s.now, windowUsed := false } }
  match s.retrainNext with
  | none => s
  | some r =>
    if decide (1000 * s.get LMC_TRAIN_MIN_WIN ≤ s.lmc.window) || s.lmc.forced then
      let t := { s.startRetrain r with lmc := { (s.startRetrain r).lmc with windowUsed := true, forced := false } }
      t.when (s.lmc.forced && decide (s.lmc.window < 1000 * s.get LMC_TRAIN_MIN_WIN)) (·.set LMC_EVENTS_TRAIN_FORCED 1)
    else s

/-- The first line of a frame ends the blanking window (R239). -/
def State.lmcFirstLine (s : State) : State :=
  match s.lmc.readoutAt with
  | none => s
  | some t => { s with lmc := { s.lmc with window := s.now - t, readoutAt := none } }

/-! ## Initialisation -/

/-- A density in Gb of R225 as its code, or none. -/
def densityCode (g : Nat) : Option Nat := [8, 12, 16, 24, 32].idxOf? g

/-- Data bytes of a rank of x16 dies of `g` Gb (R225, R228). -/
def rankData (g : Nat) : Nat := g * 2 ^ 28 / 16 * 15

/-- The capacity left for the host after the device reserve, rounded down to 256 MiB (R314). -/
def hdmSize (cap : Nat) : Nat := (cap - 2 ^ 32) / 2 ^ 28 * 2 ^ 28

/-- The code of R226 for a fit, 0 for none. -/
def State.initErr (s : State) (ranks : List (List Nat)) (rfm failed : Bool) : Nat :=
  let n := (ranks.headD []).length
  let g := (ranks.headD []).headD 0
  let spare := s.flag LMC_CTRL_SPARE_EN
  if ranks.length ≠ 4 ∨ n = 0 ∨ 2 < n ∨ ranks.any (·.length != n) then 1
  else if (densityCode g).isNone ∨ ranks.any (·.any (· != g)) ∨ s.get LMC_CTRL_RATE = 3 then 2
  else if rfm then 3
  else if failed then 4
  else if spare ∧ n = 1 then 5
  else if hdmSize ((4 * n - (if spare then 1 else 0)) * rankData g) = 0 then 6 else 0

/-- The ranks of the interleave sets (R229): spare position or none, ranks per channel. -/
def interleave (spare : Option Nat) (n : Nat) : List Nat × List Nat :=
  let cs := match spare with | some p => 1 - p % 2 | none => 0
  let all := (List.range 8).filter fun r => decide (r % 2 < n) && some r != spare
  (all.filter fun r => r % 2 = cs, all.filter fun r => r % 2 ≠ cs)

/-- A rank was RETIRED or FAILED since the last Cold reset (R243). -/
def State.rankGone (s : State) : Bool := (List.range 8).any fun r => s.rank r == 5 || s.rank r == 6

/-- The states of the ranks as they are brought up (R229, R243): a RETIRED or FAILED one stays so, and so does what serves in its place. -/
def State.rankStates (s : State) (n : Nat) (spare : Option Nat) : State :=
  s.each (List.range 8) fun s r =>
    if s.rankGone then s.set (LMC_RANK_STATE r) (if s.rank r = 3 then 1 else if s.rank r = 4 then 2 else s.rank r)
    else s.set (LMC_RANK_STATE r) (if n ≤ r % 2 then 0 else if some r = spare then 2 else 1)

/-- The fit is accepted (R229, R237): every line zeroed, ranks in service and trained at these temperatures, the capacity, READY. -/
def State.lmcReady (s : State) (n g : Nat) (temps : List Int) : State :=
  let spare := if s.flag LMC_CTRL_SPARE_EN then some (2 * s.get LMC_CTRL_SPARE_CH + s.get LMC_CTRL_SPARE_CS) else none
  let (a, b) := if s.rankGone then (s.lmc.setA, s.lmc.setB) else interleave spare n
  let cap := (a.length + b.length) * rankData g
  let s := (s.rankStates n spare).set LMC_STATUS_MIGRATING 0
  let s := (((s.set LMC_STATUS_READY 1).set LMC_STATUS_INIT_ERR 0).set LMC_STATUS_TWO_RANK (n - 1)).set LMC_STATUS_DENSITY
    ((densityCode g).getD 0)
  let s := (s.set LMC_CAP_BYTES cap).set CXP_HDM_SIZE_BYTES (hdmSize cap)
  let s := { s with cxl := { s.cxl with fn := { s.cxl.fn with range1 := hdmSize cap } } }
  { s with
    dram := []
    poison := []
    lmc := { s.lmc with
      setA := a
      setB := b
      rankBytes := rankData g
      initFrom := none
      wq := []
      held := []
      banks := []
      checks := [[], [], [], []]
      selfRefresh := []
      retireDue := none
      migration := none
      timing := (List.range 8).map fun r => { RankTiming.reset with trained := temps.getD r 0, now := temps.getD r 0 } } }

/-! ## Commands -/

/-- The LMC is enabled (R237). -/
def State.enableLmc (s : State) : State :=
  if s.flag LMC_CTRL_EN then s else { s.set LMC_CTRL_EN 1 with lmc := { s.lmc with initFrom := some s.now } }

/-- LMC_ENABLE (R237). -/
def execLmcEnable (_a : Agent) (s : State) : Host.Outcome State Fault Refusal := .next s.enableLmc

/-- LMC_INIT_DONE (R226, R237). -/
def execLmcInitDone (r : InitRanks) (needsRfm trainFailed : Bool) (s : State) : Host.Outcome State Fault Refusal :=
  .next (if s.lmc.initFrom = none then s
  else
    let e := s.initErr r.sizes needsRfm trainFailed
    if e ≠ 0 then { s.set LMC_STATUS_INIT_ERR e with lmc := { s.lmc with initFrom := none } }
    else s.lmcReady (r.sizes.headD []).length ((r.sizes.headD []).headD 0) r.temps)

/-- DRAM_REQUEST (R233, R315, R428). -/
def execDramRequest (r : DramReq) (ecc : List EccFinding) (s : State) : Host.Outcome State Fault Refusal :=
  .next (s.each (reqPieces r ecc) fun s p => s.takeReq p.1 p.2)

/-- WRITE_QUEUE_DRAIN (R234): a burst starts with LMC_WQ.HIGH entries waiting, or with one that has passed the age limit. -/
def execWriteQueueDrain (ch : Nat) (s : State) : Host.Outcome State Fault Refusal :=
  let q := s.wqOf ch
  .next (if s.chOn ch && !s.chTrains ch && (decide (s.get LMC_WQ_HIGH ≤ q.length) || q.any fun e => s.aged e.since) then
    (State.drain ch s).goOn
  else s)

/-- OPEN_ROW_TIMEOUT (R235). -/
def execOpenRowTimeout (ch cs bank : Nat) (s : State) : Host.Outcome State Fault Refusal :=
  let k := 16 * (2 * (ch % 4) + cs % 2) + bank % 16
  let b := s.bank k
  .next (if b.left ∧ 10 * s.get LMC_SCHED_OPEN_MAX ≤ s.now - b.last ∧ s.chOn (ch % 4) then
    (s.traceCmd (ch % 4) 4 cs bank 0).putBank k { b with row := none, left := false } else s)

/-- The readings of MR4 of a rank's dies (R236): the highest rate that any of them reports, a report above the operating range, and the
highest temperature. -/
def mr4Of : List (Nat × Bool × Int) → Nat × Bool × Int
  | [] => (0, false, 0)
  | [x] => x
  | x :: t => let y := mr4Of t; (max x.1 y.1, x.2.1 || y.2.1, max x.2.2 y.2.2)

/-- MR4_POLL (R236). -/
def execMr4Poll (readings : List (List (Nat × Bool × Int))) (s : State) : Host.Outcome State Fault Refusal :=
  .next (s.each (readings.take 8).zipIdx fun s p =>
    let r := p.2
    if s.rank r = 0 ∨ s.rank r = 5 ∨ p.1 = [] ∨ !s.chOn (rankCh r) then s
    else
      let (rate, hot, temp) := mr4Of p.1
      let s := s.each p.1 fun s _ => s.traceCmd (rankCh r) 7 (r % 2) 0 0
      let s := s.when (s.get (LMC_RANK_RATE r) != rate % 32) fun s => (s.set (LMC_RANK_RATE r) rate).set LMC_EVENTS_TEMP 1
      let s := { s with lmc := { s.lmc with timing := modAt s.lmc.timing r fun t => { t with now := temp, hot := hot } } }
      s.when hot (·.raise 0x2A (rankCh r) 0))

/-- REFRESH_DUE (R236): a per-bank refresh, after a precharge of an open row. None falls due during a retraining (R239). -/
def execRefreshDue (rank bank : Nat) (s : State) : Host.Outcome State Fault Refusal :=
  let r := rank % 8
  let k := 16 * r + bank % 16
  let ch := rankCh r
  .next (if s.rank r = 0 ∨ s.rank r = 5 ∨ !s.chOn ch ∨ s.chTrains ch then s
  else
    let t := if (s.bank k).row.isSome then s.traceCmd ch 4 (r % 2) bank 0 else s
    (t.traceCmd ch 5 (r % 2) bank 0).putBank k { s.bank k with row := none, left := false })

/-- PATROL_SCRUB_READ (R231): the next line of the rank. -/
def execPatrolScrubRead (rank : Nat) (ecc : EccFinding) (s : State) : Host.Outcome State Fault Refusal :=
  let r := rank % 8
  let p := 64 * (s.lmc.timing.getD r RankTiming.reset).scrubbed
  .next (if s.get LMC_SCRUB_HOURS = 0 ∨ !([1, 2, 3, 4].contains (s.rank r)) ∨ !s.chOn (rankCh r) ∨ s.chTrains (rankCh r) then s
  else
    let t := { s with lmc := { s.lmc with timing := modAt s.lmc.timing r fun t =>
      { t with scrubbed := (t.scrubbed + 1) % max 1 (s.lmc.rankBytes / 64) } } }
    let t := t.column r p false
    match ecc with
    | .clean => t
    | .correctable => (t.column r p true).correctable r
    | .uncorrectable synd half => t.uncorrectable r ((t.lineAt r p).map (· / 64)) synd half)

/-- CE_LIMIT_REACHED (R232). -/
def execCeLimitReached (rank : Nat) (s : State) : Host.Outcome State Fault Refusal :=
  let r := rank % 8
  let t := s.lmc.timing.getD r RankTiming.reset
  .next (if s.get LMC_CE_LIMIT_COUNT ≠ 0 ∧ s.get LMC_CE_LIMIT_COUNT ≤ t.ceCount ∧ t.ceHour = s.dtcNs / (3600 * 10 ^ 9) then
    { s with lmc := { s.lmc with timing := modAt s.lmc.timing r fun t => { t with ceCount := 0 } } }.retireRank r true
  else s)

/-- A retraining of a rank falls due (R238). -/
def State.retrainWanted (s : State) (r : Nat) : State :=
  if [1, 2, 3, 4].contains (s.rank r) then
    { s with lmc := { s.lmc with timing := modAt s.lmc.timing r fun t => { t with due := t.due.orElse fun _ => some s.now } } }.retrainStopped
  else s

/-- RETRAIN_DUE (R238). -/
def execRetrainDue (rank drift : Nat) (temp : Int) (s : State) : Host.Outcome State Fault Refusal :=
  let r := rank % 8
  let t := { s with lmc := { s.lmc with timing := modAt s.lmc.timing r fun t => { t with now := temp } } }
  .next (if s.flag LMC_TRAIN_AUTO ∧ (s.get LMC_TRAIN_DRIFT ≤ drift ∨
      10 ≤ (temp - (s.lmc.timing.getD r RankTiming.reset).trained).natAbs) then t.retrainWanted r else s)

/-- RETRAIN_FORCE_TIMEOUT (R239): a retraining due for 1 s. -/
def execRetrainForceTimeout (s : State) : Host.Outcome State Fault Refusal :=
  .next (if s.lmc.timing.any fun t => match t.due with | some d => decide (10 ^ 9 ≤ s.now - d) | none => false then
    { s with lmc := { s.lmc with forced := true } } else s)

/-- RANK_RETRAIN_DONE (R239). -/
def execRankRetrainDone (rank : Nat) (s : State) : Host.Outcome State Fault Refusal :=
  let r := rank % 8
  let ch := rankCh r
  .next (if s.lmc.training.getD ch none = some r then
    let t := ((s.set (LMC_CH_STAT_TRAINING ch) 0).inc (LMC_CH_STAT_TRAINS ch)).set LMC_EVENTS_TRAIN_DONE 1
    { t with lmc := { t.lmc with
        training := t.lmc.training.set ch none
        timing := modAt t.lmc.timing r fun t => { t with trained := t.now } } }.retrainStopped.goOn
  else s)

/-- LMC_RETRAIN (R238). -/
def execLmcRetrain (_a : Agent) (pos : Nat) (s : State) : Host.Outcome State Fault Refusal :=
  .next (s.retrainWanted (pos % 8))

/-- LMC_RETIRE (R240). -/
def execLmcRetire (_a : Agent) (pos : Nat) (s : State) : Host.Outcome State Fault Refusal :=
  .next (s.retireRank (pos % 8) false)

/-- A queued write is taken back: its line is as it was before (R244). -/
def State.takeBack (s : State) (e : WqEntry) : State :=
  { s with
    dram := sputAll (fun _ => 0#8) s.dram (64 * e.line) e.old
    poison := sput (fun _ => false) s.poison e.line e.poisoned }

/-- The queues of a channel are cleared (R244): pending writes are lost, and so are the requests that wait for it. -/
def State.clearQueues (s : State) (ch : Nat) : State :=
  let s := s.each (s.wqOf ch) State.takeBack
  let on := fun (h : HeldReq) => (reqLines h.req).any fun l => match s.serving (64 * l) with | none => false | some r => rankCh r == ch
  { s with lmc := { s.lmc with wq := s.lmc.wq.filter (·.ch != ch), held := s.lmc.held.filter fun h => !on h } }

/-- LMC_THAW (R244): out of self-refresh, with empty queues. -/
def execLmcThaw (_a : Agent) (pos : Nat) (s : State) : Host.Outcome State Fault Refusal :=
  let ch := rankCh (pos % 8)
  .next (if s.flag (LMC_CH_STAT_FROZEN ch) then (((s.set (LMC_CH_STAT_FROZEN ch) 0).selfRefresh ch false).clearQueues ch).goOn else s)

/-- LMC_CLR_COUNTS (R230). -/
def execLmcClrCounts (_a : Agent) (s : State) : Host.Outcome State Fault Refusal :=
  .next (s.each (List.range 8) fun s r => s.clear [LMC_RANK_CE r, LMC_RANK_UE r])

/-- CLR_CAPTURE (R230). -/
def execClrCapture (_a : Agent) (ch : Nat) (s : State) : Host.Outcome State Fault Refusal :=
  let c := ch % 4
  .next (s.clear [LMC_CH_ERR_ADDR_ADDR c, LMC_CH_ERR_SYND_SYND c, LMC_CH_ERR_SYND_HALF c, LMC_CH_ERR_SYND_VALID c,
    LMC_CH_ERR_SYND_RANK c])

/-- MIGRATION_GRANULE_COPY (R241, R242): four lines. -/
def execMigrationGranuleCopy (src spare : EccFinding) (s : State) : Host.Outcome State Fault Refusal :=
  .next (match s.lmc.migration with
    | none => s
    | some g =>
      let off := fun r => !s.chOn (rankCh r) || s.chTrains (rankCh r)
      let p := s.get LMC_MIG_PTR_BYTES
      if g.copied || off g.src || off g.dst || decide (s.lmc.rankBytes ≤ p) then s
      else
        let t := s.each (List.range 4) fun s i => (s.column g.src (p + 64 * i) false).column g.dst (p + 64 * i) true
        let t := match src with
          | .clean => t
          | .correctable => (t.column g.src p true).correctable g.src
          | .uncorrectable synd half => t.uncorrectable g.src ((t.lineAt g.src p).map (· / 64)) synd half
        match spare with
        | .uncorrectable synd half => t.uncorrectable g.dst none synd half
        | .correctable => if t.chOn (rankCh g.src) then (t.correctable g.dst).set LMC_MIG_PTR_BYTES (p + 256) else t
        | .clean => if t.chOn (rankCh g.src) then t.set LMC_MIG_PTR_BYTES (p + 256) else t)

/-- The copied spare enters service (R241): at a snapshot, or at once while the Beacon is stopped. -/
def State.finishMigration (s : State) : State :=
  match s.lmc.migration with
  | none => s
  | some g =>
    if g.copied then
      let swap := fun (l : List Nat) => l.map fun r => if r = g.src then g.dst else r
      let share := fun (l : List Nat) => l.any fun r => r != g.dst && l.contains g.dst && rankCh r == rankCh g.dst
      let a := swap s.lmc.setA
      let b := swap s.lmc.setB
      let s := (((s.set (LMC_RANK_STATE g.src) 5).set (LMC_RANK_STATE g.dst) 1).set LMC_STATUS_MIGRATING 0).set
        LMC_STATUS_SPARE_USED 1
      let s := (s.set LMC_EVENTS_RETIRE_DONE 1).set LMC_STATUS_SET_SHARE (if share a || share b then 1 else 0)
      { s with lmc := { s.lmc with setA := a, setB := b, migration := none } }
    else s

/-- MIGRATION_COPY_DONE (R241). -/
def execMigrationCopyDone (s : State) : Host.Outcome State Fault Refusal :=
  .next (match s.lmc.migration with
    | none => s
    | some g =>
      if s.lmc.rankBytes ≤ s.get LMC_MIG_PTR_BYTES then
        let t := { s with lmc := { s.lmc with migration := some { g with copied := true } } }
        if s.beaconRuns then t else t.finishMigration
      else s)

/-- What the memory controller would start at a snapshot or in a blanking window starts at once when the Beacon stops (R239, R241). -/
def State.memoryUnheld (s : State) : State := s.migrationDue.finishMigration.retrainStopped

end Sys2Proof.Machine
end

