-- ==== Sys2Proof/Machine/Queues.lean ====
section
/-! DEFINITION. The Output Queues (R245 to R255): entries, lanes, overflow and gaps, resets, push windows and POP; the
entry of tile-stripe records in their queues with what the Frame Allocator adds up (R144 to R146). -/

namespace Sys2Proof.Machine

/-! ## Entries and lanes -/

/-- Body length of an entry (R246). The row-start bit of a record's marker does not change its length. -/
def QEntry.len (e : QEntry) : Nat := match e.ts with | some r => (r.bytes false).length | none => e.body.length

/-- Pass-record length in units of 8 bytes (R246): the hull points of the truncatable code-blocks. -/
def QEntry.plen (e : QEntry) : Nat :=
  match e.ts with | some r => r.blocks.foldl (fun a b => a + b.hull.length) 0 | none => 0

/-- Bytes an entry takes in its queue (R246). -/
def QEntry.size (e : QEntry) : Nat := 16 + (e.len + 8 * e.plen + 7) / 8 * 8

/-- The bytes of an entry of a queue that software reads (R246). -/
def QEntry.bytes (e : QEntry) : List Nat :=
  fit e.size (le 4 e.epoch ++ le 2 e.row ++ [e.column % 256, e.kind % 256] ++ le 4 e.len ++ le 2 e.plen ++
    [e.flags % 256, 0] ++ (match e.ts with | some r => r.bytes (e.column == 0) | none => e.body))

/-- Bytes held in a lane. -/
def Lane.fill (l : Lane) : Nat := l.entries.foldl (fun a e => a + e.size) 0 - l.popped

/-- The byte stream of a lane, from the oldest byte that has not been read. -/
def Lane.stream (l : Lane) : List Nat := (l.entries.flatMap QEntry.bytes).drop l.popped

/-- `n` bytes are read from a lane: from its head window, which the ring and the tail window follow (R247). -/
def Lane.remove (l : Lane) (n : Nat) : Lane :=
  let a := min n l.head
  let b := min (n - a) l.ring
  { l with head := l.head - a, ring := l.ring - b, tail := l.tail - (n - a - b), ptr := { l.ptr with reads := l.ptr.reads + n } }

/-- `n` bytes are written to the tail window of a lane. -/
def Lane.add (l : Lane) (n : Nat) : Lane := { l with tail := l.tail + n, ptr := { l.ptr with writes := l.ptr.writes + n } }

/-- Bytes pass between the windows, `w` bytes each, and a ring of `r` bytes (R247): the head window refills from the ring; when that holds
no data, from the tail window; what the tail window still holds spills in blocks of 4 KiB. -/
def Lane.flow (w r : Nat) (l : Lane) : Lane :=
  let a := min l.ring (w - l.head)
  let l := { l with head := l.head + a, ring := l.ring - a }
  let b := if l.ring = 0 then min l.tail (w - l.head) else 0
  let l := { l with head := l.head + b, tail := l.tail - b }
  let k := min (l.tail / 4096) ((r - l.ring) / 4096)
  { l with ring := l.ring + 4096 * k, tail := l.tail - 4096 * k, ptr := { l.ptr with spills := l.ptr.spills + k } }

/-- The (EPOCH, ROW) of the oldest and of the newest entry are noted, and the second copy of the pointers follows (R250). -/
def Lane.note (l : Lane) : Lane :=
  let at_ := fun (e : QEntry) => (e.epoch, e.row)
  let p := { l.ptr with oldest := l.entries.head?.map at_, newest := l.entries.getLast?.map at_ }
  { l with ptr := p, copy := p }

/-- A queue. -/
def State.queue (s : State) (q : Nat) : OutQ := s.queues.getD q OutQ.reset

/-- A lane of a queue. -/
def State.lane (s : State) (q l : Nat) : Lane := (s.queue q).lanes.getD l Lane.reset

/-- Write a lane. -/
def State.putLane (s : State) (q l : Nat) (v : Lane) : State :=
  { s with queues := modAt s.queues q fun o => { o with lanes := o.lanes.set l v } }

/-- Two lanes are in use: on a lead with a ganged clip open (R249). -/
def State.twoLanes (s : State) (q : Nat) : Bool := decide (q < 64) && s.role == 1 && s.clip.ganged && s.clipOpen

/-- Bytes of each window of a lane of queue `q` (R247, R249). -/
def State.laneWindow (s : State) (q : Nat) : Nat := if s.twoLanes q then 32768 else 65536

/-- Bytes of a lane's share of the ring, in whole blocks of 4 KiB (R247 to R249). -/
def State.laneRing (s : State) (q : Nat) : Nat := s.get (OQ_Q_RING_SIZE_BYTES q) / (if s.twoLanes q then 2 else 1) / 4096 * 4096

/-- Bytes that a lane of queue `q` can hold: its share of the ring and the two windows (R247 to R249). -/
def State.laneCap (s : State) (q : Nat) : Nat := s.laneRing q + 2 * s.laneWindow q

/-- The blocks that a lane has spilled are written to its ring in DRAM (R247, R248): block `k`, counted from the lane's first, lies at place
`k` of the ring, modulo its size. A ring is written by nothing else: DESIGN CHOICE, log entry 87. -/
def State.spill (s : State) (q l : Nat) (before after : Lane) : State :=
  let r := s.laneRing q
  let base := 4096 * s.get (OQ_Q_RING_BASE_ADDR q) + l * r
  let k := after.ptr.spills - before.ptr.spills
  let bytes := if k = 0 then [] else (after.stream.drop (after.head + after.ring - 4096 * k))
  s.each (List.range k) fun s i =>
    s.dramWrite (base + 4096 * ((before.ptr.spills + i) % max 1 (r / 4096))) (fit 4096 ((bytes.drop (4096 * i)).take 4096))

/-- The entries of a lane change: bytes have been read, or written (R247), and the pointers follow (R250). -/
def State.setEntries (s : State) (q l : Nat) (es : List QEntry) (popped : Nat) : State :=
  let v := s.lane q l
  let t := { v with entries := es, popped := popped }
  let t := if t.fill ≤ v.fill then t.remove (v.fill - t.fill) else t.add (t.fill - v.fill)
  let t := (t.flow (s.laneWindow q) (s.laneRing q)).note
  (s.spill q l v t).putLane q l t

/-- A gap entry from (epoch, row) to (epoch, row) (R246). -/
def gapEntry (g : Nat × Nat × Nat × Nat) : QEntry :=
  ⟨g.1, 0xFFFF, 0xFF, 6, 0, le 4 g.1 ++ le 4 g.2.1 ++ le 4 g.2.2.1 ++ le 4 g.2.2.2, none⟩

/-- A gap that waits takes its place once room returns (R254): within the room of ordinary entries. -/
def State.settleGap (s : State) (q l : Nat) : State :=
  let v := s.lane q l
  match v.gap with
  | none => s
  | some g =>
    if v.fill + 32 + 4096 ≤ s.laneCap q then
      (s.putLane q l { v with gap := none }).setEntries q l (v.entries ++ [gapEntry g]) v.popped
    else s

/-- A tile-stripe entry. -/
def QEntry.isTile (e : QEntry) : Bool := decide (e.kind ≤ 2)

/-- The clip frame of an epoch that is not yet emitted. -/
def State.frameOf (s : State) (e : Nat) : Option Frame := s.frames.find? fun f => f.info.epoch == e

/-- Change the clip frame of an epoch. -/
def State.modFrame (s : State) (e : Nat) (g : Frame → Frame) : State :=
  { s with frames := s.frames.map fun f => if f.info.epoch = e then g f else f }

/-- The tile-stripe is lost or is to be recorded as lost: nothing may be predicted from it (R124 item 2). -/
def State.dropRef (s : State) (epoch row col : Nat) : State :=
  match s.frameOf epoch with
  | none => s
  | some f => { s with refs := s.refs.filter fun x => !(x.1 == epoch && x.2.row == row && x.2.x0 == f.info.colStart col) }

/-- A queue whose pointer copies differ is reset (R250). -/
def State.resetLane (s : State) (q l : Nat) : State :=
  let t := (s.lane q l).entries.filter QEntry.isTile
  let es := match t.head?, t.getLast? with
    | some a, some b => [gapEntry (a.epoch, a.row, b.epoch, b.row)]
    | _, _ => []
  let s := (s.putLane q l Lane.reset).setEntries q l es 0
  let s := s.each t fun s e => s.dropRef e.epoch e.row e.column
  (((s.inc (OQ_Q_STATS_RESETS q)).inc OQ_COUNTS_RESETS).set OQ_EVENTS_RESET 1).raise 0x30 q 0

/-- The two copies of the pointers are compared at every update (R250). -/
def State.checkLane (s : State) (q l : Nat) : State := if (s.lane q l).ptr = (s.lane q l).copy then s else s.resetLane q l

/-- An upset makes the copies of a lane's pointers differ. -/
def State.upsetLane (s : State) (q l : Nat) : State :=
  let v := s.lane q l
  s.putLane q l { v with copy := { v.copy with writes := v.ptr.writes + 1 } }

/-- An entry found its queue full (R254). -/
def State.overflow (s : State) (q : Nat) : State :=
  ((s.inc (OQ_Q_STATS_OVERFLOW q)).set OQ_EVENTS_OVERFLOW 1).raise 0x30 q 0

/-- The record of an entry that carries one. -/
def QEntry.record (e : QEntry) : TsRec := e.ts.getD TsRec.lost

/-- The lost record that stands in a record's place: that its tile-stripe is patched stays (R175). -/
def TsRec.gone (r : TsRec) : TsRec := { TsRec.lost with patched := r.patched }

/-- The lost entry that stands in an entry's place (R254). -/
def QEntry.lostOf (e : QEntry) : QEntry := { e with kind := 2, flags := b2n e.record.patched, body := [], ts := some e.record.gone }

/-- A producer writes an entry (R247, R254): whether it was stored. The last 4096 bytes of a lane are kept for lost entries
(log entry 16). -/
def State.enqueue (s : State) (q l : Nat) (e : QEntry) : Bool × State :=
  if !s.flag OQ_CTRL_EN then (false, s)
  else
    let s := (s.checkLane q l).settleGap q l
    let v := s.lane q l
    let cap := s.laneCap q
    match v.gap with
    | some g =>
      (false, (if e.isTile then s.putLane q l { v with gap := some (g.1, g.2.1, e.epoch, e.row) } else s).overflow q)
    | none =>
      if v.fill + e.size + 4096 ≤ cap then (true, s.setEntries q l (v.entries ++ [e]) v.popped)
      else if !e.isTile then (false, s.overflow q)
      else if v.fill + e.lostOf.size ≤ cap then
        (false, (s.setEntries q l (v.entries ++ [e.lostOf]) v.popped).overflow q)
      else (false, (s.putLane q l { v with gap := some (e.epoch, e.row, e.epoch, e.row) }).overflow q)

/-- Drop the oldest entry of a lane. -/
def State.dequeue (s : State) (q l : Nat) : State := (s.setEntries q l ((s.lane q l).entries.drop 1) 0).settleGap q l

/-- The entries of a lane that satisfy `p` stay. -/
def State.keepEntries (s : State) (q l : Nat) (p : QEntry → Bool) : State :=
  let v := s.lane q l
  let first := match v.entries with | e :: _ => p e | [] => false
  (s.setEntries q l (v.entries.filter p) (if first then v.popped else 0)).settleGap q l

/-! ## Frames on their way -/

/-- Own columns of a frame: half of a ganged one (R31). -/
def Frame.own (f : Frame) : Nat := if f.info.ganged then f.info.cols.length / 2 else f.info.cols.length

/-- The queue and lane of a system column (R245, R249). -/
def Frame.queueOf (f : Frame) (c : Nat) : Nat × Nat := if c < f.own then (c, 0) else (c - f.own, 1)

/-- Every tile-stripe of the frame has been queued, or entered as lost. -/
def Frame.complete (f : Frame) : Bool := (List.range f.info.cols.length).all fun c => decide (f.info.rows ≤ f.queued.getD c 0)

/-- The frame is a key frame, as far as its records are queued (R125). -/
def Frame.isKey (f : Frame) : Bool := f.drop.isNone && !f.predCoded && (!f.predict || f.complete)

/-- The clip frame index of the last key frame before frame `f` (R125). -/
def State.lastKeyBefore (s : State) (f : Frame) : Nat :=
  s.frames.foldl (fun k g => if later f.info.epoch g.info.epoch && g.isKey then g.info.clipFrame else k) s.clip.lastKey

/-- The key interval K of the clip (R125). -/
def State.keyInterval (s : State) : Nat := max 1 ((s.mag.clip.map (·.keyInterval)).getD (s.setting 0x2000 3))

/-- Frame `f` lies K frames behind the last key frame, so that it is a key frame (R125). -/
def State.keyDue (s : State) (f : Frame) : Bool :=
  decide (s.keyInterval ≤ (f.info.clipFrame + 2 ^ 32 - s.lastKeyBefore f) % 2 ^ 32)

/-- The frame has a decision: CFS or QCAP (R136). -/
def Frame.decides (f : Frame) : Bool := f.info.mode == 1 || f.info.mode == 2

/-- Add bytes to the bins of a histogram (R144). -/
def addBins (bins : List (Nat × Nat)) (l : List (Nat × Nat)) : List (Nat × Nat) :=
  l.foldl (fun b p => sput (fun _ => 0) b p.1 (sget (fun _ => 0) b p.1 + p.2)) bins

/-- The steps of a record's hulls (R144). -/
def TsRec.bins (r : TsRec) : List (Nat × Nat) := r.blocks.flatMap fun b => hullBins b.hull

/-- Take bytes from the bins of a histogram. -/
def subBins (bins : List (Nat × Nat)) (l : List (Nat × Nat)) : List (Nat × Nat) :=
  l.foldl (fun b p => sput (fun _ => 0) b p.1 (sget (fun _ => 0) b p.1 - p.2)) bins

/-- The region whose slice counts the records of a system column: that of the engine which codes it; none for a follower's (R144). -/
def Frame.region (f : Frame) (c : Nat) : Option Nat :=
  if c < f.own then (f.info.cols[c]?).map fun x => x.2.2.2.1 else none

/-- The bank in which a column's steps are counted changes (R144): that of its region's slice, or a lead's gang bank. -/
def State.modBank (s : State) (f : Frame) (col : Nat) (g : List (Nat × Nat) → List (Nat × Nat)) : State :=
  match f.region col with
  | none => s.modFrame f.info.epoch fun f => { f with gangBins := g f.gangBins }
  | some r =>
    { s with regions := modAt s.regions r fun x =>
        { x with
          read := []
          banks := x.banks.map fun b =>
            match b with
            | some k => some (if k.epoch = f.info.epoch then { k with bins := g k.bins } else k)
            | none => none } }

/-- What a record adds to the fixed part of its frame as it enters its queue, and its place (R145). -/
def Frame.account (f : Frame) (row col : Nat) (r : TsRec) : Frame :=
  { f with
    queued := f.queued.set col (row + 1)
    recBytes := f.recBytes + r.fixedSize f.info.mono f.info.temporal
    escapes := if r.form = 1 then f.escapes ++ [(row, col, 2 + r.seg.length)] else f.escapes
    predCoded := f.predCoded || r.pred
    patched := f.patched || r.patched
    lost := f.lost.filter (· != (row, col)) }

/-- A record arrives after its bank has closed (R146). -/
def State.lateRecord (s : State) (col : Nat) : State := (s.set FAL_EVENTS_LATE_RECORD 1).raise 0x19 col 0

/-- FLAGS of an entry (R246): patched, verify replacement, predicted, unverified. -/
def TsRec.entryFlags (r : TsRec) (verify : Bool) : Nat :=
  b2n r.patched + 2 * b2n r.replaced + 4 * b2n r.pred + 8 * b2n (!verify)

/-- The verify setting that concerns a column of a frame (R165). -/
def Frame.verifies (f : Frame) (c : Nat) : Bool := if c < f.own then f.info.verify else f.info.verifyF

/-- A record enters the queue of its column (R30, R144 to R146, R254, R255): on a follower it leaves over the Gang Link, while that is up
(R33). Nothing is predicted from a record that does not enter its queue (R124). -/
def State.putRecord (s : State) (epoch row col flags : Nat) (r : TsRec) : State :=
  match s.frameOf epoch with
  | none => s.lateRecord col
  | some f =>
    if s.role = 2 then
      let s := s.modFrame epoch (·.account row col r)
      if s.gang.up then s.emit (.gangRecord epoch row col r) else s.dropRef epoch row col
    else if f.closed || decide (row < f.queued.getD col 0) then (s.dropRef epoch row col).lateRecord col
    else if f.drop = some 3 then s.modFrame epoch (·.account row col r)
    else
      let (q, l) := f.queueOf col
      let (ok, s) := s.enqueue q l ⟨epoch, row, col, r.form % 3, flags, [], some r⟩
      let r := if ok then r else r.gone
      let s := if ok && r.form != 2 then s else s.dropRef epoch row col
      let s := s.modFrame epoch (·.account row col r)
      if f.decides then s.modBank f col fun b => addBins b r.bins else s

/-- Tile-stripes already declared lost that now stand next in their column enter its queue as lost entries (R146, R167). -/
def State.flushLost (epoch col : Nat) : Nat → State → State
  | 0, s => s
  | fuel + 1, s =>
    match s.frameOf epoch with
    | none => s
    | some f =>
      let row := f.queued.getD col 0
      if f.lost.contains (row, col) && !f.closed then
        State.flushLost epoch col fuel (s.putRecord epoch row col (TsRec.lost.entryFlags (f.verifies col)) TsRec.lost)
      else s

/-- A record enters its queue, and the lost ones after it (R146). -/
def State.queueRecord (s : State) (epoch row col flags : Nat) (r : TsRec) : State :=
  State.flushLost epoch col 600 (s.putRecord epoch row col flags r)

/-- A tile-stripe is lost (R167). -/
def State.loseTile (s : State) (epoch row col : Nat) : State :=
  match s.frameOf epoch with
  | none => s
  | some f =>
    if row < f.queued.getD col 0 ∨ f.closed ∨ f.drop = some 1 then s
    else
      State.flushLost epoch col 600 ((s.dropRef epoch row col).modFrame epoch fun f => { f with lost := f.lost ++ [(row, col)] })

/-! ## Records from outside -/

/-- The weight shift that applies to code-block `b` of a record (R141). -/
def blockShift (weight : Nat) (mono : Bool) (b : Nat) : Nat := weightShift weight (if mono then 0 else b / 8) (b % 8)

/-- A code-block is truncatable (R140). -/
def truncatable (mode : Nat) (temporal : Bool) (b : Nat) : Bool := mode != 0 && !(temporal && decide (b % 8 ≤ 1))

/-- The queued form of a coded record's bytes after its marker: its code-blocks decoded whole and coded again, which gives
the same segments and, with them, the pass records. -/
def codedOf (f : FrameInfo) (weight w : Nat) (l : List Nat) : Option TsRec :=
  let c := blockCount f.mono
  match openSeal (1 + 4 * c) l with
  | none => none
  | some r =>
    let t := parseTable r c
    let segs := l.drop (sealedLen (1 + 4 * c))
    if !tableOk t || t.foldl (fun a e => a + e.2.2) 0 != segs.length then none
    else
      let bs := ((t.zip (cutBy (t.map (·.2.2)) segs)).zipIdx).map fun p =>
        let (h, bw) := bandSize f.mono w (p.2 % 8)
        let o := bandOrient (p.2 % 8)
        (decodeBlock h bw o p.1.1.1 p.1.1.2.1 p.1.2).map fun v =>
          blockRec (truncatable f.mode f.temporal p.2) (blockShift weight f.mono p.2) v (codeBlock h bw o v)
      if bs.any (·.isNone) then none
      else some ⟨0, false, false, r.getD 0 0 % 2 == 1, bs.map (·.getD ⟨0, [], []⟩), []⟩

/-- The queued form of a tile-stripe entry that a producer writes (R246). -/
def recordOf (f : FrameInfo) (weight w kind flags : Nat) (body : List Nat) : TsRec :=
  let p := bitAt flags 0 == 1
  let v := bitAt flags 1 == 1
  let l := body.drop 2
  if kind = 0 then
    match codedOf f weight w l with
    | some r => { r with patched := p, replaced := v }
    | none => ⟨3, p, v, bitAt flags 2 == 1, [], l⟩
  else if kind = 1 then ⟨1, p, v, false, [], l⟩
  else { TsRec.lost with patched := p }

/-- QUEUE_ENTRY_WRITE (R247, R250, R254): a producer writes an entry, before which an upset may have made the copies of the pointers
differ. -/
def execQueueEntryWrite (q lane : Nat) (epoch row column kind flags : Nat) (body : List Byte) (copiesDiffer : Bool) (s : State) :
    Host.Outcome State Fault Refusal :=
  let b := toNats body
  .next (if 72 ≤ q then s
  else
    let l := if s.twoLanes q then lane % 2 else 0
    let s := s.when copiesDiffer (·.upsetLane q l)
    match s.frameOf (epoch % 2 ^ 32) with
    | some f =>
      if q < 64 ∧ kind ≤ 2 then
        s.queueRecord (epoch % 2 ^ 32) row column flags (recordOf f.info f.weight (f.info.colWidth column) kind flags b)
      else (s.enqueue q l ⟨epoch, row, column, kind, flags, b, none⟩).2
    | none =>
      if q < 64 ∧ kind ≤ 2 then s.lateRecord column
      else (s.enqueue q l ⟨epoch, row, column, kind, flags, b, none⟩).2)

/-! ## Push windows -/

/-- BAR0 offset of a byte of a queue's push window (R252). -/
def pushOff (q off : Nat) : Nat := 0x1A0000 + 0x1000 * (q - 64) + off

/-- Queues with a push window (R252). -/
def pushQueue (q : Nat) : Bool := q == 65 || q == 66 || q == 69

/-- A write into a push window (R252): 4, 8 or 64 bytes, naturally aligned. -/
def State.push (s : State) (q off : Nat) (l : List Nat) : State :=
  if pushQueue q && [4, 8, 64].contains l.length && off % l.length == 0 && decide (off + l.length ≤ 4096) then
    { s with queues := modAt s.queues q fun o => { o with push := o.push ++ l } }
  else s.cfg (pushOff q off)

/-- PUSH_WINDOW_WRITE (R252). -/
def execPushWindowWrite (q off : Nat) (data : List Byte) (s : State) : Host.Outcome State Fault Refusal :=
  .next (s.push q off (toNats data))

/-- Frame `e`'s MET segments, or a later frame's, have been written by the Packer (R252). -/
def State.metaWritten (s : State) (e : Nat) : Bool :=
  match s.clip.metaDone with | some k => !later e k | none => false

/-- Bytes of the entries of frame `e` in a queue. -/
def State.queuedFor (s : State) (q e : Nat) : List QEntry := (s.lane q 0).entries.filter fun x => x.epoch == e && x.kind == 3

/-- The entry being pushed is closed (R252). -/
def State.closePush (s : State) (q : Nat) : State :=
  let l := (s.queue q).push
  if !pushQueue q || l = [] then s
  else
    let s := { s with queues := modAt s.queues q fun o => { o with push := [] } }
    let e := rdLe l 0 4
    let body := l.drop 4
    if decide (16 < (e + 2 ^ 32 - s.epoch) % 2 ^ 32) || s.metaWritten e then (s.inc (OQ_Q_STATS_TAG_REJ q)).raise 0x31 q 0
    else if q = 66 ∧ (s.queuedFor 66 e) ≠ [] then s.inc (OQ_Q_STATS_TAG_REJ q)
    else
      let used := (s.queuedFor q e).foldl (fun a x => a + x.body.length) 0
      let keep := if q = 65 then body.take (65536 - used) else body
      let s := s.when (decide (keep.length < body.length)) (·.incBy (OQ_Q_STATS_TAG_REJ q) (body.length - keep.length))
      (s.enqueue q 0 ⟨e, 0xFFFF, 0xFF, 3, 0, keep, none⟩).2

/-- PUSH_END (R252). -/
def execPushEnd (_a : Agent) (q : Nat) (s : State) : Host.Outcome State Fault Refusal := .next (s.closePush q)

/-- The next word of a queue (R253). -/
def State.popWord (s : State) (q : Nat) : Word × State :=
  let s := s.checkLane q 0
  let v := s.lane q 0
  match v.entries with
  | [] => (s.word (OQ_Q_LAST_DATA q).off, (s.set (OQ_Q_STAT_UNDERRUN q) 1).set OQ_EVENTS_UNDERRUN 1)
  | e :: _ =>
    let w := BitVec.ofNat 32 (rdLe e.bytes v.popped 4)
    let s := s.putWord (OQ_Q_LAST_DATA q).off w
    (w, if v.popped + 4 < e.size then s.setEntries q 0 v.entries (v.popped + 4) else s.dequeue q 0)

/-- OQ_POP (R253). -/
def execOqPop (_a : Agent) (q : Nat) (s : State) : Host.Outcome State Fault Refusal :=
  .next (if 67 ≤ q ∧ q ≤ 71 then (s.popWord q).2.answer (.word (s.popWord q).1)
    else (s.answer (.word 0#32)).cfg (OQ_Q_POP_DATA q).off)

end Sys2Proof.Machine
end

