-- ==== Sys2Proof/Machine/Magazines.lean ====
section
/-! DEFINITION. The Magazine Host (R274 to R310): bays and mooring, the set and its recovery, staging and commit rounds,
closing, power-fail commit, member loss, rebuild, format, deletion, scrub and read requests. -/

namespace Sys2Proof.Machine

/-! ## Bays -/

/-- Change the Magazine Host's state. -/
def State.modMag (s : State) (f : Mag → Mag) : State := { s with mag := f s.mag }

/-- Bay `b`. -/
def State.bay (s : State) (b : Nat) : Bay := s.mag.bays.getD b Bay.reset

/-- Change bay `b`. -/
def State.modBay (s : State) (b : Nat) (f : Bay → Bay) : State := s.modMag fun m => { m with bays := modAt m.bays b f }

/-- The state code of a bay: 0 empty, 1 present, 2 linking, 3 initialising, 4 moored, 5 failed, 6 unmooring, 7 off. -/
def State.bayState (s : State) (b : Nat) : Nat := s.get (MGH_MAG_STATE_STATE b)

/-- The serial number of the magazine in a bay, 20 bytes. -/
def State.serial (s : State) (b : Nat) : List Nat := ((s.bay b).mag.map fun m => toNats m.serial).getD []

/-- A bay takes a state; the change is an event, and MOORED joins or leaves the Light List (R368, R370). -/
def State.setBay (s : State) (b st : Nat) : State :=
  let old := s.bayState b
  if old = st then s
  else
    let s := (s.set (MGH_MAG_STATE_STATE b) st).notify 0x0030 [b, st]
    if st = 4 then s.light 3 b 1 (some (s.serial b)) else if old = 4 then s.light 3 b 2 none else s

/-- What a bay's magazine answers to reads: its media with the writes it holds. -/
def Bay.view (b : Bay) : List (Nat × List Nat) := b.volatile.foldl (fun m e => writeOn m e.1 e.2) b.media

/-- The link of a bay is down. -/
def State.bayLinkDown (s : State) (b : Nat) : State := s.clear [MGH_MAG_STATE_SPEED b, MGH_MAG_STATE_LINK_WIDTH b]

/-- A pin of a bay takes a level: 0 MAG_PWR_EN, 1 MAG_PERST_N (R279). -/
def State.setPin (s : State) (b pin : Nat) (level : Bool) : State :=
  (s.modBay b fun x => if pin = 0 then { x with pwrEn := level } else { x with perst := level }).emit (.bayPin b pin level)

/-- A bay's pins are low: its magazine is held in reset and unpowered. -/
def State.pinsLow (s : State) (b : Nat) : State := (s.setPin b 1 false).setPin b 0 false

/-- A mooring step fails (R279, R280). -/
def State.bayFail (s : State) (b code : Nat) : State :=
  let s := (s.setBay b 5).set (MGH_MAG_STATE_FAIL_CODE b) code
  let s := ((s.modBay b fun x => { x with step := 0, enabled := false }).bayLinkDown b).setPin b 0 false
  (s.set MGH_EVENTS_MOOR_FAIL 1).raise 0x38 b 0

/-- Commands go into the queues of a magazine (R275, R277). -/
def State.nvme (s : State) (b : Nat) (l : List NvmeCmd) : State := s.each l fun s c => s.emit (.nvme b c)

/-- Entries of an I/O queue (R277). -/
def State.queueDepth (s : State) (b : Nat) : Nat :=
  let q := s.get (MGH_MAG_QDEPTH_ENTRIES b)
  min (if 2 ≤ q ∧ q ≤ 1024 then q else 1024) (((s.bay b).mag.map (·.mqes)).getD 1023 + 1)

/-- Mooring of a bay starts at step 1 (R279). -/
def State.startMoor (s : State) (b : Nat) : State :=
  if (s.bay b).mag.isSome ∧ [1, 5].contains (s.bayState b) then
    ((s.setBay b 1).set (MGH_MAG_STATE_FAIL_CODE b) 0).modBay b fun x => { x with step := 1, since := s.now }
  else s

/-! ## The set -/

/-- Members in service with their bays. -/
def State.service (s : State) : List (Nat × Nat) := s.mag.members.zipIdx.filterMap fun p => p.1.map fun b => (p.2, b)

/-- Their media. -/
def State.media (s : State) : Media := s.service.map fun p => (p.1, (s.bay p.2).view)

/-- The set is complete (R282). -/
def State.setComplete (s : State) : Bool :=
  match s.mag.set with | some b => s.service.length == b.width | none => false

/-- The set is degraded (R282). -/
def State.setDegraded (s : State) : Bool :=
  match s.mag.set with | some b => b.parity && s.service.length == 3 | none => false

/-- `MGH_STATUS.SET_STATE`. -/
def State.setState (s : State) : Nat :=
  if s.mag.powerFail.isSome then 5
  else if s.mag.rebuild.isSome then 6
  else if s.mag.clip.isSome then (if s.mag.closing.isSome then 4 else 3)
  else if s.setComplete then 2 else if s.mag.set.isSome then 1 else 0

/-- A mask of the numbers that satisfy `p`. -/
def maskOf (n : Nat) (p : Nat → Bool) : Nat := (List.range n).foldl (fun a i => if p i then a + 2 ^ i else a) 0

/-- The status registers follow the set. -/
def State.mghStatus (s : State) : State :=
  let w := (s.mag.set.map (·.width)).getD 0
  let up := fun i => (s.mag.members.getD i none).isSome
  let s := ((s.set MGH_STATUS_SET_STATE s.setState).set MGH_STATUS_MEMBERS (maskOf w up)).set MGH_STATUS_STALE (maskOf w fun i => !up i)
  let s := (s.set MGH_STATUS_PARITY (b2n ((s.mag.set.map (·.parity)).getD false))).set MGH_STATUS_WIDTH w
  let s := (s.set MGH_STATUS_DEGRADED (b2n s.setDegraded)).set MGH_SET_ID_ID ((s.mag.set.map (·.setId)).getD 0)
  let s := s.set MGH_NEXT_ROW_ROW (if s.mag.set.isSome then s.mag.appendRow else 0)
  s.set MGH_ROWS_FREE_ROWS ((s.mag.set.map fun b => b.dataRows - s.mag.appendRow).getD 0)

/-- The moored bays with a valid superblock: bay and fields. -/
def State.valids (s : State) : List (Nat × Superblock) :=
  (List.range 4).filterMap fun b => if s.bayState b = 4 then (chosen (s.bay b).view).map fun c => (b, c.2.1) else none

/-- The SET_ID of the set: of the lowest bay with a valid superblock (R282). -/
def State.setId (s : State) : Nat := (s.valids.head?.map (·.2.setId)).getD 0

/-- The magazines of the set, one bay a member, in the order of the members (R282, R302). -/
def State.candidates (s : State) : List (Nat × Nat × Superblock) :=
  let l := s.valids.filter fun p => p.2.setId == s.setId
  (List.range 4).filterMap fun m => (l.find? fun p => p.2.member == m).map fun p => (m, p.1, p.2)

/-- The magazine is a duplicate of a member in a lower bay (R282). -/
def State.duplicate (s : State) (b : Nat) (x : Superblock) : Bool :=
  let lower := s.valids.filter fun p => decide (p.1 < b)
  let id := (lower.head?.map (·.2.setId)).getD x.setId
  x.setId == id && lower.any fun p => p.2.setId == id && p.2.member == x.member

/-- Moored magazines that have become duplicates fail (R282). -/
def State.failDuplicates (s : State) : State :=
  s.each s.valids fun s p => s.when (s.bayState p.1 == 4 && s.duplicate p.1 p.2) (·.bayFail p.1 8)

/-- The superblock that gives the set-wide fields (R289). -/
def topSuper (l : List (Nat × Nat × Superblock)) : Option Superblock :=
  l.foldl (fun a p => match a with | none => some p.2.2 | some x => if later p.2.2.seq x.seq then some p.2.2 else some x) none

/-- The role of a moored bay (R282): 1 member, 2 blank, 3 foreign, 4 stale. -/
def State.roleOf (s : State) (b : Nat) : Nat × Nat :=
  match chosen (s.bay b).view with
  | none => (2, 0)
  | some c =>
    if c.2.1.setId ≠ (s.mag.set.map (·.setId)).getD 0 then (3, 0)
    else if bitAt s.mag.missing c.2.1.member = 1 then (4, c.2.1.member) else (1, c.2.1.member)

/-- The roles of every bay. -/
def State.setRoles (s : State) : State :=
  s.each (List.range 4) fun s b =>
    let r := if s.bayState b = 4 then s.roleOf b else (0, 0)
    (s.set (MGH_MAG_STATE_ROLE b) r.1).set (MGH_MAG_STATE_MEMBER b) r.2

/-- What R302 gives of the set that is moored; none without one, or when it is neither complete nor degraded. -/
def State.assessed (s : State) : Option SetView :=
  match topSuper s.candidates with
  | none => none
  | some b =>
    let v := assess b (s.candidates.map fun p => (p.1, (s.bay p.2.1).view))
    if v.media.length = b.width ∨ (b.parity ∧ v.media.length = 3) then some v else none

/-- The set, its members and content as they are moored, while no clip is open (R282, R302). -/
def State.settleSet (s : State) : State :=
  if s.mag.clip.isSome then s.setRoles.mghStatus
  else
    let s := s.failDuplicates
    match topSuper s.candidates with
    | none => (s.modMag fun m => { m with set := none, members := [], missing := 0, catalogue := [], recovered := none }).setRoles.mghStatus
    | some b =>
      let c := s.candidates
      let missing := (s.assessed.map (·.missing)).getD b.missing
      let member := fun i => if bitAt missing i = 1 then none else (c.find? (·.1 == i)).map (·.2.1)
      let s := s.modMag fun m => { m with set := some b, members := (List.range b.width).map member, missing := missing }
      let s := match s.assessed with
        | some v =>
          let h : Option JournalBlock := v.head.bind fun h => if b.lastJseq < h.jseq then some h else none
          s.modMag fun m =>
            { m with
              degradedRow := (h.map JournalBlock.degradedRow).getD b.degradedRow
              jseq := (h.map JournalBlock.jseq).getD b.lastJseq
              appendRow := v.appendRow
              appendSlot := v.appendSlot
              catalogue := v.catalogue
              recovered := v.head }
        | none => s.modMag fun m =>
            { m with
              degradedRow := b.degradedRow
              jseq := b.lastJseq
              appendRow := b.nextRow
              appendSlot := b.nextSlot
              catalogue := []
              recovered := none }
      s.setRoles.mghStatus

/-! ## Writes to the members -/

/-- Give blocks to one bay; a Flush makes them durable. -/
def State.putBlocks (s : State) (b : Nat) (l : List (Nat × List Nat)) : State :=
  s.modBay b fun x => { x with
    volatile := l.foldl (fun v e => aput v e.1 e.2) x.volatile
    wrote := (s.now, 4096 * l.length) :: x.wrote.filter fun e => decide (s.now < e.1 + 10 ^ 9) }

/-- Write metadata blocks to one bay, each by a write of its own (R276). -/
def State.writeBay (s : State) (b : Nat) (l : List (Nat × List Nat)) : State := (s.putBlocks b l).nvme b (l.map fun e => ⟨2, 1, e.1, 1⟩)

/-- Write a chunk of row `r` to one bay, through a queue pair. -/
def State.writeChunk (s : State) (x : Superblock) (b pair r : Nat) (c : List Nat) : State :=
  let at_ := x.dataLba + r * x.chunk
  (s.putBlocks b ((List.range x.chunk).map fun k => (at_ + k, (c.drop (4096 * k)).take 4096))).nvme b [⟨pair, 1, at_, x.chunk⟩]

/-- The chunks of a row are read on every member in service, through a queue pair. -/
def State.readRow (s : State) (x : Superblock) (pair r : Nat) : State :=
  s.each s.service fun s p => s.nvme p.2 [⟨pair, 2, x.dataLba + r * x.chunk, x.chunk⟩]

/-- Blocks of one bay are written as zero, in one write, and read as that whatever was to be written before. -/
def State.zeroBlocks (s : State) (b lba n : Nat) : State :=
  let out := fun (e : Nat × List Nat) => !(decide (lba ≤ e.1 ∧ e.1 < lba + n))
  (s.modBay b fun x => { x with media := x.media.filter out, volatile := x.volatile.filter out }).nvme b [⟨2, 1, lba, n⟩]

/-- Write the same blocks to every member in service (R286). -/
def State.writeAll (s : State) (l : List (Nat × List Nat)) : State := s.each s.service fun s p => s.writeBay p.2 l

/-- A Flush of one bay. -/
def State.flushBay (s : State) (b : Nat) : State := (s.modBay b fun x => { x with media := x.view, volatile := [] }).nvme b [⟨2, 0, 0, 0⟩]

/-- A Flush of every member in service. -/
def State.flushAll (s : State) : State := s.each s.service fun s p => s.flushBay p.2

/-- A superblock copy of one bay is overwritten (R289): the copy not chosen, SEQ one above. -/
def State.writeSuper (s : State) (b member : Nat) (mount : Bool) : State :=
  match s.mag.set with
  | none => s
  | some x =>
    let cur := chosen (s.bay b).view
    let fresh := mount && (s.bay b).fresh
    let old := cur.map (·.2.1)
    let sb := { x with
      seq := ((old.map (·.seq)).getD 0 + 1) % 2 ^ 32
      member := member
      missing := s.mag.missing
      degradedRow := s.mag.degradedRow
      mountCount := (old.map (·.mountCount)).getD 0 + b2n fresh
      mountTime := if fresh then s.dtcNs else (old.map (·.mountTime)).getD x.mountTime }
    let copyA := (cur.map (·.2.2)).getD false
    (s.writeBay b [(if copyA then 2 else 1, sb.bytes)]).modBay b fun y =>
      { y with sb := some sb, sbCopyA := !copyA, fresh := y.fresh && !mount }

/-- The superblock of a magazine of an incomplete set records its mooring, its other fields as they were (R289). -/
def State.writeMount (s : State) (b : Nat) : State :=
  match chosen (s.bay b).view with
  | none => s
  | some (_, x, copyA) =>
    let sb := { x with seq := (x.seq + 1) % 2 ^ 32, mountCount := x.mountCount + 1, mountTime := s.dtcNs }
    ((s.writeBay b [(if copyA then 2 else 1, sb.bytes)]).modBay b fun y => { y with sb := some sb, sbCopyA := !copyA, fresh := false }).flushBay b

/-- The superblocks of every member in service are written and flushed (R289). -/
def State.writeSupers (s : State) (mount : Bool) : State :=
  (s.each s.service fun s p => s.writeSuper p.2 p.1 mount).flushAll

/-- The slots of an index block as a member in service holds them. -/
def State.indexSlots (s : State) (n : Nat) : List (List Nat) :=
  match s.mag.set with
  | none => []
  | some b => (s.media.findSome? fun m => parseIndex b.setId n (blockOn m.2 (b.idxLba + n))).getD []

/-- An index block with new slot entries, cut before slot `limit` (R292, R295). -/
def State.indexWith (s : State) (b : Superblock) (n limit : Nat) (new : Nat → Option (List Nat)) : Nat × List Nat :=
  let old := s.indexSlots n
  let k := min 63 (limit - 63 * n)
  (b.idxLba + n, indexBlock b.setId n ((List.range k).map fun i => (new (63 * n + i)).getD (old.getD i [])))

/-- The index blocks that hold slots `from_` to `to_ - 1`. -/
def indexSpan (from_ to_ : Nat) : List Nat :=
  if to_ ≤ from_ then [] else (List.range ((to_ - 1) / 63 + 1 - from_ / 63)).map (· + from_ / 63)

/-! ## Recovery on mount -/

/-- The entry that closes an OPEN clip found by recovery (R297, R303). -/
def recoveredEntry (v : SetView) (e : CatEntry) (now : Nat) : CatEntry :=
  let (n, row, _) := clipEnd v.head e
  let us := (List.range n).filterMap fun i => v.unit e i
  { e with
    state := 2
    reason := 2
    entrySeq := (e.entrySeq + 1) % 2 ^ 32
    rows := row - e.firstRow
    frames := n
    firstEpoch := (us.head?.map (·.epoch)).getD e.firstEpoch
    closeTime := now
    firstTc := (us.head?.map (·.timecode)).getD e.firstTc
    lastTc := (us.getLast?.map (·.timecode)).getD 0
    dropped := (us.filter (·.unit == 1)).length
    bytes := us.foldl (fun a u => a + u.bytes) 0 }

/-- The committed entry of slot `k` (R302). -/
def SetView.slotAt (v : SetView) (k : Nat) : Option (List Nat) :=
  v.catalogue.findSome? fun e => e.bind fun e =>
    if e.indexFirst ≤ k ∧ k < e.indexFirst + (clipEnd v.head e).1 then (v.unit e (k - e.indexFirst)).map FrameEntry.toBytes else none

/-- Index block `n` with exactly the committed entries (R303). A slot of which none is known stays as the medium has it. -/
def SetView.indexBlock (v : SetView) (m : List (Nat × List Nat)) (n : Nat) : List Nat :=
  let old := (parseIndex v.sb.setId n (blockOn m (v.sb.idxLba + n))).getD []
  Machine.indexBlock v.sb.setId n ((List.range (min 63 (v.appendSlot - 63 * n))).map fun i => (v.slotAt (63 * n + i)).getD (old.getD i []))

/-- The index blocks that disagree with the committed entries are rewritten where they do (R303 step 2), and whether there are any. -/
def State.repairIndex (s : State) (v : SetView) : Bool × State :=
  let bad := fun (b : Nat) => ((indexSpan 0 v.appendSlot).map fun n => (v.sb.idxLba + n, v.indexBlock (s.bay b).view n)).filter
    fun e => blockOn (s.bay b).view e.1 != e.2
  let l := (s.service.map fun p => (p.2, bad p.2)).filter fun p => !p.2.isEmpty
  (!l.isEmpty, if l.isEmpty then s else (s.each l fun s p => s.writeBay p.1 p.2).flushAll)

/-- An OPEN clip is closed as under R297 (R303 step 3). -/
def State.repairClip (s : State) (v : SetView) (e : CatEntry) : State :=
  if e.state ≠ 1 then s
  else ((s.writeAll [(v.sb.catLba + e.clipNo, (recoveredEntry v e s.dtcNs).toBytes)]).flushAll).set MGH_EVENTS_CLIP_CLOSED 1

/-- Journal block h reaches the members that lack it (R303 step 1). -/
def State.repairHead (s : State) (v : SetView) : Bool × State :=
  match v.head with
  | none => (false, s)
  | some h =>
    let at_ := v.sb.jrnLba + h.jseq % max 1 v.sb.jrnBlocks
    let lack := s.service.filter fun p => blockOn (s.bay p.2).view at_ != fit 4096 h.bytes
    (!lack.isEmpty, (s.each lack fun s p => s.writeBay p.2 [(at_, h.bytes)]).flushAll)

/-- Recovery of the set that a mooring made complete or degraded (R302, R303). While READ_ONLY is 1 nothing is written. -/
def State.recoverSet (s : State) : State :=
  match s.assessed with
  | none => s
  | some v =>
    if s.flag MGH_CTRL_READ_ONLY then s
    else
      let s := s.each s.service fun s p => s.nvme p.2 [⟨3, 2, v.sb.jrnLba, v.sb.jrnBlocks⟩]
      let (a, s) := s.repairHead v
      let (x, s) := s.repairIndex v
      let opens := v.catalogue.filterMap fun e => e.bind fun e => if e.state = 1 then some e else none
      let s := s.each opens fun s e => s.repairClip v e
      let old := v.sb.nextClip != v.catalogue.length
      let s := s.modMag fun m => { m with set := m.set.map fun b =>
        { b with nextRow := v.appendRow, nextSlot := v.appendSlot, nextClip := v.catalogue.length, lastJseq := m.jseq } }
      let s := (s.writeSupers true).settleSet
      s.when (a || x || !opens.isEmpty || old) (·.set MGH_EVENTS_RECOVERED 1)

/-! ## Staging -/

/-- The unit the Magazine Host is given takes the bytes emitted so far (R295). -/
def State.stage (s : State) (e : Nat) : State :=
  match s.frameOf e with
  | none => s
  | some f => s.modMag fun m => { m with units := m.units.map fun u =>
      if u.entry.epoch = e ∧ !u.ended then
        let cap := max 1 ((m.set.map Superblock.rowBytes).getD 1)
        { u with data := f.out, since := if u.data.length / cap ≤ u.written then s.now else u.since }
      else u }

/-- Bytes staged and not yet given to a round (R299). -/
def State.staged (s : State) : Nat :=
  let cap := (s.mag.set.map Superblock.rowBytes).getD 0
  s.mag.units.foldl (fun a u => a + (u.data.length - cap * u.written)) 0

/-- The Magazine Host accepts bytes (R299, R300). -/
def State.accepts (s : State) : Bool := decide (s.staged < s.get MGH_STAGE_SIZE_BYTES) && s.mag.powerFail.isNone

/-- The unit of a frame whose emission begins is staged, while a clip takes it in (R284, R295, R297, R300). -/
def State.newUnit (s : State) (f : Frame) (unit : Nat) : State :=
  match s.mag.clip with
  | none => s
  | some c =>
    if s.mag.closing.isSome ∨ s.mag.powerFail.isSome then s
    else
      let x : FrameEntry := ⟨f.info.clipFrame, f.info.epoch, s.mag.appendRow, 0, 0, f.info.beaconTime, f.info.timecode,
        f.info.subframe, unit, 0, 0, c.clipNo, 0⟩
      s.modMag fun m => { m with units := m.units ++ [⟨x, [], false, 0, 0, s.now⟩] }

/-- The clip is to close for a reason; the first reason stands (R297). -/
def State.beginClose (s : State) (reason : Nat) : State :=
  if s.mag.clip.isSome then (s.modMag fun m => { m with closing := m.closing.orElse fun _ => some reason }).mghStatus else s

/-- A unit whose emission has ended takes its rows, or ends the clip when they do not fit (R284, R298). -/
def State.placeUnit (s : State) (b : Superblock) (u : StagedUnit) : State :=
  let rows := b.rowsOf u.data.length
  if b.dataRows < u.entry.firstRow + rows then
    ((s.modMag fun m => { m with units := m.units.filter fun x => x.entry.epoch != u.entry.epoch }).set MGH_EVENTS_FULL 1).beginClose 3
  else
    let s := s.modMag fun m => { m with appendRow := u.entry.firstRow + rows, units := m.units.map fun x =>
      if x.entry.epoch = u.entry.epoch then { u with entry := { u.entry with rows := rows } } else x }
    let warn := s.get MGH_SPACE_WARN_ROWS
    if decide (b.dataRows - s.mag.appendRow < warn) && !s.mag.warned then
      ((s.modMag fun m => { m with warned := true }).set MGH_EVENTS_SPACE_WARN 1).mghStatus
    else s.mghStatus

/-- The unit of a frame ends (R295). -/
def State.endUnit (s : State) (f : Frame) : State :=
  match s.mag.set, s.mag.units.find? fun u => u.entry.epoch == f.info.epoch && !u.ended with
  | some b, some u =>
    s.placeUnit b { u with ended := true, data := f.out, entry := { u.entry with bytes := f.out.length, cflags := f.cflags, crc := f.crc } }
  | _, _ => s

/-! ## Commit rounds -/

/-- Rows of a unit that may be written. -/
def StagedUnit.ready (u : StagedUnit) (b : Superblock) : Nat :=
  let n := if u.ended then b.rowsOf u.data.length else u.data.length / max 1 b.rowBytes
  min n (b.dataRows - u.entry.firstRow)

/-- The unit has ended and rounds have been given all its rows. -/
def StagedUnit.given (u : StagedUnit) (b : Superblock) : Bool := u.ended && decide (u.ready b ≤ u.written)

/-- The rows a round takes (R295): at most `rows` of them and `units` units completed. The units after, and the rows with
their bytes. -/
def planRows (b : Superblock) : Nat → Nat → List StagedUnit → List StagedUnit × List (Nat × List Nat)
  | _, _, [] => ([], [])
  | rows, units, u :: t =>
    if units = 0 then (u :: t, [])
    else
      let n := min rows (u.ready b - u.written)
      let ws := (List.range n).map fun i =>
        (u.entry.firstRow + u.written + i, (u.data.drop ((u.written + i) * b.rowBytes)).take b.rowBytes)
      let u' := { u with written := u.written + n }
      if u'.given b then
        let (us, l) := planRows b (rows - n) (units - 1) t
        (u' :: us, ws ++ l)
      else (u' :: t, ws)

/-- Rows per member of a round (R295). -/
def State.roundRows (s : State) (b : Superblock) : Nat := max 1 (max 1 (s.get MGH_ROUND_MAX_MIB) * 2 ^ 20 / (4096 * b.chunk))

/-- The rows staged and not given to a round. -/
def State.stagedRows (s : State) (b : Superblock) : Nat := s.mag.units.foldl (fun a u => a + (u.ready b - u.written)) 0

/-- Write a row's chunks to the members in service (R283, R305). -/
def State.writeRow (s : State) (b : Superblock) (r : Nat) (data : List Nat) : State :=
  s.each s.service fun s p =>
    match (b.rowChunks r data).find? (·.1 == p.1) with
    | none => s
    | some c => s.writeChunk b p.2 1 r c.2

/-- Entries in groups of at most 62. -/
def groups : Nat → List FrameEntry → List (List FrameEntry)
  | 0, _ => []
  | fuel + 1, l => if l = [] then [] else l.take 62 :: groups fuel (l.drop 62)

/-- The journal blocks of a round (R293, R295): TYPE 1 blocks that hold the units, their entries stamped with the JSEQ, after a loss
behind a TYPE 2 block without entries (R305). -/
def State.journalBlocks (s : State) (b : Superblock) (c : CatEntry) (l : List FrameEntry) : List JournalBlock :=
  let gs : List (Nat × List FrameEntry) := (groups 16 l).map fun g => (1, g)
  let gs := if s.mag.lossDue then (2, []) :: gs else gs
  gs.zipIdx.map fun ((t, g), pos) =>
    let js := s.mag.jseq + 1 + pos
    let last := g.getLast?
    let frames := (last.map fun e => e.clipFrame + 1).getD c.frames
    { typ := t, missing := s.mag.missing, pos := pos, jseq := js, setId := b.setId,
      clipNo := c.clipNo, frames := frames, nextRow := (last.map fun e => e.firstRow + e.rows).getD (c.firstRow + c.rows),
      nextSlot := c.indexFirst + frames, degradedRow := s.mag.degradedRow,
      entries := g.map fun e => { e with jseq := js } }

/-- A round starts (R295); the final round of a power-fail commit holds no rows (R300). -/
def State.startRound (s : State) (final : Bool) : State :=
  match s.mag.set, s.mag.clip with
  | some b, some c =>
    let (us, ws) := if final then (s.mag.units, []) else planRows b (s.roundRows b) 992 s.mag.units
    let js := s.journalBlocks b c (s.mag.durable.take 992)
    let es := js.flatMap (·.entries)
    let s := s.each ws fun s w => s.writeRow b w.1 w.2
    let s := s.writeAll (js.map fun j => (b.jrnLba + j.jseq % max 1 b.jrnBlocks, j.bytes))
    let slot := fun (e : FrameEntry) => c.indexFirst + e.clipFrame
    let limit := (es.getLast?.map fun e => slot e + 1).getD 0
    let s := s.writeAll ((indexSpan ((es.head?.map slot).getD 0) limit).map fun n =>
      s.indexWith b n limit fun k => (es.find? fun e => slot e == k).map FrameEntry.toBytes)
    s.modMag fun m =>
      { m with
        units := us
        durable := m.durable.drop 992
        jseq := m.jseq + js.length
        lossDue := false
        round := some ⟨es, js.getLast?.map (·.jseq), ws.length⟩ }
  | _, _ => s

/-- A commit is notified, or waits for its merging (R368). -/
def State.notifyCommit (s : State) (data : List Nat) : State :=
  let due := match s.hpp.commitLast with
    | none => true
    | some t => decide (t + 10 ^ 6 * s.setting 0x1100 16 ≤ s.now)
  if due then { s.notify 0x0003 data with hpp := { (s.notify 0x0003 data).hpp with commitLast := some s.now, commitDue := none } }
  else { s with hpp := { s.hpp with commitDue := some data } }

/-- Journal blocks are committed up to the one with a JSEQ (R296, R297). -/
def State.commitJseq (s : State) (last : Option Nat) : State :=
  match last with
  | none => s
  | some j => (s.modMag fun m => { m with set := m.set.map fun b => { b with lastJseq := j } }).set MGH_COMMIT_JSEQ_JSEQ j

/-- Units are declared committed (R296). -/
def State.commit (s : State) (l : List FrameEntry) : State :=
  match l.getLast?, s.mag.clip with
  | some e, some c =>
    let c := { c with
      frames := e.clipFrame + 1
      rows := e.firstRow + e.rows - c.firstRow
      firstEpoch := if c.frames = 0 then (l.head?.map (·.epoch)).getD 0 else c.firstEpoch
      firstTc := if c.frames = 0 then (l.head?.map (·.timecode)).getD 0 else c.firstTc
      lastTc := e.timecode
      dropped := c.dropped + (l.filter (·.unit == 1)).length
      bytes := c.bytes + l.foldl (fun a u => a + u.bytes) 0 }
    let s := s.modMag fun m => { m with clip := some c }
    let s := (s.set MGH_COMMIT_FRAMES_COUNT c.frames).set MGH_COMMIT_EPOCH_EPOCH e.epoch
    let s := { s with log := { s.log with cur := { s.log.cur with committed := s.log.cur.committed + l.length } } }
    (s.set MGH_EVENTS_COMMIT 1).notifyCommit (le 4 c.clipNo ++ le 4 c.frames ++ le 4 e.epoch)
  | _, _ => s

/-! ## Closing -/

/-- The clip is closed on the media and gone from the Magazine Host (R297, R380). -/
def State.finishClose (s : State) (b : Superblock) (c : CatEntry) (reason : Nat) : State :=
  let e := { c with state := 2, reason := reason, entrySeq := (c.entrySeq + 1) % 2 ^ 32, closeTime := s.dtcNs }
  let idx := if c.frames = 0 then [] else
    [s.indexWith b ((c.indexFirst + c.frames - 1) / 63) (c.indexFirst + c.frames) fun _ => none]
  let s := (s.writeAll ((b.catLba + c.clipNo, e.toBytes) :: idx)).flushAll
  let s := (s.set MGH_EVENTS_CLIP_CLOSED 1).modMag fun m =>
    { m with
      set := (m.set.map fun b => { b with nextRow := c.firstRow + c.rows, nextSlot := c.indexFirst + c.frames, nextClip := c.clipNo + 1 })
      appendRow := c.firstRow + c.rows
      appendSlot := c.indexFirst + c.frames
      catalogue := m.catalogue ++ [some e]
      recovered := none
      clip := none
      closing := none
      units := []
      durable := []
      round := none
      lossDue := false
      warned := false }
  let s := (s.writeSupers false).set MGH_CMD_STAT_BUSY 0
  let s := { s.set PKR_STATUS_EMITTING 0 with frames := [], clip := ClipCtl.reset, hpp := { s.hpp with clipState := 0 } }
  let s := { s with hpp := { s.hpp with resetAfter := false, warmAt := if s.hpp.resetAfter then some s.now else s.hpp.warmAt } }
  (s.notify 0x0002 (le 4 c.clipNo ++ [reason] ++ le 4 c.frames)).settleSet

/-- A closing clip with nothing left to commit is closed (R297). -/
def State.tryClose (s : State) : State :=
  match s.mag.set, s.mag.clip, s.mag.closing with
  | some b, some c, some r =>
    if s.mag.units = [] ∧ s.mag.durable = [] ∧ s.mag.round = none ∧ !s.mag.lossDue ∧ s.mag.powerFail = none then s.finishClose b c r else s
  | _, _, _ => s

/-! ## Power-fail commit -/

/-- A moored bay is being shut down (R275): CC.SHN = 01, until CSTS.SHST reads 10. -/
def State.shutdownBay (s : State) (b : Nat) (command : Bool) : State :=
  ((s.setBay b 6).modBay b fun x => { x with step := 6, since := s.now, unmoorDue := command }).emit (.nvmeCc b true 1)

/-- The power-fail commit is complete (R300). -/
def State.powerFailDone (s : State) : State :=
  let us := (s.now - s.mag.powerFail.getD s.now) / 1000
  ((s.modMag fun m => { m with powerFail := none, pfFinal := false, pfShut := false }).set MGH_PF_TIME_US us).set MGH_EVENTS_PF_DONE 1

/-- Step 4 of the power-fail commit ends with the last member's shutdown (R300). -/
def State.powerFailStep (s : State) : State :=
  s.when (s.mag.pfShut && s.mag.bays.all fun x => x.step != 6) (·.powerFailDone.settleSet)

/-- The final round of the power-fail commit has ended (R300): the members are shut down and the clip stays OPEN on the media, or, when
the power has come back, the clip is closed with REASON 6. -/
def State.powerFailEnd (s : State) : State :=
  if s.kpr.powerFail.isSome then
    let s := (s.each s.service fun s p => s.shutdownBay p.2 false).modMag fun m =>
      { m with clip := none, closing := none, units := [], durable := [], round := none, lossDue := false, warned := false, pfShut := true }
    { s with clip := ClipCtl.reset, frames := [], hpp := { s.hpp with clipState := 0 } }.settleSet.powerFailStep
  else (((s.powerFailDone.modMag fun m => { m with closing := some 6 })).mghStatus).tryClose

/-- PWR_FAIL_N falls while a clip is open (R300 steps 1 to 3): intake and row writes stop, the Packer stops its unit. -/
def State.powerFailCommit (s : State) : State :=
  match s.mag.set, s.mag.clip with
  | some b, some _ =>
    if s.mag.powerFail.isSome then s
    else
      let s := s.modMag fun m => { m with powerFail := some s.now, pfFinal := false, units := m.units.filter fun u => u.given b }
      let s := { s.set PKR_STATUS_EMITTING 0 with frames := s.frames.filter fun f => !f.started }
      let s := if s.mag.round.isSome then s else (s.startRound true).modMag fun m => { m with pfFinal := true }
      s.mghStatus
  | _, _ => s

/-! ## Loss of a member -/

/-- A bay leaves the set. -/
def State.dropMember (s : State) (b : Nat) : State :=
  s.modMag fun m => { m with members := m.members.map fun x => if x = some b then none else x }

/-- A member is lost while a clip is open (R305). -/
def State.loseMember (s : State) (b : Nat) : State :=
  match s.mag.set, s.service.find? fun p => p.2 == b with
  | some x, some (m, _) =>
    if s.mag.clip.isNone then s.dropMember b
    else
      let s := (s.dropMember b).set MGH_EVENTS_MEMBER_LOST 1
      if x.parity && s.flag MGH_CTRL_DEGRADE_OK && s.mag.missing == 0 then
        let row := (s.mag.units.head?.map fun u => u.entry.firstRow + u.flushed).getD s.mag.appendRow
        let s := s.modMag fun g => { g with missing := 2 ^ m, degradedRow := row, lossDue := true }
        (s.raise 0x39 b 0).mghStatus
      else
        let s := s.modMag fun g => { g with closing := some 4, units := [], durable := [], round := none, lossDue := false, powerFail := none }
        s.tryClose.raise 0x3A b 0
  | _, _ => s

/-! ## Commands of MGH_CMD -/

/-- `MGH_CMD_STAT` after a command (R294). -/
def State.mghResult (s : State) (last res : Nat) : State := ((s.set MGH_CMD_STAT_LAST last).set MGH_CMD_STAT_RESULT res).mghStatus

/-- A command of MGH_CMD: from the MGC alone, while the Magazine Host runs, and one at a time. -/
def State.mghCmd (s : State) (a : Agent) (last : Nat) (f : State → Nat × State) : State :=
  s.mgcOnly a MGH_CMD_MOOR.off fun s =>
    if !s.flag MGH_CTRL_EN then s
    else if s.flag MGH_CMD_STAT_BUSY then s.mghResult last 1
    else let (r, s) := f s; s.mghResult last r

/-- The bays of a mask. -/
def baysOf (mask : Nat) : List Nat := (List.range 4).filter fun b => bitAt mask b == 1

/-- MOOR (R279): a bay that was unmoored reads OFF until its presence is withdrawn (R281). -/
def State.moorCmd (s : State) (mask : Nat) : Nat × State := (0, s.each (baysOf mask) State.startMoor)

/-- A decode job reads the set. -/
def State.jobUsesSet (s : State) : Bool := match s.hpp.job with | some j => j.source == 0 | none => false

/-- A decode job or a read request uses a bay (R281). -/
def State.bayUsed (s : State) (b : Nat) : Bool := (s.jobUsesSet && s.service.any fun p => p.2 == b) || (s.bay b).rqRun

/-- UNMOOR (R281). -/
def State.unmoorCmd (s : State) (mask : Nat) : Nat × State :=
  let bs := (baysOf mask).filter fun b => s.bayState b == 4
  if s.mag.clip.isSome ∨ bs.any s.bayUsed ∨ s.mag.rebuild.isSome then (1, s)
  else
    let s := s.each bs fun s b =>
      (s.nvme b (([1, 2, 3, 4].map fun q => ⟨0, 0, q, 0⟩) ++ [1, 2, 3, 4].map fun q => ⟨0, 4, q, 0⟩)).shutdownBay b true
    (0, (s.when (!bs.isEmpty) (·.set MGH_CMD_STAT_BUSY 1)).settleSet)

/-- The largest D that fits (R286): by halving between a D that fits and one that does not. -/
def largestD (blocks chunk : Nat) : Nat → Nat → Nat → Nat
  | 0, lo, _ => lo
  | fuel + 1, lo, hi =>
    if hi ≤ lo + 1 then lo
    else
      let m := (lo + hi) / 2
      if 5376 + ceilDiv (ceilDiv m 63) 256 * 256 + m * chunk ≤ blocks then largestD blocks chunk fuel m hi else largestD blocks chunk fuel lo m

/-- The superblock fields of a new set (R286, R307). -/
def State.newSet (s : State) (bs : List Nat) (id mountTime : Nat) : Superblock :=
  let w := s.get MGH_FMT0_WIDTH
  let cl := s.get MGH_FMT0_CHUNK_LOG
  let blocks := bs.foldl (fun a b => min a (s.get (MGH_MAG_BLOCKS_COUNT b))) (2 ^ 34)
  let d := largestD blocks (2 ^ cl) 64 0 (blocks / 2 ^ cl + 1)
  let ib := ceilDiv (ceilDiv d 63) 256 * 256
  { seq := 0, parity := s.flag MGH_FMT0_PARITY && w == 4, member := 0, width := w, chunkLog := cl, setId := id, missing := 0,
    mountCount := 0, blocks := blocks, catLba := 256, catBlocks := 4096, jrnBlocks := 1024, jrnLba := 4352, idxLba := 5376,
    idxBlocks := ib, dataLba := 5376 + ib, dataRows := d, nextRow := 0, nextSlot := 0, nextClip := 0,
    rated := s.get MGH_FMT1_RATED_MBPS, lastJseq := 0, degradedRow := noRow, formatTime := s.dtcNs, mountTime := mountTime,
    formatter := rdLe s.nor.daymark 8 8, serials := (List.range 4).map fun i => fit 20 ((bs[i]?.map s.serial).getD []) }

/-- A magazine of a new set is deallocated, its reserved blocks are written as zero, and it takes copy A with SEQ 1 and copy B with SEQ 2
(R286, R289, R307). A magazine without Dataset Management keeps its other blocks; what deallocated blocks read as is log entry 17. -/
def State.formatBay (s : State) (x : Superblock) (b member : Nat) : State :=
  let dsm := ((s.bay b).mag.map (·.hasDsm)).getD false
  let s := if dsm then (s.modBay b fun y => { y with media := [], volatile := [] }).nvme b [⟨4, 9, 0, x.blocks⟩] else s
  let c := { x with member := member }
  let s := (s.zeroBlocks b 0 1).zeroBlocks b 3 (x.catLba - 3)
  (s.writeBay b [(1, { c with seq := 1 }.bytes), (2, { c with seq := 2 }.bytes)]).flushBay b

/-- FORMAT (R307): refused while a clip is open or READ_ONLY is 1, and unless BAYS names WIDTH moored magazines. The SET_ID
and the MOUNT_TIME of copies that no mooring wrote are free values. -/
def State.formatCmd (s : State) (mask : Nat) : Nat × State :=
  let w := s.get MGH_FMT0_WIDTH
  let cl := s.get MGH_FMT0_CHUNK_LOG
  let bs := baysOf mask
  if s.mag.clip.isSome then (6, s)
  else if s.flag MGH_CTRL_READ_ONLY then (5, s)
  else if !(decide (1 ≤ w ∧ w ≤ 4 ∧ 2 ≤ cl ∧ cl ≤ 8)) || bs.length != w || bs.any (fun b => s.bayState b != 4) then (1, s)
  else
    let (v, s) := s.draw
    let (t, s) := s.draw
    let x := s.newSet bs (v % (2 ^ 64 - 1) + 1) t
    let s := s.each bs.zipIdx fun s p => (s.formatBay x p.1 p.2).modBay p.1 fun y => { y with fresh := false }
    (0, s.settleSet)

/-- The catalogue entry of a clip that opens, with the format in force (R290, R294). -/
def State.openEntry (s : State) (b : Superblock) (n : Nat) : CatEntry :=
  let mode := s.get FAL_CTRL_MODE
  let temporal := s.flag FAL_CTRL_TEMPORAL
  let mono := s.getF PPR_FMT1_MONO == 1
  { state := 1, reason := 0, clipNo := n, entrySeq := 1, setId := b.setId, firstRow := s.mag.appendRow, rows := 0,
    indexFirst := s.mag.appendSlot, frames := 0, firstEpoch := 0, openJseq := s.mag.jseq + 1, openTime := s.dtcNs, closeTime := 0,
    width := s.getF PPR_FMT0_WIDTH * (if s.clip.ganged then 2 else 1), height := s.getF PPR_FMT0_HEIGHT,
    depth := 10 + 2 * s.getF PPR_FMT1_DEPTH, cfa := if mono then 0 else s.getF PPR_FMT1_CFA,
    modeFlags := mode + 4 * b2n temporal + 16 * b2n s.clip.ganged + 32 * b2n mono + 64 * s.setting 0x2000 8,
    keyInterval := if temporal then s.setting 0x2000 3 else 0, rateNum := s.getF BU_RATE_NUM_NUM, rateDen := s.getF BU_RATE_DEN_DEN,
    target := if mode = 0 then 0 else s.getF FAL_TARGET_BYTES, firstTc := 0, lastTc := 0, dropped := 0, bytes := 0,
    name := (List.range 16).flatMap fun i => le 4 (s.get (MGH_NAME_BYTES i)) }

/-- OPEN (R294). -/
def State.openCmd (s : State) : Nat × State :=
  match s.mag.set with
  | none => (2, s)
  | some b =>
    let n := s.mag.catalogue.length
    if !s.setComplete then (2, s)
    else if b.catBlocks ≤ n then (3, s)
    else if s.flag MGH_CTRL_READ_ONLY then (5, s)
    else if s.mag.clip.isSome then (6, s)
    else
      let e := s.openEntry b n
      let s := (s.writeAll [(b.catLba + n, e.toBytes)]).flushAll
      let s := s.modMag fun m => { m with clip := some e, closing := none, units := [], durable := [], round := none, warned := false }
      (0, ((s.set MGH_CLIP_NUMBER n).set MGH_COMMIT_FRAMES_COUNT 0))

/-- CLOSE (R297). -/
def State.closeCmd (s : State) (reason : Nat) : Nat × State :=
  if s.mag.clip.isNone then (7, s)
  else if s.mag.closing.isSome ∨ reason = 0 ∨ 6 < reason then (1, s)
  else (0, ((s.set MGH_CMD_STAT_BUSY 1).beginClose reason).tryClose)

/-- DELETE_LAST (R308). -/
def State.deleteCmd (s : State) : Nat × State :=
  match s.mag.set, s.mag.catalogue.getLast? with
  | some b, some (some e) =>
    if s.mag.clip.isSome then (6, s)
    else if s.flag MGH_CTRL_READ_ONLY then (5, s)
    else if !(s.setComplete || s.setDegraded) then (2, s)
    else if e.state ≠ 2 then (8, s)
    else
      let d := { e with state := 3, entrySeq := (e.entrySeq + 1) % 2 ^ 32 }
      let s := (s.writeAll [(b.catLba + e.clipNo, d.toBytes)]).flushAll
      let s := s.modMag fun m => { m with
        set := (m.set.map fun b => { b with nextClip := e.clipNo, nextRow := e.firstRow, nextSlot := e.indexFirst })
        appendRow := e.firstRow
        appendSlot := e.indexFirst }
      let s := s.writeSupers false
      let s := s.each s.service fun s p =>
        if ((s.bay p.2).mag.map (·.hasDsm)).getD false then
          (s.modBay p.2 fun y => { y with media := y.media.filter (fun x =>
            !(decide (b.dataLba + e.firstRow * b.chunk ≤ x.1 ∧ x.1 < b.dataLba + (e.firstRow + e.rows) * b.chunk))) }).nvme p.2
            [⟨4, 9, b.dataLba + e.firstRow * b.chunk, e.rows * b.chunk⟩]
        else s
      (0, s.settleSet)
  | _, _ => (if s.mag.clip.isSome then 6 else 8, s)

/-- The bay that a rebuild writes (R306): of the stale member, else of a blank magazine large enough. -/
def State.rebuildBay (s : State) (b : Superblock) : Option Nat :=
  let role := fun i => s.get (MGH_MAG_STATE_ROLE i)
  ((List.range 4).find? fun i => s.bayState i == 4 && role i == 4).orElse fun _ =>
    (List.range 4).find? fun i => s.bayState i == 4 && role i == 2 && decide (b.blocks ≤ s.get (MGH_MAG_BLOCKS_COUNT i))

/-- The metadata blocks of a medium (R286). -/
def Superblock.metaOf (b : Superblock) (m : List (Nat × List Nat)) : List (Nat × List Nat) :=
  m.filter fun e => decide (b.catLba ≤ e.1 ∧ e.1 < b.catLba + b.catBlocks) ||
    decide (b.jrnLba ≤ e.1 ∧ e.1 < b.jrnLba + b.jrnBlocks) || decide (b.idxLba ≤ e.1 ∧ e.1 < b.idxLba + b.idxBlocks)

/-- A rebuild in bay `i` starts (R306): the missing member's metadata regions and superblock fields are written first. The row from which
the member is missing is DEGRADED_ROW for a stale member and 0 for a blank magazine; every superblock takes it, so that a rebuild that
power interrupts resumes there. -/
def State.rebuildStart (s : State) (b : Superblock) (i : Nat) : State :=
  match s.mag.members.findIdx? (·.isNone) with
  | none => s
  | some m =>
    let src := (s.media.head?.map (·.2)).getD []
    let first := if s.get (MGH_MAG_STATE_ROLE i) = 4 then s.mag.degradedRow else 0
    let s := s.modMag fun g => { g with
      rebuild := some i
      missing := 2 ^ m
      degradedRow := first
      set := g.set.map fun x => { x with serials := x.serials.set m (fit 20 (s.serial i)) } }
    (((s.writeBay i (b.metaOf src)).writeSuper i m false).flushBay i).writeSupers false |>.setRoles

/-- A rebuild that cannot go on, because bay `b` has left, ends (R306). -/
def State.rebuildLost (s : State) (b : Nat) : State :=
  s.when (s.mag.rebuild.isSome && (s.mag.rebuild == some b || s.service.any fun p => p.2 == b)) fun s =>
    (s.modMag fun m => { m with rebuild := none }).set MGH_CMD_STAT_BUSY 0

/-- REBUILD (R306). -/
def State.rebuildCmd (s : State) : Nat × State :=
  match s.mag.set with
  | none => (8, s)
  | some b =>
    if s.mag.clip.isSome then (6, s)
    else if s.flag MGH_CTRL_READ_ONLY then (5, s)
    else if !s.setDegraded then (8, s)
    else match s.rebuildBay b with
      | none => (8, s)
      | some i => (0, (s.rebuildStart b i).set MGH_CMD_STAT_BUSY 1)

/-- MOOR (R279). -/
def execMoor (a : Agent) (bays : Nat) (s : State) : Host.Outcome State Fault Refusal := .next (s.mghCmd a 0 fun s => s.moorCmd bays)

/-- UNMOOR (R281). -/
def execUnmoor (a : Agent) (bays : Nat) (s : State) : Host.Outcome State Fault Refusal :=
  .next (s.mghCmd a 1 fun s => s.unmoorCmd bays)

/-- FORMAT (R307). -/
def execFormat (a : Agent) (bays : Nat) (s : State) : Host.Outcome State Fault Refusal :=
  .next (s.mghCmd a 2 fun s => s.formatCmd bays)

/-- OPEN (R294); during an entry to RETAIN or OFF it is held (R395). -/
def execOpenClip (a : Agent) (s : State) : Host.Outcome State Fault Refusal :=
  .next (if s.get KPR_STATUS_STATE = 2 ∧ a = .mgc then { s with kpr := { s.kpr with heldOpen := true } }
    else s.mghCmd a 3 fun s => s.openCmd)

/-- CLOSE (R297). -/
def execCloseClip (a : Agent) (reason : Nat) (s : State) : Host.Outcome State Fault Refusal :=
  .next (s.mghCmd a 4 fun s => s.closeCmd (reason % 8))

/-- DELETE_LAST (R308). -/
def execDeleteLast (a : Agent) (s : State) : Host.Outcome State Fault Refusal := .next (s.mghCmd a 5 State.deleteCmd)

/-- REBUILD (R306). -/
def execRebuild (a : Agent) (s : State) : Host.Outcome State Fault Refusal := .next (s.mghCmd a 6 State.rebuildCmd)

/-- REBUILD_DONE (R306): the member's chunks have been rebuilt, and every superblock is written with MISSING cleared. -/
def execRebuildDone (s : State) : Host.Outcome State Fault Refusal :=
  .next (match s.mag.set, s.mag.rebuild, s.mag.members.findIdx? (·.isNone) with
  | some b, some i, some m =>
    let rows := (List.range (b.nextRow - s.mag.degradedRow)).map (· + s.mag.degradedRow)
    let t := s.each rows fun t r =>
      match b.chunkOf s.media m r with
      | none => t
      | some c => (t.readRow b 3 r).writeChunk b i 1 r c
    let t := (t.flushBay i).modMag fun g => { g with
      members := g.members.set m (some i)
      missing := 0
      degradedRow := noRow
      rebuild := none }
    (((t.writeSupers false).set MGH_EVENTS_REBUILD_DONE 1).set MGH_CMD_STAT_BUSY 0).settleSet
  | _, _, _ => s)

/-- MGH_CLR_COUNTS (R309). -/
def execMghClrCounts (a : Agent) (s : State) : Host.Outcome State Fault Refusal :=
  .next (s.mgcOnly a MGH_CMD_MOOR.off fun s =>
    (s.clear [MGH_COUNTS_SCRUB_REPAIRED, MGH_COUNTS_PARITY_MISMATCH]).each (List.range 4) fun s b =>
      s.clear [MGH_MAG_ERR_CMD_ERR b, MGH_MAG_ERR_TIMEOUTS b])

/-! ## Mooring -/

/-- Bay `b` has been unmoored by command (R281): the command ends with its last bay. -/
def State.unmoored (s : State) (b : Nat) : State :=
  let s := (s.set MGH_EVENTS_UNMOORED 1).logbook 2 [b, 0]
  s.when (s.mag.bays.all fun x => !x.unmoorDue) (·.set MGH_CMD_STAT_BUSY 0)

/-- MAG_PRESENCE_EDGE (R279, R281, R305): a magazine comes, or goes. -/
def execMagPresenceEdge (bay : Nat) (m : Option Magazine) (s : State) : Host.Outcome State Fault Refusal :=
  let b := bay % 4
  .next (match m, (s.bay b).mag with
  | some g, none =>
    let t := s.modBay b fun _ => { Bay.reset with mag := some g, media := g.media.foldl (fun l e => writeOn l e.1 (toNats e.2)) [] }
    let t := ((t.setBay b 1).set (MGH_MAG_STATE_PRESENT b) 1).clear [MGH_MAG_STATE_FAIL_CODE b, MGH_MAG_STATE_ROLE b, MGH_MAG_STATE_MEMBER b]
    if s.flag MGH_CTRL_EN ∧ s.flag MGH_CTRL_AUTO_MOOR then t.startMoor b else t
  | none, some _ =>
    let wasMoored := s.bayState b == 4
    let cmd := (s.bay b).unmoorDue
    let s := s.rebuildLost b
    let t := ((s.when wasMoored (·.loseMember b)).modBay b fun _ => Bay.reset).when cmd (·.unmoored b)
    let t := ((t.setBay b 0).set (MGH_MAG_STATE_PRESENT b) 0).bayLinkDown b
    let t := (t.clear [MGH_MAG_STATE_FAIL_CODE b, MGH_MAG_STATE_ROLE b, MGH_MAG_STATE_MEMBER b, MGH_MAG_FLUSH_MAX_US b,
      MGH_MAG_BLOCKS_COUNT b])
    ((t.pinsLow b).dropMember b).settleSet.powerFailStep
  | _, _ => s)

/-- The bay waits in a mooring step for which `ms` have passed since the reference. -/
def State.stepDue (s : State) (b step ms : Nat) : Bool :=
  (s.bay b).step == step && decide ((s.bay b).since + 10 ^ 6 * ms ≤ s.now)

/-- The bay goes on to a step. -/
def State.toStep (s : State) (b step : Nat) : State := s.modBay b fun x => { x with step := step }

/-- MOOR_PRESENCE_STABLE (R279 step 2). -/
def execMoorPresenceStable (bay : Nat) (s : State) : Host.Outcome State Fault Refusal :=
  let b := bay % 4
  .next (if s.stepDue b 1 100 then (s.toStep b 2).setPin b 0 true else s)

/-- MOOR_PERST_RELEASE (R279 step 3). -/
def execMoorPerstRelease (bay : Nat) (s : State) : Host.Outcome State Fault Refusal :=
  let b := bay % 4
  .next (if s.stepDue b 2 200 then ((s.toStep b 3).setPin b 1 true).setBay b 2 else s)

/-- MAG_LINK_UP (R274, R279 step 4). -/
def execMagLinkUp (bay : Nat) (link : Option (Nat × Nat)) (s : State) : Host.Outcome State Fault Refusal :=
  let b := bay % 4
  .next (if (s.bay b).step = 3 then
    match link with
    | none => s.bayFail b 1
    | some (sp, w) =>
      let s := ((s.set (MGH_MAG_STATE_SPEED b) sp).set (MGH_MAG_STATE_LINK_WIDTH b) w).toStep b 4
      (s.modBay b fun x => { x with enabled := true }).emit (.nvmeCc b true 0)
  else s)

/-- The FAIL_CODE that step 6 of R279 finds, 0 for none (R276, R280). -/
def identifyCode (g : Magazine) (adminOk queuesOk : Bool) : Nat :=
  if !adminOk then 3
  else if g.namespaces ≠ [1] then 4
  else if g.lbaBytes ≠ 4096 ∨ g.metaBytes ≠ 0 then 5
  else if g.blocks < 262144 then 7
  else if !queuesOk then 6 else 0

/-- Identify (R275): the controller, the active namespace list, namespace 1. -/
def identify : List NvmeCmd := [⟨0, 6, 1, 0⟩, ⟨0, 6, 2, 0⟩, ⟨0, 6, 0, 0⟩]

/-- The commands that follow (R275, R277): the number of queues, four pairs of `depth` entries, the write cache where there is one,
interrupt coalescing off, the two logs. -/
def setUp (depth : Nat) (vwc : Bool) : List NvmeCmd :=
  [⟨0, 9, 7, 0x30003⟩, ⟨0, 10, 7, 0⟩] ++ ([1, 2, 3, 4].map fun q => ⟨0, 5, q, depth⟩) ++ ([1, 2, 3, 4].map fun q => ⟨0, 1, q, depth⟩) ++
    (if vwc then [⟨0, 9, 6, 1⟩, ⟨0, 10, 6, 0⟩] else []) ++ [⟨0, 9, 8, 0⟩, ⟨0, 10, 8, 0⟩, ⟨0, 2, 1, 0⟩, ⟨0, 2, 2, 0⟩]

/-- MAG_CONTROLLER_READY (R275 to R277, R279 steps 5 and 6). -/
def execMagControllerReady (bay : Nat) (ready adminOk queuesOk : Bool) (s : State) : Host.Outcome State Fault Refusal :=
  let b := bay % 4
  .next (match (s.bay b).mag with
  | some g =>
    if (s.bay b).step ≠ 4 then s
    else if !ready then s.bayFail b 2
    else
      let t := ((s.setBay b 3).modBay b fun x => { x with readyAt := s.now }).nvme b identify
      let c := identifyCode g adminOk queuesOk
      if c ≠ 0 then t.bayFail b c
      else
        let t := (t.set (MGH_MAG_BLOCKS_COUNT b) g.blocks).nvme b (setUp (s.queueDepth b) g.hasVwc)
        (t.each (List.range 5) fun t v => t.emit (.nvmeVector b v (384 + 8 * b + v))).toStep b 5
  | none => s)

/-- A bay reaches MOORED (R279 step 7): its set is recovered when it is complete or degraded, and superblocks record the mooring (R289). A
stale or a foreign magazine is not written. -/
def State.moored (s : State) (b : Nat) (x : Option (Superblock × Bool)) : State :=
  let s := s.modBay b fun y => { y with step := 0, sb := x.map (·.1), sbCopyA := (x.map (·.2)).getD false, fresh := true }
  let s := ((s.setBay b 4).set MGH_EVENTS_MOORED 1).clear [MGH_MAG_FLUSH_MAX_US b]
  let s := { s with log := { s.log with cur := { s.log.cur with moorings := modAt s.log.cur.moorings b (· + 1) } } }.logbook 2 [b, 1]
  let joins := s.mag.clip.isNone && (match x with | some p => p.1.setId == s.setId | none => false)
  let s := s.settleSet
  if !joins then s
  else if s.assessed.isSome then s.recoverSet
  else if s.flag MGH_CTRL_READ_ONLY ∨ (s.roleOf b).1 ≠ 1 then s
  else s.writeMount b

/-- MOOR_COMPLETE (R279 step 7, R282). -/
def execMoorComplete (bay : Nat) (s : State) : Host.Outcome State Fault Refusal :=
  let b := bay % 4
  .next (if (s.bay b).step = 5 then
    let s := s.nvme b [⟨3, 2, 1, 2⟩]
    match chosen (s.bay b).view with
    | none => s.moored b none
    | some (v, x, copyA) =>
      if v ≠ 1 then s.bayFail b 9 else if s.duplicate b x then s.bayFail b 8 else s.moored b (some (x, copyA))
  else s)

/-- MOOR_STEP_TIMEOUT (R279): the limits of steps 4 to 7, counted from the reference of the mooring. -/
def execMoorStepTimeout (bay : Nat) (s : State) : Host.Outcome State Fault Refusal :=
  let b := bay % 4
  let cto := ((s.bay b).mag.map (·.timeout500)).getD 0
  .next (if s.stepDue b 3 400 then s.bayFail b 1
    else if s.stepDue b 4 (400 + 500 * cto) then s.bayFail b 2
    else if s.stepDue b 5 (400 + 500 * cto + 60) then s.bayFail b 3 else s)

/-- MAG_SHUTDOWN_COMPLETE (R275, R281): an unmoored bay reads OFF. -/
def execMagShutdownComplete (bay : Nat) (s : State) : Host.Outcome State Fault Refusal :=
  let b := bay % 4
  .next (if (s.bay b).step = 6 then
    let cmd := (s.bay b).unmoorDue
    let t := (s.modBay b fun x => { x with
      step := 0
      unmoorDue := false
      sb := none
      media := x.view
      volatile := []
      enabled := false }).bayLinkDown b
    let t := ((t.pinsLow b).setBay b 7).dropMember b
    (t.when cmd (·.unmoored b)).settleSet.powerFailStep
  else s)

/-- BAY_MOOR_AFRESH (R461): 100 ms after the pins went low every magazine present is moored from step 1. -/
def execBayMoorAfresh (s : State) : Host.Outcome State Fault Refusal :=
  .next (match s.mag.afresh with
  | none => s
  | some t =>
    if t + 10 ^ 8 ≤ s.now then
      (s.modMag fun m => { m with afresh := none }).each (List.range 4) State.startMoor
    else s)

/-- A moored bay, or one being moored, fails with a code while in use (R278, R305). -/
def State.bayLost (s : State) (b code : Nat) : State :=
  if s.bayState b = 4 then
    let s := (((s.rebuildLost b).loseMember b).setBay b 5).set (MGH_MAG_STATE_FAIL_CODE b) code
    ((s.modBay b fun x => { x with enabled := false }).dropMember b).settleSet
  else if decide (2 ≤ s.bayState b ∧ s.bayState b ≤ 3) then s.bayFail b code else s

/-- MAG_LINK_DOWN (R305): FAIL_CODE 1, the link is not up. -/
def execMagLinkDown (bay : Nat) (s : State) : Host.Outcome State Fault Refusal :=
  .next ((s.bayLost (bay % 4) 1).bayLinkDown (bay % 4))

/-- NVME_COMPLETION (R277): the doorbell write of the completion's vector, and a completion in error. A controller that is not enabled
completes nothing. -/
def execNvmeCompletion (bay vec : Nat) (error : Bool) (s : State) : Host.Outcome State Fault Refusal :=
  let b := bay % 4
  .next (if vec ≤ 4 ∧ (s.bay b).enabled then (s.when error (·.inc (MGH_MAG_ERR_CMD_ERR b))).icuEvent (384 + 8 * b + vec) else s)

/-- NVME_COMMAND_TIMEOUT (R278): the controller is disabled. No command can have waited for MGH_TIMEOUT ms sooner than that after the
controller became ready; which command it is, the model does not follow. -/
def execNvmeCommandTimeout (bay : Nat) (s : State) : Host.Outcome State Fault Refusal :=
  let b := bay % 4
  .next (if 3 ≤ s.bayState b ∧ s.bayState b ≤ 4 ∧ (s.bay b).readyAt + 10 ^ 6 * max 1 (s.get MGH_TIMEOUT_MS) ≤ s.now then
    ((s.inc (MGH_MAG_ERR_TIMEOUTS b)).emit (.nvmeCc b false 0)).bayLost b 3
  else s)

/-! ## Rounds -/

/-- A round may start: none runs, and the clip has something for it. -/
def State.roundFree (s : State) : Bool := s.mag.round.isNone && s.mag.powerFail.isNone && s.mag.clip.isSome

/-- COMMIT_ROUND_START (R295). -/
def execCommitRoundStart (s : State) : Host.Outcome State Fault Refusal :=
  .next (match s.mag.set with
  | none => s
  | some b =>
    let due := s.mag.units.any (·.ended) || decide (s.roundRows b ≤ s.stagedRows b) || s.mag.durable != [] || s.mag.lossDue
    if s.roundFree && due then s.startRound false else s)

/-- ROUND_AGE_TIMEOUT (R295): 1 ms since the oldest unwritten row was staged. -/
def execRoundAgeTimeout (s : State) : Host.Outcome State Fault Refusal :=
  .next (match s.mag.set with
  | none => s
  | some b =>
    let old := s.mag.units.any fun u => decide (u.written < u.ready b ∧ u.since + 10 ^ 6 ≤ s.now)
    if s.roundFree && old then s.startRound false else s)

/-- The Flushes of a round have completed (R295): its rows are durable, its journal's units committed. -/
def State.endRound (s : State) (b : Superblock) (r : Round) : State :=
  let s := s.flushAll
  let done := s.mag.units.takeWhile fun u => u.given b
  let s := s.modMag fun m =>
    { m with
      units := (m.units.drop done.length).map fun u => { u with flushed := u.written }
      durable := m.durable ++ done.map (·.entry)
      round := none }
  (s.commitJseq r.last).commit r.journal

/-- COMMIT_ROUND_END (R296, R300, R301). -/
def execCommitRoundEnd (flushUs : List Nat) (s : State) : Host.Outcome State Fault Refusal :=
  .next (match s.mag.set, s.mag.round with
  | some b, some r =>
    let t := s.each s.service fun t p => t.set (MGH_MAG_FLUSH_MAX_US p.2) (max (t.get (MGH_MAG_FLUSH_MAX_US p.2)) (flushUs.getD p.2 0))
    let t := (t.endRound b r).mghStatus
    if t.mag.powerFail.isSome then
      if t.mag.pfFinal then t.powerFailEnd else (t.startRound true).modMag fun m => { m with pfFinal := true }
    else t.tryClose
  | _, _ => s)

/-- SMART_LOG_POLL (R275). -/
def execSmartLogPoll (s : State) : Host.Outcome State Fault Refusal :=
  .next (s.each ((List.range 4).filter fun b => s.bayState b == 4) fun s b => s.nvme b [⟨0, 2, 1, 0⟩, ⟨0, 2, 2, 0⟩])

/-! ## Scrub and read requests -/

/-- Bytes that the scrub has read in this frame. -/
def State.scrubbed (s : State) : Nat := if s.mag.scrubbed.1 = s.epoch then s.mag.scrubbed.2 else 0

/-- The scrub reads now (R309): `n` bytes. During recording they must be within the grant, and the round in progress must leave the data
write queue of each member half free. -/
def State.scrubs (s : State) (n : Nat) : Bool :=
  s.flag MGH_CTRL_EN && s.flag MGH_CTRL_SCRUB_EN && (s.setComplete || s.setDegraded) && s.mag.powerFail.isNone &&
    (s.mag.clip.isNone || (bitAt s.kpr.grant.fund 3 == 1 && decide (s.scrubbed + n ≤ 2 ^ 20 * s.kpr.grant.scrub))) &&
    (match s.mag.round with | some r => s.service.all fun p => decide (2 * r.rows ≤ s.queueDepth p.2) | none => true)

/-- The scrub has read `n` bytes. -/
def State.countScrub (s : State) (n : Nat) : State := s.modMag fun m => { m with scrubbed := (s.epoch, s.scrubbed + n) }

/-- A row found bad (R309). -/
def State.scrubBad (s : State) (row bay : Nat) : State :=
  ((s.set MGH_SCRUB_BAD_ROW row).set MGH_EVENTS_SCRUB_ERR 1).raise 0x39 bay 0

/-- A repair (R309). -/
def State.scrubRepaired (s : State) (bay : Nat) : State :=
  ((s.inc MGH_COUNTS_SCRUB_REPAIRED).set MGH_EVENTS_SCRUB_ERR 1).raise 0x38 bay 0

/-- The bay of a member. -/
def State.bayOf (s : State) (m : Nat) : Nat := (s.mag.members.getD m none).getD 0

/-- What the scrub does with row `r` (R309). The bay of a parity mismatch is a free value (log entry 18). While READ_ONLY is 1 nothing
is repaired. -/
def State.scrubRow (s : State) (b : Superblock) (r : Nat) (f : ScrubFinding) : State :=
  match f with
  | .chunkError [m] =>
    if b.parity ∧ s.setComplete then
      let ms := s.media.filter fun p => p.1 != m
      match b.chunkOf ms m r with
      | none => s.scrubBad r (s.bayOf m)
      | some c =>
        let k := s.bayOf m
        if s.flag MGH_CTRL_READ_ONLY then s
        else
          ((s.modBay k fun x => { x with media := b.writeChunk x.media r c }).nvme k [⟨4, 1, b.dataLba + r * b.chunk, b.chunk⟩]).scrubRepaired k
    else s.scrubBad r (s.bayOf m)
  | .chunkError (m :: _) => s.scrubBad r (s.bayOf m)
  | .parityMismatch => let (v, s) := s.draw; (s.inc MGH_COUNTS_PARITY_MISMATCH).scrubBad r (v % 4)
  | _ => s

/-- Block `lba` holds a valid catalogue, index or journal block (R287, R290, R292, R293). -/
def Superblock.metaOk (b : Superblock) (lba : Nat) (l : List Nat) : Bool :=
  if b.catLba ≤ lba ∧ lba < b.catLba + b.catBlocks then (parseCat b.setId (lba - b.catLba) l).isSome
  else if b.jrnLba ≤ lba ∧ lba < b.jrnLba + b.jrnBlocks then (parseJournal b.setId b.jrnBlocks (lba - b.jrnLba) l).isSome
  else if b.idxLba ≤ lba ∧ lba < b.idxLba + b.idxBlocks then (parseIndex b.setId (lba - b.idxLba) l).isSome
  else false

/-- The metadata blocks that the scrub reads. -/
def State.metaLbas (s : State) (b : Superblock) : List Nat :=
  (List.range s.mag.catalogue.length).map (· + b.catLba) ++ (List.range b.jrnBlocks).map (· + b.jrnLba) ++
    (List.range (ceilDiv s.mag.appendSlot 63)).map (· + b.idxLba)

/-- The metadata block at an LBA of a member, found bad, is rewritten from a valid copy on another (R309). -/
def State.scrubMeta (s : State) (b : Superblock) (m lba : Nat) : State :=
  let k := s.bayOf m
  match (s.media.filter fun p => p.1 != m).findSome? fun p => if b.metaOk lba (blockOn p.2 lba) then some (blockOn p.2 lba) else none with
  | none => s
  | some l =>
    if s.flag MGH_CTRL_READ_ONLY then s
    else ((s.modBay k fun x => { x with media := writeOn x.media lba l }).nvme k [⟨4, 1, lba, 1⟩]).scrubRepaired k

/-- The metadata blocks that do not hold what a valid block holds, by member. -/
def State.badMeta (s : State) (b : Superblock) : List (Nat × Nat) :=
  s.media.flatMap fun p => ((s.metaLbas b).filter fun lba => !b.metaOk lba (blockOn p.2 lba)).map fun lba => (p.1, lba)

/-- MAG_SCRUB_READ (R309): the next row; after the rows the metadata blocks, and a pass ends. -/
def execMagScrubRead (f : ScrubFinding) (s : State) : Host.Outcome State Fault Refusal :=
  .next (match s.mag.set with
  | none => s
  | some b =>
    let r := s.get MGH_SCRUB_ROW_ROW
    let rows := decide (r < s.mag.appendRow)
    let n := s.service.length * 4096 * (if rows then b.chunk else (s.metaLbas b).length)
    if !s.scrubs n then s
    else if rows then (((s.countScrub n).readRow b 4 r).scrubRow b r f).set MGH_SCRUB_ROW_ROW (r + 1)
    else
      let t := (s.countScrub n).each s.service fun t p => t.nvme p.2 ((s.metaLbas b).map fun lba => ⟨4, 2, lba, 1⟩)
      let bad := s.badMeta b ++ (match f with | .badMeta m lba => if (s.metaLbas b).contains lba then [(m, lba)] else [] | _ => [])
      ((t.each bad.eraseDups fun t p => t.scrubMeta b p.1 p.2).set MGH_SCRUB_ROW_ROW 0).incWrap MGH_SCRUB_PASSES_COUNT)

/-- The ring of a bay is read again (R269, R310). -/
def State.rqRing (s : State) (b : Nat) : State := s.modBay b fun x => { x with rqRun := s.flag MGH_CTRL_EN }

/-- RQ_DOORBELL (R310). -/
def execRqDoorbell (_a : Agent) (bay : Nat) (s : State) : Host.Outcome State Fault Refusal := .next (s.rqRing (bay % 4))

/-- The STATUS of a read request, and the bytes it reads (R310). -/
def State.readRequest (s : State) (b : Nat) (l : List Nat) (readOk : Bool) : Nat × List Nat :=
  let lba := rdLe l 0 8
  let n := rdLe l 16 4
  if s.bayState b ≠ 4 then (3, [])
  else if n = 0 ∨ 2048 < n ∨ rdLe l 8 8 % 64 ≠ 0 then (2, [])
  else if !readOk then (1, [])
  else (0, (List.range n).flatMap fun i => blockOn (s.bay b).view (lba + i))

/-- MAG_READ_REQUEST (R310). A destination that cannot be written is reported as a read error. -/
def execMagReadRequest (bay : Nat) (readOk : Bool) (s : State) : Host.Outcome State Fault Refusal :=
  let b := bay % 4
  let i := s.get (MGH_MAG_RQ_HEAD_INDEX b)
  let a := s.getAddr (MGH_MAG_RQ_BASE_ADDR b) + 32 * i
  .next (if !(s.bay b).rqRun then s
  else
    match s.memRead a 24 with
    | (none, t) => t.modBay b fun x => { x with rqRun := false }
    | (some l, t) =>
      if rdLe l 20 4 % 2 = 0 then t.modBay b fun x => { x with rqRun := false }
      else
        let (st, d) := t.readRequest b l readOk
        let t := t.when (st == 0 || st == 1) (·.nvme b [⟨3, 2, rdLe l 0 8, rdLe l 16 4⟩])
        let (ok, t) := if d = [] then (true, t) else t.memWrite (rdLe l 8 8) d
        let t := (t.memWrite (a + 20) (le 4 (insBits (insBits (rdLe l 20 4) 0 1 0) 8 8 (if ok then st else 1)))).2
        t.set (MGH_MAG_RQ_HEAD_INDEX b) ((i + 1) % max 1 (s.get (MGH_MAG_RQ_SIZE_COUNT b))))

end Sys2Proof.Machine
end

