-- ==== Sys2Proof/Machine/Packer.lean ====
section
/-! DEFINITION. The Frame Allocator's decision (R144 to R152, R158) and the Packer (R150 to R155, R163 to R180, R251). -/

namespace Sys2Proof.Machine

/-! ## The metadata segments of a frame (R172, R173, R252) -/

/-- The bodies of frame `e`'s entries in a metadata queue, oldest first. -/
def State.bodies (s : State) (q e : Nat) : List (List Nat) :=
  ((s.lane q 0).entries.filter fun x => x.epoch == e && x.kind != 6).map (·.body)

/-- Frame `e`'s MET segments, in ascending order of KIND. -/
def State.metasOf (s : State) (e : Nat) : List (List Nat) :=
  let m := s.bodies 64 e
  let a := s.bodies 66 e
  let h := s.bodies 65 e
  (if m = [] then [] else [metSegment 1 (sensorPayload m)]) ++ (if a = [] then [] else [metSegment 2 (a.headD [])]) ++
    (if h = [] then [] else [metSegment 3 h.flatten])

/-- The MET segments of frame `e` are written, or pass with it: the entries of it and of earlier frames leave the metadata queues, and a
later one for it is rejected (R252). -/
def State.endMetas (s : State) (e : Nat) : State :=
  let s := s.each [64, 65, 66] fun s q => s.keepEntries q 0 fun x => later x.epoch e
  { s with clip := { s.clip with metaDone := some e } }

/-! ## The frame decision -/

/-- The oldest frame that awaits its decision. -/
def State.deciding (s : State) : Option Frame :=
  s.frames.find? fun f => f.decides && f.decision.isNone && f.drop.isNone

/-- Readout end of a frame: of both packages when ganged, while the Gang Link holds (R146, R157). -/
def State.readoutEnd (s : State) (f : Frame) : Option Nat :=
  if f.info.ganged ∧ s.gang.joined then
    match f.readoutEnd, f.followerEnd with
    | some a, some b => some (max a b)
    | _, _ => none
  else f.readoutEnd

/-- Insert an escape record in descending emission order. -/
def insertEscape (x : Nat × Nat × Nat) : List (Nat × Nat × Nat) → List (Nat × Nat × Nat)
  | [] => [x]
  | y :: t => if y.1 < x.1 ∨ (y.1 = x.1 ∧ y.2.1 < x.2.1) then x :: y :: t else y :: insertEscape x t

/-- LOSE (R152): escape stripes are declared lost from the last in emission order until a ≥ 0: F and those declared. -/
def declareLost (mode t : Nat) : List (Nat × Nat × Nat) → Nat → Nat × List (Nat × Nat)
  | [], f => (f, [])
  | (r, c, b) :: l, f =>
    if room mode t f < 0 then
      let (f', d) := declareLost mode t l (f - (b - 2))
      (f', (r, c) :: d)
    else (f, [])

/-- The merged histogram of a frame (R147): region banks and, on a lead, the gang bank. -/
def State.merged (s : State) (f : Frame) : List (Nat × Nat) :=
  let banks := s.regions.flatMap fun g => g.banks.filterMap fun b =>
    match b with
    | some k => if k.epoch = f.info.epoch then some k.bins else none
    | none => none
  banks.foldl (fun a b => addBins a b) f.gangBins

/-- The decision of a frame with fixed part `f0`: F, the escapes declared lost, and the result (R147, R152, R426). -/
def Frame.choose (f : Frame) (h : List (Nat × Nat)) (f0 : Nat) : Nat × List (Nat × Nat) × Decision :=
  let t := f.info.target
  let big := decide (room f.info.mode t f0 < 0)
  if f.escapeOnly then (f0, [], ⟨4096, 0, 0, true, false, false⟩)
  else
    let (f1, d) := if big && f.lose then declareLost f.info.mode t (f.escapes.foldl (fun a x => insertEscape x a) []) f0
      else (f0, [])
    let r := decideFrame f.info.mode t f.qfloor f1 (sget (fun _ => 0) h)
    (f1, d, { r with oversize := big })

/-- Descriptors that wait (R155). -/
def State.waiting (s : State) : Nat := (s.frames.filter fun f => f.decision.isSome && !f.started && f.drop.isNone).length

/-- The region banks of a frame close (R146, R148). -/
def State.closeBanks (s : State) (e : Nat) : State :=
  { s with regions := s.regions.map fun g => { g with banks := g.banks.map fun b =>
      match b with
      | some k => if k.epoch = e then none else some k
      | none => none } }

/-- The decision registers (R147, R148). -/
def State.noteDecision (s : State) (f : Frame) (fixed : Nat) (d : Decision) (time : Nat) : State :=
  let s := ((s.set FAL_STATUS_ALL_FIT (b2n d.allFit)).set FAL_STATUS_OVERSIZE (b2n d.oversize)).set FAL_STATUS_QCAPPED (b2n d.qcapped)
  let s := (s.set FAL_DEC_EPOCH_EPOCH f.info.epoch).set FAL_DEC_TSTAR_LIM d.lim
  let s := ((s.set FAL_DEC_FIXED_BYTES fixed).set FAL_DEC_ABOVE_BYTES d.above).set FAL_DEC_QUOTA_BYTES d.quota
  let s := (s.set FAL_DEC_TIME_NS time).set FAL_EVENTS_DECIDED 1
  s.when d.oversize fun s => (s.inc FAL_COUNTS_OVERSIZE).set FAL_EVENTS_OVERSIZE 1

/-- A record of frame `f` that is queued and predicted from a frame dropped since is declared lost: it leaves the fixed part and the
histogram (R124, R145). -/
def State.declare (s : State) (f : Frame) (x : QEntry) : State :=
  let r := x.record
  let s := (s.dropRef x.epoch x.row x.column).modFrame x.epoch fun g =>
    { g with
      declared := g.declared ++ [(x.row, x.column)]
      recBytes := g.recBytes + 2 - r.fixedSize f.info.mono f.info.temporal
      predCoded := false }
  s.modBank f x.column fun b => subBins b r.bins

/-- The frame after a dropped one is a key frame (R125): it holds no predicted tile-stripe, and those already queued with PRED are
declared lost. DESIGN CHOICE, log entry 89. -/
def State.unpredict (s : State) (f : Frame) : State :=
  let s := s.modFrame f.info.epoch fun g => { g with predict := false }
  s.each (List.range f.info.cols.length) fun s c =>
    let (q, l) := f.queueOf c
    s.each ((s.lane q l).entries.filter fun x => x.epoch == f.info.epoch && x.isTile && x.column == c && x.record.pred) fun s x => s.declare f x

/-- A fifth descriptor drops the newest frame (R155): nothing is predicted from it (R124, R125). -/
def State.dropFifth (s : State) (e : Nat) : State :=
  let s := s.modFrame e fun f => { f with drop := some 2 }
  let s := { s with refs := s.refs.filter (·.1 != e) }
  let s := match s.frameOf ((e + 1) % 2 ^ 32) with
    | some f => s.unpredict f
    | none => { s with clip := { s.clip with dropped := true } }
  (((s.inc PKR_COUNTS_DROPPED).set PKR_EVENTS_DROPPED 1)).raise 0x1A 0xFF 0

/-- This package's Frame Allocator decides (R157): a follower's stays halted. -/
def State.allocates (s : State) : Bool := s.flag FAL_CTRL_EN && s.role != 2

/-- FAL_DECISION (R146, R147, R148, R152, R155). -/
def execFalDecision (s : State) : Host.Outcome State Fault Refusal :=
  .next (match s.deciding with
  | none => s
  | some f =>
    match s.readoutEnd f with
    | none => s
    | some t =>
      if !(s.allocates && f.complete) then s
      else
        let h := s.merged f
        let (fixed, lost, d) := f.choose h (f.recBytes + fixedFrame f.info (s.metasOf f.info.epoch))
        let full := decide (4 ≤ s.waiting)
        let s := { s with hist := h }.closeBanks f.info.epoch
        let s := s.modFrame f.info.epoch fun f =>
          { f with
            declared := f.declared ++ lost
            closed := true
            decision := some d
            fixed := fixed
            quota := d.quota }
        let s := (s.when (!s.flag FAL_STATUS_BUSY) (·.set FAL_STATUS_TIMEOUT 0)).noteDecision f fixed d (s.now - t)
        let s := s.set FAL_STATUS_BUSY 0
        s.when full (·.dropFifth f.info.epoch))

/-- FAL_WAIT_TIMEOUT (R146): 230 µs after readout end, every tile-stripe still outstanding is lost. -/
def execFalWaitTimeout (s : State) : Host.Outcome State Fault Refusal :=
  .next (match s.deciding with
  | none => s
  | some f =>
    match s.readoutEnd f with
    | none => s
    | some t =>
      if !s.allocates || f.complete || decide (s.now < t + 230000) then s
      else
        let s := (((s.set FAL_STATUS_BUSY 1).set FAL_STATUS_TIMEOUT 1).inc FAL_COUNTS_TIMEOUT).set FAL_EVENTS_TIMEOUT 1
        let s := s.raise 0x18 0 0
        s.each (List.range f.info.cols.length) fun s c =>
          s.each ((List.range f.info.rows).filter fun r => decide (f.queued.getD c 0 ≤ r)) fun s r => s.loseTile f.info.epoch r c)

/-- FAL_CLR_COUNTS (R147). -/
def execFalClrCounts (_a : Agent) (s : State) : Host.Outcome State Fault Refusal :=
  .next (s.clear [FAL_COUNTS_OVERSIZE, FAL_COUNTS_TIMEOUT, FAL_ESC_BUDGET, FAL_ESC_SIZE, FAL_ESC2_FORCED, FAL_ESC2_VREPL])

/-! ## Taking records from the column queues (R251) -/

/-- (epoch, row) `a` comes before `b` (R52, R251). -/
def earlier (a b : Nat × Nat) : Bool := later b.1 a.1 || (a.1 == b.1 && decide (a.2 < b.2))

/-- The first and the last (EPOCH, ROW) that a gap entry stands for (R246). -/
def QEntry.gapFirst (x : QEntry) : Nat × Nat := (rdLe x.body 0 4, rdLe x.body 4 4)
def QEntry.gapLast (x : QEntry) : Nat × Nat := (rdLe x.body 8 4, rdLe x.body 12 4)

/-- The record (e, j) from the head of a queue or lane (R251); none when the Packer must wait. -/
def State.takeRecord (q l e j : Nat) : Nat → State → Option TsRec × State
  | 0, s => (none, s)
  | fuel + 1, s =>
    let s := s.checkLane q l
    match (s.lane q l).entries with
    | [] => (none, s)
    | x :: _ =>
      if x.kind = 6 then
        if earlier x.gapLast (e, j) then State.takeRecord q l e j fuel (s.dequeue q l)
        else if earlier (e, j) x.gapFirst then (some TsRec.lost, s)
        else (some TsRec.lost, if x.gapLast = (e, j) then s.dequeue q l else s)
      else if x.epoch = e ∧ x.row = j then (some (x.ts.getD TsRec.lost), s.dequeue q l)
      else if earlier (x.epoch, x.row) (e, j) then State.takeRecord q l e j fuel ((s.inc (OQ_Q_STATS_STALE q)).dequeue q l)
      else (some TsRec.lost, s)

/-- The records of row `j` of frame `f` from column `c` on; none while one must be waited for. -/
def State.takeRow (f : Frame) (j : Nat) : List Nat → State → Option (List TsRec) × State
  | [], s => (some [], s)
  | c :: cs, s =>
    let (q, l) := f.queueOf c
    match State.takeRecord q l f.info.epoch j ((s.lane q l).entries.length + 1) s with
    | (none, s) => (none, s)
    | (some r, s) =>
      match State.takeRow f j cs s with
      | (none, s) => (none, s)
      | (some rs, s) => (some (r :: rs), s)

/-! ## Emission -/

/-- One record as the Packer emits it (R150, R163, R185): its bytes, the quota left, and the code-blocks that failed the
length check. -/
def Frame.emitRec (f : Frame) (r : TsRec) (first : Bool) (quota : Nat) : List Nat × Nat × Nat :=
  match f.decision with
  | some d =>
    if r.form = 0 then
      let (es, q, bad) := admitBlocks d.lim quota r.blocks
      (codedRecord first r.pred es, q, bad)
    else (r.bytes first, quota, 0)
  | none => (r.bytes first, quota, 0)

/-- A record of row `j`, column `c` is emitted (R150, R152, R176, R185). -/
def State.emitRec (s : State) (e j c : Nat) (r : TsRec) : State :=
  match s.frameOf e with
  | none => s
  | some f =>
    let r := if f.declared.contains (j, c) then r.gone else r
    let (b, q, bad) := f.emitRec r (c == 0) f.quota
    let s := s.modFrame e fun f =>
      { f with
        out := f.out ++ b
        quota := q
        tie := f.tie + (f.quota - q)
        status := f.status ++ [r.status]
        predSeen := f.predSeen || (r.pred && (r.form == 0 || r.form == 3)) }
    (s.when (r.form == 2) (·.dropRef e j c)).each (List.range bad) fun s _ => s.raise 0x1A c 0

/-- CFLAGS of a frame (R175). -/
def Frame.flags (f : Frame) : Nat :=
  let d := f.decision.getD ⟨0, 0, 0, false, false, false⟩
  b2n (!f.predSeen) + 2 * b2n d.oversize + 4 * b2n d.qcapped + 8 * b2n d.allFit + 16 * b2n (f.status.contains 2) +
    32 * b2n f.patched + 64 * b2n (f.vfail != [] || f.status.contains 3) + 128 * b2n f.gangLoss

/-- The bytes a CFS frame is to have (R151, R152). -/
def Frame.goal (f : Frame) : Nat :=
  match f.decision with
  | some d => if d.lim = 4096 then f.fixed + 8 else f.info.target
  | none => 0

/-- The frame's metadata are all there: Beacon E + 1, before which an entry is always included (R252), has come, or the Beacon has
stopped. -/
def State.tailReady (s : State) (e : Nat) : Bool := later s.epoch e || !s.beaconRuns

/-- The metadata, index, closing header and filler end the frame (R151, R163, R180). Metadata that came after the decision lessen the
filler (log entry 89). -/
def State.emitTail (s : State) (e : Nat) : State :=
  match s.frameOf e with
  | none => s
  | some f =>
    let ms := s.metasOf e
    let body := f.out ++ ms.flatten ++ (if f.info.index then indexPart f.offsets else [])
    let n := body.length + closingLen f.info.rows f.info.cols.length
    let filler := if f.info.mode = 1 then max 8 (f.goal - n) else 0
    let raw := closingRaw body.length e f.flags ((f.decision.map (·.lim)).getD 0) filler f.info.rows f.status
    (s.endMetas e).modFrame e fun f =>
      { f with
        metas := some ms
        out := body ++ closingPart body raw filler
        filler := filler
        ended := true
        cflags := f.flags
        crc := frameCrc body raw }

/-- The next stripe row is emitted, when its records are there and the Magazine Host accepts (R136, R251, R299). -/
def State.emitRow (s : State) (e : Nat) : Option State :=
  match s.frameOf e with
  | none => none
  | some f =>
    if f.ended || !s.accepts then none
    else if f.info.rows ≤ f.row then (if s.tailReady e then some ((s.emitTail e).stage e) else none)
    else
      let cs := List.range f.info.cols.length
      match State.takeRow f f.row cs s with
      | (none, _) => none
      | (some rs, s) =>
        let s := s.modFrame e fun f => { f with offsets := f.offsets ++ [f.out.length], row := f.row + 1 }
        let s := s.each (rs.zip cs) fun s p => s.emitRec e f.row p.2 p.1
        some ((s.when (decide (f.info.rows ≤ f.row + 1) && s.tailReady e) (·.emitTail e)).stage e)

/-- Rows are emitted while they can be. -/
def State.emitRows (e : Nat) : Nat → State → State
  | 0, s => s
  | fuel + 1, s => match s.emitRow e with | none => s | some t => State.emitRows e fuel t

/-- The Packer runs (R30, R157, R427). -/
def State.packs (s : State) : Bool := s.flag PKR_CTRL_EN && s.role != 2 && s.get FC_LEVEL_LEVEL != 3

/-- A dropped frame's entries leave the column queues as the Packer passes them (R155). -/
def State.discardFrame (s : State) (f : Frame) : State :=
  s.each (List.range f.info.cols.length) fun s c =>
    let (q, l) := f.queueOf c
    s.keepEntries q l fun x => !(x.epoch == f.info.epoch && x.isTile)

/-- PACKER_FRAME_START (R136, R150, R153, R155, R179, R180). -/
def execPackerFrameStart (s : State) : Host.Outcome State Fault Refusal :=
  .next (match s.frames with
  | [] => s
  | f :: _ =>
    let e := f.info.epoch
    if f.started || !s.packs || !s.accepts then s
    else
      match f.drop with
      | some reason =>
        let s := (s.discardFrame f).newUnit f 1
        let s := (s.endMetas e).modFrame e fun f =>
          { f with
            started := true
            startAt := s.now
            ended := true
            metas := some []
            out := droppedRecord e f.info.clipFrame f.info.beaconTime reason }
        (s.stage e).set PKR_STATUS_EMITTING 1
      | none =>
        let ready := if f.decides then f.decision.isSome
          else (State.takeRow f 0 (List.range f.info.cols.length) s).1.isSome
        if !ready then s
        else
          let s := (s.newUnit f 0).modFrame e fun f => { f with started := true, startAt := s.now, out := f.info.opening }
          State.emitRows e (f.info.rows + 1) (s.set PKR_STATUS_EMITTING 1))

/-- PACKER_ROW_EMIT (R136): the next row, or what ends the frame. -/
def execPackerRowEmit (s : State) : Host.Outcome State Fault Refusal :=
  .next (match s.frames with
  | [] => s
  | f :: _ => if f.started && s.packs then (s.emitRow f.info.epoch).getD s else s)

/-- The margin of a unit that ends now (R155): the predicted instant of the Beacon N + 2 edge less the DTC. -/
def State.margin (s : State) (n : Nat) : Int :=
  let (p, q) := s.period
  let k := signed 32 (n + 2 + 2 ^ 32 - s.epoch)
  (s.get BU_BEACON_TIME_TIME : Int) + k * (p : Nat) / (q : Nat) - (s.dtcNs : Nat)

/-- PACKER_FRAME_DONE (R155): the frame registers, and the end of the unit for the Magazine Host (R295). The MGC closes the
clip after the last frame of a STOP (R379). -/
def execPackerFrameDone (s : State) : Host.Outcome State Fault Refusal :=
  .next (match s.frames with
  | [] => s
  | f :: _ =>
    if !(f.started && f.ended && s.packs) then s
    else
      let m := s.margin f.info.epoch
      let s := ((s.set PKR_EMIT_EPOCH_EPOCH f.info.epoch).set PKR_LAST_SIZE_BYTES f.out.length).set PKR_LAST_TIE_BYTES f.tie
      let s := (s.set PKR_LAST_FILLER_BYTES f.filler).set PKR_LAST_MARGIN_NS (unsigned 32 m)
      let s := (s.set PKR_EVENTS_FRAME_DONE 1).set PKR_STATUS_EMITTING 0
      let s := s.when (decide (m < 0)) fun s => (s.inc PKR_COUNTS_LATE).set PKR_EVENTS_LATE 1
      let s := (s.endUnit f).tryClose
      let key := f.drop.isNone && !f.predSeen
      let s := { s with
        frames := s.frames.drop 1
        clip := if key then { s.clip with lastKey := f.info.clipFrame } else s.clip }
      s.when (s.clip.stopReq && s.frames.isEmpty) (·.mghCmd .mgc 4 fun s => s.closeCmd 1))

/-- PKR_CLR_COUNTS (R155). -/
def execPkrClrCounts (_a : Agent) (s : State) : Host.Outcome State Fault Refusal :=
  .next (s.clear [PKR_COUNTS_LATE, PKR_COUNTS_DROPPED])

end Sys2Proof.Machine
end

