-- ==== Sys2Proof/Machine/Time.lean ====
section
/-! DEFINITION. The Beacon's sources and commands (R44 to R49, R57, R58, R68, R69, R485) and the Time Base (R60 to R67,
R486). The Beacon edge itself is in `Snapshot.lean`. -/

namespace Sys2Proof.Machine

/-! ## Schedules -/

/-- floor(k × P) ns (R44). -/
def State.sched (s : State) (k : Nat) : Nat := k * s.period.1 / s.period.2

/-- The first k with t_k at or after `x` on a schedule of phase `phase` (R44, R48). -/
def State.firstK (s : State) (phase x : Nat) : Nat := ceilDiv ((x - phase) * s.period.2) s.period.1

/-- The Beacon source in force: 3 is the Gang Link (R44). -/
def State.source_ (s : State) : Nat := if s.role = 2 then 3 else s.getF BU_CTRL_SRC

/-- t_k of the timer source in force is reached on the clock it is counted on: the disciplined clock, which SET and STEP leave
alone, or the DTC (R44, R45). -/
def State.timerDue (s : State) : Bool :=
  if s.source_ = 0 then decide (s.bu.tStart + s.sched s.bu.k * 2 ^ 32 ≤ s.tb.disc)
  else decide (s.source_ = 1 ∧ s.getF BU_PHASE_PHASE + s.sched s.bu.ptpK ≤ s.dtcNs)

/-- The timer passes on to its next instant. -/
def State.nextInstant (s : State) : State :=
  if s.source_ = 0 then { s with bu := { s.bu with k := s.bu.k + 1 } }
  else { s with bu := { s.bu with ptpK := s.bu.ptpK + 1 } }

/-- D, by which the internal edge of a lead lags the source event, in ns (R68). -/
def State.lag (s : State) : Nat := if s.role = 1 then 256 else 0

/-- The instant of the internal edge of a source event that comes in `w` ns, in units of 0.125 ns (R46, R68). -/
def State.edgeAt (s : State) (w : Nat) : Nat := 8 * (s.now + w + s.lag)

/-- An edge at `t` would lie at least P − W after the last edge, or there is none (R47). Edges are compared with edges: what a source
event is judged by is the internal edge it would make (log entry 78). -/
def State.clearOfLast (s : State) (t : Nat) : Bool :=
  match s.bu.lastEdge with | none => true | some e => s.atLeastPmW (t - e)

/-- What the DTC gains in a clock of 1 ns, in units of 2⁻³² ns (R60). -/
def State.rate (s : State) : Nat := (2 ^ 32 + signed 32 (s.get TB_ADJ_ADJ)).toNat

/-- At the source event a lead sends the Gang Link symbol, with the new epoch and the DTC of its edge 256 ns later (R68). -/
def State.sendSymbol (s : State) : State :=
  match s.bu.symbolAt with
  | none => s
  | some t =>
    if s.now < t then s
    else
      let e := BitVec.ofNat 32 ((if s.flag BU_STATUS_PRESET_ARMED then s.get BU_EPOCH_PRESET_EPOCH else s.epoch) + 1)
      let d := (s.tb.dtc + 256 * s.rate) / 2 ^ 32 % 2 ^ 64
      let s := { s with bu := { s.bu with symbolAt := none } }
      s.when s.gang.up (·.emit (.gangSymbol e d))

/-- A source event that comes in `w` ns makes an edge due (R44, R46, R68). -/
def State.edge (s : State) (k : EdgeKind) (w : Nat) : State :=
  { s with bu := { s.bu with
    edgeDue := some (k, s.edgeAt w)
    symbolAt := if s.role = 1 then some (s.now + w) else none } }.sendSymbol

/-- The PTP schedule begins afresh: its first instant at least `d` ns ahead (R47, R48, R49). -/
def State.ptpRestart (s : State) (d : Nat) : State :=
  { s with bu := { s.bu with ptpK := s.firstK (s.getF BU_PHASE_PHASE) (s.dtcNs + d) } }

/-! ## Quality -/

/-- The time reference: Gang on a follower (R62). -/
def State.ref (s : State) : Nat := if s.role = 2 then 3 else s.get TB_CTRL_REF

/-- Lock is gained (R62). -/
def State.lockGained (s : State) : State := s.set TB_QUALITY_STATE 2

/-- Lock is lost: LOCKED becomes HOLDOVER (R62). -/
def State.lockLost (s : State) : State := s.when (s.get TB_QUALITY_STATE == 2) (·.set TB_QUALITY_STATE 3)

/-- The Beacon reference's lock must be earned afresh (R61, R62). -/
def State.relock (s : State) : State := { s with tb := { s.tb with lockRun := 0, lockLast := none } }

/-- The Beacon reference after an accepted BEACON_IN edge (R62): the spacing in DTC time, and TB_ADJ, whose steering law
is a free value within its range (log entry 10). -/
def State.lockEdge (s : State) : State :=
  let d := s.dtcNs
  let (n, q) := s.period
  let good := match s.tb.lockLast with
    | none => false
    | some l => decide (q * (d - l) ≤ n + 100 * q ∧ n ≤ q * (d - l) + 100 * q)
  let run := if good then s.tb.lockRun + 1 else 0
  let s := { s with tb := { s.tb with lockRun := run, lockLast := some d } }
  if s.ref = 2 then
    let (v, s) := s.draw
    let s := s.set TB_ADJ_ADJ (unsigned 32 ((v % 8589935 : Nat) - 4294967))
    s.when (decide (8 ≤ run)) State.lockGained
  else s

/-! ## The Gang Link fails (R33) -/

/-- The Gang Link fails: source 0x48, the other package takes no part until it rejoins (R33). -/
def State.gangFail (s : State) : State :=
  let s := { s with gang := ⟨false, false, false⟩ }
  let s := s.when (s.role == 2) fun s => (s.set BU_STATUS_GANG_LOCK 0).lockLost
  (s.light 6 0 2 none).raise 0x48 0 0

/-! ## Commands of the Beacon Unit -/

/-- TIMER_BEACON_INSTANT (R45, R47). -/
def execTimerBeaconInstant (s : State) : Host.Outcome State Fault Refusal :=
  .next (if s.beaconRuns && s.bu.edgeDue.isNone && s.timerDue then
    let t := s.nextInstant
    if s.source_ = 1 ∧ s.now < s.bu.ptpFrom then t
    else if s.clearOfLast (s.edgeAt 0) then t.edge .timer 0 else t.inc BU_COUNTS2_SKIPPED
  else s)

/-- A BEACON_IN edge is accepted, with the synchroniser's latency `w` ns (R46). -/
def State.acceptEdge (s : State) (w : Nat) : State :=
  let s := s.set BU_STATUS_FLYWHEEL 0
  let s := { s with bu := { s.bu with seen := some s.now, fresh := false } }
  s.lockEdge.edge .beaconIn w

/-- A BEACON_IN edge while BEACON_IN is the source (R46, R49). The synchroniser takes 24 ns ± 1 ns: a free value of the three. -/
def State.sourceEdge (s : State) : State :=
  let (v, s) := s.draw
  let w := 23 + v % 3
  if s.bu.edgeDue.isNone && s.clearOfLast (s.edgeAt w) then s.acceptEdge w
  else if s.bu.fresh then s else s.inc BU_COUNTS_RUNT

/-- BEACON_IN_EDGE (R46, R49, R485). -/
def execBeaconInEdge (s : State) : Host.Outcome State Fault Refusal :=
  let seen := match s.bu.seen with | none => true | some e => s.atLeastPmW (8 * (s.now - e))
  let t := if seen then { s with bu := { s.bu with seen := some s.now } } else s
  .next (if s.beaconRuns && s.source_ == 2 then t.sourceEdge else t)

/-- FLYWHEEL_EDGE (R46, R49): the internal edge comes P + W after the last edge, 2P + W when BEACON_IN has just taken effect; on a lead
its source event is 256 ns earlier (R68). -/
def execFlywheelEdge (s : State) : Host.Outcome State Fault Refusal :=
  .next (match s.bu.lastEdge with
    | none => s
    | some e =>
      if s.beaconRuns && s.source_ == 2 && s.bu.edgeDue.isNone && s.reachedPpW (if s.bu.fresh then 2 else 1) (s.edgeAt 0 - e) then
        let t := (s.inc BU_COUNTS_FLYWHEEL).set BU_STATUS_FLYWHEEL 1
        let t := t.when (t.ref == 2) State.lockLost
        { t.relock with bu := { t.bu with fresh := false } }.edge .flywheel 0
      else s)

/-- BEACON_MISS (R46): BU_MISS_LIMIT consecutive edges have been flywheel edges; the fault is raised once in such a run. -/
def execBeaconMiss (s : State) : Host.Outcome State Fault Refusal :=
  .next (if max 1 (s.get BU_MISS_LIMIT_LIMIT) ≤ s.bu.missRun ∧ !s.bu.missTold then
    { s with bu := { s.bu with missTold := true } }.raise 0x08 0 0 else s)

/-- BEACON_OUT_END (R50). -/
def execBeaconOutEnd (s : State) : Host.Outcome State Fault Refusal :=
  .next (match s.bu.outSince with
    | none => s
    | some t =>
      if t + 1000 * max 1 (s.get BU_OUT_WIDTH_WIDTH) ≤ s.now then
        { s.emit (.beaconOut false) with bu := { s.bu with outSince := none } }
      else s)

/-- The Beacon starts (R48): also after a wake from RETAIN (R64). The first edge comes as R48 says even where the last edge before the
stop lies less than P − W back: DESIGN CHOICE, log entry 79. -/
def State.startBeacon (s : State) : State :=
  let s := (s.set BU_CTRL_RUN 1).set BU_STATUS_RUNNING 1
  let s := { s with bu := { s.bu with
    lastEdge := none
    edgeDue := none
    symbolAt := none
    tStart := s.tb.disc + 10000 * 2 ^ 32
    k := 0
    ptpFrom := s.now + 10000
    fresh := false
    missRun := 0
    missTold := false
    gangBad := 0 } }
  s.ptpRestart 10000

/-- BEACON_RUN (R48): a write of `BU_CTRL`, which holds a Beacon-class field (R55). -/
def execBeaconRun (a : Agent) (s : State) : Host.Outcome State Fault Refusal :=
  .next (if s.flag BU_CTRL_RUN then s.tagWrite a else (s.tagWrite a).startBeacon)

/-- The Beacon makes no further edge (R48). What waited for a Beacon is settled by `beaconOff`. -/
def State.stopBeacon (s : State) : State :=
  let s := (s.set BU_CTRL_RUN 0).set BU_STATUS_RUNNING 0
  { s with bu := { s.bu with edgeDue := none, symbolAt := none } }

/-- BU_CLR_COUNTS (R50). -/
def execBuClrCounts (_a : Agent) (s : State) : Host.Outcome State Fault Refusal :=
  .next (s.clear [BU_COUNTS_RUNT, BU_COUNTS_FLYWHEEL, BU_COUNTS2_HELD, BU_COUNTS2_SKIPPED])

/-- EPOCH_PRESET (R52, R58): Halt class, halted while the Beacon is stopped. -/
def execEpochPreset (_a : Agent) (v : Word) (s : State) : Host.Outcome State Fault Refusal :=
  .next (if s.beaconRuns then s.when (s.word BU_EPOCH_PRESET_EPOCH.off != v) (·.cfg BU_EPOCH_PRESET_EPOCH.off)
  else
    let t := ((s.putWord BU_EPOCH_PRESET_EPOCH.off v).set BU_STATUS_PRESET_ARMED 1).set BU_SHADOW_EPOCH_EPOCH (v.toNat + 1)
    let t := t.when s.bu.waitHost (·.set BU_LAST_WR_EPOCH_HOST_EPOCH (v.toNat + 1))
    t.when s.bu.waitMgc (·.set BU_LAST_WR_EPOCH_MGC_EPOCH (v.toNat + 1)))

/-- The instant of a follower's edge for a symbol that arrives `frac` eighths of a ns after this clock: D − L later, with D = 256 ns and
L in units of 0.5 ns; in units of 0.125 ns (R69). -/
def State.gangEdgeAt (s : State) (frac : Nat) : Nat := s.now8 + frac % 8 + 2048 - 4 * s.get BU_GANG_LATENCY

/-- The error of a follower's edge at `at8` against the instant predicted from the last edge and P (R69): in units of 0.125 ns over the
second number. -/
def State.gangError (s : State) (last at8 : Nat) : Int × Nat :=
  let (n, d) := s.period
  ((d * at8 : Nat) - (d * last : Nat) - (8 * n : Nat), d)

/-- What BU_GANG.SKEW reads for an error of `e` / `d` units. How a fraction is rounded, and what it reads for an error that its 16 signed
bits do not hold, the manual does not say: free values (log entry 80). -/
def State.skewCode (s : State) (e : Int) (d : Nat) : Nat × State :=
  let q := e / d
  let (v, s) := s.draw
  let q := if e % d = 0 then q else q + (v % 2 : Nat)
  if -32768 ≤ q ∧ q ≤ 32767 then (unsigned 16 q, s) else s.draw

/-- The skew is judged (R69): lock, a first edge out of bound, or Beacon loss at the second. -/
def State.judgeSkew (s : State) (last at8 : Nat) : State :=
  let (e, d) := s.gangError last at8
  let (v, s) := s.skewCode e d
  let s := s.set BU_GANG_SKEW v
  if e.natAbs ≤ 32 * d then
    { (s.set BU_STATUS_GANG_LOCK 1).lockGained with bu := { s.bu with gangBad := 0 } }
  else
    let s := { (s.set BU_STATUS_GANG_LOCK 0).lockLost with bu := { s.bu with gangBad := s.bu.gangBad + 1 } }
    s.when (decide (2 ≤ s.bu.gangBad)) State.gangFail

/-- GANG_BEACON_SYMBOL (R31, R69). -/
def execGangBeaconSymbol (epoch : Word) (b : GangSymbol) (s : State) : Host.Outcome State Fault Refusal :=
  let at8 := s.gangEdgeAt b.frac
  .next (if s.role = 2 ∧ s.gang.up ∧ s.beaconRuns then
    let t := match s.bu.lastEdge with | none => s | some l => s.judgeSkew l at8
    { t with bu := { t.bu with edgeDue := some (.gang epoch b.dtc b.columns, at8) } }
  else s)

/-- GANG_SYMBOL_TIMEOUT (R69). -/
def execGangSymbolTimeout (s : State) : Host.Outcome State Fault Refusal :=
  .next (match s.bu.lastEdge with
    | none => s
    | some e =>
      if s.role = 2 ∧ s.gang.up ∧ s.beaconRuns ∧ s.bu.edgeDue = none ∧ s.reachedPpW 1 (s.now8 - e) then s.gangFail else s)

/-! ## Commands of the Time Base -/

/-- TB_QUALITY after SET or STEP (R61). -/
def State.timeChanged (s : State) : State :=
  if s.ref = 1 then s else s.relock.set TB_QUALITY_STATE 1

/-- The PTP schedule follows a changed DTC (R47): the instants that a forward step jumped over are counted as skipped
(log entry 11). -/
def State.ptpFollow (s : State) : State :=
  let old := s.bu.ptpK
  let t := s.ptpRestart (s.bu.ptpFrom - s.now)
  if s.beaconRuns ∧ s.source_ = 1 ∧ s.bu.ptpFrom ≤ s.now then t.incBy BU_COUNTS2_SKIPPED (t.bu.ptpK - old) else t

/-- The frame rate of an LTC RATE code as a fraction (R65). -/
def ltcRate (r : Nat) : Nat × Nat :=
  match r with
  | 0 => (24, 1)
  | 1 => (25, 1)
  | 2 => (30, 1)
  | 3 => (30000, 1001)
  | 4 => (30000, 1001)
  | _ => (24000, 1001)

/-- Instant `k` of the LTC schedule on the DTC scale: the R44 schedule of the LTC rate with phase 0 (R67). -/
def State.ltcInstant (s : State) (k : Nat) : Nat :=
  let (n, d) := ltcRate (s.get TB_LTC_CTRL_RATE)
  k * 10 ^ 9 * d / n

/-- The generator's next frame start is the first instant of its schedule after this DTC. -/
def State.genNext (s : State) : State :=
  let (n, d) := ltcRate (s.get TB_LTC_CTRL_RATE)
  { s with tb := { s.tb with genK := ceilDiv ((s.dtcNs + 1) * n) (10 ^ 9 * d) } }

/-- TB_SET (R61): the fraction is cleared. -/
def execTbSet (_a : Agent) (s : State) : Host.Outcome State Fault Refusal :=
  .next { s with tb := { s.tb with dtc := s.get TB_SET_VALUE * 2 ^ 32 } }.ptpFollow.genNext.timeChanged

/-- The DTC is stepped by a signed number of ns (R61): the sum wraps at the 64 bits of the DTC. -/
def State.stepTime (s : State) (v : Nat) : State :=
  { s with tb := { s.tb with dtc := (s.tb.dtc + v * 2 ^ 32) % 2 ^ 96 } }.ptpFollow.genNext.timeChanged

/-- TB_STEP (R61). -/
def execTbStep (_a : Agent) (s : State) : Host.Outcome State Fault Refusal := .next (s.stepTime (s.get TB_SET_VALUE))

/-- TB_LOCK (R486). -/
def execTbLock (_a : Agent) (s : State) : Host.Outcome State Fault Refusal :=
  .next (if s.ref = 1 then s.lockGained else s.cfg TB_CMD_LOCK.off)

/-- TB_UNLOCK (R486). -/
def execTbUnlock (_a : Agent) (s : State) : Host.Outcome State Fault Refusal :=
  .next (if s.ref = 1 then s.lockLost else s.cfg TB_CMD_UNLOCK.off)

/-- TB_REF_CHANGE (R486). A follower ignores the write; elsewhere 11 is discarded and logged. -/
def execTbRefChange (_a : Agent) (ref : Nat) (s : State) : Host.Outcome State Fault Refusal :=
  .next (if s.role = 2 ∨ s.get TB_CTRL_REF = ref % 4 then s
    else if ref % 4 = 3 then s.cfg TB_CTRL_REF.off
    else s.lockLost.relock.set TB_CTRL_REF (ref % 4))

/-! ## Linear timecode -/

/-- Frames counted in a second of timecode. -/
def ltcFrames (r : Nat) : Nat := if r = 1 then 25 else if r = 0 ∨ r = 5 then 24 else 30

/-- A BCD byte read. -/
def unbcd (b : Nat) : Nat := b / 16 * 10 + b % 16

/-- A BCD byte made. -/
def bcd (n : Nat) : Nat := n / 10 * 16 + n % 10

/-- A timecode word from its parts. -/
def tcWord (h m s df f : Nat) : Nat := bcd h * 2 ^ 24 + bcd m * 2 ^ 16 + bcd s * 2 ^ 8 + df * 128 + bcd f

/-- The next timecode, with drop-frame counting at rate 4 (R66). -/
def tcNext (rate w : Nat) : Nat :=
  let h := unbcd (w / 2 ^ 24 % 256)
  let m := unbcd (w / 2 ^ 16 % 256)
  let s := unbcd (w / 2 ^ 8 % 256)
  let df := w / 128 % 2
  let f := unbcd (w % 64) + 1
  if f < ltcFrames rate then tcWord h m s df f
  else if s < 59 then tcWord h m (s + 1) df 0
  else
    let (h, m) := if m < 59 then (h, m + 1) else ((h + 1) % 24, 0)
    tcWord h m 0 df (if rate = 4 ∧ m % 10 ≠ 0 then 2 else 0)

/-- The generator's timecode by time of day (R67): floor(DTC / 10⁹) − TB_TOD_OFFSET modulo 86 400, frames by the fraction
of the second. -/
def State.tod (s : State) : Nat :=
  let d := s.dtcNs
  let off := signed 32 (s.get TB_TOD_OFFSET_SECONDS)
  let sec := (((d / 10 ^ 9 : Nat) - off) % 86400).toNat
  tcWord (sec / 3600) (sec / 60 % 60) (sec % 60) 0 (d % 10 ^ 9 * ltcFrames (s.get TB_LTC_CTRL_RATE) / 10 ^ 9)

/-- The word of `TB_LTC_IN`. -/
def State.ltcIn (s : State) : Nat := (s.word TB_LTC_IN_FRAMES.off).toNat

/-- LTC_IN_WORD (R65, R66): speeds within ±10 % are accepted; a new LTC frame begins. -/
def execLtcInWord (tc user : Word) (frameNs : Nat) (s : State) : Host.Outcome State Fault Refusal :=
  let r := s.get TB_LTC_CTRL_RATE
  let (n, d) := ltcRate r
  let diff := ((10 ^ 9 * d : Nat) - (n * frameNs : Nat) : Int).natAbs
  .next (if 10 * diff ≤ n * frameNs then
    let w := tc.toNat &&& 0xFFFFFFBF
    let seq := s.tb.ltcLast.isSome && tcNext r s.ltcIn == w
    let t := (s.putWord TB_LTC_IN_FRAMES.off (BitVec.ofNat 32 w)).putWord TB_LTC_IN_USER_BITS.off user
    let t := t.set TB_LTC_STAT_RATE_MATCH (if 200 * diff ≤ n * frameNs then 1 else 0)
    let t := t.when seq (·.set TB_LTC_STAT_IN_VALID 1)
    { t with tb := { t.tb with
        ltcLast := some s.now
        ltcRun := if seq then t.tb.ltcRun + 1 else 1
        inSub := 0 } }
  else s)

/-- LTC_IN_TIMEOUT (R65): no word for two LTC frame periods. -/
def execLtcInTimeout (s : State) : Host.Outcome State Fault Refusal :=
  let (n, d) := ltcRate (s.get TB_LTC_CTRL_RATE)
  .next (match s.tb.ltcLast with
    | none => s
    | some t =>
      if 2 * 10 ^ 9 * d ≤ n * (s.now - t) then
        { s.clear [TB_LTC_STAT_IN_VALID, TB_LTC_STAT_RATE_MATCH] with tb := { s.tb with ltcLast := none, ltcRun := 0 } }
      else s)

/-- LTC_LOAD (R67): it takes effect at the next LTC frame start. -/
def execLtcLoad (_a : Agent) (s : State) : Host.Outcome State Fault Refusal :=
  .next { s with tb := { s.tb with genLoad := true } }

/-- m, when the Beacon runs at m times the LTC rate for an integer m from 1 to 40 (R67). -/
def State.beaconsPerLtc (s : State) : Option Nat :=
  let (n, d) := ltcRate (s.get TB_LTC_CTRL_RATE)
  let a := s.getF BU_RATE_NUM_NUM * d
  let b := n * s.getF BU_RATE_DEN_DEN
  if s.beaconRuns && b != 0 && a % b == 0 && decide (1 ≤ a / b ∧ a / b ≤ 40) then some (a / b) else none

/-- A Beacon comes at this clock whose subframe is 0 (R66, R67): the first since the word of LTC_IN while that is the timecode's source,
else the one that ends the m Beacons of the generator's frame. -/
def State.frameBeacon (s : State) (m : Nat) : Bool :=
  (match s.bu.edgeDue with | some e => decide (e.2 ≤ s.now8) | none => false) &&
    (if s.flag TB_LTC_STAT_IN_VALID then s.tb.inSub == 0 else !s.tb.genRun || decide (m ≤ s.tb.genSub))

/-- The generator starts an LTC_OUT frame at this clock (R67). -/
def State.genDue (s : State) : Bool :=
  match (if s.get TB_LTC_CTRL_GEN_MODE = 3 then none else s.beaconsPerLtc) with
  | some m => s.frameBeacon m
  | none => decide (s.ltcInstant s.tb.genK ≤ s.dtcNs)

/-- `TB_LTC_CTRL` has been written: the generator follows its rate and mode. Off, it has no frame in progress. -/
def State.genChange (s : State) : State :=
  let s := s.genNext
  { s with tb := { s.tb with genRun := s.tb.genRun && s.get TB_LTC_CTRL_GEN_MODE != 0 } }

/-- LTC_OUT_FRAME_START (R67): the generator's word and user bits of the frame that starts. A load takes the preset as it stands at the
frame start: DESIGN CHOICE, log entry 81. A frame that starts at a Beacon starts before the Beacon's latches. -/
def execLtcOutFrameStart (s : State) : Host.Outcome State Fault Refusal :=
  let mode := s.get TB_LTC_CTRL_GEN_MODE
  let rate := s.get TB_LTC_CTRL_RATE
  let valid := s.flag TB_LTC_STAT_IN_VALID
  let next := if s.tb.genLoad then (s.word TB_LTC_PRESET_FRAMES.off).toNat else tcNext rate s.tb.gen
  let (g, u) :=
    if mode = 3 then (s.tod, s.get TB_LTC_USER_BITS)
    else if mode = 1 then (next, s.get TB_LTC_USER_BITS)
    else if valid then (s.ltcIn, s.get TB_LTC_IN_USER_BITS) else (next, s.tb.genUser)
  .next (if mode = 0 || !s.genDue then s
  else
    let t := { s with tb := { s.tb with
      gen := g
      genUser := u
      genLoad := false
      genSub := 0
      genRun := true } }.genNext
    t.when (t.flag TB_LTC_CTRL_OUT_EN) (·.emit (.ltcOut (BitVec.ofNat 32 g) (BitVec.ofNat 32 u))))

end Sys2Proof.Machine
end

