-- ==== Sys2Proof/Machine/Gang.lean ====
section
/-! DEFINITION. The Gang Link (R30 to R33, R68, R69): training, failure, and what the follower signals. -/

namespace Sys2Proof.Machine

/-- A frame's follower tile-stripes still outstanding are lost (R33, R157). -/
def State.loseFollower (s : State) (f : Frame) : State :=
  if f.info.ganged && !f.closed && f.drop.isNone then
    let s := s.modFrame f.info.epoch fun f => { f with gangLoss := true }
    s.each ((List.range f.info.cols.length).filter fun c => decide (f.own ≤ c)) fun s c =>
      s.each ((List.range f.info.rows).filter fun r => decide (f.queued.getD c 0 ≤ r)) fun s r => s.loseTile f.info.epoch r c
  else s

/-- The Gang Link fails on this package (R33). -/
def State.gangDown (s : State) : State := (s.gangFail).when (s.role == 1) fun s => s.each s.frames fun s f => s.loseFollower f

/-- GANG_LINK_FAIL (R33). -/
def execGangLinkFail (s : State) : Host.Outcome State Fault Refusal :=
  .next (if s.role ≠ 0 ∧ s.gang.up then s.gangDown else s)

/-- GANG_LINK_TRAINED (R33, R69): a latency above 240 ns fails training; the other package rejoins at the next Beacon. -/
def execGangLinkTrained (latency : Nat) (s : State) : Host.Outcome State Fault Refusal :=
  .next (if s.role ≠ 0 ∧ latency ≤ 480 then
    { s.set BU_GANG_LATENCY latency with
      gang := { s.gang with up := true, rejoin := true }
      bu := { s.bu with gangBad := 0 } }.light 6 0 1 none
  else s)

/-- FOLLOWER_READOUT_END (R146): the oldest ganged frame that awaits it. -/
def execFollowerReadoutEnd (s : State) : Host.Outcome State Fault Refusal :=
  .next (if s.role = 1 ∧ s.gang.up then
    match s.frames.find? fun f => f.info.ganged && f.followerEnd.isNone && !f.closed with
    | some f => s.modFrame f.info.epoch fun f => { f with followerEnd := some s.now }
    | none => s
  else s)

end Sys2Proof.Machine
end

