-- ==== Sys2Proof/Machine/Cxl.lean ====
section
/-! DEFINITION. The CXL Port (R311 to R328) and its generic mailbox commands (R322). -/

namespace Sys2Proof.Machine

/-- Place every page in one bias (R325, R326). -/
def State.allBias (s : State) (dev : Bool) : State := { s with cxl := { s.cxl with devBase := dev, pages := [] } }

/-- Every DMA channel with a write outstanding halts: transfers of this model are whole, so none is (log entry 14). The
modified lines are discarded (R321): each is counted and raises source 0x41. -/
def State.discardCache (s : State) : State :=
  let n := s.cxl.cache.length
  let s := { s with cxl := { s.cxl with cache := [] } }
  (List.range n).foldl (fun s _ => ((s.inc CXP_COUNTS_DIRTY_LOST).set CXP_EVENTS_DIRTY_LOST 1).raise 0x41 0 0) s

/-- Every modified line is written back (R321). -/
def State.flushCache (s : State) : State :=
  let s := s.cxl.cache.reverse.foldl (fun s e => s.writeBack e.1 e.2) s
  { s with cxl := { s.cxl with cache := [] } }

/-- A decode job that reads or writes host memory stops with its remaining units unreported (R325). -/
def State.stopHostJob (s : State) : State :=
  match s.hpp.job with
  | some j => if j.source = 1 then s.endJob else s
  | none => s

/-- A request of the mailbox in progress is discarded (R323): a START whose reply waits goes on without one. -/
def State.dropMailbox (s : State) : State :=
  { s with clip := { s.clip with req := s.clip.req.filter fun h => h.carrier != .mailbox } }

/-- A bias change in progress is dropped, and the device accesses that waited for it go on (R316, R325). -/
def State.dropChange (s : State) : State := { s.set CXP_BIAS_STAT_BUSY 0 with cxl := { s.cxl with change := none } }.goOn

/-- HOLDOFF is measured again from the first message after the host arrives (R445). -/
def State.dropHoldoffs (s : State) : State :=
  { s with icu := { s.icu with vectors := s.icu.vectors.map fun e => (e.1, { e.2 with lastSent := none, events := 0 }) } }

/-- A host departs (R325, R336, R445): it is neither idle nor asleep, and its messages are held. -/
def State.hostDown (s : State) : State :=
  if s.host then
    let s := { s with cxl := { s.cxl with fn := { s.cxl.fn with memEnable := false } } }.dropMailbox
    let s := (s.stopHostJob.discardCache.allBias true).clear [PXP_HOST_FREE_MAP, ICU_HOST_IDLE, ICU_HOST_SLEEP]
    let s := ((s.set CXP_STATUS_HOST 0).set CXP_EVENTS_HOST_DOWN 1).inc CXP_COUNTS2_HOST_DOWNS
    s.dropChange.dropHoldoffs.light 4 0 2 none
  else s

/-- The link goes down: `CXP_STATUS` follows it (R327). -/
def State.cxlLinkDown (s : State) : State :=
  s.clear [CXP_STATUS_LINK_UP, CXP_STATUS_CXL_MODE, CXP_STATUS_SPEED, CXP_STATUS_WIDTH, CXP_STATUS_DEGRADED,
    CXP_STATUS_FLUSHING, CXP_BIAS_STAT_BUSY]

/-- A Link-reach reset of the CXL Port (R321, R327): modified lines are written back while the link is up. -/
def State.linkReset_ (s : State) : State :=
  let s := if s.flag CXP_STATUS_LINK_UP then s.flushCache else s
  let s := (s.hostDown.cxlLinkDown.set CXP_STATUS_HDM_COMMITTED 0).allBias false
  let s := { s with cxl := { s.cxl with hdmBase := none, fn := CxlFn.reset (s.get CXP_HDM_SIZE_BYTES) } }
  (s.inc CXP_COUNTS2_LINK_RESETS).set CXP_EVENTS_LINK_RESET 1

/-! ## Commands -/

/-- CXL_LINK_UP (R311). -/
def execCxlLinkUp (cxlMode : Bool) (speed width : Nat) (s : State) : Host.Outcome State Fault Refusal :=
  let deg := !(speed % 4 == 2 && width % 4 == 3)
  let t := ((s.set CXP_STATUS_LINK_UP 1).set CXP_STATUS_CXL_MODE (b2n (cxlMode && s.role != 2))).set CXP_STATUS_SPEED speed
  let t := (t.set CXP_STATUS_WIDTH width).set CXP_STATUS_DEGRADED (b2n deg)
  .next (t.when deg (·.raise 0x40 0 0))

/-- The host configures the function as it arrives (R324, R445): the BARs lie where a free value puts them; that it enables and unmasks
MSI-X and the mailbox interrupt at once is log entry 92. -/
def State.hostConfig (s : State) : State :=
  let (a, s) := s.draw
  let (b, s) := s.draw
  let due := (List.range 64).filter fun v => bitAt s.cxl.fn.pba v == 1
  let s := { s with cxl := { s.cxl with fn := { s.cxl.fn with
    memEnable := true
    bar0 := some (a * 2 ^ 26)
    bar2 := some (b * 2 ^ 16)
    msixEnable := true
    masked := 0
    pba := 0
    mboxInt := true } } }
  s.each due fun s v => s.emit (.msix v)

/-- HOST_ARRIVAL (R324, R326). -/
def execHostArrival (s : State) : Host.Outcome State Fault Refusal :=
  .next (if s.flag CXP_STATUS_LINK_UP ∧ !s.host then
    (((s.hostConfig.set CXP_STATUS_HOST 1).set CXP_EVENTS_HOST_UP 1).allBias false).light 4 0 1 none
  else s)

/-- HOST_DEPARTURE (R325). -/
def execHostDeparture (linkLost : Bool) (s : State) : Host.Outcome State Fault Refusal :=
  .next (s.hostDown.when linkLost State.cxlLinkDown)

/-- LINK_RESET (R327): a hot reset or secondary bus reset; `RSTC_CAUSE.LINK` records it (R429). -/
def execLinkReset (s : State) : Host.Outcome State Fault Refusal := .next (s.linkReset_.set RSTC_CAUSE_LINK 1)

/-- HDM_DECODER_COMMIT (R314). -/
def execHdmDecoderCommit (base : Nat) (s : State) : Host.Outcome State Fault Refusal :=
  .next (if s.hostReach then
    { s.set CXP_STATUS_HDM_COMMITTED 1 with cxl := { s.cxl with hdmBase := some base } } else s)

/-- A CXL.mem request that the decoder takes (R314, R315, R328). -/
def State.cxlMem (s : State) (off len : Nat) (w : Option (List Byte)) (ecc : List EccFinding) : State :=
  let r : DramReq := ⟨0x23, 2 ^ 32 + off, len, w⟩
  let s := s.when (s.allOn r.addr (reqSize r) && s.pageBias (off / 2 ^ 21)) (·.inc CXP_COUNTS_BIAS_MISS)
  s.each (reqPieces r ecc) fun s p => s.takeReq p.1 p.2

/-- CXL_MEM_REQUEST (R315): not decoded until the decoder is committed. -/
def execCxlMemRequest (off len : Nat) (w : Option (List Byte)) (ecc : List EccFinding) (s : State) : Host.Outcome State Fault Refusal :=
  .next (if s.hostReach ∧ s.flag CXP_STATUS_HDM_COMMITTED ∧ off + len ≤ s.get CXP_HDM_SIZE_BYTES then
    s.cxlMem off len w ecc else s)

/-- A bias command (R316). -/
def State.biasCmd (s : State) (toDevice : Bool) : State :=
  let p := s.get CXP_BIAS_PAGE_INDEX
  if s.flag CXP_BIAS_STAT_BUSY ∨ s.get CXP_HDM_SIZE_BYTES ≤ p * 2 ^ 21 then s.cfg CXP_BIAS_CMD_TO_HOST.off
  else
    let s := { s.set CXP_BIAS_STAT_BUSY 1 with cxl := { s.cxl with change := some ⟨p, toDevice⟩ } }
    s.when toDevice (·.emit (.ownPage p))

/-- TO_HOST (R316). -/
def execToHost (_a : Agent) (s : State) : Host.Outcome State Fault Refusal := .next (s.biasCmd false)

/-- TO_DEVICE (R317). -/
def execToDevice (_a : Agent) (s : State) : Host.Outcome State Fault Refusal := .next (s.biasCmd true)

/-- BIAS_CHANGE_DONE (R316, R317): device accesses that waited for the page go on. -/
def execBiasChangeDone (s : State) : Host.Outcome State Fault Refusal :=
  .next (match s.cxl.change with
    | none => s
    | some c =>
      let t := (s.set CXP_BIAS_STAT_BUSY 0).set CXP_EVENTS_BIAS_DONE 1
      { t with cxl := { t.cxl with change := none, pages := sput (fun _ => t.cxl.devBase) t.cxl.pages c.page c.toDevice } }.goOn)

/-- CACHE_FLUSH (R321). -/
def execCacheFlush (_a : Agent) (s : State) : Host.Outcome State Fault Refusal := .next (s.set CXP_STATUS_FLUSHING 1)

/-- CACHE_FLUSH_DONE (R321): a link that is down loses the lines instead. -/
def execCacheFlushDone (s : State) : Host.Outcome State Fault Refusal :=
  .next (if s.flag CXP_STATUS_FLUSHING then
    (if s.flag CXP_STATUS_LINK_UP then s.flushCache else s.discardCache).set CXP_STATUS_FLUSHING 0 else s)

/-- CXP_CLR_COUNTS (R321). -/
def execCxpClrCounts (_a : Agent) (s : State) : Host.Outcome State Fault Refusal :=
  .next (s.clear [CXP_COUNTS_BIAS_MISS, CXP_COUNTS_DIRTY_LOST, CXP_COUNTS2_LINK_RESETS, CXP_COUNTS2_HOST_DOWNS])

/-- VIRAL_RECEIVED (R312). -/
def execViralReceived (s : State) : Host.Outcome State Fault Refusal := .next ((s.set CXP_EVENTS_VIRAL 1).raise 0x41 0 0)

/-- A mailbox command completes: its output, and the completion interrupt of source 49 (R323, log entry 21). -/
def State.mailboxDone (s : State) (r : Resp) : State := (s.answer r).icuPulse 49

/-- Get Timestamp (R322). -/
def State.mboxTime (s : State) : State := s.mailboxDone (.bytes (toBytes (le 8 s.dtcNs)))

/-- Get Log (R322); the code for a log the part has not is a free value (log entry 15). -/
def State.mboxLog (s : State) (effects : Bool) : State :=
  if effects then s.mailboxDone .effectsLog else let (v, t) := s.draw; t.mailboxDone (.code (v % 2 ^ 16))

/-- GET_TIMESTAMP (R322). -/
def execGetTimestamp (s : State) : Host.Outcome State Fault Refusal := .next (if s.host then s.mboxTime else s)

/-- GET_SUPPORTED_LOGS (R322). -/
def execGetSupportedLogs (s : State) : Host.Outcome State Fault Refusal :=
  .next (if s.host then s.mailboxDone .supportedLogs else s)

/-- GET_LOG (R322). -/
def execGetLog (commandEffects : Bool) (s : State) : Host.Outcome State Fault Refusal :=
  .next (if s.host then s.mboxLog commandEffects else s)

end Sys2Proof.Machine
end

