-- ==== Sys2Proof/Machine/Microcode.lean ====
section
/-! DEFINITION. Microwords and microcode images (R210 to R218): fields and parity of a word, the next address, and what the loader
reads of an image. -/

namespace Sys2Proof.Machine

/-! ## Microwords (R210, R211) -/

/-- Ones among the low `n` bits of `w`. -/
def ones (n w : Nat) : Nat := (List.range n).foldl (fun a i => a + bitAt w i) 0

/-- The quarters of a microword whose parity is wrong, bit q for quarter q (R210). -/
def badQuarters (w : Nat) : Nat := (List.range 4).foldl (fun a q => if ones 36 (w / 2 ^ (36 * q)) % 2 = 1 then a else a + 2 ^ q) 0

/-- A microword of correct parity in every quarter (R210). -/
def parityOk (w : Nat) : Bool := badQuarters w == 0

/-- The trap word (R218): NA_MODE 111 and correct parity. Quarter 0 has three data bits set, so its parity bit is 0. -/
def trapWord : Nat := 7 + 2 ^ 71 + 2 ^ 107 + 2 ^ 143

/-- NA_MODE of a microword. -/
def naMode (w : Nat) : Nat := w % 8

/-- NA_ADDR of a microword. -/
def naAddr (w : Nat) : Nat := w / 2 ^ 3 % 8192

/-- COND of a microword. -/
def condSel (w : Nat) : Nat := w / 2 ^ 16 % 64

/-- The clocks over which a microword takes effect, from CYC. -/
def cycLen (w : Nat) : Nat := w / 2 ^ 22 % 4 + 1

/-- MOB of a microword: it ends a macro-op. -/
def mobOf (w : Nat) : Bool := bitAt w 24 == 1

/-- IMM10 of a microword. -/
def imm10 (w : Nat) : Nat := w / 2 ^ 25 % 1024

/-- Clocks that a word takes with its repeats (R211). -/
def wordClocks (w : Nat) : Nat := cycLen w * if naMode w = 6 then imm10 w + 1 else 1

/-- The address after the word `w` at `pc`, and the call stack (R211): none for a trap. `holds` says whether COND holds, `entry` is the
entry address of the next macro-op. -/
def nextWord (w pc : Nat) (stack : List Nat) (holds : Bool) (entry : Nat) : Option (Nat × List Nat) :=
  let seq := (pc + 1) % 8192
  match naMode w with
  | 1 => some (naAddr w, stack)
  | 2 => some (if holds then naAddr w else seq, stack)
  | 3 => if stack.length < 8 then some (naAddr w, seq :: stack) else none
  | 4 => match stack with | a :: t => some (a, t) | [] => none
  | 5 => some (entry, stack)
  | 7 => none
  | _ => some (seq, stack)

/-! ## Images (R216, R217) -/

/-- The header of an image is valid for the die (R216, R217). -/
def imageHeaderOk (stepping : Nat) (h : List Nat) : Bool :=
  rdLe h 0 4 == 0x49434D45 && rdLe h 4 2 == 1 && rdLe h 6 2 == 64 && decide (1 ≤ rdLe h 20 2 ∧ rdLe h 20 2 ≤ 8192) &&
    bitAt (rdLe h 24 4) stepping == 1

/-- The words of an image's body. -/
def imageWords (l : List Nat) (n : Nat) : List Nat := (List.range n).map fun k => rdLe l (64 + 18 * k) 18

/-- The entry addresses of an image's dispatch table, which follows its `n` words. -/
def imageDispatch (l : List Nat) (n macros : Nat) : List Nat := (List.range macros).map fun i => rdLe l (64 + 18 * n + 2 * i) 2 % 8192

end Sys2Proof.Machine
end

