-- ==== Sys2Proof/Machine/Pixel.lean ====
section
/-! DEFINITION. The Pixel Port Receiver and the Tiler (R70 to R93, R487 to R489): lanes, links and the back channel,
spare-lane substitution, line packets, stripe rows and the jobs they become. -/

namespace Sys2Proof.Machine

/-! ## Lanes and links -/

/-- Logical lanes of a link (R71). -/
def State.linkSize (s : State) : Nat := 4 * 2 ^ s.get PPR_CTRL_BOND

/-- Link `k` is enabled (R487). -/
def State.linkEn (s : State) (k : Nat) : Bool :=
  s.flag PPR_CTRL_EN && decide (k * s.linkSize < 16) && bitAt (s.get PPR_CTRL_LINK_EN) k == 1

/-- The links in use, in ascending order (R487). -/
def State.linksInUse (s : State) : List Nat := (List.range 4).filter s.linkEn

/-- Lane PPLn is enabled (R487). -/
def State.laneOn (s : State) (n : Nat) : Bool :=
  if n = 16 then s.flag PPR_CTRL_EN && s.flag PPR_CTRL_SPARE_EN else decide (n < 16) && s.linkEn (n / s.linkSize)

/-- Lane PPLn is enabled and powered: hold-up powers the Pixel Port down (R401). -/
def State.lanePowered (s : State) (n : Nat) : Bool := s.laneOn n && !s.flag KPR_STATUS_HOLDUP

/-- Lane PPLn. -/
def State.ppl (s : State) (n : Nat) : PpLane := s.ppr.lanes.getD n PpLane.reset

/-- Write lane PPLn. -/
def State.putPpl (s : State) (n : Nat) (l : PpLane) : State := { s with ppr := { s.ppr with lanes := s.ppr.lanes.set n l } }

/-- Link `k` is up. -/
def State.linkUp (s : State) (k : Nat) : Bool := bitAt (s.get PPR_LINK_STATUS_LINK_UP) k == 1

/-- The logical lane that PPLn carries (R71, R78). -/
def State.carried (s : State) (n : Nat) : Option Nat :=
  let u := s.get PPR_LINK_STATUS_SPARE_USE
  if n = 16 then (if u < 16 then some u else none)
  else
    let k := (s.ppl n).logical
    if k < 16 ∧ u ≠ k then some k else none

/-- The lanes that carry the logical lanes of link `k`. -/
def State.lanesOf (s : State) (k : Nat) : List Nat :=
  (List.range 17).filter fun n => match s.carried n with | some l => l / s.linkSize == k | none => false

/-- By how many block times lane `l` is later than lane `o`: the distance of their last markers less 4096 for every count between them,
where the counts wrap at 32 bits (R73). -/
def PpLane.behind (l o : PpLane) : Int :=
  (l.slot : Int) - o.slot - 4096 * signed 32 (l.count.getD 0 + 2 ^ 32 - o.count.getD 0 % 2 ^ 32)

/-- The measured skew of a link: from its earliest to its latest lane (R73). -/
def State.skew (s : State) (k : Nat) : Nat :=
  match (s.lanesOf k).map s.ppl with
  | [] => 0
  | o :: t =>
    let ds := t.map (·.behind o)
    (ds.foldl max 0 - ds.foldl min 0).toNat

/-- Some aligned lane carries logical lane `l` (R74). -/
def State.logicalHere (s : State) (l : Nat) : Bool :=
  (List.range 17).any fun n => s.carried n == some l && (s.ppl n).lock && (s.ppl n).aligned

/-- Every logical lane of the link is aligned, and the link deskewed (R73, R74). -/
def State.linkReady (s : State) (k : Nat) : Bool :=
  s.linkEn k && (List.range s.linkSize).all (fun i => s.logicalHere (k * s.linkSize + i)) && decide (s.skew k ≤ 64)

/-! ## The back channel and training -/

/-- Send a back-channel message, which awaits its STATUS block: the comma, the code, the argument and their CRC-8, 40 bits of 8 ns after
what the channel still sends (R75). Nothing leaves while BC_EN is 0. -/
def State.sendBc (s : State) (code arg link : Nat) (again : Bool) : State :=
  let s := s.when (s.flag PPR_CTRL_BC_EN) (·.emit (.backChannel code [arg, crc8 [code, arg]]))
  let e := max s.now s.ppr.bcFree + 320
  { s with ppr := { s.ppr with bc := s.ppr.bc ++ [⟨code, arg, link, again, e⟩], bcFree := e } }

/-- A training attempt of link `k` starts (R76): equalisers reset, so its lanes must lock and align afresh. While hold-up has powered the
lanes down (R401) none starts. -/
def State.train (s : State) (k : Nat) : State :=
  if s.flag KPR_STATUS_HOLDUP then s
  else
  let ls := s.lanesOf k
  let s := s.each ls fun s n =>
    (s.putPpl n { s.ppl n with lock := false, aligned := false, count := none }).clearBit PPR_LINK_STATUS_BLOCK_LOCK n
  let s := s.clearBit PPR_LINK_STATUS_LINK_UP k
  { s.sendBc 1 (2 ^ s.linkSize - 1) k false with ppr := { (s.sendBc 1 (2 ^ s.linkSize - 1) k false).ppr with
    trainAt := aput s.ppr.trainAt k s.now } }

/-- A substitution or undo of a lane of link `k` is in progress. -/
def State.substBusy (s : State) (k : Nat) : Bool :=
  match s.ppr.subst with | some x => x.lane / s.linkSize == k | none => false

/-- Link `k` goes down: an attempt starts unless a substitution will bring it up (R76, R77). -/
def State.linkDown (s : State) (k : Nat) : State :=
  let s := s.clearBit PPR_LINK_STATUS_LINK_UP k
  if s.substBusy k then s else s.train k

/-- A link comes up, or goes down (R74). -/
def State.judgeLink (s : State) (k : Nat) : State :=
  if s.linkReady k then
    let s := s.set ⟨PPR_SKEW_LINK0.off, 8 * k, 8⟩ (s.skew k)
    if s.linkUp k then s
    else
      let s := s.setBit PPR_LINK_STATUS_LINK_UP k
      { s with ppr := { s.ppr with trainAt := adel s.ppr.trainAt k } }
  else s.when (s.linkUp k) (·.linkDown k)

/-- Reception starts: the links in use train (R76). -/
def State.enablePpr (s : State) : State :=
  if s.flag PPR_CTRL_EN then s else (s.set PPR_CTRL_EN 1).each (s.set PPR_CTRL_EN 1).linksInUse fun s k => s.train k

/-- PPR_ENABLE (R76): training starts when EN is set. `PPR_CTRL` holds a Beacon-class field (R55). -/
def execPprEnable (a : Agent) (s : State) : Host.Outcome State Fault Refusal := .next (s.tagWrite a).enablePpr

/-- The lanes are powered down: none reports a lock, and no link is up (R401, R487). -/
def State.lanesDown (s : State) : State :=
  let s := s.clear [PPR_LINK_STATUS_BLOCK_LOCK, PPR_LINK_STATUS_LINK_UP, PPR_LINK_STATUS_SPARE_BUSY]
  { s with ppr := { s.ppr with
    lanes := (s.ppr.lanes.map fun l => { l with lock := false, aligned := false, count := none })
    trainAt := []
    bc := []
    subst := none } }

/-- Reception stops (R487). -/
def State.pprStop (s : State) : State := (s.set PPR_CTRL_EN 0).lanesDown

/-- Lanes and links that have ceased to be enabled (R487). -/
def State.pprTrim (s : State) : State :=
  let s := s.each ((List.range 17).filter fun n => !s.laneOn n) fun s n =>
    (s.putPpl n { s.ppl n with lock := false, aligned := false, count := none }).clearBit PPR_LINK_STATUS_BLOCK_LOCK n
  s.each ((List.range 4).filter fun k => !s.linkEn k) fun s k => s.clearBit PPR_LINK_STATUS_LINK_UP k

/-- PPR_RETRAIN (R76): every link trains, also one whose substitution or undo is in progress: DESIGN CHOICE, log entry 84. -/
def execPprRetrain (_a : Agent) (s : State) : Host.Outcome State Fault Refusal :=
  .next (s.each s.linksInUse fun s k => s.train k)

/-- PPR_CLR_COUNTS (R76). -/
def execPprClrCounts (_a : Agent) (s : State) : Host.Outcome State Fault Refusal :=
  .next (s.clear ([PPR_DISCARD_CRC, PPR_DISCARD_FORMAT, PPR_LOST_LINES_LOST, PPR_LOST_LINES_PATCHED, PPR_LATE_LATE_LINES,
    PPR_LATE_EARLY_FRAMES] ++ (List.range 17).map PPR_ERR_LANE_SYNC ++ (List.range 17).map PPR_ERR_LANE_MARKER))

/-- TRAIN_RETRY (R76): 100 µs after the attempt that did not bring the link up. -/
def execTrainRetry (link : Nat) (s : State) : Host.Outcome State Fault Refusal :=
  let due := match aget s.ppr.trainAt link with | some t => decide (t + 100000 ≤ s.now) | none => true
  .next (if s.linkEn link && !s.linkUp link && !s.substBusy link && due then s.train link else s)

/-! ## Substitution -/

/-- A substitution or undo of logical lane `k` is sent (R77, R78). -/
def State.startSubst (s : State) (k : Nat) (undo : Bool) : State :=
  let s := (s.set PPR_LINK_STATUS_SPARE_BUSY 1).sendBc (if undo then 3 else 2) k (k / s.linkSize) false
  { s with ppr := { s.ppr with subst := some ⟨k, undo, false⟩ } }

/-- A request to substitute logical lane `k` (R78, R487). -/
def State.requestSubst (s : State) (k : Nat) : State :=
  if s.flag PPR_CTRL_SPARE_EN && s.get PPR_LINK_STATUS_SPARE_USE == 31 && !s.flag PPR_LINK_STATUS_SPARE_BUSY then
    s.startSubst k false
  else s.set PPR_EVENTS_SUBST_FAIL 1

/-- A substitution or undo has failed (R75): a link that it kept from training now trains. -/
def State.substFailed (s : State) : State :=
  let ks := (List.range 4).filter s.substBusy
  let s := (s.set PPR_EVENTS_SUBST_FAIL 1).set PPR_LINK_STATUS_SPARE_BUSY 0
  let s := { s with ppr := { s.ppr with subst := none } }
  s.each (ks.filter fun k => s.linkEn k && !s.linkUp k) fun s k => s.train k

/-- A substitution or undo is accepted at a marker slot (R77, R78). -/
def State.substDone (s : State) (use_ : Nat) : State :=
  let s := ((s.set PPR_LINK_STATUS_SPARE_USE use_).set PPR_LINK_STATUS_SPARE_BUSY 0).set PPR_EVENTS_SUBST_DONE 1
  { s with ppr := { s.ppr with subst := none } }

/-- SUBST_GO (R77, R78). -/
def execSubstGo (_a : Agent) (s : State) : Host.Outcome State Fault Refusal := .next (s.requestSubst (s.get PPR_SUBST_LANE))

/-- SUBST_UNDO (R78): accepted only while PPL16 carries the lane. -/
def execSubstUndo (_a : Agent) (s : State) : Host.Outcome State Fault Refusal :=
  .next (if s.get PPR_LINK_STATUS_SPARE_USE = s.get PPR_SUBST_LANE ∧ !s.flag PPR_LINK_STATUS_SPARE_BUSY then
    s.startSubst (s.get PPR_SUBST_LANE) true else s.set PPR_EVENTS_SUBST_FAIL 1)

/-- The substitutions that waited for the readout end are sent (R78). -/
def State.substEnd (s : State) : State :=
  { s with ppr := { s.ppr with substWait := [] } }.each s.ppr.substWait fun s k => s.requestSubst k

/-- SUBST_ERROR_THRESHOLD (R77, R78): the errors beyond those already counted on the lane are sync errors. -/
def execSubstErrorThreshold (lane errors : Nat) (s : State) : Host.Outcome State Fault Refusal :=
  let t := (s.incBy (PPR_ERR_LANE_SYNC lane) (errors - (s.ppl lane).errors)).putPpl lane { s.ppl lane with errors := errors }
  .next (if 17 ≤ lane ∨ errors ≤ s.get PPR_SUB_THRESH_COUNT ∨ !s.lanePowered lane then s
  else match s.carried lane with
    | some k =>
      if !s.flag PPR_CTRL_AUTO_SUB then t
      else if s.ppr.readoutEnd.isSome || !s.beaconRuns then t.requestSubst k
      else { t with ppr := { t.ppr with substWait := t.ppr.substWait ++ [k] } }
    | none => t)

/-- BLOCK_LOCK_GAINED (R74). -/
def execBlockLockGained (lane : Nat) (s : State) : Host.Outcome State Fault Refusal :=
  .next (if s.lanePowered lane && !(s.ppl lane).lock then
    (s.putPpl lane { s.ppl lane with lock := true, aligned := false, count := none }).setBit PPR_LINK_STATUS_BLOCK_LOCK lane
  else s)

/-- Invalid blocks and control blocks of an unknown type are counted on their lane (R72). -/
def State.syncErrors (s : State) (lane n : Nat) : State :=
  (s.incBy (PPR_ERR_LANE_SYNC lane) n).putPpl lane { s.ppl lane with errors := (s.ppl lane).errors + n }

/-- BLOCK_LOCK_LOST (R72, R74, R76, R77, R79): at least 16 invalid blocks. -/
def execBlockLockLost (e : LaneErrors) (s : State) : Host.Outcome State Fault Refusal :=
  .next (if s.lanePowered e.lane && (s.ppl e.lane).lock then
    let k? := s.carried e.lane
    let s := s.syncErrors e.lane (max 16 e.errors)
    let s := s.putPpl e.lane { s.ppl e.lane with lock := false, aligned := false, count := none }
    let s := s.clearBit PPR_LINK_STATUS_BLOCK_LOCK e.lane
    let s := s.set PPR_EVENTS_LANE_LOST 1
    match k? with
    | none => s
    | some k =>
      let u := s.get PPR_LINK_STATUS_SPARE_USE
      let s := s.when (s.flag PPR_CTRL_AUTO_SUB) (·.requestSubst k)
      let s := s.when (decide (u ≠ 31 ∧ u ≠ k)) (·.raise 0x11 (k / s.linkSize) 0)
      s.when (s.linkUp (k / s.linkSize)) (·.linkDown (k / s.linkSize))
  else s)

/-- An ALIGN block is inconsistent on its lane (R72, R74): it names a lane outside the lane's link, or another link. -/
def State.markerBad (s : State) (lane logical link : Nat) : Bool :=
  if lane = 16 then !(logical == 31 || (decide (logical < 16) && link == logical / s.linkSize))
  else link != lane / s.linkSize || !(logical == 30 || (decide (logical < 16) && logical / s.linkSize == lane / s.linkSize))

/-- One more marker error on a lane. -/
def State.markerError (s : State) (lane : Nat) : State :=
  (s.inc (PPR_ERR_LANE_MARKER lane)).putPpl lane { s.ppl lane with errors := (s.ppl lane).errors + 1 }

/-- ALIGN_BLOCK (R72, R74, R77, R78). -/
def execAlignBlock (e : LaneErrors) (logical link count slot : Nat) (s : State) : Host.Outcome State Fault Refusal :=
  let l := s.ppl e.lane
  .next (if !(s.lanePowered e.lane && l.lock) then s
  else if s.markerBad e.lane logical link then (s.syncErrors e.lane e.errors).markerError e.lane
  else
    let s := s.syncErrors e.lane e.errors
    let t := s.when (l.count.isSome && decide (l.slot + 4096 < slot)) (·.markerError e.lane)
    let same := l.logical == logical && l.link == link
    let next := l.count.isSome && slot == l.slot + 4096
    let swap := match s.ppr.subst with
      | some x => x.lane == logical && (if x.undo then decide (e.lane ≠ 16) else decide (e.lane = 16))
      | none => false
    let al := if same || swap then l.aligned || (same && next) else false
    let t := t.when (l.aligned && !same && !swap && logical != 30 && logical != 31) (·.markerError e.lane)
    let t := t.putPpl e.lane { t.ppl e.lane with aligned := al, logical := logical, link := link, count := some count, slot := slot }
    let t := t.when swap (·.substDone (if e.lane = 16 then logical else 31))
    t.each t.linksInUse fun s k => s.judgeLink k)

/-- STATUS_ACK (R75): the message to the link that it acknowledges is done, or refused. -/
def execStatusAck (c : AckCode) (refused : Bool) (s : State) : Host.Outcome State Fault Refusal :=
  .next (match s.ppr.bc.findIdx? fun m => m.code == c.code && m.link == c.link with
  | none => s
  | some i =>
    let t := { s with ppr := { s.ppr with bc := s.ppr.bc.eraseIdx i } }
    if c.code = 2 ∨ c.code = 3 then
      if refused then t.substFailed
      else { t with ppr := { t.ppr with subst := t.ppr.subst.map fun x => { x with acked := true } } }
    else t)

/-- BACK_CHANNEL_ACK_TIMEOUT (R75): the oldest message, whose last bit left 4 µs ago, is sent once more, then given up. -/
def execBackChannelAckTimeout (s : State) : Host.Outcome State Fault Refusal :=
  .next (match s.ppr.bc with
  | [] => s
  | m :: ms =>
    let t := { s with ppr := { s.ppr with bc := ms } }
    if s.now < m.sent + 4000 then s
    else if !m.again then t.sendBc m.code m.arg m.link true
    else if m.code = 1 then (t.set PPR_EVENTS_TRAIN_FAIL 1).raise 0x10 (m.link * t.linkSize) 0
    else t.substFailed.raise 0x10 m.arg 0)

/-! ## The frame in force -/

/-- The width in force (R87). -/
def State.fmtW (s : State) : Nat := s.getF PPR_FMT0_WIDTH

/-- The height in force. -/
def State.fmtH (s : State) : Nat := s.getF PPR_FMT0_HEIGHT

/-- The depth in force. -/
def State.fmtD (s : State) : Nat := 10 + 2 * s.getF PPR_FMT1_DEPTH

/-- Stripe rows of the frame in force. -/
def State.fmtRows (s : State) : Nat := codedHeight s.fmtH / 16

/-! ## The Proxy Path's copy (R331, R335) -/

/-- The Proxy Path and the senders run: enabled, and neither BASIC, SAFE nor a hold-up holds (R335, R401). -/
def State.proxyOn (s : State) : Bool := s.flag PXP_CTRL_EN && decide (s.get FC_LEVEL_LEVEL < 2) && !s.flag KPR_STATUS_HOLDUP

/-- The Proxy Path develops live frames. -/
def State.proxyLive (s : State) : Bool := s.proxyOn && s.get PXP_CTRL_SRC == 0

/-- The Tiler hands over a resolved row: a lost row is flat. -/
def State.proxyRow (s : State) (l : Option (List (List Nat))) : State :=
  if s.proxyLive && bitAt s.kpr.grant.fund 1 == 1 then
    { s with proxy := { s.proxy with
      gather := s.proxy.gather ++ l.getD (List.replicate 16 (List.replicate s.fmtW (2 ^ (s.fmtD - 1)))) } }
  else s

/-- The frame's readout ends: its development begins, or it is counted as not funded. -/
def State.proxyEnd (s : State) : State :=
  if !s.proxyLive then s
  else if bitAt s.kpr.grant.fund 1 = 0 then s.inc PXP_COUNTS_UNFUNDED
  else if s.proxy.gather.length = 16 * s.fmtRows then
    { s.set PXP_STATUS_DEVELOPING 1 with proxy := { s.proxy with
      gather := []
      input := some ⟨s.epoch, s.get BU_BEACON_TIME_TIME, s.fmtW, s.fmtH, s.fmtD, s.getF PPR_FMT1_MONO == 1,
        s.getF PPR_FMT1_CFA, s.proxy.gather.take s.fmtH⟩ } }
  else s

/-! ## Stripe rows -/

/-- An accepted line of the frame. -/
def State.line (s : State) (n : Nat) : Option (List Nat) := aget s.ppr.lines n

/-- The line that replaces missing line `n` (R83). -/
def State.replacement (s : State) (n : Nat) : Option (List Nat) :=
  (if 2 ≤ n then s.line (n - 2) else none).orElse fun _ => if n + 2 < s.fmtH then s.line (n + 2) else none

/-- Line `n` of the coded frame, the extension of a 1080-line frame included (R83, R89). -/
def State.codedLine (s : State) (n : Nat) : Option (List Nat) :=
  let m := if n < s.fmtH then n else 2 * s.fmtH - 2 - n
  (s.line m).orElse fun _ => if s.getF PPR_CTRL_PATCH = 1 then s.replacement m else none

/-- Bytes that tile-stripes occupy in the partition of a position (R20, R93). -/
def State.occupied (s : State) (pos : Nat) : Nat :=
  ((s.engines.flatMap (·.jobs)).filter fun j => j.slot == pos).foldl (fun a j => a + 32 * j.width) 0

/-- The engine that serves a column of the binding (R19). -/
def boundEngine (b : Nat × Bool × Nat × Nat) : Nat := 17 * (b.1 / 16) + (if b.2.1 then 16 else b.1 % 16)

/-- The first system column of this package (R31). -/
def State.firstCol (s : State) (f : Frame) : Nat := if s.role = 2 ∧ f.info.ganged then f.own else 0

/-- The Tiler writes one column's tile-stripe of row `j` into its partition and posts its job, or it is lost (R83, R93,
R203, R489). -/
def State.postTile (s : State) (f : Frame) (j : Nat) (lines : Option (List (List Nat))) (patched : Bool) (c : Nat) : State :=
  match (s.ppr.bind.drop c).head?, lines with
  | some b, some ls =>
    let e := boundEngine b
    let col := s.firstCol f + c
    let w := 32 * b.2.2.1
    if !s.flag TLR_CTRL_EN || s.get (CE_ENG_STATE_STATE e) != 3 then s.loseTile f.info.epoch j col
    else if 262144 < s.occupied b.1 + 32 * w then (s.inc TLR_OVERFLOW_COUNT).loseTile f.info.epoch j col
    else
      let job : Job := ⟨f.info.epoch, j, col, w, f.info.depth, f.info.mono, f.info.cfa, f.info.mode, f.info.temporal, f.predict,
        f.verifies col, f.escapeOnly, patched, b.1, ls.map fun l => (l.drop (32 * b.2.2.2)).take w⟩
      { s with engines := modAt s.engines e fun g => { g with jobs := g.jobs ++ [job] } }
  | some _, none => s.loseTile f.info.epoch j (s.firstCol f + c)
  | none, _ => s

/-- Stripe row `j` is resolved (R83, R89, R93, R489). -/
def State.resolveRow (s : State) (j : Nat) : State :=
  let ns := (List.range 16).map (16 * j + ·)
  let missing := ns.filter fun n => if n < s.fmtH then (s.line n).isNone else (s.codedLine n).isNone
  let ls := ns.map s.codedLine
  let lines := if ls.any (·.isNone) then none else some (ls.map (·.getD []))
  let links := s.linksInUse
  let s := { s with ppr := { s.ppr with rowsDone := j + 1 } }
  let s := s.when (missing != []) (·.set PPR_EVENTS_LINE_MISSING 1)
  let s := s.incBy (if lines.isNone then PPR_LOST_LINES_LOST else PPR_LOST_LINES_PATCHED) missing.length
  let s := s.each missing fun s n => s.raise 0x10 (0x100 + links.getD (n % links.length) 0) n
  let s := s.proxyRow lines
  match s.frameOf s.epoch with
  | none => s
  | some f =>
    let patched := missing != [] && lines.isSome
    (s.modFrame s.epoch fun f => { f with patched := f.patched || patched }).each (List.range f.own) fun s c => s.postTile f j lines patched c

/-- Readout end (R146). -/
def State.finishReadout (s : State) : State :=
  let s := { s with ppr := { s.ppr with readoutEnd := some s.now } }
  let s := s.modFrame s.epoch fun f => { f with readoutEnd := some s.now }
  let s := s.when (s.role == 2 && (s.frameOf s.epoch).isSome) (·.emit (.gangReadoutEnd s.epoch))
  s.proxyEnd.lmcReadoutEnd.substEnd

/-- The rows below `k` are resolved, in order; the last row ends the readout. -/
def State.resolveBelow (s : State) (k : Nat) : State :=
  let d := s.ppr.rowsDone
  let s := s.each ((List.range k).filter fun j => decide (d ≤ j)) fun s j => s.resolveRow j
  s.when (decide (d < s.fmtRows) && decide (s.fmtRows ≤ s.ppr.rowsDone)) State.finishReadout

/-- The rows due once line `n` has been accepted (R83). -/
def State.rowsDue (s : State) (n : Nat) : Nat := if n + 1 = s.fmtH then s.fmtRows else (n + 1) / 16

/-! ## Packets -/

/-- A packet is part of the frame: it sets the frame's count when none is set (R82). -/
def State.takeCount (s : State) (p : Packet) : State :=
  { s with ppr := { s.ppr with cnt := s.ppr.cnt.orElse fun _ => some p.frameCnt } }

/-- Packet length for a payload of `l` bytes (R80). -/
def packetLen (l : Nat) : Nat := (16 + l + 4 + 7) / 8 * 8

/-- Bit (b mod 8) of byte floor(b / 8) is bit b of the payload; samples of `d` bits, the least significant bit first (R81). -/
def unpackSamples (d : Nat) : Nat → Nat → List Nat
  | 0, _ => []
  | n + 1, v => v % 2 ^ d :: unpackSamples d n (v / 2 ^ d)

/-- The fields of a packet's bytes (R80, R81). -/
def packetOf (l : List Nat) : Packet :=
  let typ := rdLe l 0 1
  let n := rdLe l 6 2
  let d := rdLe l 8 1
  { typ := typ
    fs := bitAt (rdLe l 1 1) 0 == 1
    fe := bitAt (rdLe l 1 1) 1 == 1
    frameCnt := rdLe l 2 2
    line := rdLe l 4 2
    pixels := n
    depth := d
    bytes := l.length
    samples := if typ = 1 then unpackSamples d n (unle ((l.drop 16).take (n * d / 8))) else (l.drop 16).take n }

/-- The last four bytes of a packet are the CRC-32C of those before (R80). -/
def packetCrcOk (l : List Nat) : Bool := decide (4 ≤ l.length) && rdLe l (l.length - 4) 4 == crc32c (l.take (l.length - 4))

/-- The Tiler takes a line, in ascending order (R85), and rows may fall due (R83). -/
def State.takeLine (s : State) (p : Packet) : State :=
  let l := fit s.fmtW (p.samples.map (· % 2 ^ s.fmtD))
  let s := { s with ppr := { s.ppr with lines := (p.line, l) :: s.ppr.lines, nextLine := max s.ppr.nextLine (p.line + 1) } }
  s.resolveBelow (s.rowsDue p.line)

/-- The line that the Tiler waits for will not come: its link is down, or holds a later line (R79, R85). -/
def State.lineSkipped (s : State) : Bool :=
  let ls := s.linksInUse
  match ls[s.ppr.nextLine % ls.length]? with
  | none => true
  | some k => !s.linkUp k || s.ppr.buf.any fun e => e.1 == k

/-- The Tiler takes what lines it can from the assembly buffers; each step takes one or passes over one that is missing (R85). -/
def State.drainLines : Nat → State → State
  | 0, s => s
  | n + 1, s =>
    match s.ppr.buf.find? fun e => e.2.line == s.ppr.nextLine with
    | some e => ({ s with ppr := { s.ppr with buf := s.ppr.buf.filter fun x => x.2.line != e.2.line } }.takeLine e.2).drainLines n
    | none =>
      if s.ppr.buf = [] ∨ !s.lineSkipped then s
      else { s with ppr := { s.ppr with nextLine := s.ppr.nextLine + 1 } }.drainLines n

/-- The lines left in the assembly buffers are taken, as the frame ends. -/
def State.flushLines (s : State) : State :=
  { s with ppr := { s.ppr with buf := [] } }.each (sortBy (fun (e : Nat × Packet) => e.2.line) s.ppr.buf) fun s e => s.takeLine e.2

/-- Packets of a link in its two-line assembly buffer (R85, R86). -/
def State.buffered (s : State) (link : Nat) : Nat := ((s.ppr.buf ++ s.ppr.held).filter fun e => e.1 == link).length

/-- A line packet passes the checks of R82. -/
def State.lineOk (s : State) (p : Packet) : Bool :=
  p.bytes == packetLen (p.pixels * p.depth / 8) && p.depth == s.fmtD && p.pixels == s.fmtW && decide (p.line < s.fmtH) &&
    (s.ppr.cnt.isNone || s.ppr.cnt == some p.frameCnt) && (s.line p.line).isNone && s.ppr.buf.all fun e => e.2.line != p.line

/-- A line packet is checked, and accepted into its link's assembly buffer, from which the Tiler takes it (R82, R85, R86). A line before
the one that the Tiler takes next is taken at once. A line or packet that comes before any Beacon has opened a frame is taken into a
frame under epoch 0: DESIGN CHOICE, log entry 84. -/
def State.acceptLine (s : State) (link : Nat) (p : Packet) : State :=
  if !s.lineOk p then s.inc PPR_DISCARD_FORMAT
  else if s.ppr.nextLine ≤ p.line ∧ 2 ≤ s.buffered link then s.inc PPR_DISCARD_FORMAT
  else
    let s := s.when (s.ppr.lines == [] && s.ppr.buf == []) State.lmcFirstLine
    let s := s.takeCount p
    let s := { s with ppr := { s.ppr with lastLine := s.ppr.lastLine || p.fe || p.line + 1 == s.fmtH } }
    if p.line < s.ppr.nextLine then s.takeLine p
    else { s with ppr := { s.ppr with buf := s.ppr.buf ++ [(link, p)] } }.drainLines (s.fmtH + 8)

/-- A metadata packet is checked against the limits of its frame and queued in SMETA (R84). -/
def State.acceptMeta (s : State) (p : Packet) : State :=
  let ok := decide (p.pixels ≤ 4096) && p.bytes == packetLen p.pixels && decide (s.ppr.metaPackets + 1 ≤ 256) &&
    decide (s.ppr.metaBytes + p.pixels ≤ 65536)
  if !ok then s.inc PPR_DISCARD_FORMAT
  else
    let s := s.takeCount p
    let s := { s with ppr := { s.ppr with metaPackets := s.ppr.metaPackets + 1, metaBytes := s.ppr.metaBytes + p.pixels } }
    if (s.frameOf s.epoch).isSome then
      (s.enqueue 64 0 ⟨s.epoch, 0xFFFF, 0xFF, 5, 0, fit p.pixels (p.samples.map (· % 256)), none⟩).2
    else s

/-- A packet of the frame in force, by its TYPE (R80, R82). -/
def State.acceptPacket (s : State) (link : Nat) (p : Packet) : State :=
  if p.typ = 1 then s.acceptLine link p else if p.typ = 2 then s.acceptMeta p else s.inc PPR_DISCARD_FORMAT

/-- A packet of the next frame comes before its Beacon (R86): it is held in its link's two-line buffer. -/
def State.holdPacket (s : State) (link : Nat) (p : Packet) : State :=
  if s.ppr.dropNext then s
  else if s.buffered link < 2 then
    { s with ppr := { s.ppr with held := s.ppr.held ++ [(link, p)] } }
  else
    let s := (s.inc PPR_LATE_EARLY_FRAMES).set PPR_EVENTS_EARLY 1
    { s with ppr := { s.ppr with held := [], dropNext := true } }

/-- A packet is received on a link (R74, R82, R86); in SAFE and in a hold-up none is accepted (R401, R427). -/
def State.receive (s : State) (link : Nat) (l : List Nat) : State :=
  let p := packetOf l
  if !(s.linkEn link && s.linkUp link) || s.get FC_LEVEL_LEVEL == 3 || s.flag KPR_STATUS_HOLDUP then s
  else if !packetCrcOk l then s.inc PPR_DISCARD_CRC
  else if s.ppr.lastLine && (p.fs || s.ppr.cnt != some p.frameCnt) then s.holdPacket link p
  else if !p.fs && s.ppr.cnt.isNone && s.ppr.prevCnt == some p.frameCnt then (s.inc PPR_LATE_LATE_LINES).set PPR_EVENTS_LATE 1
  else if s.ppr.dropped then s
  else s.acceptPacket link p

/-- LINE_PACKET (R80 to R83, R85, R86, R93). -/
def execLinePacket (link : Nat) (p : List Byte) (s : State) : Host.Outcome State Fault Refusal := .next (s.receive link (toNats p))

/-- METADATA_PACKET (R80, R84). -/
def execMetadataPacket (link : Nat) (p : List Byte) (s : State) : Host.Outcome State Fault Refusal := .next (s.receive link (toNats p))

/-- A frame is empty (R488): no packet of it has been accepted, as of a dropped frame. -/
def State.emptyFrame (s : State) : Bool := s.ppr.lines == [] && s.ppr.buf == [] && s.ppr.metaPackets == 0

/-- The frame in progress ends at a Beacon (R83, R146, R488): its rows still unresolved fall due, unless it is empty and no clip is open
or no Beacon has opened it. -/
def State.endFrame (s : State) : State :=
  if s.emptyFrame && !(s.clipOpen && s.ppr.opened) then s.substEnd
  else (s.flushLines.resolveBelow s.fmtRows).substEnd

/-- The receiver turned to the frame that the Beacon opens. -/
def Ingest.next (p : Ingest) : Ingest :=
  { p with
    lanes := p.lanes.map (fun l => { l with errors := 0 })
    opened := true
    cnt := none
    prevCnt := p.cnt
    buf := []
    nextLine := 0
    lines := []
    lastLine := false
    rowsDone := 0
    held := []
    dropNext := false
    dropped := p.dropNext
    metaPackets := 0
    metaBytes := 0
    readoutEnd := none }

/-- The receiver turns to the frame that the Beacon opens. -/
def State.turnFrame (s : State) : State := { s with ppr := s.ppr.next, proxy := { s.proxy with gather := [] } }

/-- The held packets are released to the frame that has opened, unless it is dropped (R86). -/
def State.releaseHeld (s : State) (held : List (Nat × Packet)) : State :=
  if s.ppr.dropped then s else s.each held fun s e => s.acceptPacket e.1 e.2

end Sys2Proof.Machine
end

