-- ==== Sys2Proof/Machine/Engines.lean ====
section
/-! DEFINITION. The Coding Engines (R16 to R27, R138, R181 to R184, R200 to R224): states, machine checks, isolation and
retirement, Engine-reach resets and microcode loads, the indirect access port, and the coding of a tile-stripe. -/

namespace Sys2Proof.Machine

/-! ## Engines and their states -/

/-- Engine `e`. -/
def State.eng (s : State) (e : Nat) : Engine := s.engines.getD e Engine.reset

/-- Change engine `e`. -/
def State.modEng (s : State) (e : Nat) (f : Engine → Engine) : State := { s with engines := modAt s.engines e f }

/-- The state code of engine `e` (R207): 0 OFF, 1 RESETTING, 2 READY, 3 BOUND, 4 HALTED, 5 ISOLATED, 6 RETIRED. -/
def State.engState (s : State) (e : Nat) : Nat := s.get (CE_ENG_STATE_STATE e)

/-- Engine `e` takes a state. -/
def State.setEng (s : State) (e st : Nat) : State := s.set (CE_ENG_STATE_STATE e) st

/-- The engine is the spare of its region. -/
def isSpare (e : Nat) : Bool := e % 17 == 16

/-- The spare of an engine's region. -/
def spareOf (e : Nat) : Nat := e / 17 * 17 + 16

/-- Engine `e` holds valid microcode (R208). -/
def State.ucValid (s : State) (e : Nat) : Bool := s.flag (CE_ENG_UC_STAT_VALID e)

/-- The spare of region `r` stands in (R21, R222). -/
def State.standsIn (s : State) (r : Nat) : Bool := s.get (CE_RG_STATUS_SPARE r) == 1

/-- `CE_RG_STATUS.SPARE` of a region whose spare does not stand in. -/
def State.spareStatus (s : State) (r : Nat) : State :=
  if s.standsIn r then s
  else
    let e := 17 * r + 16
    let st := s.engState e
    s.set (CE_RG_STATUS_SPARE r) (if st = 1 then 2 else if (st = 0 ∨ st = 2) ∧ s.ucValid e then 0 else 3)

/-- A ramp slot is asked for once (R412). -/
def State.askSlot (s : State) (x : SlotReq) : State :=
  if s.kpr.slots.any (·.1 == x) then s else { s with kpr := { s.kpr with slots := s.kpr.slots ++ [(x, false)] } }

/-- A ramp slot is no longer needed. -/
def State.dropSlot (s : State) (x : SlotReq) : State :=
  { s with kpr := { s.kpr with slots := s.kpr.slots.filter (·.1 != x) } }

/-- The Keeper ungates a region's spare that is to take a position (R222, R412). -/
def State.wantSpare (s : State) (r : Nat) : State :=
  let e := 17 * r + 16
  if s.engState e = 0 ∧ s.ucValid e ∧ !s.standsIn r then s.askSlot (.spareUngate r) else s

/-- Every job of engine `e` is lost (R27, R214, R221). -/
def State.loseJobs (s : State) (e : Nat) : State :=
  let js := (s.eng e).jobs
  (s.modEng e fun g => { g with jobs := [] }).each js fun s j => s.loseTile j.epoch j.row j.column

/-! ## Availability (R17, R19, R21, R222, R409) -/

/-- The spare of a region could stand in (R222): READY, or OFF with valid microcode, and not standing in. -/
def State.spareUsable (s : State) (r : Nat) : Bool :=
  !s.standsIn r && !s.dieReset (r / 2) && (s.engState (17 * r + 16) == 0 || s.engState (17 * r + 16) == 2) && s.ucValid (17 * r + 16)

/-- An engine cannot serve at the next snapshot: isolated, retired, to be reset there, or on a codec die that is in reset
(R26, R27, R409). A gated die is ungated for the grant. -/
def State.engineBad (s : State) (e : Nat) : Bool :=
  s.engState e == 5 || s.engState e == 6 || (s.eng e).resetHeld || bitAt (s.get RSTC_HELD_DIE) (e / 34) == 1 || s.dieReset (e / 34)

/-- A replaced engine takes its position back at the next Beacon (R223). -/
def State.returns (s : State) (e : Nat) : Bool := s.engState e == 2 && (s.flag (CE_RG_CTRL_AUTO_RETURN (e / 17)) || (s.eng e).admitReq)

/-- An engine cannot serve its position at the next snapshot: it cannot serve, or the spare has taken the position and the engine does not
take it back there (R223), even when the spare has failed since (R214). -/
def State.engineOut (s : State) (e : Nat) : Bool := s.engineBad e || ((s.eng e).away && !s.returns e)

/-- The first position of a region whose engine cannot serve, which a usable spare would take (R222). -/
def State.firstOut (s : State) (r : Nat) : Option Nat := (List.range 16).find? fun i => s.engineBad (17 * r + i)

/-- The spare stands in at place `i` of region `r`. -/
def State.spareHolds (s : State) (r i : Nat) : Bool := s.standsIn r && s.get (CE_RG_STATUS_SPARE_POS r) == i

/-- The positions of region `r` that are available, in ascending order of quad and slot (R19, R409). -/
def State.available (s : State) (r : Nat) : List Nat :=
  (List.range 16).filter fun i =>
    s.spareHolds r i || !s.engineOut (17 * r + i) || (s.spareUsable r && s.firstOut r == some i)

/-- The engine that serves position `p` at the next snapshot: the spare where it stands in or is to. -/
def State.server (s : State) (p : Nat) : Nat :=
  let r := p / 16
  let e := 17 * r + p % 16
  if s.spareHolds r (p % 16) || (s.engineBad e && s.spareUsable r && s.firstOut r == some (p % 16)) then 17 * r + 16 else e

/-- Engine `e` is needed: it serves a column of the frame in force, or of the grant that is being formed, or its region's spare is to
take a position (R208, R220, R222). -/
def State.needed (s : State) (e : Nat) : Bool :=
  let grants := s.kpr.formed.toList ++ s.kpr.forming.toList
  (s.ppr.bind.any fun b => boundEngine b == e) || (grants.any fun g => g.pos.any fun p => s.server p == e) ||
    (isSpare e && !s.standsIn (e / 17) && (s.firstOut (e / 17)).isSome)

/-- An unbound engine with an empty queue becomes READY and is gated at its next macro-op boundary (R205, R207); a spare
that has given its position back says so (R223). -/
def State.settle (s : State) (e : Nat) : State :=
  if s.engState e = 3 ∧ (s.eng e).jobs = [] ∧ (s.ppr.bind.all fun b => boundEngine b != e) then
    let s := (s.setEng e 2).modEng e fun g => { g with gateReq := true }
    s.when (isSpare e && !s.standsIn (e / 17)) (·.set (CE_RG_EVENTS_SPARE_OUT (e / 17)) 1)
  else s

/-! ## Engine-reach resets -/

/-- A spare that stands in gives up its position: the position has no engine until the replaced one has returned (R214). -/
def State.leavePosition (s : State) (e : Nat) : State :=
  if isSpare e ∧ s.standsIn (e / 17) then (s.set (CE_RG_STATUS_SPARE (e / 17)) 3).set (CE_RG_STATUS_SPARE_POS (e / 17)) 0 else s

/-- An Engine-reach reset of engine `e` begins (R221): its jobs and a load in progress are abandoned. -/
def State.beginReset (s : State) (e : Nat) : State :=
  let s := s.loseJobs e
  let s := s.when (s.engState e == 1 && (s.eng e).loadFrom.isSome) (·.set (CE_ENG_UC_STAT_LOAD_ERR e) 5)
  let s := (s.setEng e 1).modEng e fun g =>
    { g with
      pc := 0
      stack := []
      macro_ := 0
      sram := LocalSram.reset
      haltReq := false
      gateReq := false
      resetHeld := false
      readyAt := none
      loadFrom := none
      ungating := false
      image := s.getAddr (CE_RG_UC_ADDR_ADDR (e / 17)) / 64 * 64 }
  ((s.leavePosition e).askSlot (.reset e)).spareStatus (e / 17)

/-- An Engine-reach reset is applied to engine `e`; a RETIRED one leaves that state only by UNRETIRE and a Cold reset (R207). -/
def State.applyReset (s : State) (e : Nat) : State :=
  if s.engState e = 6 then s.modEng e fun g => { g with resetHeld := false } else s.beginReset e

/-- An Engine-reach reset is requested: held to the next Beacon, or applied at once while the Beacon is stopped (R27,
R430). The spare is made ready for the position. -/
def State.requestReset (s : State) (e : Nat) : State :=
  if s.engState e = 6 then s
  else if s.beaconRuns then
    let s := s.modEng e fun g => { g with resetHeld := true }
    s.when (!isSpare e) (·.wantSpare (e / 17))
  else s.applyReset e

/-! ## Isolation and machine checks -/

/-- An isolation counts towards retirement (R209): an engine that is RETIRED is not reset. -/
def State.countIsolation (s : State) (e : Nat) : State :=
  let s := s.inc (CE_ENG_FAULTS_ISOLATIONS e)
  let lim := s.get (CE_RG_CTRL_RETIRE_LIMIT (e / 17))
  if lim ≠ 0 ∧ lim ≤ s.get (CE_ENG_FAULTS_ISOLATIONS e) then
    ((s.setEng e 6).set (CE_RG_EVENTS_RETIRED (e / 17)) 1).modEng e fun g => { g with resetHeld := false }
  else s

/-- A fault isolates engine `e` at once (R16, R27, R214). An engine that is ISOLATED or RETIRED stays so, and nothing is counted (log
entry 88). -/
def State.isolate (s : State) (e : Nat) : State :=
  if s.engState e = 5 ∨ s.engState e = 6 then s
  else
    let s := (s.setEng e 5).loseJobs e
    let s := s.modEng e fun g => { g with haltReq := false, gateReq := false, ungating := false, loadFrom := none }
    let s := (s.leavePosition e).countIsolation e
    (s.when (!isSpare e) (·.wantSpare (e / 17))).spareStatus (e / 17)

/-- INFO of a CE_MCHK record (R416). -/
def mchkInfo (cause ucAddr : Nat) : Nat := cause % 16 + (if cause = 1 ∨ cause = 6 then 65536 * (ucAddr % 8192) else 0)

/-- A machine check of engine `e` (R214): a job is in progress while its queue holds one. -/
def State.machineCheck (s : State) (e cause ucAddr quarter macroOp : Nat) : State :=
  let j := (s.eng e).jobs.head?
  let s := ((s.set (CE_ENG_MCHK_UC_ADDR e) ucAddr).set (CE_ENG_MCHK_QUARTER e) (if cause = 1 then quarter else 0)).set
    (CE_ENG_MCHK_CAUSE e) cause
  let s := (s.set (CE_ENG_MCHK_MACRO e) macroOp).set (CE_ENG_MCHK_JOB e) (b2n j.isSome)
  let s := s.set (CE_ENG_MCHK_EPOCH_EPOCH e) ((j.map (·.epoch)).getD 0)
  let s := (s.set (CE_ENG_MCHK_POS_ROW e) ((j.map (·.row)).getD 0)).set (CE_ENG_MCHK_POS_COLUMN e) ((j.map (·.column)).getD 0)
  let s := (s.raise 0x20 e (mchkInfo cause ucAddr)).isolate e
  s.requestReset e

/-- The engine executes microcode: READY or BOUND. -/
def State.runs (s : State) (e : Nat) : Bool := s.engState e == 2 || s.engState e == 3

/-- MACHINE_CHECK (R214). -/
def execMachineCheck (e : EngId) (cause ucAddr quarter macroOp : Nat) (s : State) : Host.Outcome State Fault Refusal :=
  .next (if s.runs (engNum e) ∧ 1 ≤ cause ∧ cause ≤ 5 then s.machineCheck (engNum e) cause ucAddr quarter macroOp else s)

/-- MACRO_OP_WATCHDOG (R214): cause 3. -/
def execMacroOpWatchdog (e : EngId) (ucAddr macroOp : Nat) (s : State) : Host.Outcome State Fault Refusal :=
  .next (if s.runs (engNum e) then s.machineCheck (engNum e) 3 ucAddr 0 macroOp else s)

/-! ## The sequencer (R211 to R215) -/

/-- A microword of the control store: a word that nothing has written is a free value, which it keeps. -/
def State.microword (s : State) (e k : Nat) : Nat × State :=
  match aget (s.eng e).store k with
  | some w => (w, s)
  | none =>
    if (s.eng e).trapFrom.any (decide <| · ≤ k) then (trapWord, s)
    else
      let (x, s) := s.draw
      let (y, s) := s.draw
      let (z, s) := s.draw
      let w := (x % 2 ^ 64 + 2 ^ 64 * (y % 2 ^ 64) + 2 ^ 128 * (z % 2 ^ 16))
      (w, s.modEng e fun g => { g with store := aput g.store k w })

/-- An upset turns one bit of a stored microword: which is a free value. -/
def State.upsetWord (s : State) (e k : Nat) : State :=
  let (w, s) := s.microword e k
  let (v, s) := s.draw
  s.modEng e fun g => { g with store := aput g.store k (w ^^^ 2 ^ (v % 144)) }

/-- CONTROL_STORE_SCRUB (R215): a word that has not been fetched; the engine goes on with it. -/
def execControlStoreScrub (e : EngId) (ucAddr : Nat) (parityBad : Bool) (s : State) : Host.Outcome State Fault Refusal :=
  let n := engNum e
  .next (if (s.runs n || s.engState n == 4) && parityBad then
    ((s.upsetWord n ucAddr).raise 0x20 n (mchkInfo 6 ucAddr)).requestReset n
  else s)

/-- How a run of microwords ends (R212, R214): with a macro-op, or in a machine check: its cause, word address and failing quarters. -/
inductive UcEnd where
  | boundary
  | check (cause addr quarters : Nat)
  deriving DecidableEq, Repr

/-- The macro-op that the sequencer dispatches next, for a free `v` (R212, R213): JOB_BEGIN where a job waits in IDLE, IDLE where there is
none. Which macro-op follows another within a job belongs to the image: a free value below the length of its dispatch table. -/
def State.nextMacro (s : State) (e v : Nat) : Nat :=
  let g := s.eng e
  if s.engState e ≠ 3 ∨ g.jobs = [] then 0 else if g.macro_ = 0 then 1 else v % max 1 g.dispatch.length

/-- The sequencer runs to the next word with MOB set (R211, R212, R214): `clocks` have passed since the last. COND selects a condition that
the image's quarters 1 to 3 give: a free value. -/
def State.runWords (e : Nat) : Nat → Nat → State → UcEnd × State
  | 0, _, s => (.check 3 (s.eng e).pc 0, s)
  | fuel + 1, clocks, s =>
    let a := (s.eng e).pc
    let (w, s) := s.microword e a
    if badQuarters w ≠ 0 then (.check 1 a (badQuarters w), s)
    else
      let (v, s) := s.draw
      let m := s.nextMacro e (v / 2)
      match nextWord w a (s.eng e).stack (v % 2 == 1) ((s.eng e).dispatch.getD m 0) with
      | none => (.check 2 a 0, s)
      | some (pc, stack) =>
        let s := s.modEng e fun g => { g with pc := pc, stack := stack, macro_ := if naMode w = 5 then m else g.macro_ }
        if mobOf w then (.boundary, s)
        else if 4096 ≤ clocks + wordClocks w then (.check 3 a 0, s)
        else State.runWords e fuel (clocks + wordClocks w) s

/-- An engine that is OFF: its datapath and local SRAM are gated (R207). -/
def State.gateEngine (s : State) (e : Nat) : State :=
  ((s.setEng e 0).modEng e fun g => { g with haltReq := false, gateReq := false, readyAt := none }).spareStatus (e / 17)

/-- The events HALT and gating request that wait at a boundary, in this order (R213); in SAFE and in hold-up an engine halts and is gated
(R401, R427). -/
def State.takeEvents (s : State) (e : Nat) : State :=
  let g := s.eng e
  if g.haltReq && s.runs e && (s.get FC_LEVEL_LEVEL == 3 || s.flag KPR_STATUS_HOLDUP) then s.gateEngine e
  else if g.haltReq && s.engState e == 2 then (s.setEng e 4).modEng e fun g => { g with haltReq := false }
  else if g.gateReq && s.engState e == 2 then s.gateEngine e
  else s

/-- The engine's sequencer reaches the end of its macro-op, or takes a machine check on the way. An engine whose control store no load has
filled runs nothing. -/
def State.runMacro (s : State) (e : Nat) : UcEnd × State :=
  if (s.eng e).dispatch = [] then (.boundary, s) else State.runWords e 4097 0 s

/-- MACRO_OP_BOUNDARY (R213): the sequencer runs to the boundary; a halt, then a gating request. A job is taken by ENGINE_JOB. -/
def execMacroOpBoundary (e : EngId) (s : State) : Host.Outcome State Fault Refusal :=
  let n := engNum e
  .next (if !s.runs n then s
  else
    match s.runMacro n with
    | (.boundary, t) => t.takeEvents n
    | (.check c a q, t) => t.machineCheck n c a q (t.eng n).macro_)

/-! ## Microcode loads -/

/-- The stepping of the codec die of region `r` (R472). -/
def State.stepping (s : State) (r : Nat) : Nat := s.nor.daymark.getD (41 + r / 2) 0

/-- A load of engine `e`'s control store from the image its load or reset took (R217, R218): the error code, 0 for none. -/
def State.load (s : State) (e : Nat) (readBackOk : Bool) : Nat × State :=
  let a := (s.eng e).image
  match s.memRead a 64 with
  | (none, s) => (1, s)
  | (some h, s) =>
    if !imageHeaderOk (s.stepping (e / 17)) h then (1, s)
    else
      let n := rdLe h 20 2
      match s.memRead a (64 + 18 * n + 2 * rdLe h 22 2) with
      | (none, s) => (2, s)
      | (some l, s) =>
        let crc := crc32c (l.drop 64)
        if crc ≠ rdLe h 28 4 ∨ crc ≠ s.get (CE_RG_UC_CRC_CRC (e / 17)) then (2, s)
        else
          let ws := imageWords l n
          let good := ws.takeWhile parityOk
          let keep := (s.eng e).store.filter fun p => decide (good.length ≤ p.1)
          if good.length < n then
            (3, s.modEng e fun g => { g with store := (good.zipIdx.map fun p => (p.2, p.1)) ++ keep })
          else
            let s := s.modEng e fun g =>
              { g with
                store := ws.zipIdx.map (fun p => (p.2, p.1))
                trapFrom := some n
                dispatch := imageDispatch l n (rdLe h 22 2) }
            if !readBackOk then (4, s)
            else
              let s := (s.set (CE_ENG_UC_VER_MAJOR e) (rdLe h 8 2)).set (CE_ENG_UC_VER_MINOR e) (rdLe h 10 2)
              (0, (s.set (CE_ENG_UC_BUILD_BUILD e) (rdLe h 12 4)).set (CE_ENG_UC_EPOCH_EPOCH e) (rdLe h 16 4))

/-- A load that succeeded or failed is noted (R218). -/
def State.noteLoad (s : State) (e err : Nat) : State :=
  let s := (s.set (CE_ENG_UC_STAT_VALID e) (b2n (err == 0))).set (CE_ENG_UC_STAT_LOAD_ERR e) err
  s.when (err != 0) (·.set (CE_RG_EVENTS_LOAD_FAIL (e / 17)) 1)

/-- The engine reaches READY: its sequencer stands in IDLE. -/
def State.reachReady (s : State) (e : Nat) : State :=
  ((s.setEng e 2).modEng e fun g =>
    { g with
      readyAt := some s.now
      pc := g.dispatch.getD 0 0
      stack := []
      macro_ := 0 }).spareStatus (e / 17)

/-- A load that ended in READY (R220). -/
def State.loaded (s : State) (e : Nat) : State := (s.reachReady e).set (CE_RG_EVENTS_LOAD_DONE (e / 17)) 1

/-- MICROCODE_LOAD_DONE (R218, R220): an engine that was OFF returns to OFF when it is not needed. -/
def execMicrocodeLoadDone (e : EngId) (readBackOk : Bool) (s : State) : Host.Outcome State Fault Refusal :=
  let n := engNum e
  .next (match s.engState n, (s.eng n).loadFrom with
  | 1, some from_ =>
    let (err, t) := s.load n readBackOk
    let t := ((t.noteLoad n err).modEng n fun g => { g with loadFrom := none }).dropSlot (.load n)
    if err ≠ 0 then (t.setEng n 5).spareStatus (n / 17)
    else if from_ = 0 ∧ !t.needed n then (t.loaded n).gateEngine n
    else t.loaded n
  | _, _ => s)

/-- ENGINE_RESET_DONE (R221): a reset that ends in ISOLATED counts as a fault isolation. -/
def execEngineResetDone (e : EngId) (readBackOk selfTestOk : Bool) (s : State) : Host.Outcome State Fault Refusal :=
  let n := engNum e
  .next (if s.engState n = 1 ∧ (s.eng n).loadFrom = none then
    let (err, t) := s.load n readBackOk
    let t := (t.noteLoad n err).dropSlot (.reset n)
    if err = 0 ∧ selfTestOk then t.loaded n else ((t.setEng n 5).countIsolation n).spareStatus (n / 17)
  else s)

/-- ENGINE_UNGATE_DONE (R208): the local SRAM is clear; a word of wrong parity isolates the engine with cause 1. -/
def execEngineUngateDone (e : EngId) (bad : Option (Nat × Nat)) (s : State) : Host.Outcome State Fault Refusal :=
  let n := engNum e
  .next (if s.engState n = 0 ∧ (s.eng n).ungating then
    let t := s.modEng n fun g => { g with ungating := false, sram := LocalSram.reset }
    match bad with
    | none => t.reachReady n
    | some (a, q) => (t.upsetWord n a).machineCheck n 1 a q 0
  else s)

/-! ## Commands of CE_ENG_CMD -/

/-- A command not accepted (R207). -/
def State.refuseCe (s : State) (e : Nat) : State := s.cfg (CE_ENG_CMD_HALT e).off

/-- CE_HALT (R207): READY goes to HALTED at the next macro-op boundary. -/
def execCeHalt (a : Agent) (e : EngId) (s : State) : Host.Outcome State Fault Refusal :=
  .next (s.access a (CE_ENG_CMD_HALT (engNum e)).off fun s =>
    if s.engState (engNum e) = 2 then s.modEng (engNum e) fun g => { g with haltReq := true } else s.refuseCe (engNum e))

/-- CE_RESUME (R207): HALTED goes to READY. -/
def execCeResume (a : Agent) (e : EngId) (s : State) : Host.Outcome State Fault Refusal :=
  .next (s.access a (CE_ENG_CMD_HALT (engNum e)).off fun s =>
    if s.engState (engNum e) = 4 then
      ((s.setEng (engNum e) 2).modEng (engNum e) fun g => { g with readyAt := some s.now }).spareStatus ((engNum e) / 17)
    else s.refuseCe (engNum e))

/-- CE_LOAD (R218, R220). -/
def execCeLoad (a : Agent) (e : EngId) (s : State) : Host.Outcome State Fault Refusal :=
  let n := engNum e
  .next (s.access a (CE_ENG_CMD_HALT n).off fun s => s.mgcOnly a (CE_ENG_CMD_HALT n).off fun s =>
    let st := s.engState n
    if st = 0 ∨ st = 2 ∨ st = 4 then
      let t := (s.setEng n 1).modEng n fun g =>
        { g with loadFrom := some st, image := s.getAddr (CE_RG_UC_ADDR_ADDR (n / 17)) / 64 * 64, haltReq := false, ungating := false }
      (t.when (st == 0) (·.askSlot (.load n))).spareStatus (n / 17)
    else s.refuseCe n)

/-- CE_RESET (R27, R430): every state but RETIRED accepts it. -/
def execCeReset (a : Agent) (e : EngId) (s : State) : Host.Outcome State Fault Refusal :=
  .next (s.access a (CE_ENG_CMD_HALT (engNum e)).off fun s =>
    if s.engState (engNum e) = 6 then s.refuseCe (engNum e) else s.requestReset (engNum e))

/-- CE_UNRETIRE (R209, R220). -/
def execCeUnretire (a : Agent) (e : EngId) (s : State) : Host.Outcome State Fault Refusal :=
  .next (s.access a (CE_ENG_CMD_HALT (engNum e)).off fun s => s.mgcOnly a (CE_ENG_CMD_HALT (engNum e)).off fun s =>
    if s.engState (engNum e) = 6 then (s.setEng (engNum e) 5).set (CE_ENG_FAULTS_ISOLATIONS (engNum e)) 0 else s.refuseCe (engNum e))

/-- The position of an engine that is no spare, as `CE_RG_STATUS.SPARE_POS` holds it. -/
def posOf (e : Nat) : Nat := e % 17

/-- CE_ADMIT (R223): accepted while the spare has the engine's position, or had it when it failed. -/
def execCeAdmit (a : Agent) (e : EngId) (s : State) : Host.Outcome State Fault Refusal :=
  let n := engNum e
  .next (s.access a (CE_ENG_CMD_HALT n).off fun s =>
    if (s.eng n).away then
      s.modEng n fun g => { g with admitReq := true }
    else s.refuseCe n)

/-- CE_CLR_COUNTS (R224). -/
def execCeClrCounts (a : Agent) (e : EngId) (s : State) : Host.Outcome State Fault Refusal :=
  .next (s.access a (CE_ENG_CLR_CLR_COUNTS (engNum e)).off fun s =>
    s.clear [CE_ENG_VCOUNT_CODED (engNum e), CE_ENG_VCOUNT_ESCAPE (engNum e), CE_ENG_VERIFIED_COUNT (engNum e), CE_ENG_FAULTS_SRAM_CORR (engNum e)])

/-! ## The indirect access port (R224) -/

/-- The engine is halted for the port (R224). -/
def State.iaHalted (s : State) (e : Nat) : Bool := [2, 4, 5, 6].contains (s.engState e)

/-- The five data registers of the port. -/
def State.iaData (s : State) (e : Nat) (w : Nat) : State :=
  (((((s.set (CE_ENG_IA_DATA0_DATA e) (bits w 0 32)).set (CE_ENG_IA_DATA1_DATA e) (bits w 32 32)).set (CE_ENG_IA_DATA2_DATA e)
    (bits w 64 32)).set (CE_ENG_IA_DATA3_DATA e) (bits w 96 32)).set (CE_ENG_IA_DATA4_DATA e) (bits w 128 16))

/-- What ECC says of an SRAM word, as DATA1 shows it. -/
def eccFlags (e : EccFinding) : Nat := match e with | .clean => 0 | .correctable => 1 | .uncorrectable _ _ => 2

/-- What a read of the local SRAM finds (R202): an uncorrectable error is a machine check in every state. -/
def State.sramFound (s : State) (e : Nat) (ecc : EccFinding) : State :=
  match ecc with
  | .clean => s
  | .correctable => (s.inc (CE_ENG_FAULTS_SRAM_CORR e)).raise 0x22 e 0
  | .uncorrectable _ _ => s.machineCheck e 4 (s.eng e).pc 0 (s.eng e).macro_

/-- A word of the local SRAM: 0 while it is clear. Where its areas lie is not given, so that any other word is a free value, which it
keeps until the contents change (log entry 88). -/
def State.sramWord (s : State) (e k : Nat) : Nat × State :=
  let m := (s.eng e).sram
  match aget m.read k with
  | some v => (v, s)
  | none =>
    if { m with read := [] } = LocalSram.reset then (0, s)
    else
      let (v, s) := s.draw
      (v % 2 ^ 32, s.modEng e fun g => { g with sram := { g.sram with read := aput g.sram.read k (v % 2 ^ 32) } })

/-- A word of region `r`'s SRAM, likewise. -/
def State.regionWord (s : State) (r k : Nat) : Nat × State :=
  match aget (s.regions.getD r Region.reset).read k with
  | some v => (v, s)
  | none =>
    let (v, s) := s.draw
    (v % 2 ^ 32, { s with regions := modAt s.regions r fun g => { g with read := aput g.read k (v % 2 ^ 32) } })

/-- CE_IA_READ (R224). -/
def execCeIaRead (a : Agent) (e : EngId) (ecc : EccFinding) (s : State) : Host.Outcome State Fault Refusal :=
  let n := engNum e
  .next (s.access a (CE_ENG_IA_CMD_READ n).off fun s =>
    if !s.iaHalted n then s.cfg (CE_ENG_IA_CMD_READ n).off
    else
      let sp := s.get (CE_ENG_IA_SEL_SPACE n)
      let ad := s.get (CE_ENG_IA_ADDR_ADDR n)
      let t := s.set (CE_ENG_IA_ADDR_ADDR n) (ad + (if sp = 1 then 1 else 4))
      let flags := 2 ^ 32 * eccFlags ecc
      if sp = 0 ∧ ad < 131072 then
        let (v, t) := t.sramWord n (ad / 4)
        (t.iaData n (v + flags)).sramFound n ecc
      else if sp = 1 ∧ ad < 8192 then
        let (w, t) := t.microword n ad
        t.iaData n w
      else if sp = 2 ∧ ad < 4194304 then
        let (v, t) := t.regionWord (n / 17) (ad / 4)
        t.iaData n (v + flags)
      else (t.iaData n 0).cfg (CE_ENG_IA_CMD_READ n).off)

/-! ## Coding a tile-stripe -/

/-- The difference of two arrays. -/
def subArr (a b : List (List Int)) : List (List Int) := (a.zip b).map fun p => (p.1.zip p.2).map fun q => q.1 - q.2

/-- The escape record of a job (R129 to R131); `replaced` for one that takes the place of a coded record (R183). -/
def Job.escape (j : Job) (replaced : Bool) : TsRec :=
  let y := escapePayload j.depth j.width j.lines
  ⟨1, j.patched, replaced, false, [], escapeSeg (escapeKey y) y⟩

/-- The values of a job's bands, component by component (R97, R102). -/
def Job.values (j : Job) : List (List (List Int)) := (components j.mono j.cfa j.depth j.width j.lines).flatMap bands

/-- The code-blocks of a job, with the values each codes: residuals in bands 0 and 1 of a predicted tile-stripe (R123). -/
def Job.blocks (j : Job) (ref : Option Ref) : List (List (List Int) × CodedBlock) :=
  j.values.zipIdx.map fun v =>
    let b := v.2 % 8
    let x := match ref with
      | some r => if b ≤ 1 then subArr v.1 (r.vals.getD (2 * (v.2 / 8) + b) []) else v.1
      | none => v.1
    let (h, w) := bandSize j.mono j.width b
    (x, codeBlock h w (bandOrient b) x)

/-- The coded record of a job (R168), with its pass records (R141). -/
def Job.coded (j : Job) (weight : Nat) (pred : Bool) (bs : List (List (List Int) × CodedBlock)) : TsRec :=
  ⟨0, j.patched, false, pred,
    bs.zipIdx.map fun p => blockRec (truncatable j.mode j.temporal p.2) (blockShift weight j.mono p.2) p.1.1 p.1.2, []⟩

/-- The bins coded for each code-block (R138). -/
def binsOf (bs : List (List (List Int) × CodedBlock)) : List Nat := bs.map fun p => p.2.bins.getLastD 0

/-- What the encode pipe makes of a job (R138): the record, the kind of escape, 0 none, 1 budget, 2 size, 3 forced, and the values and the
bins of its code-blocks. -/
structure Encoded where
  rec_ : TsRec
  kind : Nat
  values : List (List (List Int))
  bins : List Nat
  deriving DecidableEq, Repr

/-- The encode pipe (R138). -/
def Job.encode (j : Job) (weight : Nat) (ref : Option Ref) : Encoded :=
  if j.forced then ⟨j.escape false, 3, [], []⟩
  else
    let bs := j.blocks ref
    let bins := binsOf bs
    if binBudget j.width ≤ bins.sum then ⟨j.escape false, 1, bs.map (·.1), bins⟩
    else
      let c := j.coded weight ref.isSome bs
      let x := j.escape false
      if j.mode = 0 ∧ (x.bytes false).length < (c.bytes false).length then ⟨x, 2, bs.map (·.1), bins⟩ else ⟨c, 0, bs.map (·.1), bins⟩

/-- The escapes of R138 are counted. -/
def State.countEscape (s : State) (kind : Nat) : State :=
  match kind with
  | 1 => s.inc FAL_ESC_BUDGET
  | 2 => s.inc FAL_ESC_SIZE
  | 3 => s.inc FAL_ESC2_FORCED
  | _ => s

/-! ## The verify pipe (R181 to R183) -/

/-- A byte of a list is replaced. -/
def patchByte (l : List Nat) (i v : Nat) : List Nat := if i < l.length then l.set i v else l

/-- What upsets of the encode pipe make of a record: in a code-block, place 0 is its plane count, place i + 1 byte i of every segment. -/
def TsRec.upset (r : TsRec) (f : JobFaults) : TsRec :=
  let b := f.coded.foldl (fun (bs : List BlockRec) u =>
    modAt bs u.1 fun b =>
      if u.2.1 = 0 then { b with planes := u.2.2.toNat } else { b with segs := b.segs.map fun p => (p.1, patchByte p.2 (u.2.1 - 1) u.2.2.toNat) })
    r.blocks
  { r with blocks := b, seg := if r.form = 1 then f.escape.foldl (fun l u => patchByte l u.1 u.2.toNat) r.seg else r.seg }

/-- An escape record gives the job's samples back (R182). -/
def Job.escapeHolds (j : Job) (r : TsRec) : Bool := escapeSamples j.depth j.width r.seg == some j.lines

/-- The samples that the verify pipe reconstructs from a coded record (R181): none where the table is invalid, a segment breaks R121, or
the bins decoded for a code-block differ in number from those encoded. -/
def Job.verified (j : Job) (ref : Option Ref) (bins : List Nat) (r : TsRec) : Option (List (List Int)) :=
  let t := r.blocks.map fun b => (b.planes, b.whole, (b.seg b.whole).length)
  let dec := decodeBlocks j.mono j.width t (r.blocks.flatMap fun b => b.seg b.whole)
  if !tableOk t || dec.any (·.isNone) || dec.map (fun b => (b.map (·.2)).getD 0) != bins then none
  else
    let vals := dec.map fun b => (b.map (·.1)).getD []
    some (samplesOf j.mono j.cfa j.depth j.width (match ref with | some p => addRef p vals | none => vals))

/-- A coded record gives the job's samples back (R181). -/
def Job.codedHolds (j : Job) (ref : Option Ref) (bins : List Nat) (r : TsRec) : Bool :=
  j.verified ref bins r == some (j.lines.map fun l => l.map fun v => (v : Int))

/-- A verify mismatch (R183): fault, held Engine-reach reset, and the engines of R425. -/
def State.mismatch (s : State) (e : Nat) (j : Job) : State :=
  let s := s.raise 0x21 e 0
  let l := s.get FC_LEVEL_CTRL_VFAIL_LIMIT
  let new := !s.fc.vfail.contains e
  let s := { s with fc := { s.fc with vfail := if new then s.fc.vfail ++ [e] else s.fc.vfail } }
  let s := s.when (new && l != 0 && decide (l ≤ s.fc.vfail.length)) (·.wantBasic 9 0)
  (s.modFrame j.epoch fun f => { f with vfail := f.vfail ++ [(j.row, j.column)] }).requestReset e

/-- The lost record of a job. -/
def Job.lost (j : Job) : TsRec := { TsRec.lost with patched := j.patched }

/-- The verify pipe judges the record `r` that the encode pipe has made (R181 to R183): what is queued. An upset of the engine's escape
stripe reaches the one that takes a coded record's place, too. -/
def State.verify (s : State) (e : Nat) (j : Job) (ref : Option Ref) (bins : List Nat) (r : TsRec) (f : JobFaults) : TsRec × State :=
  if !j.verify then (r, s)
  else if r.form = 1 then
    if j.escapeHolds r then (r, s.inc (CE_ENG_VERIFIED_COUNT e)) else (j.lost, (s.inc (CE_ENG_VCOUNT_ESCAPE e)).mismatch e j)
  else if j.codedHolds ref bins r then (r, s.inc (CE_ENG_VERIFIED_COUNT e))
  else
    let s := (s.inc (CE_ENG_VCOUNT_CODED e)).mismatch e j
    let x := (j.escape true).upset f
    if j.escapeHolds x then (x, (s.inc FAL_ESC2_VREPL).inc (CE_ENG_VERIFIED_COUNT e))
    else (j.lost, (s.inc (CE_ENG_VCOUNT_ESCAPE e)).mismatch e j)

/-! ## Jobs -/

/-- The reference of a job whose prediction is allowed (R123 to R125). -/
def State.refFor (s : State) (j : Job) (x0 : Nat) : Option Ref :=
  if j.temporal && j.predict && (s.frameOf j.epoch).any (fun f => f.predict && !s.keyDue f) then
    (s.refs.find? fun x => x.1 == (j.epoch + 2 ^ 32 - 1) % 2 ^ 32 && x.2.row == j.row && x.2.x0 == x0 && x.2.w == j.width &&
      x.2.whole).map (·.2)
  else none

/-- A job whose consistency checks hold (R206). -/
def Job.ok (j : Job) : Bool := decide (128 ≤ j.width ∧ j.width ≤ 512) && [10, 12, 14, 16].contains j.depth

/-- What the areas of the local SRAM hold once a job has been coded and `r` queued (R200). -/
def LocalSram.after (m : LocalSram) (j : Job) (ref : Option Ref) (x : Encoded) (r : TsRec) : LocalSram :=
  { coeffs := if j.forced then m.coeffs else x.values
    verify := if j.verify && r.form == 0 then ((j.verified ref x.bins r).getD []).map fun l => l.map (clipSample j.depth) else m.verify
    samples := escapePayload j.depth j.width j.lines
    staging := r.bytes false
    passes := if r.form = 0 then r.blocks.map (·.hull) else []
    scratch := true
    read := [] }

/-- A reference is kept in the region's SRAM while its frame is on its way (R124, R126). -/
def State.keepRef (s : State) (e : Nat) (j : Job) (x0 : Nat) (r : TsRec) : State :=
  if j.temporal ∧ r.form = 0 ∧ (s.frameOf j.epoch).isSome then
    { s with
      refs := s.refs ++ [(j.epoch, ⟨j.row, x0, j.width, true, (j.values.zipIdx.filter (·.2 % 8 ≤ 1)).map (·.1)⟩)]
      regions := modAt s.regions (e / 17) fun g => { g with read := [] } }
  else s

/-- Engine `e` codes its job `j` (R201, R202): it is verified, queued, and its partition space freed. -/
def State.runJob (s : State) (e : Nat) (j : Job) (f : JobFaults) : State :=
  let f? := s.frameOf j.epoch
  let x0 := (f?.map fun f => f.info.colStart j.column).getD 0
  let ref := s.refFor j x0
  let x := j.encode ((f?.map (·.weight)).getD 0) ref
  let (q, s) := (s.countEscape x.kind).verify e j ref x.bins (x.rec_.upset f) f
  let s := s.modEng e fun g => { g with sram := g.sram.after j ref x q }
  (s.keepRef e j x0 q).queueRecord j.epoch j.row j.column (q.entryFlags j.verify) q

/-- What the read of the partition finds (R202): whether the tile-stripe can be coded. -/
def State.partFound (s : State) (q : Nat) (ecc : EccFinding) : Bool × State :=
  match ecc with
  | .clean => (true, s)
  | .correctable => (true, s.inc (CE_Q_ECC_CORR q))
  | .uncorrectable _ _ => (false, (s.inc (CE_Q_ECC_UNCORR q)).raise 0x23 q 0)

/-- The first job of engine `e`'s queue is carried out (R201, R202, R206). -/
def State.takeJob (s : State) (e : Nat) (j : Job) (rest : List Job) (f : JobFaults) : State :=
  let g := s.eng e
  if !j.ok then s.machineCheck e 5 g.pc 0 1
  else
    match f.sram with
    | .uncorrectable _ _ => s.machineCheck e 4 g.pc 0 1
    | _ =>
      let s := (s.modEng e fun g => { g with jobs := rest, pc := g.dispatch.getD 0 0, stack := [], macro_ := 0 }).sramFound e f.sram
      let (ok, s) := s.partFound (j.slot / 4) f.part
      let s := if ok then s.runJob e j f else s.queueRecord j.epoch j.row j.column (j.lost.entryFlags j.verify) j.lost
      s.settle e

/-- ENGINE_JOB (R201, R202, R204, R206): a halt or a gating request that waits is taken first (R213). -/
def execEngineJob (e : EngId) (sram part : EccFinding) (coded : List (Nat × Nat × Byte)) (escape : List (Nat × Byte)) (s : State) :
    Host.Outcome State Fault Refusal :=
  let n := engNum e
  .next (match (s.eng n).jobs with
  | [] => s
  | j :: rest =>
    if s.engState n ≠ 3 then s else if (s.eng n).haltReq then s.takeEvents n else s.takeJob n j rest ⟨sram, part, coded, escape⟩)

end Sys2Proof.Machine
end

