-- ==== Sys2Proof/Machine/Firmware.lean ====
section
/-! DEFINITION. The Daymark, firmware and microcode images, boot records, the boot ROM's choice (R471 to R479), and the
loading of new microcode in service. -/

namespace Sys2Proof.Machine

/-! ## The Daymark (R472) -/

/-- A byte of the Daymark. -/
def State.fused (s : State) (i : Nat) : Nat := s.nor.daymark.getD i 0

/-- The Daymark's CRC is right. -/
def State.daymarkOk (s : State) : Bool := crc32c (s.nor.daymark.take 252) == rdLe s.nor.daymark 252 4

/-- The Daymark enables factory test. -/
def State.factoryTest (s : State) : Bool := bitAt (s.fused 43) 0 == 1

/-- A byte of the Daymark is raised, and its CRC with it. -/
def State.fuse (s : State) (i v : Nat) : State :=
  let d := setAt s.nor.daymark i v
  { s with nor := { s.nor with daymark := d.take 252 ++ le 4 (crc32c (d.take 252)) } }

/-- MAC_BASE, little-endian as every field of the Daymark is (R472). -/
def State.macBase (s : State) : Nat := rdLe s.nor.daymark 44 6

/-- The reset values that the Daymark gives: the MAC of each Ethernet port. -/
def State.fusedResets (s : State) : State :=
  (s.set (ETH_P_MAC_ADDR 0) s.macBase).set (ETH_P_MAC_ADDR 1) (s.macBase + 1)

/-! ## Images -/

/-- A firmware image is valid (R473). -/
def State.fwValid (s : State) (l : List Nat) : Bool :=
  let n := rdLe l 20 4
  let key := rdLe l 24 1
  rdLe l 0 4 == 0x57464D45 && rdLe l 4 2 == 1 && rdLe l 6 2 == 64 && decide (rdLe l 16 4 ≤ 63) &&
    decide (4096 ≤ n ∧ n ≤ 1835008 ∧ n % 4096 = 0 ∧ 160 + n ≤ l.length ∧ key ≤ 3) && bitAt (rdLe l 25 1) (s.fused 40) == 1 &&
    bitAt (s.fused 52) key == 0 && decide (s.fused 54 ≤ rdLe l 16 4) && crc32c ((l.drop 64).take n) == rdLe l 28 4 &&
    Config.signatureOk (toBytes [0, key]) (toBytes (l.take (64 + n))) (toBytes ((l.drop (64 + n)).take 96))

/-- The bytes of a microcode image that its signature covers (R216). -/
def ucLen (l : List Nat) : Nat := 64 + 18 * rdLe l 20 2 + 2 * rdLe l 22 2

/-- A microcode image is valid (R216, R217): under some microcode key that is not revoked. -/
def State.ucImageValid (s : State) (l : List Nat) : Bool :=
  let n := ucLen l
  imageHeaderOk (s.fused 41) l && decide (16 ≤ rdLe l 22 2 ∧ rdLe l 22 2 ≤ 256 ∧ n + 96 ≤ l.length) &&
    decide (s.fused 55 ≤ rdLe l 16 4) && crc32c ((l.take n).drop 64) == rdLe l 28 4 &&
    (List.range 4).any fun k =>
      bitAt (s.fused 53) k == 0 && Config.signatureOk (toBytes [1, k]) (toBytes (l.take n)) (toBytes ((l.drop n).take 96))

/-- The image in a firmware slot. -/
def State.fwSlot (s : State) (k : Nat) : List Nat := s.nor.fw.getD k []

/-- The image in a microcode slot. -/
def State.ucSlot (s : State) (k : Nat) : List Nat := s.nor.uc.getD k []

/-! ## Boot records (R474) -/

/-- ACTIVE of the boot record in force. -/
def State.active (s : State) : Nat := (s.nor.boot.map (·.active)).getD 0

/-- TRIAL of the boot record in force. -/
def State.trial (s : State) : Nat := (s.nor.boot.map (·.trial)).getD 0

/-- A boot record is written: to the next slot of the sector that does not hold the record in force. The SEQ of a first
record is a free value. -/
def State.writeBoot (s : State) (active trial : Nat) : State :=
  match s.nor.boot with
  | none =>
    let (v, s) := s.draw
    { s with nor := { s.nor with boot := some ⟨v % 2 ^ 32, active, trial, 0, 0⟩ } }
  | some b =>
    let r : BootRecord := ⟨(b.seq + 1) % 2 ^ 32, active, trial, 1 - b.sector, if b.sector = 1 then (b.slot + 1) % 256 else b.slot⟩
    { s with nor := { s.nor with boot := some r } }

/-! ## The boot ROM -/

/-- The MGC runs an image (R475 to R477): slot 0 or 1, or 2 for an image loaded by HPP. -/
def State.runImage (s : State) (slot : Nat) (l : List Nat) : State :=
  { s with mgc := { s.mgc with
      slot := slot
      version := rdLe l 10 2 + 65536 * rdLe l 8 2
      secEpoch := rdLe l 16 4
      up := true
      restartDue := false
      loader := 0
      bell := false
      wdogFrom := s.now
      fwStatus := if slot < 2 ∧ s.trial ≠ 0 then 5 else 0 } }

/-- A fallback, an activation or an update in the Logbook (R482): slot, and 0 update, 1 activation, 2 fallback, 3 microcode
update, 4 microcode activation (log entry 26). -/
def State.logUpdate (s : State) (what slot : Nat) : State := s.logbook 3 [what, slot]

/-- The boot ROM chooses the image (R475); with no valid one it halts, BELL_N low, and serves the CAN recovery loader. -/
def State.chooseImage (s : State) : State :=
  let a := s.active
  let b := 1 - a
  if s.trial = 2 ∨ !s.fwValid (s.fwSlot a) then
    if s.fwValid (s.fwSlot b) then ((s.writeBoot b 0).logUpdate 2 b).runImage b (s.fwSlot b)
    else if s.fwValid (s.fwSlot a) then (s.writeBoot a 0).runImage a (s.fwSlot a)
    else { s with mgc := { s.mgc with loader := 2, bell := true } }
  else if s.trial = 1 then (s.writeBoot a 2).runImage a (s.fwSlot a)
  else s.runImage a (s.fwSlot a)

/-- BOOT_SRC as used (R433). -/
def State.bootSource (s : State) : Nat :=
  if s.get RSTC_STRAPS_BOOT_SRC = 3 ∧ !s.factoryTest then 0 else s.get RSTC_STRAPS_BOOT_SRC

/-- The MGC restarts alone (R479): the ROM chooses and runs the image. -/
def State.restartMgc (s : State) : State := { s with mgc := { s.mgc with boot := 0 } }.chooseImage

/-- A restart that waits is made at the snapshot (R479): requests are answered Busy, or wait, until the ROM has run. -/
def State.activationDue (s : State) : State :=
  if s.mgc.restartDue then
    { s with mgc := { s.mgc with up := false, restartDue := false, boot := 3, wdogFrom := s.now } }
  else s

/-! ## Updates (R478): HPP results and effects -/

/-- A firmware image has arrived whole: it is written to the slot that does not hold ACTIVE and verified. -/
def State.takeFw (s : State) (l : List Nat) : State :=
  let k := 1 - s.active
  let ok := s.fwValid l
  { s with nor := { s.nor with fw := setAt s.nor.fw k l }, mgc := { s.mgc with fwStatus := if ok then 2 else 3 } }.logUpdate 0 k

/-- A microcode image has arrived whole. -/
def State.takeUc (s : State) (l : List Nat) : State :=
  let k := 1 - s.nor.ucInUse
  let ok := s.ucImageValid l
  { s with nor := { s.nor with uc := setAt s.nor.uc k l }, mgc := { s.mgc with ucStatus := if ok then 2 else 3 } }.logUpdate 3 k

/-- FW_ACTIVATE. -/
def State.activate (s : State) : Nat × State :=
  if s.mgc.fwStatus ≠ 2 then (6, s)
  else
    let k := 1 - s.active
    let s := (s.writeBoot k 1).logUpdate 1 k
    (0, { s with
      mgc := { s.mgc with restartDue := true }
      log := { s.log with cur := { s.log.cur with updates := s.log.cur.updates + 1 } } })

/-- FW_CONFIRM. -/
def State.confirm (s : State) : Nat × State :=
  if s.trial = 0 then (0, s)
  else
    let s := s.writeBoot s.active 0
    (0, { s with mgc := { s.mgc with fwStatus := if s.mgc.fwStatus = 5 then 0 else s.mgc.fwStatus } })

/-- EPOCH_COMMIT: the minimum rises to the running image's SEC_EPOCH and never falls (R472). -/
def State.commitEpoch (s : State) (which : Nat) : Nat × State :=
  if s.trial ≠ 0 then (6, s)
  else
    let e := if which = 0 then s.mgc.secEpoch else rdLe (s.ucSlot s.nor.ucInUse) 16 4
    let i := 54 + which
    let s := if s.fused i < e ∧ e ≤ 63 then s.fuse i e else s
    (0, s.logbook 6 [which, e])

/-! ## Microcode -/

/-- The microcode in use is placed in the device reserve (R217, R35), at an address that the manual leaves to the firmware. -/
def State.placeUc (s : State) : State :=
  let l := s.ucSlot s.nor.ucInUse
  let (v, s) := s.draw
  let a := v % (2 ^ 24 - 1) * 64 + 64
  let s := s.dramWrite a (l.take (ucLen l + 96))
  s.each (List.range 4) fun s r => (s.set (CE_RG_UC_ADDR_ADDR r) a).set (CE_RG_UC_CRC_CRC r) (rdLe l 28 4)

/-- A load of an engine that is OFF, READY or HALTED begins (R220). -/
def State.startLoad (s : State) (n : Nat) : State :=
  let st := s.engState n
  let s := (s.setEng n 1).modEng n fun g =>
    { g with
      loadFrom := some st
      image := s.getAddr (CE_RG_UC_ADDR_ADDR (n / 17)) / 64 * 64
      haltReq := false
      ungating := false }
  (s.when (st == 0) (·.askSlot (.load n))).spareStatus (n / 17)

/-- MGC firmware loads the engines of a codec die that hold no valid microcode, once an image is placed (R217, log entry 27). -/
def State.loadDie (s : State) (d : Nat) : State :=
  if s.mgc.up ∧ s.get (CE_RG_UC_ADDR_ADDR (2 * d)) ≠ 0 then
    s.each ((List.range 34).map (34 * d + ·)) fun s e =>
      s.when (s.engState e == 0 && !s.ucValid e) (·.startLoad e)
  else s

/-- UC_SELECT: the staged slot is in use, and the load in service is set out (R478). -/
def State.selectUc (s : State) : Nat × State :=
  if s.mgc.ucStatus ≠ 2 then (6, s)
  else
    let k := 1 - s.nor.ucInUse
    let s := { s with nor := { s.nor with ucInUse := k }, mgc := { s.mgc with ucStatus := 0 } }.logUpdate 4 k
    let s := s.when (s.flag LMC_STATUS_READY) State.placeUc
    (0, { s with mgc := { s.mgc with reload := (List.range 4).flatMap fun r =>
      (17 * r + 16, false) :: (List.range 16).map fun i => (17 * r + i, false) } })

/-- The next step of a load in service: the spare of each region while it is OFF and does not stand in, then each bound
engine by an Engine-reach reset, one at a time; an engine without microcode is loaded. -/
def State.reloadStep (s : State) : State :=
  match s.mgc.reload with
  | [] => s
  | (e, asked) :: rest =>
    let st := s.engState e
    let pop := { s with mgc := { s.mgc with reload := rest } }
    let ask := fun (t : State) => ({ t with mgc := { t.mgc with reload := (e, true) :: rest } } : State)
    let away := (isSpare e && s.standsIn (e / 17)) || (s.eng e).away
    if s.dieOff (e / 34) ∨ st = 5 ∨ st = 6 then (if asked ∧ away then s else pop)
    else if asked then (if st = 1 ∨ (s.eng e).resetHeld ∨ away then s else pop)
    else if away then s
    else if isSpare e then (if st = 0 then ask (s.startLoad e) else s)
    else if st = 3 then ask (s.requestReset e)
    else if st = 0 ∧ !s.ucValid e then ask (s.startLoad e)
    else pop

end Sys2Proof.Machine
end

