-- ==== Sys2Proof/Machine/Dies.lean ====
section
/-! DEFINITION. Die-reach resets (R26, R27, R429, R430). -/

namespace Sys2Proof.Machine

/-- The engines of a codec die. -/
def dieEngines (d : Nat) : List Nat := (List.range 34).map (34 * d + ·)

/-- Registers of a codec die that a Die-reach reset keeps (R429): fault counts, engine states, and the image that its engines
reload from (log entry 28). -/
def dieKeeps (d off : Nat) : Bool :=
  (dieEngines d).any (fun e => off == (CE_ENG_FAULTS_ISOLATIONS e).off || off == (CE_ENG_STATE_STATE e).off) ||
    [2 * d, 2 * d + 1].any fun r => off == (CE_RG_UC_ADDR_ADDR r).off || off == (CE_RG_UC_ADDR_ADDR r).off + 4 || off == (CE_RG_UC_CRC_CRC r).off

/-- The registers of a codec die return to their reset values. -/
def State.dieRegisters (s : State) (d : Nat) : State :=
  let gone := fun (off : Nat) => decide (0x1000000 + 0x800000 * d ≤ off ∧ off < 0x1800000 + 0x800000 * d) && !dieKeeps d off
  { s with
    regs := sdrop gone s.regs
    force := sdrop gone s.force
    regions := s.regions.zipIdx.map fun p => if p.2 / 2 = d then Region.reset else p.1 }

/-- A Die-reach reset of a powered codec die is applied (R27, R429): its engines reload, the retired ones stay so, and held
Engine-reach requests are absorbed (R430). -/
def State.resetDie (s : State) (d : Nat) : State :=
  if s.dieOff d then s
  else
    let s := (s.inc RSTC_COUNTS_DIE).dieRegisters d
    s.each (dieEngines d) fun s e => (s.applyReset e).modEng e fun g => { g with away := false, admitReq := false }

/-- A Die-reach reset is requested (R27, R430). -/
def State.requestDie (s : State) (d : Nat) : State :=
  if s.beaconRuns then s.setBit RSTC_HELD_DIE d else s.resetDie d

/-- A Die-reach reset that the snapshot applies. -/
def State.heldDie (s : State) (d : Nat) : State :=
  if bitAt (s.get RSTC_HELD_DIE) d = 1 then (s.clearBit RSTC_HELD_DIE d).resetDie d else s

/-- Every held reset is applied: what the Reset Controller does at once when the Beacon stops (R27). -/
def State.heldResets (s : State) : State :=
  let s := s.each (List.range 2) State.heldDie
  s.each ((List.range 68).filter fun e => (s.eng e).resetHeld) State.applyReset

end Sys2Proof.Machine
end

