-- ==== Sys2Proof/Machine/DmaCtl.lean ====
section
/-! DEFINITION. The DMA channels' control (R265 to R270, R272): rings, taking a descriptor, halting, event lines, and the
commands of `DMA_CHn_CTRL`. What a descriptor or a program does is in `Dma.lean`. -/

namespace Sys2Proof.Machine

/-- Channel `n`. -/
def State.chan (s : State) (n : Nat) : DmaCh := s.dma.getD n DmaCh.reset

/-- Change channel `n`. -/
def State.modChan (s : State) (n : Nat) (f : DmaCh → DmaCh) : State := { s with dma := modAt s.dma n f }

/-- The state of a channel: 0 IDLE, 1 RUN, 2 WAIT, 3 HALTED. -/
def State.chanState (s : State) (n : Nat) : Nat := s.get (DMA_CH_STAT_STATE n)

/-- Descriptors of a ring. -/
def State.ringSize (s : State) (n : Nat) : Nat := max 1 (s.get (DMA_CH_RING_SIZE_COUNT n))

/-- The address of descriptor `i` of a channel's ring. -/
def State.descAddr (s : State) (n i : Nat) : Nat := s.getAddr (DMA_CH_RING_BASE_ADDR n) + 32 * i

/-- The index after `i`. -/
def State.nextIndex (s : State) (n i : Nat) : Nat := (i + 1) % s.ringSize n

/-- CTRL as it is written back: OWN cleared, STATUS filled in (R267). -/
def ctrlBack (ctrl status : Nat) : Nat := insBits (insBits ctrl 0 1 0) 24 8 status

/-- The descriptor in progress is written back (R267, R270): false where the write fails. -/
def State.putDesc (s : State) (n : Nat) (j : DmaJob) (status : Nat) : Bool × State :=
  let (ok, t) := s.memWrite (s.descAddr n j.index + 20) (le 4 (ctrlBack j.ctrl status))
  (ok, t.set (DMA_CH_STAT_LAST_STATUS n) status)

/-- The descriptor of a channel that halts is written back, as far as it can be. -/
def State.writeBackDesc (s : State) (n : Nat) (j : DmaJob) (status : Nat) : State := (s.putDesc n j status).2

/-- The channel stands halted at descriptor `i`. -/
def State.haltAt (s : State) (n i : Nat) : State :=
  ((s.set (DMA_CH_STAT_STATE n) 3).set (DMA_CH_STAT_HALT_INDEX n) i).modChan n fun c => { c with job := none, wait := none }

/-- The channel halts for a cause (R270): the descriptor is written back, no event is sent, a fault is raised. -/
def State.dmaHalt (s : State) (n status : Nat) : State :=
  match (s.chan n).job with
  | none => s
  | some j => ((s.writeBackDesc n j status).haltAt n j.index).raise 0x33 n 0

/-- The channel reads the descriptor at HEAD (R265): an owned one it takes, HEAD passing on; a descriptor that cannot be
read halts it, and no byte of it is written (R270). -/
def State.dmaFetch (s : State) (n : Nat) : State :=
  let i := s.get (DMA_CH_HEAD_INDEX n)
  let s := s.modChan n fun c => { c with polled := s.now }
  match s.memRead (s.descAddr n i) 24 with
  | (none, s) => ((s.set (DMA_CH_STAT_LAST_STATUS n) 1).haltAt n i).raise 0x33 n 0
  | (some l, s) =>
    if rdLe l 20 4 % 2 = 1 then
      let j : DmaJob := ⟨i, rdLe l 0 8, rdLe l 8 8, rdLe l 16 4, rdLe l 20 4, false, 0, [none, none, none, none], [0, 0, 0, 0]⟩
      ((s.set (DMA_CH_STAT_STATE n) 1).set (DMA_CH_HEAD_INDEX n) (s.nextIndex n i)).modChan n fun c => { c with job := some j }
    else s.set (DMA_CH_STAT_STATE n) 0

/-- The channel stops (R265): its descriptor is left as it is. -/
def State.dmaStop (s : State) (n : Nat) : State :=
  ((s.set (DMA_CH_CTRL_EN n) 0).set (DMA_CH_STAT_STATE n) 0).modChan n fun c => { c with job := none, wait := none }

/-- A write of EN (R265). -/
def State.dmaEn (s : State) (n : Nat) (en : Bool) : State :=
  if en = s.flag (DMA_CH_CTRL_EN n) then s
  else if en then ((s.set (DMA_CH_CTRL_EN n) 1).set (DMA_CH_HEAD_INDEX n) 0).dmaFetch n
  else s.dmaStop n

/-- DMA_ENABLE (R265). -/
def execDmaEnable (_a : Agent) (ch : Nat) (en : Bool) (s : State) : Host.Outcome State Fault Refusal := .next (s.dmaEn (ch % 16) en)

/-- An idle channel that is enabled reads its head again (R265); kicks are held during an entry to RETAIN or OFF (R395). -/
def State.dmaKick (s : State) (n : Nat) : State :=
  if s.get KPR_STATUS_STATE = 2 then { s with kpr := { s.kpr with kicks := s.kpr.kicks ++ [n] } }
  else if s.flag (DMA_CH_CTRL_EN n) ∧ s.chanState n = 0 then s.dmaFetch n else s

/-- DMA_KICK (R265). -/
def execDmaKick (_a : Agent) (ch : Nat) (s : State) : Host.Outcome State Fault Refusal := .next (s.dmaKick (ch % 16))

/-- DMA_POLL (R265): every POLL µs while POLL is not 0. -/
def execDmaPoll (ch : Nat) (s : State) : Host.Outcome State Fault Refusal :=
  let n := ch % 16
  let p := s.get (DMA_CH_POLL_US n)
  .next (if p ≠ 0 ∧ 1000 * p ≤ s.now - (s.chan n).polled then s.dmaKick n else s)

/-- A halted channel goes on at descriptor `i` (R270). -/
def State.dmaRestart (s : State) (n i : Nat) : State :=
  if s.flag (DMA_CH_CTRL_EN n) ∧ s.chanState n = 3 then (s.set (DMA_CH_HEAD_INDEX n) i).dmaFetch n else s

/-- DMA_RESUME (R270). -/
def execDmaResume (_a : Agent) (ch : Nat) (s : State) : Host.Outcome State Fault Refusal :=
  .next (s.dmaRestart (ch % 16) (s.get (DMA_CH_STAT_HALT_INDEX (ch % 16))))

/-- DMA_SKIP (R270). -/
def execDmaSkip (_a : Agent) (ch : Nat) (s : State) : Host.Outcome State Fault Refusal :=
  .next (s.dmaRestart (ch % 16) (s.nextIndex (ch % 16) (s.get (DMA_CH_STAT_HALT_INDEX (ch % 16)))))

/-- A running channel is aborted (R270). -/
def State.dmaAbort (s : State) (n : Nat) : State :=
  match (s.chan n).job with
  | none => s
  | some j => (s.writeBackDesc n j 5).haltAt n j.index

/-- DMA_ABORT (R270). -/
def execDmaAbort (_a : Agent) (ch : Nat) (s : State) : Host.Outcome State Fault Refusal := .next (s.dmaAbort (ch % 16))

/-! ## Event lines -/

/-- A channel that waits goes on after its WAIT (R272). -/
def State.dmaPass (s : State) (n : Nat) : State :=
  (s.set (DMA_CH_STAT_STATE n) 1).modChan n fun c => { c with wait := none, job := c.job.map fun j => { j with pc := j.pc + 16 } }

/-- A pulse on event line `k` (R272): it releases every channel that waits on it, else sets the latch. -/
def State.pulseLine (s : State) (k : Nat) : State :=
  let w := (List.range 16).filter fun n => match (s.chan n).wait with | some x => x.1 == k | none => false
  if w = [] then s.setBit DMA_EVT_PEND_LINES (k - 1) else s.each w State.dmaPass

/-- Channel `n` waits on line `k`. -/
def State.dmaWait (s : State) (n k timeout : Nat) : State :=
  (s.set (DMA_CH_STAT_STATE n) 2).modChan n fun c => { c with wait := some (k, timeout), since := s.now }

/-- Channel `n` passes its WAIT on a set latch. -/
def State.passLatch (s : State) (n k timeout : Nat) : State :=
  let s := s.dmaPass n
  s.modChan n fun c => { c with passed := c.job.map fun j => ⟨k, s.now, timeout, j.pc⟩ }

/-- The channel above `n` that took the latch of line `k` in this very clock and has done nothing since, with its WAIT. -/
def State.passedAbove (s : State) (n k : Nat) : Option (Nat × Passed) :=
  (List.range 16).findSome? fun m =>
    match (s.chan m).passed, (s.chan m).job with
    | some p, some j => if n < m ∧ p.line = k ∧ p.at_ = s.now ∧ j.pc = p.pc ∧ !j.done ∧ s.chanState m = 1 then some (m, p) else none
    | _, _ => none

/-- Channel `m`, which passed a WAIT in this clock, waits after all: the lower-numbered channel passes (R272). -/
def State.giveLatch (s : State) (m : Nat) (p : Passed) : State :=
  (s.modChan m fun c => { c with passed := none, job := c.job.map fun j => { j with pc := j.pc - 16 } }).dmaWait m p.line p.timeout

/-- WAIT on line `k` (R272): a set latch is cleared and passed at once; of two channels that reach it in one clock the lower-numbered
passes. -/
def State.waitLine (s : State) (n k timeout : Nat) : State :=
  if bitAt (s.get DMA_EVT_PEND_LINES) (k - 1) = 1 then (s.clearBit DMA_EVT_PEND_LINES (k - 1)).passLatch n k timeout
  else
    match s.passedAbove n k with
    | some (m, p) => (s.giveLatch m p).passLatch n k timeout
    | none => s.dmaWait n k timeout

end Sys2Proof.Machine
end

