-- ==== Sys2Proof/Machine/Grant.lean ====
section
/-! DEFINITION. The tiling of a frame (R19, R22, R90, R91) and the Keeper's grant: limit, budget, funding and candidates
(R403 to R411). -/

namespace Sys2Proof.Machine

/-! ## The cut (R90, R91) -/

/-- The weight of a clock point (R90). -/
def cpWeight (k : Nat) : Nat := if k = 0 then 4 else if k = 1 then 3 else 2

/-- The place of column `c` in the order by weight descending, then by column. -/
def cutRank (ws : List Nat) (w c : Nat) : Nat := ws.countP (fun v => decide (w < v)) + (ws.take c).countP (· == w)

/-- The units of every column, from the columns' weights (R90). -/
def cutUnits (u : Nat) (ws : List Nat) : List Nat :=
  let t := ws.foldl (· + ·) 0
  let base := fun (w : Nat) => u * w / t
  let rest := u - ws.foldl (fun a w => a + base w) 0
  ws.zipIdx.map fun p => base p.1 + (if cutRank ws p.1 p.2 < rest then 1 else 0)

/-- A column of `units` at weight `w` keeps within its width and its engine's rate (R22, R91). -/
def columnOk (h num den w units : Nat) : Bool :=
  decide (4 ≤ units ∧ units ≤ 16 ∧ 32 * units * h * num ≤ 80000000 * w * den)

/-- The cut is feasible (R91). -/
def cutOk (u h num den : Nat) (ws : List Nat) : Bool :=
  ws != [] && (ws.zip (cutUnits u ws)).all fun p => columnOk h num den p.1 p.2

/-- The weights of a grant's columns, in column order. -/
def colWeights (cols cps : List Nat) : List Nat := (cols.zip cps).flatMap fun p => List.replicate p.1 (cpWeight p.2)

/-- The start of every column in units, by which the bind list is made. -/
def cutStarts : Nat → List Nat → List Nat
  | _, [] => []
  | x, u :: t => x :: cutStarts (x + u) t

/-- The same feasibility by the number of columns at each clock point, on which alone it depends. -/
def classOk (u h num den a b c : Nat) : Bool :=
  let t := 4 * a + 3 * b + 2 * c
  let x := u * 4 / t
  let y := u * 3 / t
  let z := u * 2 / t
  let r := u - (a * x + b * y + c * z)
  let one := fun (w n base before : Nat) =>
    n == 0 || (columnOk h num den w (base + if before < r then 1 else 0) && columnOk h num den w (base + if before + n ≤ r then 1 else 0))
  t != 0 && one 4 a x 0 && one 3 b y a && one 2 c z (a + b)

/-! ## What the next snapshot would take -/

/-- A Beacon-class field as the next snapshot would take it (R54, R56). -/
def State.coming (s : State) (f : Fld) : Nat := if s.flag BU_CTRL_HOLD then s.getF f else s.get f

/-- The rate pair the next snapshot would take (R59). -/
def State.comingRate (s : State) : Nat × Nat :=
  let n := s.coming BU_RATE_NUM_NUM
  let d := s.coming BU_RATE_DEN_DEN
  if d = 0 ∨ n < d ∨ 960 * d < n then (s.getF BU_RATE_NUM_NUM, s.getF BU_RATE_DEN_DEN) else (n, d)

/-- A format is valid (R87, R88). -/
def formatOk (w h d mono cfa : Nat) : Bool :=
  decide (2048 ≤ w ∧ w ≤ 16384 ∧ w % 64 = 0) && (h == 1080 || decide (1088 ≤ h ∧ h ≤ 8640 ∧ h % 16 = 0)) && [10, 12, 14, 16].contains d &&
    (mono == 1 || cfaOk cfa)

/-- The width and height the next snapshot would take (R88). -/
def State.comingSize (s : State) : Nat × Nat :=
  let w := s.coming PPR_FMT0_WIDTH
  let h := s.coming PPR_FMT0_HEIGHT
  if formatOk w h (10 + 2 * s.coming PPR_FMT1_DEPTH) (s.coming PPR_FMT1_MONO) (s.coming PPR_FMT1_CFA) then (w, h)
  else (s.fmtW, s.fmtH)

/-! ## Limit and costs (R403 to R405) -/

/-- Tmax in units of 0.25 °C. -/
def State.tmax (s : State) : Int := signed 12 (s.get KPR_TMAX_T)

/-- The thermal limit in mW (R414). -/
def State.thermalLimit (s : State) : Nat :=
  let t := -((-s.tmax) / 4)
  let on := (s.get KPR_THERM_T_ON : Int)
  if t ≤ on then 15000 else (15000 - s.get KPR_THERM_SLOPE * (t - on)).toNat

/-- The power limit in mW, and the source that sets it: a tie goes to the lowest (R403). -/
def State.powerLimit (s : State) : Nat × Nat :=
  let l := [(min (s.get KPR_LIMIT_HOST_MW) 15000, 0)] ++ (if s.get KPR_BATT_MW = 0xFFFF then [] else [(s.get KPR_BATT_MW, 1)]) ++
    [(s.thermalLimit, 2)] ++ (if s.flag KPR_STATUS_HOLDUP then [(9000, 3)] else [])
  l.foldl (fun a x => if x.1 < a.1 then x else a) (l.headD (15000, 0))

/-- Cost of item `n` in mW. -/
def State.cost (s : State) (n : Nat) : Nat := s.get (KPR_COST_MW n)

/-- The pips of `c` mW (R404). -/
def pips (pmu c : Nat) : Nat := ceilDiv (c * pmu) 1000

/-- Lanes of the Pixel Port that are enabled (R487). -/
def State.lanesOn (s : State) : Nat := ((List.range 17).filter s.laneOn).length

/-- Items 0 to 8, by the units charged (R405). -/
def State.standing (s : State) (pmu : Nat) : Nat :=
  let bays := ((List.range 4).filter fun b => s.get (MGH_MAG_STATE_STATE b) == 4).length
  let eths := ((List.range 2).filter fun p => s.flag (ETH_P_CTRL_EN p)).length
  let units := [b2n (s.get KPR_STATUS_STATE == 0), 1, s.lanesOn, bays, b2n (s.flag CXP_STATUS_LINK_UP), eths, 1, 1, 1]
  units.zipIdx.foldl (fun a p => a + pips pmu (s.cost p.2 * p.1)) 0

/-- Engines at clock point `k`. -/
def atPoint (cols cps : List Nat) (k : Nat) : Nat := ((cols.zip cps).filter (·.2 == k)).foldl (fun a p => a + p.1) 0

/-- The cost of items `base`, base + 1 and base + 2 for the engines at each clock point. -/
def State.engineCost (s : State) (pmu base a b c : Nat) : Nat :=
  pips pmu (s.cost base * a) + pips pmu (s.cost (base + 1) * b) + pips pmu (s.cost (base + 2) * c)

/-- The encode cost of a candidate; in BASIC every engine is charged `KPR_COST11` (R426). -/
def State.encodeCost (s : State) (pmu : Nat) (cols cps : List Nat) : Nat :=
  if s.fc.basic then pips pmu (s.cost 11 * cols.foldl (· + ·) 0)
  else s.engineCost pmu 9 (atPoint cols cps 0) (atPoint cols cps 1) (atPoint cols cps 2)

/-! ## Candidates (R409) -/

/-- Every assignment of clock points (3 none) to four regions. -/
def cpPatterns : List (List Nat) :=
  (List.range 256).map fun n => [n / 64 % 4, n / 16 % 4, n / 4 % 4, n % 4]

/-- The columns of the regions for the given numbers of columns at each clock point, lower regions filled first; every
region with a clock point receives one. -/
def fillCols : List (Nat × Nat) → (Nat → Nat) → Option (List Nat)
  | [], m => if m 0 = 0 ∧ m 1 = 0 ∧ m 2 = 0 then some [] else none
  | (av, k) :: t, m =>
    if k = 3 then (fillCols t m).map (0 :: ·)
    else
      let later := t.countP fun p => p.2 == k
      let n := min av (m k - later)
      if n = 0 then none else (fillCols t fun j => if j = k then m k - n else m j).map (n :: ·)

/-- Lists compared lexicographically: `a` has the larger element first. -/
def largerFirst : List Nat → List Nat → Bool
  | a :: x, b :: y => decide (b < a) || (a == b && largerFirst x y)
  | _, _ => false

/-- The tie-breaks 2 to 4 (R409): whether candidate `a` comes before `b`. Of two clock points the slower is the lower. -/
def beatsTie (a b : List Nat × List Nat) : Bool :=
  let k := fun (x : List Nat × List Nat) => x.1.countP (· != 0)
  decide (k a < k b) || (k a == k b && (largerFirst a.1 b.1 || (a.1 == b.1 && largerFirst a.2 b.2)))

/-- The numbers of columns at P0, P1 and P2 that are feasible with at most `n` columns. -/
def classes (u h num den n : Nat) : List (Nat × Nat × Nat) :=
  (List.range (n + 1)).flatMap fun a => (List.range (n + 1 - a)).flatMap fun b =>
    ((List.range (n + 1 - a - b)).map fun c => (a, b, c)).filter fun t => classOk u h num den t.1 t.2.1 t.2.2

/-- The candidates of given numbers of columns. -/
def candidatesOf (avail : List Nat) (t : Nat × Nat × Nat) : List (List Nat × List Nat) :=
  cpPatterns.filterMap fun p =>
    (fillCols (avail.zip p) fun k => if k = 0 then t.1 else if k = 1 then t.2.1 else t.2.2).map fun cols => (cols, p)

/-- The best of some candidates by the tie-breaks. -/
def bestTie : List (List Nat × List Nat) → Option (List Nat × List Nat)
  | [] => none
  | x :: t => some (t.foldl (fun a b => if beatsTie b a then b else a) x)

/-- The admissible candidate of least cost, then of least N, then by the tie-breaks (R409). -/
def cheapestOf (avail : List Nat) (cost : Nat × Nat × Nat → Nat) (ts : List (Nat × Nat × Nat)) : Option (List Nat × List Nat) :=
  let key := fun (t : Nat × Nat × Nat) => cost t * 256 + (t.1 + t.2.1 + t.2.2)
  let ks := (sortBy (fun k => k) (ts.map key)).eraseReps
  ks.findSome? fun k => bestTie ((ts.filter fun t => key t == k).flatMap (candidatesOf avail))

/-- What a grant is formed on: U, H, the rate, the available columns of each region, Pµ and the greatest N. -/
structure GrantInput where
  u : Nat
  h : Nat
  num : Nat
  den : Nat
  avail : List Nat
  pmu : Nat
  most : Nat
  deriving DecidableEq, Repr

/-- The grant's inputs at this instant. A lead whose follower has reported a shortfall grants no more columns (R31, R411). -/
def State.grantInput (s : State) : GrantInput :=
  let (w, h) := s.comingSize
  let (n, d) := s.comingRate
  let avail := (List.range 4).map fun r => (s.available r).length
  let all := avail.foldl (· + ·) 0
  ⟨w / 32, h, n, d, avail, 10 ^ 6 * d / n, match s.kpr.shortfall with | some k => min k all | none => all⟩

/-- The pips of three items at rates `x`, `y` and `z` for `t` engines at P0, P1 and P2. -/
def pipsOf (pmu x y z : Nat) (t : Nat × Nat × Nat) : Nat := pips pmu (x * t.1) + pips pmu (y * t.2.1) + pips pmu (z * t.2.2)

/-- The cheapest candidate among some numbers of columns, with `avail` engines in each region (R409); in BASIC every engine is charged
`KPR_COST11` (R426). -/
def State.cheapestAmong (s : State) (g : GrantInput) (avail : List Nat) (ts : List (Nat × Nat × Nat)) : Option (List Nat × List Nat) :=
  let x := s.cost 9
  let y := s.cost 10
  let z := s.cost 11
  let all := s.fc.basic
  cheapestOf avail (fun t => if all then pips g.pmu (z * (t.1 + t.2.1 + t.2.2)) else pipsOf g.pmu x y z t) ts

/-- The cheapest admissible candidate (R409). -/
def State.cheapest (s : State) (g : GrantInput) : Option (List Nat × List Nat) :=
  s.cheapestAmong g g.avail (classes g.u g.h g.num g.den g.most)

/-- The cheapest candidate of exactly `n` columns, which the lead has set (R31, R411). -/
def State.cheapestAt (s : State) (g : GrantInput) (avail : List Nat) (n : Nat) : Option (List Nat × List Nat) :=
  s.cheapestAmong g avail ((classes g.u g.h g.num g.den n).filter fun t => t.1 + t.2.1 + t.2.2 == n)

/-- A candidate is admissible (R409). -/
def GrantInput.admits (g : GrantInput) (c : List Nat × List Nat) : Bool :=
  (c.1.zip (g.avail.zip c.2)).all (fun p => decide (p.1 ≤ p.2.1) && (p.1 == 0 || decide (p.2.2 < 3))) &&
    decide (c.1.foldl (· + ·) 0 ≤ g.most) && cutOk g.u g.h g.num g.den (colWeights c.1 c.2)

/-- The pinned N spread over the regions with a pinned clock point (R410): (available, share) in ascending order, with the
columns carried on from regions that could not take them. -/
def spreadCols : Nat → List (Nat × Nat) → Nat × List Nat
  | carry, [] => (carry, [])
  | carry, (av, share) :: t =>
    let n := min av (share + carry)
    let (c, l) := spreadCols (share + carry - n) t
    (c, n :: l)

/-- The pinned candidate (R410); none when the regions cannot take N columns. -/
def State.pinned (s : State) (g : GrantInput) : Option (List Nat × List Nat) :=
  let cps := (List.range 4).map fun r => s.coming KPR_PIN_CP / 4 ^ r % 4
  let rs := (List.range 4).filter fun r => cps.getD r 3 != 3
  let k := rs.length
  if k = 0 then none
  else
    let n := s.coming KPR_PIN_N
    let (left, l) := spreadCols 0 (rs.zipIdx.map fun p => (g.avail.getD p.1 0, n / k + (if p.2 < n % k then 1 else 0)))
    let cols := (List.range 4).map fun r => match rs.findIdx? (· == r) with | some i => l.getD i 0 | none => 0
    if left ≠ 0 then none else some (cols, (cols.zip cps).map fun p => if p.1 = 0 then 3 else p.2)

/-- The candidate in force stays, unless it does not fit or a cheaper one has been the cheapest for 16 Beacons (R410). -/
def State.keepOrChange (s : State) (g : GrantInput) (budget : Nat) (best : List Nat × List Nat) : List Nat × List Nat :=
  let cur := (s.kpr.grant.cols, s.kpr.grant.cps)
  let cost := fun (c : List Nat × List Nat) => s.encodeCost g.pmu c.1 c.2
  if !g.admits cur || decide (budget < s.standing g.pmu + cost cur) then best
  else if decide (15 ≤ s.kpr.cheapest.length) && (s.kpr.cheapest.take 15).all (· == best) &&
      decide (s.get KPR_CTRL_HYST * cost cur ≤ 100 * (cost cur - cost best) ∧ cost best < cost cur) then best
  else cur

/-- The candidate of the next frame (R409, R410): none when none is admissible. -/
def State.candidate (s : State) (g : GrantInput) (budget : Nat) : Option (List Nat × List Nat) :=
  if s.flag KPR_CTRL_AUTO then (s.cheapest g).map (s.keepOrChange g budget)
  else
    match s.pinned g with
    | some c => if g.admits c then some c else s.cheapest g
    | none => s.cheapest g

/-! ## Funding (R406) -/

/-- The optional items in order: bit, whether it applies, its pips. In REDUCED neither temporal analysis nor scrub is funded,
in BASIC neither verify nor proxy (R426). -/
def State.optional (s : State) (pmu : Nat) (cols cps : List Nat) : List (Nat × Bool × Nat) :=
  let level := s.get FC_LEVEL_LEVEL
  [(1, decide (level < 2), s.engineCost pmu 12 (atPoint cols cps 0) (atPoint cols cps 1) (atPoint cols cps 2)),
    (2, decide (level < 2), pips pmu (s.cost 15)),
    (4, level == 0 && s.clipOpen && s.flag FAL_CTRL_TEMPORAL, pips pmu (s.cost 16))]

/-- Items funded in order until one does not fit: the funded bits, the pips spent, whether a later item may still be funded. -/
def fundItems (enable : Nat) : List (Nat × Bool × Nat) → Nat → Nat × Nat × Bool
  | [], _ => (0, 0, true)
  | (bit, ok, c) :: t, rem =>
    if enable &&& bit = 0 ∨ !ok then fundItems enable t rem
    else if rem < c then (0, 0, false)
    else
      let (f, p, go) := fundItems enable t (rem - c)
      (f + bit, p + c, go)

/-- The funding of a frame (R406): the bits, the pips, the scrub MiB. -/
def State.fund (s : State) (pmu rem : Nat) (cols cps : List Nat) : Nat × Nat × Nat :=
  let enable := s.get KPR_CTRL_OPT_EN &&& (if s.flag KPR_CTRL_AUTO then 15 else s.coming KPR_PIN_FUND)
  let (f, p, go) := fundItems enable (s.optional pmu cols cps) rem
  let per := max 1 (s.get KPR_SCRUB_PIPS_PER_MIB)
  let mib := if go && enable &&& 8 != 0 && s.get FC_LEVEL_LEVEL == 0 && s.flag MGH_CTRL_SCRUB_EN then
      min (s.get KPR_SCRUB_MAX_MIB) ((rem - p) / per) else 0
  (f + (if mib = 0 then 0 else 8), p + mib * per, mib)

/-- The positions of the columns, region by region (R19). -/
def State.positions (s : State) (cols : List Nat) : List Nat :=
  cols.zipIdx.flatMap fun p => ((s.available p.2).take p.1).map fun i => 16 * p.2 + i

/-- No engine is granted: outside RUN (R393), in SAFE (R406), below −20 °C (R464). -/
def State.grantsNone (s : State) : Bool := s.get KPR_STATUS_STATE != 0 || s.get FC_LEVEL_LEVEL == 3 || s.kpr.cold

/-- The grant of a candidate: what it costs, and what else the budget funds (R404, R406, R407). -/
def State.grantOn (s : State) (g : GrantInput) (c : Option (List Nat × List Nat)) : Grant :=
  let (l, lim) := s.powerLimit
  let budget := l * g.pmu / 1000
  let (cols, cps) := c.getD ([0, 0, 0, 0], [3, 3, 3, 3])
  let mand := s.standing g.pmu + s.encodeCost g.pmu cols cps
  let deficit := decide (budget < mand)
  let (f, p, mib) := if deficit || s.flag KPR_STATUS_HOLDUP || s.flag KPR_STATUS_DRAM_HOT then (0, 0, 0)
    else s.fund g.pmu (budget - mand) cols cps
  ⟨cols, cps, s.positions cols, f, budget, mand, mand + p, mib, lim, deficit, !s.grantsNone && c.isNone⟩

/-- The columns of a candidate. -/
def columnsOf (c : List Nat × List Nat) : Nat := c.1.foldl (· + ·) 0

/-- The candidate that a follower in a joined gang funds: of the lead's column count in force, where it has one of that many (R411). -/
def State.leadCandidate (s : State) (g : GrantInput) (c : Option (List Nat × List Nat)) : Option (List Nat × List Nat) :=
  let n := s.kpr.grant.cols.foldl (· + ·) 0
  if s.role = 2 ∧ s.gang.joined ∧ n ≠ 0 ∧ c.map columnsOf ≠ some n then (s.cheapestAt g g.avail n).orElse fun _ => c else c

/-- The grant for the next frame (R403 to R411). -/
def State.newGrant (s : State) : Grant :=
  let g := s.grantInput
  s.grantOn g (if s.grantsNone then none else s.leadCandidate g (s.candidate g (s.powerLimit.1 * g.pmu / 1000)))

end Sys2Proof.Machine
end

