-- ==== Sys2Proof/Machine/Service.lean ====
section
/-! DEFINITION. The Logbook's header and records, and the ageing monitors (R481 to R483). -/

namespace Sys2Proof.Machine

/-- ns of an hour. -/
def hourNs : Nat := 3600 * 10 ^ 9

/-- A header as it lies in its slot: MAGIC, SEQ, the counters in the order of R481, and the CRC (log entry 29). -/
def LogHeader.bytes (h : LogHeader) : List Nat :=
  let l := le 4 0x424C4D45 ++ le 4 h.seq ++ le 8 (h.runNs / hourNs) ++ le 8 (h.idleNs / hourNs) ++ le 8 (h.retainNs / hourNs) ++
    le 8 h.committed ++ h.faults.flatMap (le 8) ++ h.moorings.flatMap (le 8) ++ le 8 h.cold ++ le 8 h.warm ++ le 8 h.holdups ++
    le 8 h.stores ++ le 8 h.updates ++ (h.bands.map (· / hourNs)).flatMap (le 4) ++ h.monitors.flatMap (le 2) ++ le 8 (h.next % 112640) ++ le 8 h.lost
  l ++ le 4 (crc32c l)

/-- An event record (R482). -/
def LogRecord.bytes (r : LogRecord) : List Nat :=
  let l := le 4 r.seq ++ le 2 r.typ ++ [0, 0] ++ le 8 r.dtc ++ le 4 r.epoch ++ fit 40 r.data
  l ++ le 4 (crc32c l)

/-- The header is written to the next slot of the copy that does not hold the one in force (R474, R481). -/
def State.writeHeader (s : State) : State :=
  let l := s.log
  let h := { l.cur with seq := (l.cur.seq + 1) % 2 ^ 32 }
  { s with log := { l with
      cur := h
      written := some h
      copy := if l.written.isNone then 0 else 1 - l.copy
      slot := if l.written.isSome ∧ l.copy = 1 then (l.slot + 1) % 256 else l.slot } }

/-- Time passes in the hour counters of the Logbook: in RUN or IDLE, and in a band of Tj (R481). -/
def State.countTime (s : State) (ns : Nat) : State :=
  let c := s.log.cur
  let t := signed 12 (s.get KPR_TMAX_T)
  let b := if t < 240 then 0 else if t < 300 then 1 else if t < 360 then 2 else if t ≤ 400 then 3 else 4
  let c := { c with bands := modAt c.bands b (· + ns) }
  let c := if s.get KPR_STATUS_STATE = 1 then { c with idleNs := c.idleNs + ns } else { c with runNs := c.runNs + ns }
  { s with log := { s.log with cur := c } }

/-- The slowing of monitor `i` against its baseline, in units of 0.01 % (R483). -/
def State.slowing (s : State) (i : Nat) : Nat :=
  let base := rdLe s.nor.daymark (56 + 2 * i) 2
  (base - s.log.cur.monitors.getD i 0) * 10000 / base

/-- An hour of DTC time has passed since the last hourly header (R481); a DTC that was set back begins it anew. -/
def State.hourDue (s : State) : Bool :=
  match s.log.hourAt with | some t => decide (t + hourNs ≤ s.dtcNs ∨ s.dtcNs < t) | none => true

/-- LOGBOOK_HOUR (R481). -/
def execLogbookHour (s : State) : Host.Outcome State Fault Refusal :=
  .next (if s.mgc.up && s.hourDue then
    let t := s.writeHeader
    { t with log := { t.log with hourAt := some s.dtcNs } }
  else s)

/-- LOGBOOK_BUCKET_REFILL (R482): every 10 s. -/
def execLogbookBucketRefill (s : State) : Host.Outcome State Fault Refusal :=
  .next (if s.log.refillAt + 10 ^ 10 ≤ s.now then
    { s with log := { s.log with bucket := min 360 (s.log.bucket + 1), refillAt := s.log.refillAt + 10 ^ 10 } }
  else s)

/-- A die whose monitor has passed 6.00 % raises source 0xF1 once (R483). -/
def State.judgeAge (s : State) (i : Nat) : State :=
  if 600 < s.slowing i ∧ !s.mgc.aged.contains (i / 4) then
    { s with mgc := { s.mgc with aged := s.mgc.aged ++ [i / 4] } }.raiseAs 0xF1 0 0 i
  else s

/-- An hour in RUN has passed since the last measurement (R483). -/
def State.ageDue (s : State) : Bool :=
  s.mgc.up && s.get KPR_STATUS_STATE == 0 && s.kpr.mode == .on &&
    (match s.log.agedAt with | some t => decide (t + hourNs ≤ s.log.cur.runNs) | none => true)

/-- AGEING_MEASURE (R483): once an hour in RUN. -/
def execAgeingMeasure (readings : List Nat) (s : State) : Host.Outcome State Fault Refusal :=
  .next (if s.ageDue then
    { s with log := { s.log with agedAt := some s.log.cur.runNs, cur := { s.log.cur with monitors := fit 12 (readings.map (· % 65536)) } } }.each (List.range 12)
      fun s i => s.judgeAge i
  else s)

end Sys2Proof.Machine
end

