-- ==== Sys2Proof/Machine/Keeper.lean ====
section
/-! DEFINITION. The Keeper's power states, ramp slots, temperatures and grant formation (R392 to R402, R408, R412 to R415), and
the Always-On domain's wake events (R454). -/

namespace Sys2Proof.Machine

/-! ## Codec dies and ramp slots (R412, R431, R434) -/

/-- A reset domain: 0 IOD, 1 CD0, 2 CD1, 3 PHY. -/
def State.domain (s : State) (d : Nat) : Domain := s.rstc.domains.getD d ⟨false, 0, true, none, 0⟩

/-- Change a domain. -/
def State.modDomain (s : State) (d : Nat) (f : Domain → Domain) : State := { s with rstc := { s.rstc with domains := modAt s.rstc.domains d f } }

/-- Codec die `d` leaves reset; MGC firmware loads the engines that hold no microcode. -/
def State.freeDie (s : State) (d : Nat) : State :=
  let s := s.modDomain (1 + d) fun x => { x with inReset := false, reach := 0, released := none }
  (s.set (if d = 0 then RSTC_STATUS_CD0_RESET else RSTC_STATUS_CD1_RESET) 0).loadDie d

/-- The last source of a codec die's reset is released: at once when its lock has been counted out, else an extension (R431). -/
def State.releaseDie (s : State) (d : Nat) : State :=
  let x := s.domain (1 + d)
  if !x.inReset then s.loadDie d
  else if x.released.isSome then s
  else if x.counted then s.freeDie d
  else
    let k := s.get RSTC_EXTEND_COUNT / 2 ^ (8 * (1 + d)) % 256
    let s := s.when (decide (k < 255)) fun s => s.set RSTC_EXTEND_COUNT (s.get RSTC_EXTEND_COUNT + 2 ^ (8 * (1 + d)))
    s.modDomain (1 + d) fun x => { x with released := some s.now }

/-- The order of ramp-slot requests (R412). -/
def SlotReq.rank : SlotReq → Nat
  | .spareUngate r => r
  | .dieUngate d => 10 + d
  | .dieRestore d => 12 + d
  | .clockRise r _ => 20 + r
  | .engineUngate e => 100 + e
  | .load e => 200 + 2 * e
  | .reset e => 201 + 2 * e

/-- The units of a request (R412). -/
def SlotReq.units : SlotReq → Nat
  | .dieUngate _ => 4
  | .dieRestore _ => 4
  | _ => 1

/-- Requests that a slot of `n` units takes, in order, and those that wait. -/
def takeSlots : Nat → List (SlotReq × Bool) → List (SlotReq × Bool) × List (SlotReq × Bool)
  | _, [] => ([], [])
  | n, x :: t =>
    if x.1.units ≤ n then
      let (a, b) := takeSlots (n - x.1.units) t
      (x :: a, b)
    else ([], x :: t)

/-- An engine that is OFF begins its ungating (R208). -/
def State.ungate (s : State) (e : Nat) : State := s.when (s.engState e == 0) (·.modEng e fun g => { g with ungating := true })

/-- A request that has its slot. -/
def State.grantSlot (s : State) (x : SlotReq) : State :=
  match x with
  | .spareUngate r => s.ungate (17 * r + 16)
  | .dieUngate d => { s with kpr := { s.kpr with gated := setAt s.kpr.gated d false } }.releaseDie d
  | .engineUngate e => s.ungate e
  | _ => s

/-- RAMP_SLOT (R412). -/
def execRampSlot (s : State) : Host.Outcome State Fault Refusal :=
  let l := sortBy (fun x => x.1.rank) s.kpr.slots
  let (go, wait) := takeSlots 4 l
  let s := s.incBy KPR_COUNTS2_SLOT_WAITS (wait.countP fun (x : SlotReq × Bool) => !x.2)
  let s := { s with kpr := { s.kpr with slots := wait.map fun (x : SlotReq × Bool) => (x.1, true) } }
  .next (s.each go fun s (x : SlotReq × Bool) => s.grantSlot x.1)

/-! ## Grant formation (R408) -/

/-- The die of a position is on. -/
def State.dieOn (s : State) (p : Nat) : Bool := !s.dieOff (p / 32)

/-- The ramp slots a grant needs are asked for (R412); the Keeper gates no engine that it names. -/
def State.askFor (s : State) (g : Grant) : State :=
  let s := s.each (g.pos.map s.server) fun s e => s.modEng e fun g => { g with gateReq := false }
  let s := s.each ((List.range 2).filter fun d => s.kpr.gated.getD d true && g.pos.any fun p => p / 32 == d) fun s d => s.askSlot (.dieUngate d)
  let s := s.each ((List.range 4).filter fun r => decide (g.cps.getD r 3 < s.get (CE_RG_STATUS_CLK_POINT r))) fun s r =>
    s.askSlot (.clockRise r (g.cps.getD r 3))
  s.each (g.pos.map s.server) fun s e =>
    s.when (!s.dieOff (e / 34) && s.engState e == 0 && s.ucValid e && !(s.eng e).ungating) (·.askSlot (.engineUngate e))

/-- Every engine that a grant names is READY, and its clock points have risen. -/
def State.grantReady (s : State) (g : Grant) : Bool :=
  g.pos.all (fun p => s.dieOn p && (s.engState (s.server p) == 2 || s.engState (s.server p) == 3)) &&
    !s.kpr.slots.any fun (x : SlotReq × Bool) => match x.1 with | .clockRise _ _ => true | .dieUngate _ => true | .dieRestore _ => true | _ => false

/-- A grant that is being formed is written once its engines are READY (R408); engines of a die just released are asked
for. -/
def State.settleGrant (s : State) : State :=
  match s.kpr.forming with
  | none => s
  | some g =>
    if s.grantReady g then { s with kpr := { s.kpr with forming := none, formed := some g } } else s.askFor g

/-- The columns the follower can fund (R411): the greatest N whose cheapest candidate fits the budget. -/
def State.fundable (s : State) (budget : Nat) (g : GrantInput) : Nat :=
  (((List.range (g.most + 1)).reverse).find? fun n =>
    match s.cheapest { g with most := n } with
    | some c => decide (s.standing g.pmu + s.encodeCost g.pmu c.1 c.2 ≤ budget)
    | none => false).getD 0

/-- Form the grant for the next frame (R408 to R411). -/
def State.formGrant (s : State) : State :=
  let g := s.newGrant
  let i := s.grantInput
  let s := s.set KPR_STATUS_LIMITER g.limiter
  let s := s.when (g.limiter == 2) (·.set KPR_EVENTS_THERM 1)
  let s := { s with kpr := { s.kpr with
    forming := some g
    formed := none
    cheapest := ((match s.cheapest i with | some c => [c] | none => []) ++ s.kpr.cheapest).take 16 } }
  let s := s.when (s.role == 2 && s.gang.up && g.deficit) (·.emit (.gangShortfall (s.fundable g.budget i)))
  s.settleGrant

/-- GRANT_FORMATION (R408): P − W − 200 µs after the last edge. -/
def execGrantFormation (s : State) : Host.Outcome State Fault Refusal :=
  .next (match s.bu.lastEdge with
  | some e => if s.flag KPR_CTRL_EN ∧ s.beaconRuns ∧ s.atLeastPmW (s.now8 - e + 1600000) then s.formGrant else s
  | none => s)

/-- GANG_SHORTFALL_REPORT (R31, R411): the lead lowers N at the next Beacon. -/
def execGangShortfallReport (n : Nat) (s : State) : Host.Outcome State Fault Refusal :=
  .next (if s.role = 1 ∧ s.gang.up then
    let t := { s with kpr := { s.kpr with shortfall := some n } }
    t.when (t.kpr.formed.isSome || t.kpr.forming.isSome) State.formGrant
  else s)

/-- DEFICIT_LIMIT (R407): 16 consecutive deficit frames raise source 0x55 once. -/
def execDeficitLimit (s : State) : Host.Outcome State Fault Refusal :=
  .next (if s.kpr.deficitRun = 16 then { s with kpr := { s.kpr with deficitRun := 17 } }.raise 0x55 0 0 else s)

/-- KPR_CLR_COUNTS (R394). -/
def execKprClrCounts (_a : Agent) (s : State) : Host.Outcome State Fault Refusal :=
  .next { s.clear [KPR_COUNTS_DEFICIT, KPR_COUNTS_STALE_GRANT, KPR_COUNTS2_SLOT_WAITS, KPR_COUNTS2_HOLDUP] with
    kpr := { s.kpr with refused := [], aborted := [] } }

/-! ## Gating and IDLE (R393, R409) -/

/-- A codec die may be gated (R24, R156, R409): no grant gives its regions a column, its engines have drained, its banks have
closed, and no temporal clip needs its region SRAM. -/
def State.mayGate (s : State) (d : Nat) : Bool :=
  let free := fun (g : Option Grant) => match g with | some g => g.pos.all (fun p => p / 32 != d) | none => true
  s.flag KPR_CTRL_EN && free (some s.kpr.grant) && free s.kpr.formed && free s.kpr.forming &&
    s.ppr.bind.all (fun b => b.1 / 32 != d) &&
    (dieEngines d).all (fun e => (s.engState e == 0 || s.engState e == 5 || s.engState e == 6) && !(s.eng e).resetHeld &&
      !(s.eng e).ungating) &&
    [2 * d, 2 * d + 1].all (fun r => (s.regions.getD r Region.reset).banks.all (·.isNone)) &&
    !(s.clipOpen && s.flag FAL_CTRL_TEMPORAL)

/-- The codec dies that need not be powered are gated. -/
def State.gateDies (s : State) : State :=
  s.each ((List.range 2).filter fun d => !s.dieOff d && s.mayGate d) fun s d => { s with kpr := { s.kpr with gated := setAt s.kpr.gated d true } }

/-- A format, rebuild or recovery runs (R393). -/
def State.setBusy (s : State) : Bool :=
  s.flag MGH_CMD_STAT_BUSY || decide (6 ≤ s.get MGH_STATUS_SET_STATE) || s.flag MGH_STATUS_RECOVERING

/-- The conditions of IDLE hold (R393). -/
def State.restful (s : State) : Bool := !s.clipOpen && !s.jobOpen && !s.setBusy

/-- The Keeper watches the conditions of IDLE, and leaves it when one ends (R393). -/
def State.idleCheck (s : State) : State :=
  if s.restful then { s with kpr := { s.kpr with idleFrom := s.kpr.idleFrom.orElse fun _ => some s.now } }
  else
    let s := { s with kpr := { s.kpr with idleFrom := none } }
    s.when (s.get KPR_STATUS_STATE == 1) (·.set KPR_STATUS_STATE 0)

/-- The conditions have held for MS ms (R393). -/
def State.idleDue (s : State) : Bool :=
  s.restful && s.get KPR_IDLE_MS != 0 && (match s.kpr.idleFrom with | some t => decide (t + 10 ^ 6 * s.get KPR_IDLE_MS ≤ s.now) | none => false)

/-- IDLE_TIMER (R393). -/
def execIdleTimer (s : State) : Host.Outcome State Fault Refusal :=
  .next (if s.flag KPR_CTRL_EN ∧ s.get KPR_STATUS_STATE = 0 ∧ s.idleDue then s.set KPR_STATUS_STATE 1 else s)

/-! ## Entering RETAIN and OFF (R394 to R397) -/

/-- Bay `b` has a command outstanding or a round in progress. -/
def State.bayBusy (s : State) (b : Nat) : Bool :=
  decide (4 ≤ (s.bay b).step) || (s.mag.round.isSome && s.service.any fun p => p.2 == b)

/-- The refusers that hold, by code in ascending order (R394). -/
def State.refusers (s : State) : List Nat :=
  (if s.clipOpen then [1] else []) ++ (if s.jobOpen then [2] else []) ++ ((List.range 4).filter s.bayBusy).map (0x10 + ·) ++
    (if s.setBusy then [0x14] else []) ++ (if s.host then [0x20] else []) ++
    ((List.range 16).filter fun n => s.chanState n == 1 || s.chanState n == 2).map (0x30 + ·) ++
    (if s.lmc.migration.isSome || s.lmc.training.any (·.isSome) then [0x40] else []) ++
    (if s.hpp.storeState = 1 ∨ s.hpp.storeState = 2 then [0x41] else []) ++ (if s.mgc.fwStatus = 1 then [0x42] else []) ++
    (if s.role ≠ 0 ∧ s.hpp.light.any (fun e => e.2.kind == 6 && e.2.state == 1) then [0x43] else [])

/-- Count under a refuser's code; each count saturates (R394). -/
def countCode (l : List (Nat × Nat)) (c : Nat) : List (Nat × Nat) := aput l c (min ((aget l c).getD 0 + 1) 0xFFFF)

/-- A request for RETAIN or OFF (R394, R395). A request during an entry is not taken. -/
def State.requestEntry (s : State) (toOff : Bool) : State :=
  if s.kpr.entry.isSome then s
  else
    match s.refusers with
    | [] => { s.set KPR_STATUS_STATE 2 with kpr := { s.kpr with entry := some ⟨toOff, s.now, none, false⟩ } }
    | c :: t =>
      let s := { s with kpr := { s.kpr with refused := (c :: t).foldl countCode s.kpr.refused } }
      let s := ((s.set KPR_REFUSE_LAST_CODE c).set KPR_REFUSE_LAST_ABORT 0).set KPR_REFUSE_LAST_AP 0
      (s.set KPR_EVENTS_REFUSED 1).raise 0x54 0 c

/-- RETAIN (R394). -/
def execRetain (_a : Agent) (s : State) : Host.Outcome State Fault Refusal := .next (s.requestEntry false)

/-- OFF (R394). -/
def execOff (_a : Agent) (s : State) : Host.Outcome State Fault Refusal := .next (s.requestEntry true)

/-- The abort point that comes next after `ns` of an entry (R395). -/
def abortPoint (ns : Nat) : Nat := if ns ≤ 20000 then 1 else if ns ≤ 200000 then 2 else 3

/-- An abort is counted (R396, R397). -/
def State.countAbort (s : State) (code ap : Nat) : State :=
  let s := { s with kpr := { s.kpr with aborted := countCode s.kpr.aborted code } }
  let s := ((s.set KPR_REFUSE_LAST_CODE code).set KPR_REFUSE_LAST_ABORT 1).set KPR_REFUSE_LAST_AP ap
  s.set KPR_EVENTS_ABORTED 1

/-- The Keeper is in RUN or IDLE again, and what an entry held goes on (R395, R396, R399). -/
def State.resume (s : State) : State :=
  let ks := s.kpr.kicks
  let op := s.kpr.heldOpen
  let s := { s with kpr := { s.kpr with entry := none, kicks := [], heldOpen := false } }
  let s := s.set KPR_STATUS_STATE (b2n s.idleDue)
  let s := s.each ks fun s n => s.dmaKick n
  s.when op (·.mghCmd .mgc 3 State.openCmd)

/-- An entry that has an abort waiting, or now gets one, is abandoned (R396). -/
def State.abortEntry (s : State) (code : Nat) : State :=
  match s.kpr.entry with
  | none => s
  | some e => (s.countAbort (e.abort.getD code) (abortPoint (s.now - e.start))).resume

/-- ENTRY_ABORT (R396): by an enabled wake event, or by an HPP request. -/
def execEntryAbort (wake : Option Nat) (s : State) : Host.Outcome State Fault Refusal :=
  .next (match s.kpr.entry with
  | none => s
  | some e =>
    let enabled := match wake with | some b => bitAt (s.word AON_WAKE_EN_WAKE_PIN.off).toNat b == 1 | none => true
    if e.late ∨ !(enabled || e.abort.isSome) then s
    else s.abortEntry (match wake with | some b => 0x80 + b | none => 3))

/-! ## Sleep and wake (R63, R64, R395, R399, R400) -/

/-- The DTC stops at an edge of the 32.768 kHz clock (R63); for OFF the record is valid then and MAIN_PWR_EN falls (R64, R395). -/
def State.latchDtc (s : State) : State :=
  let t := s.get AON_TICKS_TICKS
  let s := { s with tb := { s.tb with sleepTicks := some t, sleepWait := false } }
  if s.kpr.mode = .off then
    { s with aon := { s.aon with
        recordValid := true
        recordDtc := s.tb.dtc
        recordTicks := t
        mainPwrEn := false
        fellAt := some t
        wakeDue := s.aon.wakeDue } }.emit (.mainPwrEn false)
  else s

/-- The DTC is advanced across a sleep of `n` ticks (R63): 1953125 / 64 ns each. The PTP schedule goes on from the advanced DTC as R48
provides for a start: the instants slept over are not counted (R64). -/
def State.advanceDtc (s : State) (n : Nat) : State :=
  let d := s.tb.dtc + n * 1953125 * 2 ^ 26
  let s := { (s.set TB_SLEEP_TICKS_TICKS n).set TB_QUALITY_STATE 4 with tb := { s.tb with dtc := d % 2 ^ 96, sleepTicks := none } }
  (s.ptpRestart (s.bu.ptpFrom - s.now)).genNext

/-- The ticks since the DTC was stopped, modulo 2⁴⁸ (R63). -/
def State.slept (s : State) (t : Nat) : Nat := (s.get AON_TICKS_TICKS + 2 ^ 48 - t) % 2 ^ 48

/-- An edge of the 32.768 kHz clock: a running DTC stops when a sleep has been entered, a stopped one is advanced and starts when the
part is awake (R63). A part that has woken before the first edge stops and starts at that edge, with n = 0. -/
def State.aonEdge (s : State) : State :=
  let s := s.when s.tb.sleepWait State.latchDtc
  match s.kpr.mode, s.tb.sleepTicks with
  | .on, some t => s.advanceDtc (s.slept t)
  | _, _ => s

/-- The memory controller before a sleep (R395 step 4): its queues drain, and the DRAM refreshes itself. -/
def State.restMemory (s : State) : State :=
  s.each ((List.range 4).filter s.chOn) fun s c => (State.drainTo 0 c 64 s).selfRefresh c true

/-- The package sleeps (R395): the Beacon stops without its RUN being written, the links go down, and the DRAM refreshes itself. -/
def State.sleep (s : State) (m : PowerMode) : State :=
  let s := (s.set BU_STATUS_RUNNING 0).cxlLinkDown
  let s := s.restMemory
  let s := s.when (m == .off) State.writeHeader
  { s with
    bu := { s.bu with edgeDue := none, symbolAt := none }
    tb := { s.tb with sleepWait := true }
    kpr := { s.kpr with entry := none, mode := m }
    aon := { s.aon with wakeDue := false } }

/-- The package wakes from RETAIN (R399): the CAN controllers rejoin, a retraining that is due runs, the codec dies ask for the ramp slots
of their return, the Beacon restarts if RUN is 1, and the Keeper is in RUN or IDLE. -/
def State.wake (s : State) : State :=
  let s := { s with kpr := { s.kpr with mode := .on } }
  let s := s.each ((List.range 2).filter fun c => s.flag (CAN_C_CTRL_EN c)) fun s c =>
    s.clear [CAN_C_STATUS_STATE c, CAN_C_STATUS_TEC c, CAN_C_STATUS_REC c]
  let s := s.each ((List.range 4).filter s.chOn) fun s c => s.selfRefresh c false
  let s := match s.retrainNext with | some r => s.startRetrain r | none => s
  let s := s.each ((List.range 2).filter fun d => !s.dieOff d) fun s d => s.askSlot (.dieRestore d)
  (s.when (s.flag BU_CTRL_RUN) State.startBeacon).resume

/-- ENTRY_COMPLETE (R395, R397): a late wake follows at once. -/
def execEntryComplete (s : State) : Host.Outcome State Fault Refusal :=
  .next (match s.kpr.entry with
  | none => s
  | some e =>
    if e.abort.isSome then s
    else
      let t := s.sleep (if e.toOff then .off else .retain)
      if !e.late then t else if e.toOff then { t with aon := { t.aon with wakeDue := true } } else t.wake)

/-- A wake event (R396 to R400): during an entry it waits for the next abort point, or is late; asleep it wakes the part. -/
def State.wakeEvent (s : State) (b : Nat) : State :=
  if bitAt (s.word AON_WAKE_EN_WAKE_PIN.off).toNat b = 0 then s
  else
    let cause := s.setBit ⟨AON_WAKE_CAUSE_WAKE_PIN.off, 0, 8⟩ b
    match s.kpr.mode, s.kpr.entry with
    | .on, some e =>
      if b = 6 then s
      else if s.now ≤ e.start + 400000 then
        { s with kpr := { s.kpr with entry := some { e with abort := e.abort.orElse fun _ => some (0x80 + b) } } }
      else { cause with kpr := { cause.kpr with entry := some { e with late := true } } }.countAbort (0x80 + b) 3
    | .on, none => s
    | .retain, _ => if b = 6 then s else cause.wake
    | .off, _ => { cause with aon := { cause.aon with wakeDue := true } }

/-- WAKE_EVENT (R396 to R400). -/
def execWakeEvent (bit : Nat) (s : State) : Host.Outcome State Fault Refusal := .next (if bit < 8 then s.wakeEvent bit else s)

/-- 10 ms have passed since MAIN_PWR_EN fell, by the counter that runs in OFF: 327.68 ticks (R454). -/
def State.mayRaise (s : State) : Bool :=
  match s.aon.fellAt with | some t => decide (328 ≤ s.slept t) | none => true

/-- MAIN_PWR_EN_RAISE (R400, R454): after a wake event, or when no valid OFF record exists. -/
def execMainPwrEnRaise (s : State) : Host.Outcome State Fault Refusal :=
  .next (if !s.aon.mainPwrEn && (s.aon.wakeDue || !s.aon.recordValid) && s.mayRaise then
    { s with aon := { s.aon with mainPwrEn := true, supply := true, wakeDue := false, fellAt := none } }.emit (.mainPwrEn true) else s)

/-- AON_SUPPLY_LOST (R64, R454): the record and the Always-On registers are lost, and MAIN_PWR_EN is low. -/
def execAonSupplyLost (s : State) : Host.Outcome State Fault Refusal :=
  let s := s.when s.aon.mainPwrEn (·.emit (.mainPwrEn false))
  .next { s with
    regs := sdrop (fun off => decide (0x540000 ≤ off ∧ off < 0x580000)) s.regs
    aon := { AlwaysOn.reset with mainPwrEn := false, supply := false }
    kpr := { s.kpr with mode := .off } }

/-! ## Power failure (R401, R402, R457) -/

/-- Steps 1 to 4 of R401: optional work and intake stop, the power-fail commit begins, engines halt, lanes and ports power
down. -/
def State.holdup (s : State) : State :=
  let s := ((s.set KPR_STATUS_HOLDUP 1).set KPR_STATUS_LIMITER 3).inc KPR_COUNTS2_HOLDUP
  let s := { s.set KPR_EVENTS_HOLDUP 1 with
    kpr := { s.kpr with grant := { s.kpr.grant with fund := 0, scrub := 0 } }
    log := { s.log with cur := { s.log.cur with holdups := s.log.cur.holdups + 1 } } }
  let s := s.powerFailCommit
  let s := { s with
    frames := []
    queues := s.queues.zipIdx.map fun (p : OutQ × Nat) => if p.2 < 64 then OutQ.reset else p.1
    regions := s.regions.map fun _ => Region.reset
    engines := s.engines.map fun (g : Engine) => { g with jobs := [], haltReq := true }
    eth := s.eth.map fun (e : EthPort) => { e with queue := [], sending := none } }
  s.lanesDown

/-- PWR_FAIL_N falls (R401, R402, R457). -/
def State.powerFalls (s : State) : State :=
  let t := { s with kpr := { s.kpr with powerFail := some s.now } }
  if (s.domain 0).inReset then
    t.when t.aon.mainPwrEn fun u =>
      { u with aon := { u.aon with mainPwrEn := false, fellAt := some (u.get AON_TICKS_TICKS) } }.emit (.mainPwrEn false)
  else
    match s.kpr.mode with
    | .off => t
    | .retain =>
      let u := { t with kpr := { t.kpr with mode := .off }, dram := [], poison := [] }
      match u.tb.sleepTicks with
      | some k =>
        { u with aon := { u.aon with recordValid := true, recordDtc := u.tb.dtc, recordTicks := k, mainPwrEn := false, fellAt := some (u.get AON_TICKS_TICKS) } }.emit
          (.mainPwrEn false)
      | none => u
    | .on =>
      match s.kpr.entry with
      | some e => { t with kpr := { t.kpr with entry := some { e with toOff := true } } }
      | none =>
        if s.mag.clip.isSome then t.holdup
        else { t.set KPR_STATUS_STATE 2 with kpr := { t.kpr with entry := some ⟨true, s.now, none, false⟩ } }

/-- PWR_FAIL_FALL (R401, R402, R457): the pin after its filter. -/
def execPwrFailFall (s : State) : Host.Outcome State Fault Refusal := .next (if s.kpr.powerFail.isSome then s else s.powerFalls)

/-- HOLDUP_OFF_ENTRY (R401 step 7): once the power-fail commit has ended. -/
def execHoldupOffEntry (s : State) : Host.Outcome State Fault Refusal :=
  .next (if s.flag KPR_STATUS_HOLDUP ∧ s.kpr.powerFail.isSome ∧ s.mag.powerFail = none ∧ s.kpr.mode = .on then s.sleep .off else s)

/-- PWR_FAIL_RISE (R402): in OFF it is the POWER wake event. -/
def execPwrFailRise (s : State) : Host.Outcome State Fault Refusal :=
  .next (if s.kpr.powerFail.isNone then s
  else
    let t := { s with kpr := { s.kpr with powerFail := none } }
    let t := t.when (t.flag KPR_STATUS_HOLDUP && s.kpr.mode == .on) State.writeHeader
    if s.kpr.mode = .off then t.wakeEvent 6 else t)

/-- The limit returns to normal at the first Beacon after PWR_FAIL_N has risen (R402); the Pixel Port's links are powered again and
train. -/
def State.holdupEnds (s : State) : State :=
  s.when (s.flag KPR_STATUS_HOLDUP && s.kpr.powerFail.isNone) fun s => (s.set KPR_STATUS_HOLDUP 0).each s.linksInUse State.train

/-! ## Temperature (R413 to R415, R464) -/

/-- A reading in units of 1/16 °C, trimmed by the Daymark and rounded to 0.25 °C, midway upward (R413). -/
def State.trimmed (s : State) (i : Nat) (raw : Int) : Int := (raw + 4 * signed 8 (s.nor.daymark.getD (80 + i) 0) + 2) / 4

/-- The powered dies: 0 CD0, 1 CD1, 2 the IOD. -/
def State.powered (s : State) (d : Nat) : Bool := d == 2 || !s.dieOff d

/-- What a die counts as: its highest valid reading, or 105 °C when every sensor fails (R413). -/
def dieTemp (l : List (Int × Bool)) : Int × Bool :=
  match (l.filter (·.2)).map (·.1) with
  | [] => (420, false)
  | t :: ts => (ts.foldl max t, true)

/-- Tmax is judged (R414, R464). -/
def State.judgeTemp (s : State) (t : Int) : State :=
  let s := s.set KPR_TMAX_T (unsigned 12 t)
  let hot := decide (420 < t)
  let s := s.when (hot && !s.kpr.hot) (·.raise 0x56 0 0)
  let trip := decide (4 * (min (s.get KPR_THERM_T_TRIP) 120 : Nat) ≤ t)
  let s := s.when (trip && !s.kpr.tripped) (·.raise 0x57 0 0)
  let cold := decide (t < -80)
  let s := s.when (cold && !s.kpr.cold) (·.raise 0x54 0 0)
  { s with kpr := { s.kpr with hot := hot, tripped := trip, cold := cold, gated := if cold then [true, true] else s.kpr.gated } }

/-- TEMP_SAMPLE (R413). -/
def execTempSample (readings : List (Int × Bool)) (s : State) : Host.Outcome State Fault Refusal :=
  let rs := (List.range 24).map fun i => let r := readings.getD i (0, false); (s.trimmed i r.1, r.2)
  let t := s.each rs.zipIdx fun s (p : (Int × Bool) × Nat) => (s.set (KPR_TEMP_T p.2) (unsigned 12 p.1.1)).set (KPR_TEMP_VALID p.2) (b2n p.1.2)
  let ds := ((List.range 3).filter s.powered).map fun d => (d, dieTemp ((rs.drop (8 * d)).take 8))
  let dead := (ds.filter fun d => !d.2.2).map (·.1)
  let t := t.each (dead.filter fun d => !s.kpr.deadDies.contains d) fun s _ => s.raise 0x54 0 0
  let t := { t with kpr := { t.kpr with deadDies := dead } }
  .next (t.judgeTemp ((ds.map fun d => d.2.1).foldl max ((ds.map fun d => d.2.1).headD 0)))

/-- A DRAM die is above its operating range (R415): the event is set at each onset. -/
def State.dramHot (s : State) : State :=
  let h := s.lmc.timing.any (·.hot)
  if h = s.flag KPR_STATUS_DRAM_HOT then s
  else (s.set KPR_STATUS_DRAM_HOT (b2n h)).when h (·.set KPR_EVENTS_DRAM_HOT 1)

/-- What the Keeper does between commands. -/
def State.keeperStep (s : State) : State := ((s.idleCheck.dramHot).settleGrant).gateDies

end Sys2Proof.Machine
end

