-- ==== Sys2Proof/Machine/Snapshot.lean ====
section
/-! DEFINITION. The Beacon edge (R50 to R59): the epoch, the shadow commit, the Keeper's grant, spare substitutions, held resets
and the Tiler's binding, the service level, and the frame that the edge opens. -/

namespace Sys2Proof.Machine

/-! ## Software shadows (R51, R53 to R59) -/

/-- The Beacon-class words whose commit nothing can keep out. -/
def plainShadows : List Nat :=
  [0x0, 0x14, 0x80000, 0x100008, 0x10000C, 0x34000C, 0x340010, 0x340014, 0x340018, 0x34001C, 0x340020, 0x340024, 0x340028, 0x34002C,
    0x340030, 0x340034, 0x440020]

/-- The shadows of some words are committed. -/
def State.commitWords (s : State) (l : List Nat) : State := s.each l fun s o => s.putForce o (s.word o)

/-- A rate pair is accepted by the commit (R59). -/
def rateOk (n d : Nat) : Bool := decide (d ≠ 0 ∧ d ≤ n ∧ n ≤ 960 * d)

/-- The rate and the phase are committed, each unless R59 keeps it out. -/
def State.commitRate (s : State) : State :=
  let s := if rateOk (s.get BU_RATE_NUM_NUM) (s.get BU_RATE_DEN_DEN) then s.commitWords [0x8, 0xC] else s.cfg BU_RATE_NUM_NUM.off
  if s.get BU_PHASE_PHASE * s.period.2 < s.period.1 then s.commitWords [0x10] else s.cfg BU_PHASE_PHASE.off

/-- The format in the shadows is valid (R88). -/
def State.shadowFormatOk (s : State) : Bool :=
  formatOk (s.get PPR_FMT0_WIDTH) (s.get PPR_FMT0_HEIGHT) (10 + 2 * s.get PPR_FMT1_DEPTH) (s.get PPR_FMT1_MONO) (s.get PPR_FMT1_CFA)

/-- The format is committed as a whole, or kept (R88). -/
def State.commitFormat (s : State) : State :=
  if s.shadowFormatOk then s.commitWords [0x80004, 0x80008] else s.cfg PPR_FMT0_WIDTH.off

/-- The width of the whole frame in force (R87). -/
def State.wholeWidth (s : State) : Nat := s.fmtW * (if s.clip.ganged then 2 else 1)

/-- The target is committed, unless R137 keeps it out in CFS or QCAP. -/
def State.commitTarget (s : State) : State :=
  let m := s.get FAL_CTRL_MODE
  if (m = 1 ∨ m = 2) ∧ !targetOk s.wholeWidth s.fmtH s.fmtD (s.flag FAL_CTRL_TEMPORAL) (s.get FAL_TARGET_BYTES) then
    (s.set FAL_EVENTS_TARGET_REJECT 1).cfg FAL_TARGET_BYTES.off
  else s.commitWords [0x100004]

/-- Every software shadow but the target is committed. -/
def State.commitSettings (s : State) : State := ((s.commitWords plainShadows).commitRate).commitFormat

/-- FORCE_COMMIT (R57). It commits the software-written shadows, also under HOLD; the hardware-owned ones of R51 wait for a Beacon: DESIGN
CHOICE, log entry 82. -/
def execForceCommit (_a : Agent) (s : State) : Host.Outcome State Fault Refusal :=
  .next (if s.beaconRuns then s.cfg BU_CMD_FORCE_COMMIT.off
  else
    let t := s.commitSettings.commitTarget
    { t with bu := { t.bu with waitHost := false, waitMgc := false } })

/-! ## The Beacon source (R49) -/

/-- P − W rounded up to ns, with the rate in force. -/
def State.pmw (s : State) : Nat :=
  let (n, d) := s.period
  let (w, _) := s.window
  ceilDiv (256 * n - w) (256 * d)

/-- A source, rate or phase that took effect at this edge (R49). -/
def State.followSource (s : State) (src : Nat) (rate : Word × Word) (phase : Word) : State :=
  let moved := rate != (s.inForce 0x8, s.inForce 0xC)
  let k := s.source_
  if k = 0 ∧ (src ≠ 0 ∨ moved ∨ phase ≠ s.inForce 0x10) then { s with bu := { s.bu with tStart := s.tb.disc, k := 1 } }
  else if k = 1 ∧ (src ≠ 1 ∨ moved ∨ phase ≠ s.inForce 0x10) then
    { s with bu := { s.bu with ptpFrom := s.now + s.pmw } }.ptpRestart s.pmw
  else if k = 2 ∧ src ≠ 2 then { s with bu := { s.bu with fresh := true } }
  else s

/-! ## Epoch, time and timecode (R50, R52, R66, R69) -/

/-- The timecode of the LTC frame in progress, and whether there is one (R66). -/
def State.timecode (s : State) : Nat × Bool :=
  if s.flag TB_LTC_STAT_IN_VALID then (tcNext (s.get TB_LTC_CTRL_RATE) s.ltcIn, true)
  else if s.get TB_LTC_CTRL_GEN_MODE ≠ 0 then (s.tb.gen, true) else (0, false)

/-- The latches of R66. -/
def State.latchTimecode (s : State) : State :=
  let (t, v) := s.timecode
  let n := if s.flag TB_LTC_STAT_IN_VALID then s.tb.inSub else if v then s.tb.genSub else 0
  let s := (s.putWord TB_LTC_BEACON_FRAMES.off (BitVec.ofNat 32 t)).set TB_LTC_STAT_TC_VALID (b2n v)
  { s.set TB_LTC_STAT_SUBFRAME n with tb := { s.tb with inSub := s.tb.inSub + 1, genSub := s.tb.genSub + 1 } }

/-- FRAME_EPOCH at this edge (R52, R58, R69). -/
def State.nextEpoch (s : State) (k : EdgeKind) : Nat :=
  match k with
  | .gang e _ _ => e.toNat
  | _ => ((if s.flag BU_STATUS_PRESET_ARMED then s.get BU_EPOCH_PRESET_EPOCH else s.epoch) + 1) % 2 ^ 32

/-- A follower's DTC is the lead's at its edge (R69). -/
def State.leadTime (s : State) (k : EdgeKind) : State :=
  match k with
  | .gang _ d _ => { s with tb := { s.tb with dtc := d % 2 ^ 64 * 2 ^ 32 } }
  | _ => s

/-- The run of flywheel edges that end here (R46). -/
def Beacon.run (b : Beacon) (k : EdgeKind) : Beacon :=
  if k = .flywheel then { b with missRun := b.missRun + 1 } else { b with missRun := 0, missTold := false }

/-- Step 1 of R50 but for the shadows: an edge at `at8`. Writes that HOLD keeps out wait on (R56). -/
def State.openEpoch (s : State) (k : EdgeKind) (at8 : Nat) : State :=
  let e := s.nextEpoch k
  let s := s.leadTime k
  let s := ((s.set BU_FRAME_EPOCH_EPOCH e).set BU_SHADOW_EPOCH_EPOCH (e + 1)).set BU_STATUS_PRESET_ARMED 0
  let held := s.flag BU_CTRL_HOLD
  let s := (s.set BU_BEACON_TIME_TIME s.dtcNs).set BU_STATUS_FLYWHEEL (b2n (k == .flywheel))
  let s := { s with
    bu := { s.bu.run k with
      lastEdge := some at8
      edgeDue := none
      waitHost := s.bu.waitHost && held
      waitMgc := s.bu.waitMgc && held } }
  s.latchTimecode

/-! ## The grant (R406 to R411) -/

/-- The funded items in force at a service level (R426). -/
def fundAt (level fund : Nat) : Nat := if level = 0 then fund else if level = 1 then fund &&& 3 else 0

/-- The grant registers. -/
def State.grantRegs (s : State) (g : Grant) (stale : Bool) : State :=
  let s := (s.set KPR_GRANT_N (g.cols.foldl (· + ·) 0)).set KPR_GRANT_CP (g.cps.zipIdx.foldl (fun a p => a + p.1 % 4 * 4 ^ p.2) 0)
  let s := ((s.set KPR_GRANT_FUND g.fund).set KPR_GRANT_STALE (b2n stale)).set KPR_GRANT_EPOCH_EPOCH s.epoch
  let s := ((s.set KPR_BUDGET_PIPS g.budget).set KPR_MAND_PIPS g.mand).set KPR_SPENT_PIPS g.spent
  let s := (s.set KPR_SCRUB_GRANT_MIB g.scrub).set KPR_GRANT_COLS_R0 (g.cols.getD 0 0)
  ((s.set KPR_GRANT_COLS_R1 (g.cols.getD 1 0)).set KPR_GRANT_COLS_R2 (g.cols.getD 2 0)).set KPR_GRANT_COLS_R3 (g.cols.getD 3 0)

/-- A deficit frame, or one that is none (R407). -/
def State.noteDeficit (s : State) (g : Grant) : State :=
  let s := s.set KPR_STATUS_DEFICIT (b2n g.deficit)
  let s := { s with
    kpr := { s.kpr with deficitRun := if g.deficit then max s.kpr.deficitRun (min 16 (s.kpr.deficitRun + 1)) else 0 }
    fc := { s.fc with deficits := (g.deficit :: s.fc.deficits).take 16 } }
  s.when g.deficit fun s => ((s.inc KPR_COUNTS_DEFICIT).set KPR_EVENTS_DEFICIT 1).raise 0x54 0 0

/-- The column count that comes with a follower's edge (R31). -/
def EdgeKind.columns : EdgeKind → Option Nat
  | .gang _ _ n => some n
  | _ => none

/-- An engine could be bound at this snapshot: BOUND, or READY with neither a halt nor a gating waiting (R213). -/
def State.bindable (s : State) (e : Nat) : Bool :=
  s.engState e == 3 || (s.engState e == 2 && !(s.eng e).haltReq && !(s.eng e).gateReq)

/-- The columns that the engines in service can take. -/
def State.readyCols (s : State) : List Nat :=
  (List.range 4).map fun r => (s.available r).countP fun i => s.bindable (s.server (16 * r + i))

/-- A follower's grant of exactly the `n` columns that the lead has set (R31): its own where it has that count, else the cheapest
candidate of `n` columns on engines in service, funded from its own budget (R411). Where there is none it keeps its own (log entry 62). -/
def State.grantOf (s : State) (g : Grant) (n : Nat) : Grant :=
  let i := s.grantInput
  if g.cols.foldl (· + ·) 0 = n then g
  else if n = 0 then { s.grantOn i none with noAdmit := false }
  else
    match s.cheapestAt i s.readyCols n with
    | some c => s.grantOn i (some c)
    | none => g

/-- The grant of the frame that opens: what the hardware-owned shadow holds (R51, R408), with the lead's column count on a follower
(R31). `running` says whether a grant was to be formed. -/
def State.takeGrant (s : State) (running : Bool) (columns : Option Nat) : State :=
  let old := s.kpr.grant
  let stale := s.kpr.formed.isNone && running && s.flag KPR_CTRL_EN
  let g := s.kpr.formed.getD old
  let g := match columns with | some n => s.grantOf g n | none => g
  let s := { s with kpr := { s.kpr with grant := g, formed := none, forming := none } }
  let s := s.when stale (·.inc KPR_COUNTS_STALE_GRANT)
  let s := s.when (g.cols != old.cols || g.cps != old.cps) (·.set KPR_EVENTS_GRANT_CHANGE 1)
  let s := (s.grantRegs g stale).noteDeficit g
  s.when (g.noAdmit && s.clipOpen) (·.enterSafe 6 0)

/-! ## Spares and held resets (R27, R222, R223) -/

/-- The spare of region `r` gives its position back. -/
def State.spareOut (s : State) (r : Nat) : State :=
  let p := 17 * r + 16
  let s := (s.set (CE_RG_STATUS_SPARE r) 3).set (CE_RG_STATUS_SPARE_POS r) 0
  let s := if s.engState p = 2 then
      (s.set (CE_RG_EVENTS_SPARE_OUT r) 1).modEng p fun g => { g with gateReq := true }
    else s
  s.spareStatus r

/-- The replaced engines of region `r` that are READY, and need no ADMIT or have it, take their positions back (R214, R223). -/
def State.returnSpare (s : State) (r : Nat) : State :=
  let is_ := (List.range 16).filter fun i => (s.eng (17 * r + i)).away && s.returns (17 * r + i)
  let held := is_.any fun i => s.spareHolds r i
  let s := s.each is_ fun s i => s.modEng (17 * r + i) fun g => { g with away := false, admitReq := false }
  s.when held (·.spareOut r)

/-- The spare of region `r` takes over the first position whose engine is out, when it has been READY for 2 µs. -/
def State.takeOver (s : State) (r : Nat) : State :=
  let p := 17 * r + 16
  let early := match (s.eng p).readyAt with | some t => decide (t + 2000 ≤ s.now) | none => false
  match s.firstOut r with
  | some i =>
    if !s.standsIn r ∧ s.engState p = 2 ∧ !(s.eng p).resetHeld ∧ early = true then
      let s := ((s.set (CE_RG_STATUS_SPARE r) 1).set (CE_RG_STATUS_SPARE_POS r) i).set (CE_RG_EVENTS_SPARE_IN r) 1
      s.modEng (17 * r + i) fun g => { g with away := true, admitReq := false }
    else s
  | none => s

/-- Held resets and spare substitutions. -/
def State.takeEngines (s : State) : State :=
  let s := s.each (List.range 2) State.heldDie
  let s := s.each (List.range 4) State.returnSpare
  let s := s.each (List.range 4) State.takeOver
  s.each ((List.range 68).filter fun e => (s.eng e).resetHeld) State.applyReset

/-! ## The binding (R19, R90 to R92) -/

/-- The spare stands in at position `p`. -/
def State.spareAt (s : State) (p : Nat) : Bool := s.standsIn (p / 16) && s.get (CE_RG_STATUS_SPARE_POS (p / 16)) == p % 16

/-- Columns at positions `ps`, `units` wide each. -/
def State.bindOf (s : State) (ps units : List Nat) : List (Nat × Bool × Nat × Nat) :=
  (ps.zip (units.zip (cutStarts 0 units))).map fun p => (p.1, s.spareAt p.1, p.2.1, p.2.2)

/-- A cut of the frame in force. -/
def State.cutFits (s : State) (ws : List Nat) : Bool := cutOk (s.fmtW / 32) s.fmtH (s.getF BU_RATE_NUM_NUM) (s.getF BU_RATE_DEN_DEN) ws

/-- The binding's registers. -/
def State.bindRegs (s : State) (b : List (Nat × Bool × Nat × Nat)) : State :=
  let word := fun (c : Nat × Bool × Nat × Nat) => c.1 % 64 + 64 * b2n c.2.1 + 128 + 256 * c.2.2.1 + 65536 * c.2.2.2
  let s := ((s.set TLR_STATUS_N b.length).set TLR_STATUS_PAD (b2n (s.fmtH == 1080))).set TLR_EPOCH_EPOCH s.epoch
  let s := { s with ppr := { s.ppr with bind := b } }
  s.each (List.range 64) fun s n => s.putWord (TLR_BIND_SLOT n).off (BitVec.ofNat 32 (((b.drop n).head?.map word).getD 0))

/-- The grant's tiling is infeasible: the binding in force stays (R91). With a new format its columns are cut afresh; when that
is infeasible too, the format stays. -/
def State.keepBinding (s : State) (fmt : Word × Word) : State :=
  let s := (s.inc TLR_REJECT_COUNT).raise 0x12 0 0
  let b := s.ppr.bind
  let ps := b.map (·.1)
  let us := b.map (·.2.2.1)
  let ws := ps.map fun p => cpWeight (s.get (CE_RG_STATUS_CLK_POINT (p / 16)))
  let changed := fmt != (s.inForce 0x80004, s.inForce 0x80008)
  if us.foldl (· + ·) 0 = s.fmtW / 32 ∧ !changed then s.bindRegs (s.bindOf ps us)
  else if s.cutFits ws then s.bindRegs (s.bindOf ps (cutUnits (s.fmtW / 32) ws))
  else if changed ∧ b ≠ [] then
    let s := ((s.putForce 0x80004 fmt.1).putForce 0x80008 fmt.2).cfg PPR_FMT0_WIDTH.off
    s.bindRegs (s.bindOf ps us)
  else s.bindRegs []

/-- The Tiler binds the frame's columns (R19, R91, R92). -/
def State.bindColumns (s : State) (fmt : Word × Word) : State :=
  let g := s.kpr.grant
  let ws := colWeights g.cols g.cps
  if ws = [] ∨ s.cutFits ws then
    let s := s.each (List.range 4) fun s r => s.set (CE_RG_STATUS_CLK_POINT r) (g.cps.getD r 3)
    s.bindRegs (s.bindOf g.pos (if ws = [] then [] else cutUnits (s.fmtW / 32) ws))
  else s.keepBinding fmt

/-- A READY engine of the binding takes the Beacon as an event after a halt and a gating request that wait (R213), and is BOUND. -/
def State.bindEngine (s : State) (e : Nat) : State :=
  if s.engState e ≠ 2 then s
  else if (s.eng e).haltReq ∨ (s.eng e).gateReq then s.takeEvents e
  else s.setEng e 3

/-- Engines take the states that the binding gives them (R205, R207): a READY engine of the binding is BOUND; one that serves
no column is gated once it has finished, unless its position is to be taken (R21, R222, R223). -/
def State.bindEngines (s : State) : State :=
  let es := s.ppr.bind.map boundEngine
  let s := s.each es State.bindEngine
  let s := s.each (List.range 68) State.settle
  let wait := fun e => if isSpare e then (s.firstOut (e / 17)).isSome || s.standsIn (e / 17) else (s.eng e).away
  s.each ((List.range 68).filter fun e => s.engState e == 2 && !es.contains e && !wait e) fun s e =>
    s.modEng e fun g => { g with gateReq := true }

/-! ## The service level (R425, R491) -/

/-- The engines that are ISOLATED or RETIRED. -/
def State.isolated (s : State) : List Nat := (List.range 68).filter fun e => s.engState e == 5 || s.engState e == 6

/-- The KINDs of the conditions of REDUCED that hold, in ascending order. `iso` are the engines isolated or retired at the snapshot,
before it applies their held resets (R21, R214). A codec die that fails lock counts with its engines (R431). -/
def State.reducedKinds (s : State) (iso : List Nat) : List Nat :=
  let out := iso.any fun e =>
    !(s.standsIn (e / 17) && !isSpare e && s.get (CE_RG_STATUS_SPARE_POS (e / 17)) == posOf e)
  let out := out || bits (s.get RSTC_STATUS_LOCK_FAIL) 0 2 != 0
  let ups := s.linksInUse.map s.linkUp
  let rank := s.lmc.stuck != [] || (List.range 8).any fun r => s.rank r == 6
  (if out then [1] else []) ++ (if ups.contains true ∧ ups.contains false then [2] else []) ++ (if rank then [3] else []) ++
    (if s.setDegraded then [4] else []) ++ (if s.clip.ganged ∧ s.clipOpen ∧ !s.gang.joined then [5] else [])

/-- Sixteen Beacons without a Pixel Port link while a clip is open (R425). -/
def State.watchLinks (s : State) : State :=
  let n := if s.clipOpen ∧ s.get PPR_LINK_STATUS_LINK_UP = 0 then s.fc.noLink + 1 else 0
  let s := { s with fc := { s.fc with noLink := n } }
  s.when (decide (16 ≤ n)) (·.enterSafe 7 0)

/-- The level of the frame that opens. -/
def State.takeLevel (s : State) (iso : List Nat) : State :=
  let s := s.watchLinks
  let due := s.fc.basicDue
  let basic := due.isSome || (s.fc.basic && !s.fc.restoreDue)
  let s := { s with fc := { s.fc with basicDue := none, restoreDue := false, basic := basic } }
  let ks := s.reducedKinds iso
  let old := s.get FC_LEVEL_LEVEL
  let new := if basic then 2 else if ks = [] then 0 else 1
  if old = 3 ∨ new = old then s
  else if new < old then s.setLevel new 10 0
  else if new = 2 then s.setLevel 2 (due.getD (8, 0)).1 (due.getD (8, 0)).2
  else s.setLevel 1 (ks.headD 1) 0

/-! ## The frame (R125, R149, R255, R378) -/

/-- The frame that opens is a frame of the clip. A follower codes while it takes part and its Tiler runs. -/
def State.inClip (s : State) : Bool :=
  decide (s.get FC_LEVEL_LEVEL < 3) && !s.flag KPR_STATUS_HOLDUP &&
    (if s.role = 2 then s.gang.joined && s.flag TLR_CTRL_EN
      else s.mag.clip.isSome && s.mag.closing.isNone && s.mag.powerFail.isNone && !s.clip.stopReq)

/-- `n` columns divided over regions of 16 engines, by a free value for each. -/
def freeSplit : List Nat → Nat → List Nat
  | [], _ => []
  | v :: t, n =>
    let lo := n - 16 * t.length
    let a := lo + v % (min n 16 - lo + 1)
    a :: freeSplit t (n - a)

/-- `n` of the last `k` of a region's 16 positions, ascending, by a free value. -/
def freePlaces (v : Nat) : Nat → Nat → List Nat
  | 0, _ => []
  | k + 1, n =>
    if n = 0 then [] else if k < n ∨ bitAt v k = 1 then (15 - k) :: freePlaces v k (n - 1) else freePlaces v k n

/-- A binding of `n` columns of the other package over which R31 lets it decide, by 16 free values: how its columns divide over its regions,
their positions, a spare in each region, and clock points. It is cut as R90 gives, at equal weights where those points make no tiling. -/
def State.freeBinding (s : State) (n : Nat) (v : List Nat) : List (Nat × Bool × Nat × Nat) :=
  let ns := freeSplit (v.take 4) n
  let cps := (v.drop 4).map (· % 3)
  let ps := ns.zipIdx.flatMap fun p =>
    let l := freePlaces (v.getD (8 + p.2) 0) 16 p.1
    let spare := v.getD (12 + p.2) 0 % (p.1 + 1)
    l.zipIdx.map fun q => (16 * p.2 + q.1, q.2 == spare)
  let ws := colWeights ns cps
  let ws := if s.cutFits ws then ws else List.replicate n 4
  let us := cutUnits (s.fmtW / 32) ws
  (ps.zip (us.zip (cutStarts 0 us))).map fun p => (p.1.1, p.1.2, p.2.1, p.2.2)

/-- The column entries of a binding in the opening header (R166). -/
def columnEntries (b : List (Nat × Bool × Nat × Nat)) (follower : Bool) : List (Nat × Nat × Nat × Nat × Bool × Bool) :=
  b.map fun b => (b.2.2.1, b.1 % 4, b.1 / 4 % 4, b.1 / 16, b.2.1, follower)

/-- The column entries of the opening header (R31, R166). Of the other package this one knows only that it uses the same N: its binding is a
free one (log entry 62). -/
def State.headerCols (s : State) (ganged : Bool) : List (Nat × Nat × Nat × Nat × Bool × Bool) × State :=
  let own := s.ppr.bind
  if !ganged then (columnEntries own false, s)
  else
    let (v, s) := State.drawList 16 s
    let other := s.freeBinding own.length v
    (if s.role = 2 then columnEntries other false ++ columnEntries own true else columnEntries own false ++ columnEntries other true, s)

/-- A frame index is recorded (R165, R374). -/
def State.indexed (s : State) : Bool :=
  match s.mag.clip with | some c => bitAt c.modeFlags 6 == 1 | none => s.setting 0x2000 8 == 1

/-- What the opening header of the frame will say (R164). Whether the other package of a gang funds verify, this one is not told: a free
value (log entry 52). -/
def State.frameInfo (s : State) (fund : Nat) : FrameInfo × State :=
  let ganged := s.role == 2 || s.clip.ganged
  let (v, s) := if ganged then s.draw else (0, s)
  let (cols, s) := s.headerCols ganged
  let funded := bitAt fund 0 == 1
  let mode := s.get FAL_CTRL_MODE
  let level := s.get FC_LEVEL_LEVEL
  ({ epoch := s.epoch, clipFrame := s.clip.frame, beaconTime := s.get BU_BEACON_TIME_TIME,
     timeQ := s.get TB_QUALITY_STATE + 8 * s.get TB_LTC_STAT_TC_VALID, subframe := s.get TB_LTC_STAT_SUBFRAME,
     timecode := (s.word TB_LTC_BEACON_FRAMES.off).toNat, rateNum := s.getF BU_RATE_NUM_NUM, rateDen := s.getF BU_RATE_DEN_DEN,
     target := s.getF FAL_TARGET_BYTES, mode := mode, temporal := s.flag FAL_CTRL_TEMPORAL,
     verify := if s.role = 2 then decide (level < 2) && v % 2 == 1 else funded,
     verifyF := ganged && if s.role = 2 then funded else decide (level < 2) && v % 2 == 1, ganged := ganged, mono := s.getF PPR_FMT1_MONO == 1, index := s.indexed,
     depth := s.fmtD, cfa := s.getF PPR_FMT1_CFA, width := s.fmtW * (if ganged then 2 else 1), height := s.fmtH,
     cols := cols }, s)

/-- Some column keeps its start and width from the clip's last frame. -/
def State.cutKept (s : State) : Bool := s.ppr.bind.any fun b => s.clip.lastCols.any fun c => c.2.2 == b.2.2

/-- The frame may hold predicted tile-stripes (R125); whether it is due as a key frame is judged as its tile-stripes are coded. -/
def State.mayPredict (s : State) (sameFormat : Bool) : Bool :=
  s.flag FAL_CTRL_TEMPORAL && bitAt s.kpr.grant.fund 2 == 1 && sameFormat && s.clip.frame != 0 && !s.clip.dropped && s.cutKept

/-- A column queue is filled beyond `OQ_DROP_MARK` (R255). -/
def State.overMark (s : State) : Bool :=
  let m := max 1 (min 100 (s.get OQ_DROP_MARK_PERCENT))
  (List.range 64).any fun q => (List.range (if s.twoLanes q then 2 else 1)).any fun l => decide (m * s.laneCap q < 100 * (s.lane q l).fill)

/-- The frame is dropped by the Output Queues (R255, R426). -/
def State.queuesDrop (s : State) : Bool :=
  s.role != 2 && (s.get FC_LEVEL_LEVEL == 2 || (s.get FAL_CTRL_MODE == 0 && s.flag OQ_CTRL_DROP_EN)) && s.overMark

/-- The slice of each region that a column of the frame is bound in opens a bank for it (R144, R156). -/
def State.openBanks (s : State) (e : Nat) : State :=
  let rs := s.ppr.bind.map (·.1 / 16)
  { s with regions := s.regions.zipIdx.map fun (g : Region × Nat) =>
      match g.1.banks.findIdx? (·.isNone) with
      | some i => if rs.contains g.2 then { g.1 with banks := setAt g.1.banks i (some ⟨e, []⟩), read := [] } else g.1
      | none => g.1 }

/-- The clip's first frame (R378 step 5). -/
def State.firstFrame (s : State) : State :=
  if s.clip.frame = 0 ∧ s.clip.step ≠ 6 then
    let s := { s with
      clip := { s.clip with step := 6, lastKey := 0, dropped := false }
      hpp := { s.hpp with firstEpoch := s.epoch }
      fc := { s.fc with vfail := [] } }
    match s.mag.clip with
    | some c => s.notify 0x0001 (le 4 c.clipNo ++ le 4 s.epoch)
    | none => s
  else s

/-- A frame at its Beacon. -/
def Frame.open (i : FrameInfo) (weight qfloor : Nat) (lose predict escapeOnly : Bool) (drop : Option Nat) : Frame :=
  { info := i, weight := weight, qfloor := qfloor, lose := lose, predict := predict, escapeOnly := escapeOnly, drop := drop,
    queued := List.replicate i.cols.length 0, lost := [], gangBins := [], readoutEnd := none, followerEnd := none, recBytes := 0,
    escapes := [], declared := [], metas := none, closed := false, decision := none, fixed := 0, started := false, startAt := 0,
    row := 0, quota := 0, out := [], offsets := [], status := [], predCoded := false, predSeen := false, patched := false, gangLoss := false,
    vfail := [], tie := 0,
    filler := 0, ended := false, cflags := 0, crc := 0 }

/-- The clip frame that the edge opens, with what is in force at its Beacon (R149). -/
def State.openFrame (s : State) (sameFormat : Bool) : State :=
  let s := s.firstFrame
  let basic := s.get FC_LEVEL_LEVEL == 2
  let p := s.mayPredict sameFormat && !basic
  let full := s.queuesDrop
  let drop : Option Nat := if s.ppr.dropped then some 1 else if full then some 3 else none
  let (i, s) := s.frameInfo s.kpr.grant.fund
  let f := Frame.open i (s.inForce FAL_WEIGHT_GB.off).toNat (s.getF FAL_QFLOOR_Q) (s.flag FAL_CTRL_OVERSIZE) p basic drop
  let s := s.when (drop == some 3) fun s => (s.inc OQ_COUNTS_DROPPED_FRAMES).set OQ_EVENTS_DROP 1
  let s := { s with
    frames := (if s.role = 2 then s.frames.filter fun (g : Frame) => later g.info.epoch ((s.epoch + 2 ^ 32 - 5) % 2 ^ 32) else s.frames) ++ [f]
    clip := { s.clip with
      frame := (s.clip.frame + 1) % 2 ^ 32
      dropped := drop.isSome
      lastCols := s.ppr.bind } }
  let s := s.when (f.decides && drop.isNone && s.role != 2) (·.openBanks i.epoch)
  s.when (s.role == 1 && i.ganged && !s.gang.joined) (·.loseFollower f)

/-- References older than those that pending jobs can use are forgotten. -/
def State.pruneRefs (s : State) : State := { s with refs := s.refs.filter fun x => decide ((s.epoch + 2 ^ 32 - x.1) % 2 ^ 32 ≤ 3) }

/-- A trained Gang Link rejoins at the first Beacon at which the skew is within bound (R33): on the follower while its Beacon lock holds
(R69). The lead is told of that bound by nothing that the manual names: a free value (log entry 62). -/
def State.rejoin (s : State) : State :=
  if s.gang.up ∧ s.gang.rejoin then
    let (v, s) := s.draw
    if (if s.role = 2 then s.flag BU_STATUS_GANG_LOCK else v % 2 == 1) then { s with gang := { s.gang with joined := true, rejoin := false } }
    else s
  else s

/-- The shadow commit (R50, R51, R56): software shadows unless HOLD is 1, then the hardware-owned ones. -/
def State.commitAll (s : State) (running : Bool) (columns : Option Nat) : State :=
  let src := s.getF BU_CTRL_SRC
  let rate := (s.inForce 0x8, s.inForce 0xC)
  let phase := s.inForce 0x10
  let fmt := (s.inForce 0x80004, s.inForce 0x80008)
  let held := s.flag BU_CTRL_HOLD
  let s := if held then s.inc BU_COUNTS2_HELD else s.commitSettings
  let s := (s.followSource src rate phase).takeGrant running columns
  let iso := s.isolated
  let s := (s.takeEngines.bindColumns fmt).bindEngines
  let s := if held then s else s.commitTarget
  let s := s.takeLevel iso
  let g := fundAt (s.get FC_LEVEL_LEVEL) s.kpr.grant.fund
  let s := { s.set KPR_GRANT_FUND g with kpr := { s.kpr with grant := { s.kpr.grant with fund := g } } }
  let held_ := s.ppr.held
  let s := s.turnFrame
  let same := fmt == (s.inForce 0x80004, s.inForce 0x80008)
  (s.when s.inClip (·.openFrame same)).releaseHeld held_

/-- BEACON_OUT rises (R50 step 2). -/
def State.raiseOut (s : State) : State :=
  if s.flag BU_CTRL_OUT_EN then { s.emit (.beaconOut true) with bu := { s.bu with outSince := some s.now } } else s

/-- A Beacon edge at `at8` (R50). -/
def State.beacon (s : State) (k : EdgeKind) (at8 : Nat) : State :=
  let running := s.bu.lastEdge.isSome
  let s := (s.endFrame.openEpoch k at8).rejoin
  let s := (s.commitAll running k.columns).pruneRefs
  let s := (s.migrationDue.finishMigration.activationDue).holdupEnds
  s.raiseOut.icuPulse 1

/-- BEACON_EDGE (R50). -/
def execBeaconEdge (s : State) : Host.Outcome State Fault Refusal :=
  .next (match s.bu.edgeDue with
  | some (k, t) => if s.beaconRuns ∧ t ≤ s.now8 then s.beacon k (if s.now8 < t + 8 then t else s.now8) else s
  | none => s)

/-- The Beacon stops (R48): held resets are applied at once (R27), and so is what the memory controller would start at a snapshot or
in a blanking window (R239, R241). -/
def State.beaconOff (s : State) : State := (s.stopBeacon.heldResets).memoryUnheld

/-- BEACON_STOP (R48): a write of `BU_CTRL`, which holds a Beacon-class field (R55). -/
def execBeaconStop (a : Agent) (s : State) : Host.Outcome State Fault Refusal :=
  .next (if s.clipOpen then (s.tagWrite a).cfg BU_CTRL_RUN.off else (s.tagWrite a).beaconOff)

end Sys2Proof.Machine
end

