-- ==== Sys2Proof/Machine/Transport.lean ====
section
/-! DEFINITION. HPP messages and their carriers (R357 to R369, R390): framing, replies, notifications, heartbeats, roll
calls, and the Light List's entries of CAN nodes. -/

namespace Sys2Proof.Machine

/-! ## Messages -/

/-- The HL6480's node ID on a carrier (R356, R367). -/
def State.ownNode (s : State) (c : Carrier) : Nat := s.setting 0x1100 (match c with | .can1 => 2 | _ => 1)

/-- An HPP message (R357). -/
def hppBytes (op flags src dst tid : Nat) (payload : List Nat) : List Nat :=
  [op % 256, flags, src % 256, dst % 256] ++ le 2 tid ++ le 2 payload.length ++ payload

/-- The data lengths of CAN FD. -/
def canLen (n : Nat) : Nat := ([0, 1, 2, 3, 4, 5, 6, 7, 8, 12, 16, 20, 24, 32, 48, 64].find? fun l => decide (n ≤ l)).getD 64

/-- The data fields of a message on CAN FD, from segment `k` on (R364). -/
def canSegments : Nat → Nat → List Nat → List (List Nat)
  | 0, _, _ => []
  | fuel + 1, k, l =>
    let last := decide (l.length ≤ 63)
    let seg := (if k = 0 then 128 else 0) + (if last then 64 else 0) + k % 64
    let d := seg :: l.take 63
    fit (canLen d.length) d :: (if last then [] else canSegments fuel (k + 1) (l.drop 63))

/-- The 29-bit identifier of a message (R364). -/
def canId (prio reply dst src tid : Nat) : Nat :=
  prio * 2 ^ 26 + reply * 2 ^ 25 + dst % 128 * 2 ^ 18 + src % 128 * 2 ^ 11 + tid % 2 ^ 11

/-- The controller of a CAN carrier. -/
def canOf (c : Nat) : Carrier := if c = 0 then .can0 else .can1

/-- A CAN controller. -/
def State.canCtl (s : State) (c : Nat) : CanCtl := s.can.getD c CanCtl.reset

/-- Change a CAN controller. -/
def State.modCan (s : State) (c : Nat) (f : CanCtl → CanCtl) : State := { s with can := modAt s.can c f }

/-- MGC firmware queues a message on a bus that is enabled. -/
def State.sendCan (s : State) (c prio reply dst tid : Nat) (m : List Nat) : State :=
  if s.flag (CAN_C_CTRL_EN c) then
    let id := canId prio reply dst (s.ownNode (canOf c)) tid
    s.modCan c fun x => { x with outbox := x.outbox ++ (canSegments 18 0 m).map fun d => (id, d) }
  else s

/-- A message of the HL6480's own, with a TID of its choosing, which is a free value. -/
def State.broadcast (s : State) (c op prio : Nat) (payload : List Nat) : State :=
  let (t, s) := s.draw
  s.sendCan c prio 0 127 t (hppBytes op 0x10 (s.ownNode (canOf c)) 127 (t % 65536) payload)

/-- A reply (R358, R362 to R367) on the carrier of its request. -/
def State.sendReply (s : State) (h : Hpp) (m : List Nat) : State :=
  match h.carrier with
  | .mailbox => s.when s.host (·.mailboxDone (.bytes (toBytes m)))
  | .udp => s.emit (.hpp .udp h.peer (toBytes m))
  | .can0 => s.sendCan 0 3 1 h.src h.tid m
  | .can1 => s.sendCan 1 3 1 h.src h.tid m

/-- The reply message of a request. -/
def State.replyBytes (s : State) (h : Hpp) (op : Nat) (payload : List Nat) : List Nat :=
  hppBytes op 0x11 (s.ownNode h.carrier) h.src (h.tid % 65536) payload

/-- An entry head (R359). -/
def entryHead (index sub result typ : Nat) : List Nat := le 2 index ++ [sub % 256, result, typ % 256, 0, 0, 0]

/-- Answer a request, and keep the reply for 2 s among the last 32 (R362); a broadcast gets none (R363). -/
def State.reply (s : State) (h : Hpp) (op : Nat) (payload : List Nat) : State :=
  if h.dst = 127 then (if h.carrier = .mailbox then s.mailboxDone (.bytes []) else s)
  else
    let m := s.replyBytes h op payload
    let k : KeptReply := ⟨h.carrier, h.peer, h.tid, s.now, m⟩
    { s with hpp := { s.hpp with replies := (k :: s.hpp.replies).take 32 } }.sendReply h m

/-! ## The Light List's CAN nodes and UDP controllers -/

/-- The Light List entry of a partner. -/
def State.partner (s : State) (kind address : Nat) : Option Partner :=
  (s.hpp.light.find? fun e => e.2.kind == kind && e.2.address == address).map (·.2)

/-- A message came from CAN node `src` (R369, R370): an entry in conflict stays so. -/
def State.hear (s : State) (c src : Nat) : State :=
  if src = 0 ∨ src = 127 then s
  else s.light (1 + c) src (if (s.partner (1 + c) src).map (·.state) = some 3 then 3 else 1) none

/-- A roll call passes on a bus (R370): a node heard of in none of the last three is lost. -/
def State.rollPasses (s : State) (c : Nat) : State :=
  let there := fun (p : Partner) => p.kind == 1 + c && (p.state == 1 || p.state == 3)
  let gone := s.hpp.light.filter fun e => there e.2 && decide (3 ≤ e.2.missed)
  let count := fun (e : Nat × Partner) => if there e.2 then (e.1, { e.2 with missed := e.2.missed + 1 }) else e
  let s := { s with hpp := { s.hpp with light := s.hpp.light.map count } }
  s.each gone fun s e => s.light (1 + c) e.2.address 2 none

/-- A datagram came from a UDP controller (R370). -/
def State.hearUdp (s : State) (peer : Nat) : State := s.light 7 peer 1 none

/-! ## What MGC firmware sends by itself -/

/-- Power state as dictionary entry 0x5000:03 reads it. -/
def State.powerState (s : State) : Nat := if s.get KPR_STATUS_STATE = 1 then 1 else 0

/-- What 0x2100:01 reads (R375): a clip that the Magazine Host has open reads open, one that closes reads closing. -/
def State.clipReads (s : State) : Nat :=
  if s.mag.closing.isSome then 4 else if s.mag.clip.isSome ∧ (s.hpp.clipState = 0 ∨ s.hpp.clipState = 3) then 2 else s.hpp.clipState

/-- The heartbeat's payload (R369). -/
def State.heartbeatBytes (s : State) : List Nat :=
  [s.get FC_LEVEL_LEVEL, s.clipReads, s.powerState, 0] ++ le 4 s.epoch ++
    le 4 (if s.mag.clip.isSome then s.get MGH_COMMIT_FRAMES_COUNT else 0)

/-- A roll call on a bus (R372). -/
def State.sendRollCall (s : State) (c : Nat) : State :=
  let r := s.hpp.rounds.getD c 0
  let s := s.rollPasses c
  let s := s.modCan c fun x => { x with rollAt := some s.now }
  { s with hpp := { s.hpp with rounds := setAt s.hpp.rounds c ((r + 1) % 256) } }.broadcast c 0x20 4 [r]

/-- MGC firmware runs roll calls on a bus (R372). -/
def State.rollMaster (s : State) (c : Nat) : Bool :=
  bitAt (s.setting 0x1100 8) c == 1 && s.setting 0x1100 7 != 0 && s.flag (CAN_C_CTRL_EN c)

/-- A CAN controller joins or leaves its bus (R390); a roll call is sent when a bus is enabled (R372). -/
def State.canEnable (s : State) (c : Nat) (en : Bool) : State :=
  if s.flag (CAN_C_CTRL_EN c) = en then s
  else if en then
    let s := ((s.set (CAN_C_CTRL_EN c) 1).clear [CAN_C_STATUS_STATE c, CAN_C_STATUS_TEC c, CAN_C_STATUS_REC c]).modCan c
      fun _ => CanCtl.reset
    s.when (s.mgc.up && s.rollMaster c) (·.sendRollCall c)
  else ((s.set (CAN_C_CTRL_EN c) 0).set (CAN_C_STATUS_STATE c) 3).modCan c fun _ => CanCtl.reset

/-- A NOTIFY message (R368). -/
def State.notifyBytes (s : State) (n : Note) (tid : Nat) : List Nat :=
  hppBytes 0x10 0x10 (s.setting 0x1100 1) 127 (tid % 65536) (le 2 n.event ++ [0, 0] ++ le 4 n.epoch ++ n.data)

/-- An event goes to its destinations (R368): the buses of NOTIFY_CAN, the UDP subscriber, and the host's queue 68. -/
def State.sendNote (s : State) (n : Note) : State :=
  let (t, s) := s.draw
  let m := s.notifyBytes n t
  let prio := if n.event = 0x11 then 1 else 4
  let s := s.each (List.range 2) fun s c =>
    s.when (bitAt (s.setting 0x1100 14) c == 1) fun s =>
      s.sendCan c prio 0 127 t (setAt m 2 (s.ownNode (canOf c)))
  let s := s.when (s.setting 0x1100 15 != 0) fun s =>
    s.emit (.hpp .udp (s.setting 0x1100 15 % 2 ^ 32 * 2 ^ 16 + s.setting 0x1100 15 / 2 ^ 32 % 2 ^ 16) (toBytes m))
  s.when s.host fun s => (s.enqueue 68 0 ⟨n.epoch, 0xFFFF, 0xFF, 5, 0, m, none⟩).2

/-- Every event that waits goes out, in order, while MGC firmware runs. -/
def State.deliverNotes (s : State) : State :=
  if s.mgc.up then { s with hpp := { s.hpp with notes := [] } }.each s.hpp.notes fun s n => s.sendNote n else s

/-! ## Commands -/

/-- A period of `ms` milliseconds has passed since `last`. -/
def State.periodOver (s : State) (last : Option Nat) (ms : Nat) : Bool :=
  match last with | some t => decide (t + ms * 10 ^ 6 ≤ s.now) | none => true

/-- The next heartbeat is due (R369). -/
def State.beatDue (s : State) : Bool :=
  s.mgc.up && s.setting 0x1100 6 != 0 && s.periodOver s.hpp.beatAt (s.setting 0x1100 6)

/-- HEARTBEAT_TIMER (R369). -/
def execHeartbeatTimer (s : State) : Host.Outcome State Fault Refusal :=
  .next (if s.beatDue then
    { s with hpp := { s.hpp with beatAt := some s.now } }.each (List.range 2) fun s c =>
      s.when (s.flag (CAN_C_CTRL_EN c)) (·.broadcast c 0x30 5 s.heartbeatBytes)
  else s)

/-- The next roll call of a bus is due (R372). -/
def State.rollDue (s : State) (c : Nat) : Bool :=
  s.mgc.up && decide (c < 2) && s.rollMaster c && s.periodOver (s.canCtl c).rollAt (s.setting 0x1100 7)

/-- ROLL_CALL_TIMER (R372). -/
def execRollCallTimer (c : Nat) (s : State) : Host.Outcome State Fault Refusal :=
  .next (if s.rollDue c then s.sendRollCall c else s)

/-- A UDP controller is present, and 60 s have passed with no datagram from it (R370). -/
def State.udpSilent (s : State) (peer : Nat) : Bool :=
  (s.partner 7 peer).any fun p => p.state == 1 && decide (p.heard + 60 * 10 ^ 9 ≤ s.now)

/-- UDP_CONTROLLER_TIMEOUT (R370). -/
def execUdpControllerTimeout (peer : Nat) (s : State) : Host.Outcome State Fault Refusal :=
  .next (if s.mgc.up ∧ s.udpSilent peer then s.light 7 peer 2 none else s)

/-- COMMIT_NOTIFY_TIMER (R368): the latest commit that waits is notified. -/
def execCommitNotifyTimer (s : State) : Host.Outcome State Fault Refusal :=
  .next (match s.hpp.commitDue, s.hpp.commitLast with
  | some d, some t =>
    if t + 10 ^ 6 * s.setting 0x1100 16 ≤ s.now then
      { s.notify 0x0003 d with hpp := { (s.notify 0x0003 d).hpp with commitLast := some s.now, commitDue := none } }
    else s
  | _, _ => s)

/-- What the HL6480 answers a roll call of another master with (R372): its UID, vendor and product codes are free values. -/
def State.answerRoll (s : State) (c : Nat) : State :=
  let (u, s) := s.draw
  let (v, s) := s.draw
  let (t, s) := s.draw
  let own := s.ownNode (canOf c)
  s.sendCan c 4 0 127 t (hppBytes 0x21 0x10 own 127 (t % 65536) (le 8 u ++ le 4 v))

/-- Another master's roll call (R370, R372). -/
def State.heardRoll (s : State) (c src : Nat) : State := ((s.hear c src).rollPasses c).answerRoll c

/-- ROLL_CALL (R372). -/
def execRollCall (c src _round : Nat) (s : State) : Host.Outcome State Fault Refusal :=
  .next (if s.mgc.up ∧ c < 2 ∧ s.flag (CAN_C_CTRL_EN c) then s.heardRoll c src else s)

/-- HEARTBEAT (R369, R370). -/
def execHeartbeat (c src : Nat) (s : State) : Host.Outcome State Fault Refusal :=
  .next (if s.mgc.up ∧ c < 2 ∧ s.flag (CAN_C_CTRL_EN c) then s.hear c src else s)

/-- An unassigned node answers (R373): it gets the lowest free ID from 64 to 126. -/
def State.assign (s : State) (c uid : Nat) : State :=
  if s.setting 0x1100 9 = 1 ∧ bitAt (s.setting 0x1100 8) c = 1 then
    match ((List.range 63).map (64 + ·)).find? fun n => (s.partner (1 + c) n).isNone with
    | some n => s.broadcast c 0x22 4 (le 8 uid ++ [n])
    | none => s.raise 0x4D c 0
  else s

/-- The payload of an ANSWER (R358). -/
def answerBytes (uid vendor product : Nat) (name : List Nat) : List Nat := le 8 uid ++ le 2 vendor ++ le 2 product ++ name.take 48

/-- An ANSWER on a bus (R372, R373): recorded, assigned, in conflict, or a claim on the HL6480's own ID. -/
def State.heardAnswer (s : State) (c src : Nat) (payload : List Nat) : State :=
  let uid := rdLe payload 0 8
  if src = 0 then s.assign c uid
  else if src = s.ownNode (canOf c) then s.raise 0x4D c 0
  else
    match s.partner (1 + c) src with
    | some p =>
      if p.identity ≠ [] ∧ rdLe p.identity 0 8 ≠ uid ∧ p.state ≠ 2 then
        ((s.light (1 + c) src 3 none).raise 0x4D c 0)
      else s.light (1 + c) src (if p.state = 3 then 3 else 1) (some (payload.take 64))
    | none => s.light (1 + c) src 1 (some (payload.take 64))

/-- ANSWER (R372, R373). -/
def execAnswer (c src uid vendor product : Nat) (name : List Byte) (s : State) : Host.Outcome State Fault Refusal :=
  .next (if s.mgc.up ∧ c < 2 ∧ s.flag (CAN_C_CTRL_EN c) then
    s.heardAnswer c src (answerBytes uid vendor product (toNats name)) else s)

end Sys2Proof.Machine
end

