-- ==== Sys2Proof/Machine/Clip.lean ====
section
/-! DEFINITION. The clip as MGC firmware runs it (R376 to R380): the clip-start check, the steps of a START, STOP. -/

namespace Sys2Proof.Machine

/-! ## The clip-start check (R376, R377) -/

/-- What the clip-start check judges: the settings of R374, and what they come to. -/
structure ClipPlan where
  mode : Nat
  temporal : Bool
  grow : Bool
  width : Nat
  height : Nat
  depth : Nat
  cfa : Nat
  mono : Nat
  num : Nat
  den : Nat
  ganged : Bool
  raw : Nat
  target : Nat
  deriving DecidableEq, Repr

/-- T of a frame of `raw` bytes (R374): TARGET, or RATIO's share of the raw size. -/
def State.planTarget (s : State) (raw : Nat) : Nat :=
  if s.setting 0x2000 4 = 0 then raw * 10 / s.setting 0x2000 5 else s.setting 0x2000 4

/-- The clip that the settings describe. A package that is not alone records ganged clips (R31). -/
def State.clipPlan (s : State) : ClipPlan :=
  let w := s.setting 0x2000 9
  let h := s.setting 0x2000 10
  let d := s.setting 0x2000 11
  let raw := rawSize w h d
  { mode := s.setting 0x2000 1, temporal := s.setting 0x2000 2 == 1, grow := s.setting 0x2000 7 == 0, width := w, height := h,
    depth := d, cfa := s.setting 0x2000 12, mono := s.setting 0x2000 13, num := s.setting 0x2000 14, den := s.setting 0x2000 15,
    ganged := s.role != 0, raw := raw, target := s.planTarget raw }

/-- The columns of pixels that one package codes. -/
def ClipPlan.half (p : ClipPlan) : Nat := if p.ganged then p.width / 2 else p.width

/-- The format meets R87 and R88 and the rate R59. That a ganged width is a multiple of 128 is reason 7's. -/
def ClipPlan.formatFits (p : ClipPlan) : Bool :=
  (if p.ganged then decide (4096 ≤ p.width ∧ p.width ≤ 32768 ∧ p.width % 64 = 0) else streamWidthOk false p.width) &&
    (p.height == 1080 || decide (1088 ≤ p.height ∧ p.height ≤ 8640 ∧ p.height % 16 = 0)) && [10, 12, 14, 16].contains p.depth &&
    (p.mono == 1 || cfaOk p.cfa) && rateOk p.num p.den

/-- The pixel rate of a package exceeds `r` units of 10⁸ pixels a second. -/
def ClipPlan.faster (p : ClipPlan) (r : Nat) : Bool := decide (r * 10 ^ 8 * p.den < p.half * p.height * p.num)

/-- A feasible tiling exists with the engines available at P0 (R91). -/
def State.tilingExists (s : State) (p : ClipPlan) : Bool :=
  let all := ((List.range 4).map fun r => (s.available r).length).foldl (· + ·) 0
  (List.range all).any fun n => classOk (p.half / 32) p.height p.num p.den (n + 1) 0 0

/-- The follower's half fits the Gang Link (R32). -/
def ClipPlan.linkFits (p : ClipPlan) : Bool := decide (p.half * p.height * p.num * p.depth * 1002 ≤ 240 * 10 ^ 12 * p.den)

/-- The worst GROW frame fits its window (R154). -/
def ClipPlan.growFits (p : ClipPlan) : Bool :=
  decide ((p.raw * 1002 * 256 * p.num : Nat) ≤ (64000 * (255 * 10 ^ 9 * p.den - 64 * 10 ^ 6 * p.num) : Int))

/-- Bytes of a frame in the worst stored rate (R377). -/
def State.worstBytes (s : State) (p : ClipPlan) : Nat :=
  if p.mode = 0 then ceilDiv (p.raw * 10) (s.setting 0x2000 20) else p.target

/-- The worst stored rate exceeds the set's write rate (R377). -/
def State.rateFails (s : State) (p : ClipPlan) : Bool :=
  let k := (s.mag.set.map Superblock.k).getD 0
  let rated := (s.mag.set.map (·.rated)).getD 0
  decide (k * rated * 10 ^ 6 * p.den < s.worstBytes p * p.num)

/-- A BEACON_IN edge was seen within the last 2P (R485). -/
def State.beaconInPresent (s : State) : Bool :=
  match s.bu.seen with | some t => decide ((s.now - t) * s.period.2 ≤ 2 * s.period.1) | none => false

/-- Reason 7, for a ganged clip. Whether the follower's `FAL_WEIGHT` differs is `differs`. -/
def State.gangFails (s : State) (p : ClipPlan) (differs : Bool) : Bool :=
  p.ganged && (p.width % 128 != 0 || !p.linkFits || differs || (s.partner 6 0).map (·.state) != some 1)

/-- The clip-start check: its first failure, in the order of R376. -/
def State.clipCheck (s : State) (p : ClipPlan) (differs : Bool) : Option Nat :=
  let full := match s.mag.set with | some b => decide (b.catBlocks ≤ s.mag.catalogue.length) | none => true
  ([(s.mag.clip.isSome || s.jobOpen, 1), (s.get FC_LEVEL_LEVEL == 3, 2), (!s.setComplete || s.flag MGH_CTRL_READ_ONLY || full, 3),
    ((List.range 4).any fun c => s.flag (LMC_CH_POLICY_FREEZE c), 4), (!p.formatFits, 5),
    (p.faster 172 || !s.tilingExists p, 6), (s.gangFails p differs, 7), (p.temporal && p.faster 86, 8),
    (p.mode != 0 && !targetOk p.width p.height p.depth p.temporal p.target, 9), (p.mode != 0 && p.grow && !p.growFits, 10),
    (s.setting 0x2000 19 == 0 && s.rateFails p, 11), (s.setting 0x2000 16 == 2 && !s.beaconInPresent, 12),
    (s.clip.stopReq, 14)].find? (·.1)).map (·.2)

/-! ## Settings of an open clip (R374) -/

/-- MGC firmware writes a Beacon-class field (R55, R354). -/
def State.mgcSet (s : State) (f : Fld) (v : Nat) : State := (s.set f v).tagWrite .mgc

/-- `FAL_TARGET` follows TARGET and RATIO while a clip is open. -/
def State.openTarget (s : State) : State :=
  if s.clipOpen then s.mgcSet FAL_TARGET_BYTES (s.planTarget (rawSize s.wholeWidth s.fmtH s.fmtD)) else s

/-- `FAL_QFLOOR` follows QFLOOR while a clip is open. -/
def State.openFloor (s : State) : State := if s.clipOpen then s.mgcSet FAL_QFLOOR_Q (s.setting 0x2000 6) else s

/-! ## A START (R378) -/

/-- Step 3: the Halt-class fields of the clip, with the Frame Allocator halted. -/
def State.clipHalted (s : State) (p : ClipPlan) : State :=
  (((s.set FAL_CTRL_MODE p.mode).set FAL_CTRL_TEMPORAL (b2n p.temporal)).set FAL_CTRL_OVERSIZE (b2n !p.grow)).set FAL_CTRL_EN 1

/-- Step 3: the Beacon-class fields, written together under HOLD. -/
def State.clipShadows (s : State) (p : ClipPlan) : State :=
  let s := ((s.mgcSet BU_RATE_NUM_NUM p.num).mgcSet BU_RATE_DEN_DEN p.den).mgcSet BU_CTRL_SRC (s.setting 0x2000 16)
  let s := ((s.mgcSet PPR_FMT0_WIDTH p.half).mgcSet PPR_FMT0_HEIGHT p.height).mgcSet PPR_FMT1_DEPTH ((p.depth - 10) / 2)
  let s := ((s.mgcSet PPR_FMT1_MONO p.mono).mgcSet PPR_FMT1_CFA p.cfa).mgcSet PPR_CTRL_PATCH (s.setting 0x2000 17)
  let s := (s.mgcSet FAL_TARGET_BYTES p.target).mgcSet FAL_QFLOOR_Q (s.setting 0x2000 6)
  ((s.mgcSet FAL_WEIGHT_GB (s.setting 0x2000 18)).mgcSet FAL_WEIGHT_GC (s.setting 0x2000 18 / 2 ^ 24)).set BU_CTRL_HOLD 0

/-- NAME of the clip (R290, R374). -/
def State.clipName (s : State) : State :=
  let n := fit 64 (s.dictBytes (256 * 0x2000 + 21))
  s.each (List.range 16) fun s i => s.set (MGH_NAME_BYTES i) (rdLe n (4 * i) 4)

/-- Step 3: the blocks are configured, and the Beacon is started when it did not run. -/
def State.configureClip (s : State) : State :=
  let p := s.clipPlan
  let s := { s with clip := { s.clip with step := 4, ganged := p.ganged } }
  let s := (((s.clipHalted p).clipShadows p).clipName)
  s.when (!s.flag BU_CTRL_RUN) (·.startBeacon)

/-- A START is refused (R378): REASON, and event 0x0004. A Warm reset that waited for the clip follows (R384). -/
def State.refuseClip (s : State) (reason : Nat) : State :=
  let s := { s with
    clip := ClipCtl.reset
    hpp := { s.hpp with
      clipState := 3
      clipReason := reason
      resetAfter := false
      warmAt := if s.hpp.resetAfter then some s.now else s.hpp.warmAt } }
  s.notify 0x0004 [reason]

/-- The reply of a START. -/
def State.replyStart (s : State) (result : Nat) : State :=
  match s.clip.req with
  | some h => { s with clip := { s.clip with req := none } }.reply h 2 (entryHead 0x2100 1 result 1)
  | none => s

/-- Step 2: the check ends. The follower's `FAL_WEIGHT` is not known here: whether it differs is a free value. -/
def State.endCheck (s : State) : State :=
  let (v, s) := if s.role = 0 then (0, s) else s.draw
  let p := s.clipPlan
  match s.clipCheck p (v % 2 == 1) with
  | some r => ((s.replyStart 8).refuseClip r)
  | none =>
    let warn := s.rateFails p
    let s := s.replyStart 0
    { s with clip := { s.clip with step := 3 }, hpp := { s.hpp with rateWarn := warn } }

/-- Step 4: the clip is opened, or the start is refused with reason 13 and the Frame Allocator is halted again. -/
def State.openStarted (s : State) : State :=
  let s := s.mghCmd .mgc 3 State.openCmd
  match s.mag.clip with
  | none => (s.set FAL_CTRL_EN 0).refuseClip 13
  | some c =>
    { s with
      clip := { s.clip with step := 5 }
      hpp := { s.hpp with clipState := if s.clip.stopReq then 4 else 2, clipNo := c.clipNo } }

/-- A clip that is to stop is closed once no frame of it is left to emit (R379). -/
def State.closeStopped (s : State) : State :=
  if s.clip.stopReq ∧ s.mag.clip.isSome ∧ s.mag.closing = none ∧ s.frames = [] ∧ !s.flag MGH_CMD_STAT_BUSY then
    s.mghCmd .mgc 4 fun s => s.closeCmd 1
  else s

/-- The next step of a START, and the close that a STOP waits for. -/
def State.clipStage (s : State) : State :=
  if s.clip.step = 1 then s.endCheck
  else if s.clip.step = 3 then s.configureClip
  else if s.clip.step = 4 then (if s.get KPR_STATUS_STATE = 2 then s else s.openStarted)
  else s.closeStopped

/-! ## START and STOP as dictionary commands (R378 to R380) -/

/-- A START: none when its reply follows the check, else its result. -/
def State.startClip (s : State) (h : Hpp) : Option Nat × State :=
  if s.clipReads = 1 ∨ s.clipReads = 2 ∨ s.clipReads = 4 then (some 6, s)
  else (none, { s with clip := { ClipCtl.reset with step := 1, req := some h }, hpp := { s.hpp with clipState := 1 } })

/-- A STOP: its result. -/
def State.stopClip (s : State) : Nat × State :=
  if s.clipReads = 4 ∨ s.clip.stopReq ∨ (s.clip.step = 0 ∧ s.mag.clip = none) then (6, s)
  else
    let s := { s with clip := { s.clip with stopReq := true } }
    let open_ := s.mag.clip.isSome
    let s := { s with hpp := { s.hpp with clipState := if open_ then 4 else s.hpp.clipState } }
    (0, s.closeStopped)

end Sys2Proof.Machine
end

