-- ==== Sys2Proof/Machine/Playback.lean ====
section
/-! DEFINITION. Decode jobs (R188, R190, R191, R383): where their units come from, which engine holds a column's references, and where
pictures, reports and metadata go. -/

namespace Sys2Proof.Machine

/-- `n` bytes at `a` on the address map, when every one can be read. -/
def State.peek (s : State) (a n : Nat) : Option (List Nat) := (s.memRead a n).1

/-- The length that the parts of a unit beginning with `l` give it (R163, R179): a whole dropped-frame record, or a frame up to the end
of its closing header and filler. None while its parts are not all there. -/
def unitLen (l : List Nat) : Option Nat :=
  match unitParts l with
  | (0xFB, _) :: _ => some (2 + sealedLen 20)
  | (0xF0, c) :: ps =>
    match openSeal 44 c with
    | none => none
    | some r0 =>
      match openSeal (44 + 2 * r0.getD 8 0) c with
      | none => none
      | some r =>
        let f := parseHeader r
        (parseClosing f ps).map fun k =>
          (beforeClosing l).length + 2 + sealedLen (28 + ceilDiv (2 * f.rows * f.cols.length) 8) + rdLe k 16 4
  | _ => none

/-- The length of a unit that the next FRM or DRP ends (R159). -/
def nextUnit (l : List Nat) : Option Nat :=
  let r := fromUnit (l.drop 2)
  if r = [] then none else some (l.length - r.length)

/-- The unit that `l`, read so far, begins with; none while its end is not known. The markers prevail (R198): its own length counts only
when no unit begins before that end or there. -/
def unitWithin (l : List Nat) : Option (List Nat) :=
  match nextUnit l with
  | some n => some (l.take n)
  | none =>
    match unitLen l with
    | some n => if n + 2 ≤ l.length then some (l.take n) else none
    | none => none

/-- The first unit at or after `a`, reading 64 bytes at a time: where it starts, and its bytes. -/
def State.scanUnit (s : State) (a : Nat) : Nat → List Nat → Option (Nat × List Nat)
  | 0, _ => none
  | fuel + 1, l =>
    let u := fromUnit l
    match unitWithin u with
    | some x => some (a + (l.length - u.length), x)
    | none =>
      match s.peek (a + l.length) 64 with
      | none => none
      | some x => s.scanUnit a fuel (l ++ x)

/-! ## Columns and engines (R188) -/

/-- The engines active for a decode job, in the order of R19: those that serve a position and are READY or BOUND (log entry 86). -/
def State.decoders (s : State) : List Nat :=
  ((List.range 64).map s.server).filter fun e => s.engState e == 2 || s.engState e == 3

/-- Bytes of a column's references: LL3 and HL3 of every tile-stripe, 32 bits a value as the engines hold them (R200). -/
def refBytes (f : FrameInfo) (c : Nat) : Nat :=
  let (h, w) := bandSize f.mono (f.colWidth c) 0
  f.rows * (blockCount f.mono / 8) * 8 * (h * w)

/-- The place of every column's references (R188): the engine that decodes the column, the (c mod E)-th, and whether they lie in the
device reserve, because those of the region's columns before it leave no room in its 4 MiB. -/
def refHomes (es : List Nat) (f : FrameInfo) : List (Nat × Bool) :=
  let eng := fun (c : Nat) => es.getD (c % es.length) 0
  (List.range f.cols.length).map fun c =>
    let used := ((List.range (c + 1)).filter fun k => eng k / 17 == eng c / 17).foldl (fun a k => a + refBytes f k) 0
    (eng c, decide (2 ^ 22 < used))

/-- The lines of a picture as samples of two bytes (R190). -/
def Picture.write (p : Picture) (pitch a : Nat) (s : State) : State :=
  s.each ((p.lines.take p.height).zipIdx) fun s l => (s.memWrite (a + pitch * l.2) (l.1.flatMap (le 2))).2

/-- What a frame unit gives is written, and counts as one report (R383). -/
def State.putUnit (s : State) (j : DecodeJob) (u : UnitResult) (pos : Nat) : State :=
  let k := j.i % max 1 j.buffers
  let s := match u.pic with | none => s | some p => p.write j.pitch (j.dst + k * j.pitch * p.height) s
  let s := (s.memWrite (j.report + 32 * k) u.report.bytes).2
  let m := u.metas.flatMap (·.2)
  let s := if m = [] then s else (s.memWrite (j.meta_ + j.metaPos) m).2
  let j : DecodeJob := { j with i := j.i + 1, pos := pos, metaPos := j.metaPos + m.length, lastBeacon := some s.epoch }
  let homes := match u.ctx.lastHeader with
    | some f => if u.ctx.refs = [] then [] else refHomes s.decoders f
    | none => []
  let s := { s with hpp := { s.hpp with job := some j, done := j.i, ctx := u.ctx, homes := homes } }
  if j.count ≤ j.i then s.endJob else s

/-- The next unit of a clip of the moored set (R302): a damaged committed unit is concealed as a missing one. -/
def State.setUnit (s : State) (j : DecodeJob) : State :=
  match s.assessed with
  | none => s.endJob
  | some v =>
    match v.catalogue.getD j.clip none with
    | none => s.endJob
    | some e =>
      if (clipEnd v.head e).1 ≤ j.pos then s.endJob
      else
        let miss := concealUnit s.hpp.ctx 0 j.pos 0 4 .unknown
        match v.unit e j.pos with
        | none => s.putUnit j miss (j.pos + 1)
        | some f =>
          match v.sb.readUnit v.media f with
          | none => s.endJob
          | some l =>
            let s := s.each ((List.range f.rows).map (· + f.firstRow)) fun s r => s.readRow v.sb 3 r
            s.putUnit j (decodeUnit s.hpp.ctx j.conceal (some j.pos) l) (j.pos + 1)

/-- The next unit of a stream in memory (R198): one report for each missing index first. -/
def State.streamUnit (s : State) (j : DecodeJob) : State :=
  match s.scanUnit (j.src + j.pos) (2 ^ 24) [] with
  | none => s.endJob
  | some (a, l) =>
    match (unitIndex l).map (missingBefore s.hpp.ctx) with
    | some (i :: _) => s.putUnit j (concealUnit s.hpp.ctx 0 i 0 4 .unknown) (a - j.src)
    | _ => s.putUnit j (decodeUnit s.hpp.ctx j.conceal none l) (a - j.src + l.length)

/-- The job may go on (R383): a free buffer of the ring, and its pace. -/
def State.jobReady (s : State) (j : DecodeJob) : Bool :=
  decide (j.i - s.setting 0x4000 15 < j.buffers) && (j.pace == 0 || j.lastBeacon != some s.epoch)

/-- DECODE_UNIT (R186, R383). -/
def execDecodeUnit (s : State) : Host.Outcome State Fault Refusal :=
  .next (match s.hpp.job with
  | none => s
  | some j => if !s.jobReady j then s else if j.source = 0 then s.setUnit j else s.streamUnit j)

end Sys2Proof.Machine
end

