-- ==== Sys2Proof/Machine/Hpp.lean ====
section
/-! DEFINITION. The dictionary as HPP requests reach it (R353 to R363, R374 to R389, R478): reads, writes, commands, block
transfers, and the store of the configuration. -/

namespace Sys2Proof.Machine

/-! ## Reads -/

/-- Identity entries (R355). A firmware image that HPP loaded lies in no slot: FW_SLOT is a free value then. -/
def State.readIdentity (s : State) (sub : Nat) : List Nat × State :=
  let d := s.nor.daymark
  match sub with
  | 1 => ([65, 99, 117, 110, 100, 105, 110, 97], s)
  | 2 => ([72, 76, 54, 52, 56, 48], s)
  | 3 => (((d.drop 16).take 24).takeWhile (· != 0), s)
  | 4 => ((d.drop 8).take 8, s)
  | 5 => ((d.drop 40).take 3 ++ [0], s)
  | 6 => (le 4 s.mgc.version, s)
  | 7 => if s.mgc.slot < 2 then ([s.mgc.slot], s) else let (v, s) := s.draw; ([v % 2], s)
  | 8 => ([s.role], s)
  | _ => (le 2 1, s)

/-- The text of sender `k`'s SDP description (R337, R356): at most 1024 bytes, which change with the sender's registers and the proxy's
format (R341). -/
def State.readSdp (s : State) (k : Nat) : List Nat :=
  let words := ((List.range 8).map fun i => 0x300100 + 0x40 * k + 4 * i) ++ [PXP_CTRL_OUT_FMT.off]
  toNats ((Config.sdpText (words.map fun o => (s.word o).toNat)).take 1024)

/-- Entries of the configuration store (R356). -/
def State.readStore (s : State) (sub : Nat) : List Nat :=
  match sub with
  | 1 => [s.hpp.storeState]
  | 2 => le 4 s.hpp.seq
  | 3 => [s.hpp.source]
  | 4 => le 8 s.hpp.storedAt
  | 5 => [b2n s.hpp.unsavedFrom.isSome]
  | _ => le 4 s.hpp.stores

/-- The Light List (R371): entry 0 is its head. -/
def State.readLight (s : State) (n sub : Nat) : List Nat :=
  if n = 0 then
    (if sub = 1 then [(s.hpp.light.filter fun e => e.2.state == 1).length % 256] else le 4 s.hpp.lightLost)
  else
    match aget s.hpp.light n with
    | none => if sub = 2 ∨ sub = 4 then le 8 0 else if sub = 5 then [] else [0]
    | some p =>
      match sub with
      | 1 => [p.kind]
      | 2 => le 8 p.address
      | 3 => [p.state]
      | 4 => le 8 p.changed
      | _ => p.identity.take 64

/-- Dropped-frame records of the open or last clip (R375). -/
def State.clipDropped (s : State) : Nat :=
  match s.mag.clip with
  | some c => c.dropped + (s.mag.durable.filter (·.unit == 1)).length + (s.mag.units.filter fun u => u.ended && u.entry.unit == 1).length
  | none => (s.mag.catalogue.getLast?.bind (·.map (·.dropped))).getD 0

/-- Clip control (R375). -/
def State.readClip (s : State) (sub : Nat) : List Nat :=
  match sub with
  | 1 => [s.clipReads]
  | 3 => [s.hpp.clipReason]
  | 4 => le 4 (s.get MGH_CLIP_NUMBER)
  | 5 => le 4 s.hpp.firstEpoch
  | 6 => le 4 (s.get MGH_COMMIT_FRAMES_COUNT)
  | 7 => le 4 (s.get MGH_COMMIT_EPOCH_EPOCH)
  | 8 => le 4 s.clipDropped
  | _ => [b2n s.hpp.rateWarn]

/-- Storage (R381). -/
def State.readStorage (s : State) (sub : Nat) : List Nat :=
  match sub with
  | 1 => [s.hpp.lastResult]
  | 2 => [s.get MGH_STATUS_SET_STATE]
  | 3 => le 8 (s.get MGH_SET_ID_ID)
  | 4 => le 8 (s.get MGH_ROWS_FREE_ROWS)
  | _ => le 4 ((s.mag.set.map (·.nextClip)).getD 0)

/-- A bay (R381). -/
def State.readBay (s : State) (m sub : Nat) : List Nat :=
  match sub with
  | 1 => le 4 (s.word (MGH_MAG_STATE_STATE m).off).toNat
  | 2 => le 8 (s.get (MGH_MAG_BLOCKS_COUNT m))
  | _ => if s.bayState m = 4 then (s.serial m).takeWhile (· != 0) else []

/-- The catalogue entry that CLIP_SELECT names (R382): result 4 beyond the catalogue or for a damaged clip. -/
def State.readCatalogue (s : State) : Nat × List Nat :=
  let n := s.setting 0x3100 1
  match s.mag.clip with
  | some c => if c.clipNo = n then (0, c.toBytes) else
      match (s.mag.catalogue.drop n).head? with | some (some e) => (0, e.toBytes) | _ => (4, [])
  | none => match (s.mag.catalogue.drop n).head? with | some (some e) => (0, e.toBytes) | _ => (4, [])

/-- The Logbook (R481, R482): the header in force (the counters themselves before one is written), the record selected. -/
def State.readLogbook (s : State) (sub : Nat) : Nat × List Nat :=
  match sub with
  | 1 => (0, (s.log.written.getD s.log.cur).bytes)
  | 2 => match aget s.log.records (s.setting 0x5020 3) with | some r => (0, r.bytes) | none => (4, [])
  | _ => (0, (List.range 12).flatMap fun i => le 2 (s.slowing i))

/-- Device control (R355). -/
def State.readDevice (s : State) (sub : Nat) : List Nat :=
  match sub with
  | 1 => [s.get FC_LEVEL_LEVEL]
  | 3 => [s.powerState]
  | 4 => s.fc.first.bytes
  | 5 => le 8 s.dtcNs
  | _ => [s.get TB_QUALITY_STATE]

/-- The status of the last action that a CMD entry started (R12), where the manual gives it no values: a free byte, the same until the
entry starts another. -/
def State.cmdStatus (s : State) (key : Nat) : List Nat × State :=
  match aget s.hpp.cmdStatus key with
  | some v => ([v], s)
  | none =>
    let (v, s) := s.draw
    ([v % 256], { s with hpp := { s.hpp with cmdStatus := aput s.hpp.cmdStatus key (v % 256) } })

/-- The value that a READ of a readable entry returns, or its result (R353, R382). -/
def State.readEntry (s : State) (e : DictEntry) : (Nat × List Nat) × State :=
  let i := e.key / 256
  let sub := e.key % 256
  if e.acc = .rw ∨ e.acc = .rws then ((0, s.dictBytes e.key), s)
  else if e.acc = .cmd ∧ e.key ≠ 0x118001 ∧ e.key ≠ 0x210001 then let (l, s) := s.cmdStatus e.key; ((0, l), s)
  else if i = 0x1000 then let (l, s) := s.readIdentity sub; ((0, l), s)
  else if i = 0x1100 then ((0, s.readSdp (sub - 17)), s)
  else if i = 0x1180 then ((0, s.readStore sub), s)
  else if i / 256 = 0x12 then ((0, s.readLight (i % 256) sub), s)
  else if i = 0x2100 then ((0, s.readClip sub), s)
  else if i = 0x3000 then ((0, s.readStorage sub), s)
  else if i / 16 = 0x301 then ((0, s.readBay (i % 16) sub), s)
  else if i = 0x3100 then (s.readCatalogue, s)
  else if i = 0x4000 then ((0, le 4 (match s.hpp.job with | some j => j.i | none => s.hpp.done)), s)
  else if i = 0x5010 then ((0, [s.mgc.fwStatus]), s)
  else if i = 0x5011 then ((0, [s.mgc.ucStatus]), s)
  else if i = 0x5020 then (s.readLogbook sub, s)
  else ((0, s.readDevice sub), s)

/-! ## Writes of settings -/

/-- Bytes of an unsigned TYPE, for the argument of a CMD. -/
def argOk (typ n : Nat) : Bool := decide (1 ≤ typ ∧ typ ≤ 4) && typeSize typ == some n

/-- A value has its entry's type and length (R353, R359): a CMD takes an unsigned argument of any length; a reset's is a U32. -/
def DictEntry.typeOk (e : DictEntry) (typ n : Nat) : Bool :=
  if e.acc = .cmd then argOk typ n
  else typ == e.typ && (e.typ == 7 || e.typ == 8 || e.size == n)

/-- A value lies in its entry's range (R353). -/
def State.rangeOk (s : State) (e : DictEntry) (v : List Nat) : Bool :=
  if e.typ = 7 ∨ e.typ = 8 then decide (v.length ≤ e.size) else e.range.ok (s.role != 0) (unle v)

/-- What refuses a write, or 0 (R353, R360). -/
def State.writeResult (s : State) (e : DictEntry) (typ : Nat) (v : List Nat) : Nat :=
  if e.acc = .ro then 2 else if !e.typeOk typ v.length then 5 else if !s.rangeOk e v then 4 else 0

/-- The CAN controllers follow CAN_EN (R356): the rates are applied when a bus is enabled. -/
def State.followCanEn (s : State) : State :=
  s.each [0, 1] fun s c =>
    let want := bitAt (s.setting 0x1100 5) c == 1
    let s := if want ∧ !s.flag (CAN_C_CTRL_EN c) then
        (s.set (CAN_C_CTRL_NOM c) (s.setting 0x1100 3)).set (CAN_C_CTRL_DATA c) (s.setting 0x1100 4)
      else s
    s.canEnable c want

/-- What a setting that has just changed does at once (R353 to R356, R374, R381); every other is used later. -/
def State.settingEffect (s : State) (key : Nat) : State :=
  let v := unle (s.dictBytes key)
  match key with
  | 0x110001 => s.set (CAN_C_ACCEPT_NODE 0) v
  | 0x110002 => s.set (CAN_C_ACCEPT_NODE 1) v
  | 0x110005 => s.followCanEn
  | 0x200004 => s.openTarget
  | 0x200005 => s.openTarget
  | 0x200006 => s.openFloor
  | 0x30000B => s.set MGH_FMT0_WIDTH v
  | 0x30000C => s.set MGH_FMT0_PARITY v
  | 0x30000D => s.set MGH_FMT0_CHUNK_LOG v
  | 0x30000E => s.set MGH_FMT1_RATED_MBPS v
  | 0x30000F => s.set MGH_CTRL_AUTO_MOOR v
  | 0x300010 => s.set MGH_CTRL_DEGRADE_OK v
  | 0x300011 => s.set MGH_CTRL_SCRUB_EN v
  | _ => s

/-- The configuration is unsaved from now on, when it was not (R353). -/
def State.markUnsaved (s : State) : State :=
  { s with hpp := { s.hpp with unsavedFrom := s.hpp.unsavedFrom.orElse fun _ => some s.now } }

/-- A write to an RW or RWS entry takes effect (R353). The stored records of every RWS entry stay below 8156 bytes at their
greatest length, so that none is refused for it (R386). -/
def State.applySetting (s : State) (e : DictEntry) (v : List Nat) : State :=
  let s := (s.putDict e.key v).settingEffect e.key
  s.when (e.acc == .rws) (·.markUnsaved)

/-- Every RWS entry of the table. -/
def rwsEntries : List DictEntry := dictTable.filter fun e => e.acc == .rws

/-- 0x1180:07 DEFAULTS. -/
def State.setDefaults (s : State) : State := (s.each rwsEntries fun s e => s.applySetting e e.default).markUnsaved

/-! ## Commands of the dictionary -/

/-- A store is requested (R388): requests that wait together make one store. -/
def State.requestStore (s : State) : State :=
  { s with hpp := if s.hpp.storeState = 2 then { s.hpp with storeAgain := true } else { s.hpp with storeState := 1 } }

/-- A storage command (R381): result 6 when the register command's result is not 0. -/
def State.storageCmd (s : State) (last : Nat) (f : State → Nat × State) : Nat × State :=
  let s := s.mghCmd .mgc last f
  let r := s.get MGH_CMD_STAT_RESULT
  (if r = 0 then 0 else 6, { s with hpp := { s.hpp with lastResult := r } })

/-- FORMAT takes its settings (R381). -/
def State.formatSettings (s : State) : State :=
  s.each [0x30000B, 0x30000C, 0x30000D, 0x30000E] fun s k => s.settingEffect k

/-- 0x4000:0C: a decode job starts with the settings of R383. -/
def State.startJob (s : State) : Nat × State :=
  if s.clipOpen ∨ s.jobOpen then (6, s)
  else
    let v := s.setting 0x4000
    let j : DecodeJob :=
      { source := v 1, clip := v 2, count := v 4, src := v 5, dst := v 6, pitch := v 7, buffers := v 8, report := v 9, meta_ := v 10,
        conceal := v 11, pace := v 16, i := 0, pos := if v 1 = 0 then v 3 else 0, metaPos := 0, lastBeacon := none }
    let s := s.putDict 0x40000F (le 4 0)
    (0, { s with hpp := { s.hpp with job := some j, done := 0, ctx := DecodeCtx.reset, homes := [] } })

/-- 0x4000:0D: the job ends after the unit in progress. -/
def State.stopJob (s : State) : Nat × State := (0, s.endJob)

/-- The engine that a reset request names (R384). -/
def resetEngine (arg : Nat) : Nat :=
  17 * bits arg 8 2 + (if bitAt arg 14 = 1 then 16 else 4 * bits arg 10 2 + bits arg 12 2)

/-- A Warm reset by command (R384): 1 ms after the reply, or after the clip that FORCE closes. -/
def State.warmByCommand (s : State) (force : Bool) : Nat × State :=
  if s.clipOpen then
    if force then (0, ({ s with hpp := { s.hpp with resetAfter := true } }.stopClip).2) else (6, s)
  else (0, { s with hpp := { s.hpp with warmAt := s.hpp.warmAt.orElse fun _ => some (s.now + 10 ^ 6) } })

/-- 0x5000:02 (R384). -/
def State.deviceReset (s : State) (arg : Nat) : Nat × State :=
  match arg % 16 with
  | 1 => s.warmByCommand (bitAt arg 31 == 1)
  | 2 => (0, s.requestDie (bitAt arg 4))
  | 3 => (0, s.requestReset (resetEngine arg))
  | _ => (4, s)

/-- The action of a CMD entry, with its argument: its result, or none when the reply waits (R378). -/
def State.command (s : State) (h : Hpp) (key arg : Nat) : Option Nat × State :=
  let done := fun (r : Nat × State) => ((some r.1, r.2) : Option Nat × State)
  match key with
  | 0x118001 => (some 0, s.requestStore)
  | 0x118007 => (some 0, s.setDefaults)
  | 0x210001 => s.startClip h
  | 0x210002 => done s.stopClip
  | 0x300006 => done (s.storageCmd 0 fun s => s.moorCmd arg)
  | 0x300007 => done (s.storageCmd 1 fun s => s.unmoorCmd arg)
  | 0x300008 => done (s.formatSettings.storageCmd 2 fun s => s.formatCmd arg)
  | 0x300009 => done (s.storageCmd 5 State.deleteCmd)
  | 0x30000A => done (s.storageCmd 6 State.rebuildCmd)
  | 0x40000C => done s.startJob
  | 0x40000D => done s.stopJob
  | 0x501003 => done s.activate
  | 0x501004 => done s.confirm
  | 0x501005 => done (s.commitEpoch arg)
  | _ => done s.selectUc

/-! ## Images -/

/-- A firmware image that the boot ROM takes by HPP is verified, and runs when it is valid (R477). -/
def State.bootImage (s : State) (l : List Nat) : State :=
  if s.fwValid l then
    let s := s.runImage 2 l
    { s with mgc := { s.mgc with boot := 4 } }
  else { s with mgc := { s.mgc with fwStatus := 3 } }

/-- An image has arrived whole (R477, R478): nothing is written while PWR_FAIL_N is low. -/
def State.takeImage (s : State) (key : Nat) (l : List Nat) : Nat × State :=
  if s.kpr.powerFail.isSome then
    (6, if key = 0x501001 then { s with mgc := { s.mgc with fwStatus := 4 } } else { s with mgc := { s.mgc with ucStatus := 4 } })
  else if s.mgc.loader ≠ 0 then (0, s.bootImage l)
  else (0, if key = 0x501001 then s.takeFw l else s.takeUc l)

/-- The bytes of an image that have arrived are written to its slot (R478). -/
def State.writeImage (s : State) (key : Nat) (l : List Nat) : State :=
  if s.mgc.loader ≠ 0 then { s with mgc := { s.mgc with fwStatus := 1 } }
  else if key = 0x501001 then
    { s with nor := { s.nor with fw := setAt s.nor.fw (1 - s.active) l }, mgc := { s.mgc with fwStatus := 1 } }
  else { s with nor := { s.nor with uc := setAt s.nor.uc (1 - s.nor.ucInUse) l }, mgc := { s.mgc with ucStatus := 1 } }

/-- An image's transfer is abandoned (R478): its slot is invalid, 3, or its writing stopped, 4. -/
def State.loseImage (s : State) (key st : Nat) : State :=
  if key = 0x501001 then { s with mgc := { s.mgc with fwStatus := st } }
  else if key = 0x501101 then { s with mgc := { s.mgc with ucStatus := st } }
  else s

/-- The entry is an image. -/
def isImage (key : Nat) : Bool := key == 0x501001 || key == 0x501101

/-! ## One write -/

/-- What a write that has passed its checks does: its result, or none when the reply waits. -/
def State.act (s : State) (h : Hpp) (e : DictEntry) (v : List Nat) : Option Nat × State :=
  if isImage e.key then let (r, s) := s.takeImage e.key v; (some r, s)
  else if e.key = 0x500002 then let (r, s) := s.deviceReset (unle v); (some r, s)
  else if e.acc = .cmd then s.command h e.key (unle v)
  else (some 0, s.applySetting e v)

/-- A write that has passed its checks takes effect: a CMD entry that has started an action has a status of its own (R12). -/
def State.effect (s : State) (h : Hpp) (e : DictEntry) (v : List Nat) : Option Nat × State :=
  let (r, s) := s.act h e v
  (r, s.when (e.acc == .cmd && r.getD 0 == 0) fun s => { s with hpp := { s.hpp with cmdStatus := adel s.hpp.cmdStatus e.key } })

/-! ## Block transfer (R361) -/

/-- The open sequence of a requester for an entry. -/
def State.sequence (s : State) (c : Carrier) (peer key : Nat) : Option BlockSeq :=
  s.hpp.blocks.find? fun b => b.carrier == c && b.peer == peer && b.key == key

/-- The sequence is forgotten. -/
def State.dropSequence (s : State) (c : Carrier) (peer key : Nat) : State :=
  { s with hpp := { s.hpp with blocks := s.hpp.blocks.filter fun b => !(b.carrier == c && b.peer == peer && b.key == key) } }

/-- The sequence is discarded, and an image with it. -/
def State.discardSequence (s : State) (c : Carrier) (peer key : Nat) : State :=
  if (s.sequence c peer key).isSome then
    let s := s.dropSequence c peer key
    s.when (isImage key) (·.loseImage key 3)
  else s

/-- The bytes of a sequence that this block continues: none when it is out of order, or comes more than 2 s after the last. A
block at OFFSET 0 begins a sequence. -/
def State.continues (s : State) (h : Hpp) (key offset total : Nat) : Option (List Nat) :=
  if offset = 0 then some []
  else
    match s.sequence h.carrier h.peer key with
    | some b => if b.total = total ∧ b.data.length = offset ∧ s.now ≤ b.last + 2 * 10 ^ 9 then some b.data else none
    | none => none

/-- A WRITE_BLOCK whose entry, type and length are in order. -/
def State.takeBlock (s : State) (h : Hpp) (e : DictEntry) (typ offset total : Nat) (data : List Nat) : Option Nat × State :=
  match s.continues h e.key offset total with
  | none => (some 10, s.discardSequence h.carrier h.peer e.key)
  | some old =>
    let l := old ++ data
    let s := s.dropSequence h.carrier h.peer e.key
    if total < l.length then (some 10, s.when (isImage e.key) (·.loseImage e.key 3))
    else if l.length = total then
      match s.writeResult e typ l with
      | 0 => s.effect h e l
      | r => (some r, s)
    else if isImage e.key ∧ s.kpr.powerFail.isSome then (some 6, s.loseImage e.key 4)
    else
      let b : BlockSeq := ⟨h.carrier, h.peer, e.key, total, s.now, l⟩
      let s := s.when (isImage e.key) (·.writeImage e.key l)
      (some 0, { s with hpp := { s.hpp with blocks := b :: s.hpp.blocks } })

/-- What refuses a WRITE_BLOCK before its data are looked at (R353, R360). -/
def blockResult (e : DictEntry) (typ total : Nat) : Nat :=
  if e.acc = .ro then 2 else if !e.typeOk typ total then 5 else if (e.typ = 7 ∨ e.typ = 8) ∧ e.size < total then 4 else 0

/-! ## One request (R358 to R363) -/

/-- The operation code of a request (R358). -/
def HppOp.code : HppOp → Nat
  | .read _ _ => 1
  | .write _ _ _ _ => 2
  | .readBlock _ _ _ _ => 3
  | .writeBlock _ _ _ _ _ _ => 4
  | .unsupported op _ => op

/-- A block of more than 1024 bytes has no TYPE that an entry has: it returns result 5 (R361). -/
def HppOp.checked : HppOp → HppOp
  | .writeBlock i s t o n d => if 1024 < d.length then .writeBlock i s 0 o n d else .writeBlock i s t o n d
  | op => op

/-- The payload of a READ's reply. The TYPE for an entry that does not exist is a free value. -/
def State.doRead (s : State) (index sub : Nat) : List Nat × State :=
  match dictEntry (256 * index + sub) with
  | none => let (v, s) := s.draw; (entryHead index sub 1 v, s)
  | some e =>
    if e.acc = .wo then (entryHead index sub 3 e.typ, s)
    else
      let ((r, v), s) := s.readEntry e
      if r ≠ 0 then (entryHead index sub r e.typ, s)
      else if 1072 < v.length then (entryHead index sub 9 e.typ, s)
      else (entryHead index sub 0 e.typ ++ v, s)

/-- The payload of a READ_BLOCK's reply. -/
def State.doReadBlock (s : State) (index sub offset count : Nat) : List Nat × State :=
  match dictEntry (256 * index + sub) with
  | none => let (v, s) := s.draw; (entryHead index sub 1 v, s)
  | some e =>
    if e.acc = .wo then (entryHead index sub 3 e.typ, s)
    else if 1024 < count then (entryHead index sub 5 e.typ, s)
    else
      let ((r, v), s) := s.readEntry e
      if r ≠ 0 then (entryHead index sub r e.typ, s)
      else (entryHead index sub 0 e.typ ++ le 4 v.length ++ (v.drop offset).take count, s)

/-- A WRITE: its result, or none when its reply waits. -/
def State.doWrite (s : State) (h : Hpp) (index sub typ : Nat) (v : List Nat) : Option Nat × State :=
  match dictEntry (256 * index + sub) with
  | none => (some 1, s)
  | some e => match s.writeResult e typ v with | 0 => s.effect h e v | r => (some r, s)

/-- A WRITE_BLOCK. -/
def State.doWriteBlock (s : State) (h : Hpp) (index sub typ offset total : Nat) (data : List Nat) : Option Nat × State :=
  match dictEntry (256 * index + sub) with
  | none => (some 1, s)
  | some e => match blockResult e typ total with | 0 => s.takeBlock h e typ offset total data | r => (some r, s)

/-- An operation is executed: the payload of its reply, or none when the reply waits. -/
def State.execute (s : State) (h : Hpp) (op : HppOp) : Option (List Nat) × State :=
  match op with
  | .read i b => let (p, s) := s.doRead i b; (some p, s)
  | .readBlock i b o c => let (p, s) := s.doReadBlock i b o c; (some p, s)
  | .write i b t v => let (r, s) := s.doWrite h i b t v; (r.map fun r => entryHead i b r t, s)
  | .writeBlock i b t o n d => let (r, s) := s.doWriteBlock h i b t o n d; (r.map fun r => entryHead i b r t, s)
  | .unsupported _ _ => let (v, s) := s.draw; (some (entryHead v (v / 65536) 11 (v / 2 ^ 24)), s)

/-- MGC firmware executes a request and answers it (R362): during an entry to RETAIN or OFF it is a refuser (R394). -/
def State.serve (s : State) (h : Hpp) (op : HppOp) : State :=
  let entry := s.kpr.entry.map fun (e : PowerEntry) => { e with abort := e.abort.orElse fun _ => some 3 }
  let s := { s with kpr := { s.kpr with entry := entry } }
  match s.execute h op with
  | (some p, s) => s.reply h op.code p
  | (none, s) => s

/-- The reply that answers a repeated request (R362). -/
def State.kept (s : State) (h : Hpp) : Option KeptReply :=
  s.hpp.replies.find? fun k => k.carrier == h.carrier && k.peer == h.peer && k.tid == h.tid && decide (s.now ≤ k.at_ + 2 * 10 ^ 9)

/-- A request is answered once (R362). -/
def State.admitRequest (s : State) (h : Hpp) (op : HppOp) : State :=
  match s.kept h with
  | some k => s.sendReply h k.reply
  | none =>
    if (s.clip.req.any fun r => r.carrier == h.carrier && r.peer == h.peer && r.tid == h.tid) = true then s else s.serve h op

/-- The boot ROM's loader serves FW_IMAGE and FW_STATUS on its carrier, and answers every other request with result 7 (R477). -/
def State.loaderServe (s : State) (h : Hpp) (op : HppOp) : State :=
  let mine := (s.mgc.loader == 1 && h.carrier == .mailbox) || (s.mgc.loader == 2 && h.carrier == .can0)
  let busy := fun (s : State) (i b t : Nat) => s.sendReply h (s.replyBytes h op.code (entryHead i b 7 t))
  if !mine then s
  else
    match op with
    | .read i b => if i = 0x5010 ∧ b = 2 then s.serve h op else busy s i b 1
    | .readBlock i b _ _ => if i = 0x5010 ∧ b = 2 then s.serve h op else busy s i b 1
    | .write i b t _ => if i = 0x5010 ∧ b = 1 then s.serve h op else busy s i b t
    | .writeBlock i b t _ _ _ => if i = 0x5010 ∧ b = 1 then s.serve h op else busy s i b t
    | .unsupported _ _ => s.serve h op

/-- The message is for the HL6480 (R363). -/
def State.addressed (s : State) (h : Hpp) : Bool := h.dst == 127 || h.dst == s.ownNode h.carrier

/-- A request that has reached the part: it is served, waits for a restart to end (R479), or finds the firmware not running. -/
def State.takeRequest (s : State) (h : Hpp) (op : HppOp) : State :=
  if s.mgc.up then s.admitRequest h op
  else if s.mgc.boot = 3 then
    (if h.carrier = .mailbox then s.mailboxDone (.code 6)
      else { s with hpp := { s.hpp with waiting := s.hpp.waiting ++ [(h, op)] } })
  else if s.mgc.loader ≠ 0 then s.loaderServe h op
  else if h.carrier = .mailbox then s.mailboxDone (.code 6)
  else s

/-- The number of a CAN carrier. -/
def busOf (c : Carrier) : Nat := match c with | .can1 => 1 | _ => 0

/-- The part is powered and its IOD out of reset. -/
def State.awake (s : State) : Bool := s.kpr.mode == .on && !(s.domain 0).inReset

/-- A request arrives on its carrier (R313, R363 to R367): a follower's mailbox returns Unsupported; SRC 0 is refused on CAN; a follower passes its datagrams to the lead. -/
def State.arrive (s : State) (h : Hpp) (op : HppOp) : State :=
  match h.carrier with
  | .mailbox =>
    if s.role = 2 then s.when s.host (·.mailboxDone (.code 3))
    else if s.host then (if s.addressed h then s.takeRequest h op else s.mailboxDone (.bytes [])) else s
  | .udp =>
    if !(s.flag (ETH_P_CTRL_EN 0) || s.flag (ETH_P_CTRL_EN 1)) || s.flag KPR_STATUS_HOLDUP then s
    else if s.role = 2 then s.emit (.gangHpp h op)
    else (s.hearUdp h.peer).when (s.addressed h) (·.takeRequest h op)
  | c =>
    if !s.flag (CAN_C_CTRL_EN (busOf c)) then s
    else if h.src = 0 then s.inc (CAN_C_COUNTS_RX_OTHER (busOf c))
    else if s.addressed h then (s.hear (busOf c) h.src).takeRequest h op else s

/-- A request of the table. -/
def State.request (s : State) (h : Hpp) (op : HppOp) : State := if s.awake then s.arrive h op else s

/-- A WRITE of one unsigned byte to a CMD entry. -/
def cmdWrite (index sub arg : Nat) : HppOp := .write index sub 1 [arg % 256]

/-! ## Commands -/

/-- READ (R358). -/
def execHppRead (h : Hpp) (index sub : Nat) (s : State) : Host.Outcome State Fault Refusal :=
  .next (s.request h (.read (index % 65536) (sub % 256)))

/-- WRITE (R353). -/
def execHppWrite (h : Hpp) (index sub typ : Nat) (value : List Byte) (s : State) : Host.Outcome State Fault Refusal :=
  .next (s.request h (.write (index % 65536) (sub % 256) typ (toNats value)))

/-- READ_BLOCK (R361). -/
def execHppReadBlock (h : Hpp) (index sub offset count : Nat) (s : State) : Host.Outcome State Fault Refusal :=
  .next (s.request h (.readBlock (index % 65536) (sub % 256) offset count))

/-- WRITE_BLOCK (R361). -/
def execHppWriteBlock (h : Hpp) (index sub typ offset total : Nat) (data : List Byte) (s : State) :
    Host.Outcome State Fault Refusal :=
  .next (s.request h (HppOp.checked (.writeBlock (index % 65536) (sub % 256) typ offset total (toNats data))))

/-- BLOCK_SEQUENCE_TIMEOUT (R361). -/
def execBlockSequenceTimeout (carrier : Carrier) (peer index sub : Nat) (s : State) : Host.Outcome State Fault Refusal :=
  let key := 256 * index + sub
  .next (match s.sequence carrier peer key with
  | some b => if b.last + 2 * 10 ^ 9 < s.now then s.discardSequence carrier peer key else s
  | none => s)

/-- HPP_UNSUPPORTED (R358). -/
def execHppUnsupported (h : Hpp) (op version : Nat) (s : State) : Host.Outcome State Fault Refusal :=
  .next (s.request h (.unsupported op version))

/-- CLIP_START (R378). -/
def execClipStart (h : Hpp) (s : State) : Host.Outcome State Fault Refusal := .next (s.request h (cmdWrite 0x2100 1 0))

/-- CLIP_STOP (R379). -/
def execClipStop (h : Hpp) (s : State) : Host.Outcome State Fault Refusal := .next (s.request h (cmdWrite 0x2100 2 0))

/-- STORAGE_MOOR (R381). -/
def execStorageMoor (h : Hpp) (bays : Nat) (s : State) : Host.Outcome State Fault Refusal :=
  .next (s.request h (cmdWrite 0x3000 6 bays))

/-- STORAGE_UNMOOR (R381). -/
def execStorageUnmoor (h : Hpp) (bays : Nat) (s : State) : Host.Outcome State Fault Refusal :=
  .next (s.request h (cmdWrite 0x3000 7 bays))

/-- STORAGE_FORMAT (R381). -/
def execStorageFormat (h : Hpp) (bays : Nat) (s : State) : Host.Outcome State Fault Refusal :=
  .next (s.request h (cmdWrite 0x3000 8 bays))

/-- STORAGE_DELETE_LAST (R381). -/
def execStorageDeleteLast (h : Hpp) (s : State) : Host.Outcome State Fault Refusal := .next (s.request h (cmdWrite 0x3000 9 0))

/-- STORAGE_REBUILD (R381). -/
def execStorageRebuild (h : Hpp) (s : State) : Host.Outcome State Fault Refusal := .next (s.request h (cmdWrite 0x3000 10 0))

/-- DECODE_START (R383). -/
def execDecodeStart (h : Hpp) (s : State) : Host.Outcome State Fault Refusal := .next (s.request h (cmdWrite 0x4000 12 0))

/-- DECODE_STOP (R383). -/
def execDecodeStop (h : Hpp) (s : State) : Host.Outcome State Fault Refusal := .next (s.request h (cmdWrite 0x4000 13 0))

/-- DEVICE_RESET (R384). -/
def execDeviceReset (h : Hpp) (arg : Word) (s : State) : Host.Outcome State Fault Refusal :=
  .next (s.request h (.write 0x5000 2 3 (le 4 arg.toNat)))

/-- STORE (R388). -/
def execStore (h : Hpp) (s : State) : Host.Outcome State Fault Refusal := .next (s.request h (cmdWrite 0x1180 1 0))

/-- DEFAULTS (R356). -/
def execDefaults (h : Hpp) (s : State) : Host.Outcome State Fault Refusal := .next (s.request h (cmdWrite 0x1180 7 0))

/-- FW_IMAGE (R478): the whole image, as one block. -/
def execFwImage (h : Hpp) (image : List Byte) (s : State) : Host.Outcome State Fault Refusal :=
  .next (s.request h (.writeBlock 0x5010 1 8 0 image.length (toNats image)))

/-- FW_ACTIVATE (R479). -/
def execFwActivate (h : Hpp) (s : State) : Host.Outcome State Fault Refusal := .next (s.request h (cmdWrite 0x5010 3 0))

/-- FW_CONFIRM (R475). -/
def execFwConfirm (h : Hpp) (s : State) : Host.Outcome State Fault Refusal := .next (s.request h (cmdWrite 0x5010 4 0))

/-- EPOCH_COMMIT (R478). -/
def execEpochCommit (h : Hpp) (which : Nat) (s : State) : Host.Outcome State Fault Refusal :=
  .next (s.request h (cmdWrite 0x5010 5 which))

/-- UC_IMAGE (R478): the whole image, as one block. -/
def execUcImage (h : Hpp) (image : List Byte) (s : State) : Host.Outcome State Fault Refusal :=
  .next (s.request h (.writeBlock 0x5011 1 8 0 image.length (toNats image)))

/-- UC_SELECT (R478). -/
def execUcSelect (h : Hpp) (s : State) : Host.Outcome State Fault Refusal := .next (s.request h (cmdWrite 0x5011 3 0))

/-- AUTO_STORE_TIMER (R388): AUTO_S seconds after the first unsaved change, once. -/
def execAutoStoreTimer (s : State) : Host.Outcome State Fault Refusal :=
  let due := fun (t : Nat) => t + s.setting 0x1180 6 * 10 ^ 9
  .next (match s.hpp.unsavedFrom with
  | some t =>
    if s.mgc.up ∧ s.setting 0x1180 6 ≠ 0 ∧ due t ≤ s.now ∧ s.hpp.storeState ≠ 2 ∧
        (s.hpp.storeState ≠ 4 ∨ s.hpp.storeFrom.getD 0 < due t) then s.requestStore
    else s
  | none => s)

/-! ## The configuration store (R385 to R389) -/

/-- The region that a store writes: the one that does not hold the copy in use, or A after defaults (R388). -/
def State.storeRegion (s : State) : Nat := if s.hpp.source = 0 then 1 else 0

/-- A record of a slot (R386): the head, the value, and zeros up to a multiple of 4 bytes. -/
def recordBytes (r : Nat × Nat × List Nat) : List Nat :=
  let l := le 2 (r.1 / 256) ++ [r.1 % 256, r.2.1] ++ le 2 r.2.2.length ++ r.2.2
  fit (4 * ceilDiv l.length 4) l

/-- The bytes of a slot up to its CRC (R386). -/
def ConfigSlot.bytes (c : ConfigSlot) : List Nat :=
  let recs := c.values.flatMap recordBytes
  let head := le 4 0x47434C48 ++ le 2 1 ++ le 2 recs.length ++ le 4 c.seq ++ le 4 1 ++ le 8 c.storedAt ++ le 4 c.values.length
  head ++ le 4 (crc32c head) ++ recs ++ le 4 (crc32c recs)

/-- The first records that bytes hold, at most `n`. -/
def parseRecords : Nat → List Nat → List (Nat × Nat × List Nat)
  | 0, _ => []
  | n + 1, l =>
    let size := rdLe l 4 2
    if l.length < 6 + size then []
    else (256 * rdLe l 0 2 + rdLe l 2 1, rdLe l 3 1, (l.drop 6).take size) :: parseRecords n (l.drop (4 * ceilDiv (6 + size) 4))

/-- What slot `k` holds when it is valid (R386): MAGIC, FORMAT, HCRC, LEN and CRC are correct. -/
def parseSlot (k : Nat) (l : List Nat) : Option ConfigSlot :=
  let n := rdLe l 6 2
  let recs := (l.drop 32).take n
  if rdLe l 0 4 = 0x47434C48 ∧ rdLe l 4 2 = 1 ∧ rdLe l 28 4 = crc32c (l.take 28) ∧ n ≤ 8156 ∧ recs.length = n ∧
      l.length = 36 + n ∧ rdLe l (32 + n) 4 = crc32c recs then
    some ⟨k, rdLe l 8 4, rdLe l 16 8, parseRecords (rdLe l 24 4) recs⟩
  else none

/-- The slots of a region. -/
def Nor.region (n : Nor) (r : Nat) : List (Nat × List Nat) := if r = 0 then n.regionA else n.regionB

/-- Change the slots of a region. -/
def Nor.setRegion (n : Nor) (r : Nat) (l : List (Nat × List Nat)) : Nor :=
  if r = 0 then { n with regionA := l } else { n with regionB := l }

/-- The copy in a region (R385): its valid slot with the highest SEQ, compared as in R52. -/
def State.copyOf (s : State) (r : Nat) : Option ConfigSlot :=
  (s.nor.region r).foldl (fun best e =>
    match best, parseSlot e.1 e.2 with
    | some b, some c => if later c.seq b.seq then some c else some b
    | none, c => c
    | b, none => b) none

/-- A slot is about to be written (R388): its 64 KiB sector is erased when it is the sector's first, and it holds nothing valid until it
has been written. -/
def Nor.openSlot (n : Nor) (r k : Nat) : Nor :=
  n.setRegion r ((n.region r).filter fun e => !(e.1 == k || (k % 8 == 0 && e.1 / 8 == k / 8)))

/-- The slot that a store writes first (R388). -/
def State.firstSlot (s : State) (r : Nat) : ConfigSlot :=
  { slot := match s.copyOf r with | some c => (c.slot + 1) % 1024 | none => 0
    seq := if s.hpp.source = 2 then 1 else (s.hpp.seq + 1) % 2 ^ 32
    storedAt := s.dtcNs
    values := rwsEntries.map fun e => (e.key, e.typ, s.dictBytes e.key) }

/-- A store may start (R388, R389): 10 s after the last one began and after POR release, and not while PWR_FAIL_N is low. -/
def State.storeMayStart (s : State) : Bool :=
  s.mgc.up && s.hpp.storeState == 1 && decide (10 ^ 10 ≤ s.now) && s.kpr.powerFail.isNone &&
    (match s.hpp.storeFrom with | some t => decide (t + 10 ^ 10 ≤ s.now) | none => true)

/-- CONFIG_STORE_START (R388). -/
def execConfigStoreStart (s : State) : Host.Outcome State Fault Refusal :=
  .next (if s.storeMayStart then
    let r := s.storeRegion
    let c := s.firstSlot r
    { s with
      nor := s.nor.openSlot r c.slot
      hpp := { s.hpp with
        storeState := 2
        storeFrom := some s.now
        storeRetry := false
        storeSlot := some (r, c) } }
  else s)

/-- The slot has been read back as written: it is the copy in use (R388). A change made meanwhile stays unsaved. -/
def State.storeEnds (s : State) (r : Nat) (c : ConfigSlot) : State :=
  let same := (rwsEntries.map fun e => (e.key, e.typ, s.dictBytes e.key)) == c.values
  { s with
    nor := s.nor.setRegion r (aput (s.nor.region r) c.slot c.bytes)
    hpp := { s.hpp with
      storeState := if s.hpp.storeAgain then 1 else 3
      storeAgain := false
      storeSlot := none
      unsavedFrom := if same then none else some s.now
      source := r
      seq := c.seq
      storedAt := c.storedAt
      stores := s.hpp.stores + 1
      inUse := c.values }
    log := { s.log with cur := { s.log.cur with stores := s.log.cur.stores + 1 } } }

/-- CONFIG_STORE_DONE (R388): the next slot is tried once. -/
def execConfigStoreDone (readBackOk : Bool) (s : State) : Host.Outcome State Fault Refusal :=
  .next (match s.hpp.storeSlot with
  | none => s
  | some (r, c) =>
    if s.hpp.storeState ≠ 2 then s
    else if readBackOk then s.storeEnds r c
    else if !s.hpp.storeRetry then
      let k := (c.slot + 1) % 1024
      { s with nor := s.nor.openSlot r k, hpp := { s.hpp with storeRetry := true, storeSlot := some (r, { c with slot := k }) } }
    else
      { s with hpp := { s.hpp with storeState := 4, storeAgain := false, storeSlot := none } }.raise 0x50 0 0)

end Sys2Proof.Machine
end

