-- ==== Sys2Proof/Machine/Resets.lean ====
section
/-! DEFINITION. The Reset Controller (R429 to R434, R453 to R462): what a Cold and a Warm reset leave, how resets are held and
released, the watchdog. -/

namespace Sys2Proof.Machine

/-! ## What a reset leaves -/

/-- Registers that a Warm reset keeps (R429, R243, R327): the Time Base, FRAME_EPOCH with the shadow epoch that follows it once the preset
is disarmed (R52, R55), the capture and state
registers of the LMC, the CXL Port's, the Fault Collector's but for phase and level, the Reset Controller's cause, straps,
extensions and counts, the Always-On domain's, and the fault counts of the engines. -/
def warmKeeps (off : Nat) : Bool :=
  decide (0x40000 ≤ off ∧ off < 0x80000) || [0x20, 0x28].contains off ||
    [0x240000, 0x240004, 0x240008, 0x24000C, 0x240030, 0x240034].contains off || decide (0x240100 ≤ off ∧ off < 0x240200) ||
    (decide (0x240200 ≤ off ∧ off < 0x240300) && [4, 8, 12, 16].contains (off % 64)) ||
    decide (0x2C0000 ≤ off ∧ off < 0x300000) ||
    (decide (0x480000 ≤ off ∧ off < 0x4C0000) && off != 0x480004 && off != 0x480008) ||
    [0x4C0000, 0x4C0004, 0x4C0010, 0x4C0020].contains off || decide (0x540000 ≤ off ∧ off < 0x580000) ||
    (List.range 68).any fun e => off == (CE_ENG_FAULTS_ISOLATIONS e).off

/-- The blocks that a magazine holds and no Flush has covered are each kept or lost when its commands are abandoned (R429): a free
choice. -/
def settleBlocks : List (Nat × List Nat) → List (Nat × List Nat) → State → List (Nat × List Nat) × State
  | [], m, s => (m, s)
  | (b, l) :: t, m, s =>
    let (v, s) := s.draw
    settleBlocks t (if v % 2 = 1 then writeOn m b l else m) s

/-- The bays after a reset: the magazines with what their media hold. -/
def settleBays : List Bay → State → List Bay × State
  | [], s => ([], s)
  | b :: t, s =>
    let (m, s) := settleBlocks b.volatile b.media s
    let (r, s) := settleBays t s
    ({ Bay.reset with mag := b.mag, media := m } :: r, s)

/-- A bay whose magazine is present reads PRESENT (R279). -/
def State.presentBays (s : State) : State :=
  s.each (List.range 4) fun s b => s.when (s.bay b).mag.isSome (·.set (MGH_MAG_STATE_STATE b) 1)

/-- The Fault Collector after a Warm reset: phase, level and the latch aside it is as it was (R422, R429). -/
def Collector.warm (c : Collector) : Collector :=
  { Collector.reset with log := c.log, seq := c.seq, first := c.first, sev := c.sev, count := c.count, lastSev := c.lastSev }

/-- The memory controller after a Warm reset: its ranks, map and contents (R243); nothing is queued or training. -/
def Lmc.warm (l : Lmc) : Lmc :=
  { l with
    wq := []
    held := []
    training := List.replicate 4 none
    selfRefresh := []
    readoutAt := none
    window := 0
    windowUsed := false
    forced := false }

/-- The state that a Warm reset leaves (R429, R461), the CXL Port after its Link-reach reset. -/
def State.warmState (s : State) : State :=
  let (bays, s) := settleBays s.mag.bays s
  let retired := (List.range 68).filter fun e => s.get (CE_ENG_STATE_STATE e) == 6
  let t : State :=
    { State.reset with
      pending := s.pending
      clk := s.clk
      draws := s.draws
      regs := sdrop (fun off => !warmKeeps off) s.regs
      resp := s.resp
      out := s.out
      fc := { s.fc.warm with latch := s.fc.latch }
      tb := s.tb
      lmc := s.lmc.warm
      dram := s.dram
      poison := s.poison
      mag := { Mag.reset with bays := bays }
      hostMem := s.hostMem
      hpp := { HppState.reset with storeFrom := s.hpp.storeFrom, stores := s.hpp.stores }
      kpr := { Keeper.reset with powerFail := s.kpr.powerFail }
      aon := s.aon
      log := s.log
      nor := s.nor
      mgc := { Mgc.reset with boot := 0, aged := s.mgc.aged }
      rstc := s.rstc }
  let t := t.each retired fun t e => t.set (CE_ENG_STATE_STATE e) 6
  let t := t.each (List.range 4) fun t c => t.set (LMC_CH_STAT_TRAINING c) 0
  let t := (t.set BU_SHADOW_EPOCH_EPOCH (t.epoch + 1)).set FC_SELF_OK 1
  (t.cxlLinkDown.clear [CXP_STATUS_HOST, CXP_STATUS_HDM_COMMITTED]).fusedResets.presentBays

/-- The state that a Cold reset leaves (R429): the Always-On domain, cause and straps, what is stored, and what lies outside the
part. Without the main supplies the part stays in OFF. -/
def State.coldState (s : State) : State :=
  let (bays, s) := settleBays s.mag.bays s
  let t : State :=
    { State.reset with
      pending := s.pending
      clk := s.clk
      draws := s.draws
      regs := sdrop (fun off => !(decide (0x540000 ≤ off ∧ off < 0x580000) || [0x4C0000, 0x4C0004].contains off)) s.regs
      resp := s.resp
      out := s.out
      mag := { Mag.reset with bays := bays }
      hostMem := s.hostMem
      kpr := { Keeper.reset with powerFail := s.kpr.powerFail, mode := if s.aon.mainPwrEn then .on else s.kpr.mode }
      aon := s.aon
      log := s.log
      nor := s.nor
      mgc := { Mgc.reset with boot := 0, aged := s.mgc.aged }
      rstc := s.rstc }
  t.fusedResets.presentBays

/-! ## Assertion (R429, R430) -/

/-- A domain enters a reset of a reach at `now`, or stays in it with the larger of the two (R430); its PLL is reset (R431). -/
def Domain.enter (x : Domain) (reach now : Nat) : Domain := ⟨true, max x.reach reach, false, none, now⟩

/-- The levels that the blocks drive on the VIO bank's outputs. -/
def State.outPins (s : State) : OutPins :=
  ⟨s.bellLow, s.bu.outSince.isSome, s.mag.bays.map (·.pwrEn), s.mag.bays.map (·.perst)⟩

/-- The outputs hold from the assertion of a Warm reset (R459). -/
def State.holdPins (s : State) : State := { s with rstc := { s.rstc with held := s.outPins } }

/-- A Warm reset is asserted (R429): the bit of its cause is set, and two sources that overlap make one reset. Under a Cold reset
it adds nothing. -/
def State.warmReset (s : State) (cause : Fld) : State :=
  let x := s.domain 0
  if x.inReset ∧ x.reach = 4 then s
  else
    let s := s.when (!x.inReset) State.holdPins
    let s := (s.when (!x.inReset) fun s => s.linkReset_.inc RSTC_COUNTS_WARM).set cause 1
    let s := s.warmState
    s.each [0, 1, 2] fun s d => s.modDomain d (·.enter 3 s.now)

/-- A Cold reset is asserted and held until POR release (R429, R453). `soft` is a request through `RSTC_REQ`. -/
def State.coldReset (s : State) (soft : Bool) : State :=
  let s := s.coldState
  let s := s.putWord RSTC_CAUSE_POR.off (if soft then 16#32 else 1#32)
  let s := { s with rstc := { s.rstc with porDone := false } }
  s.each [0, 1, 2, 3] fun s d => s.modDomain d (·.enter 4 s.now)

/-! ## Release (R430, R431, R434) -/

/-- The Time Base takes the Always-On record, which advances it at the next edge of the 32.768 kHz clock (R63, R64). -/
def State.loadRecord (s : State) : State :=
  if s.aon.recordValid then
    { s with
      tb := { s.tb with dtc := s.aon.recordDtc, sleepTicks := some s.aon.recordTicks }
      aon := { s.aon with recordValid := false } }
  else s

/-- The IOD leaves reset (R431, R434, R461, R462): whatever happened during the reset is undone, the bays' pins are low after a Warm reset, and
the boot ROM is to run. -/
def State.freeIod (s : State) : State :=
  let warm := (s.domain 0).reach != 4
  let s := if warm then s.warmState else s.coldState.loadRecord
  let s := s.modDomain 0 fun x => { x with inReset := false, reach := 0, released := none }
  let s := s.when warm (·.each (List.range 4) State.pinsLow)
  let c := s.log.cur
  { s with
    fc := { s.fc with latch := false }
    mag := { s.mag with afresh := if warm then some s.now else none }
    log := { s.log with cur := if warm then { c with warm := c.warm + 1 } else { c with cold := c.cold + 1 } }
    mgc := { s.mgc with boot := 1, wdogFrom := s.now } }

/-- An extension of a domain's release is counted (R431). -/
def State.extend (s : State) (d : Nat) : State :=
  let k := s.get RSTC_EXTEND_COUNT / 2 ^ (8 * d) % 256
  s.when (decide (k < 255)) fun s => s.set RSTC_EXTEND_COUNT (s.get RSTC_EXTEND_COUNT + 2 ^ (8 * d))

/-- The last source of a Warm reset of the IOD is released (R430, R431). -/
def State.releaseIod (s : State) : State :=
  let x := s.domain 0
  if !x.inReset || !s.rstc.resetN || !s.rstc.porDone || x.released.isSome then s
  else if x.counted then s.freeIod
  else (s.when (x.reach != 4) (·.extend 0)).modDomain 0 fun x => { x with released := some s.now }

/-- A Warm reset whose source holds for a moment only. -/
def State.warmPulse (s : State) (cause : Fld) : State := (s.warmReset cause).releaseIod

/-! ## Commands -/

/-- The power-on reset holds for 1 ms after PWRGD and the supplies have come back, so for 1 ms after it was asserted (R453). A Cold reset
through `RSTC_REQ` is no such condition. -/
def State.porHolds (s : State) : Bool :=
  (s.domain 0).inReset && s.flag RSTC_CAUSE_POR && decide (s.now < (s.domain 0).since + 10 ^ 6)

/-- POR_RELEASE (R433, R434, R453): the straps are sampled, and the IOD and the PHYs wait for their lock. It comes only while
MAIN_PWR_EN is high; main supplies that were off (R395) have left no state. -/
def execPorRelease (bootSrc clkMode gangId : Nat) (s : State) : Host.Outcome State Fault Refusal :=
  .next (if !s.aon.mainPwrEn || (s.rstc.porDone && s.kpr.mode != .off) || s.porHolds then s
  else
    let t := s.when (s.kpr.mode == .off && s.rstc.porDone) (·.coldReset false)
    let t := ((t.set RSTC_STRAPS_BOOT_SRC bootSrc).set RSTC_STRAPS_CLK_MODE clkMode).set RSTC_STRAPS_GANG_ID gangId
    let t := { t with clk := 0, log := { t.log with refillAt := 0 }, rstc := { t.rstc with porDone := true, domains := t.rstc.domains.map fun (x : Domain) => { x with since := 0 } } }
    (t.modDomain 3 fun x => { x with released := some t.now }).releaseIod)

/-- RESET_N_FALL (R429). -/
def execResetNFall (s : State) : Host.Outcome State Fault Refusal :=
  .next (if !s.rstc.resetN then s
  else
    let t := { s with rstc := { s.rstc with resetN := false } }
    if s.kpr.mode = .off then t else t.warmReset RSTC_CAUSE_RESET_N)

/-- RESET_N_RISE (R430). -/
def execResetNRise (s : State) : Host.Outcome State Fault Refusal :=
  .next ({ s with rstc := { s.rstc with resetN := true } }.releaseIod)

/-- PWRGD_FALL (R453, R457). -/
def execPwrgdFall (s : State) : Host.Outcome State Fault Refusal := .next (s.coldReset false)

/-- SUPPLY_BELOW_TRIP (R455): while MAIN_PWR_EN is high. -/
def execSupplyBelowTrip (s : State) : Host.Outcome State Fault Refusal :=
  .next (if s.aon.mainPwrEn then s.coldReset false else s)

/-- DOMAIN_RELEASE (R431): a domain's lock has been counted out, 256 cycles of 25 MHz at least after its PLL was reset; it leaves reset once
every source is released. A domain that has failed lock stays in reset. -/
def execDomainRelease (d : Nat) (s : State) : Host.Outcome State Fault Refusal :=
  let x := s.domain d
  .next (if 4 ≤ d || !x.inReset || decide (s.now < x.since + 10240) || (decide (1 ≤ d) && bitAt (s.get RSTC_STATUS_LOCK_FAIL) (d - 1) == 1) then s
  else
    let t := s.modDomain d fun x => { x with counted := true }
    if x.released.isNone then t
    else if d = 0 then t.freeIod
    else if d = 3 then t.modDomain 3 fun x => { x with inReset := false, reach := 0, released := none }
    else t.freeDie (d - 1))

/-- LOCK_FAIL_TIMEOUT (R431): 10 ms after the release; for the IOD no fault can be recorded. -/
def execLockFailTimeout (d : Nat) (s : State) : Host.Outcome State Fault Refusal :=
  let x := s.domain d
  .next (if 4 ≤ d || !x.inReset || x.counted || d = 0 then s
  else
    match x.released with
    | some t => if t + 10 ^ 7 ≤ s.now then (s.setBit RSTC_STATUS_LOCK_FAIL (d - 1)).raise 0x05 d 0 else s
    | none => s)

/-- RSTC_WARM (R429). -/
def execRstcWarm (_a : Agent) (s : State) : Host.Outcome State Fault Refusal :=
  .next (if s.awake then s.warmPulse RSTC_CAUSE_SOFT else s)

/-- RSTC_DIE (R430). -/
def execRstcDie (_a : Agent) (die : Nat) (s : State) : Host.Outcome State Fault Refusal :=
  .next (if s.awake then (s.set RSTC_CAUSE_SOFT 1).requestDie (die % 2) else s)

/-- RSTC_ENGINE (R430). -/
def execRstcEngine (_a : Agent) (e : EngId) (s : State) : Host.Outcome State Fault Refusal :=
  .next (if s.awake then (s.set RSTC_CAUSE_SOFT 1).requestReset (engNum e) else s)

/-- RSTC_COLD (R429): held until POR release, at which the straps are sampled again. -/
def execRstcCold (_a : Agent) (s : State) : Host.Outcome State Fault Refusal :=
  .next (if s.awake then s.coldReset true else s)

/-- RSTC_LINK (R327, R429). -/
def execRstcLink (_a : Agent) (s : State) : Host.Outcome State Fault Refusal :=
  .next (if s.awake then (s.linkReset_.set RSTC_CAUSE_SOFT 1).set RSTC_CAUSE_LINK 1 else s)

/-- WATCHDOG_EXPIRY (R432). -/
def execWatchdogExpiry (s : State) : Host.Outcome State Fault Refusal :=
  .next (if s.awake ∧ s.flag RSTC_WDOG_EN ∧ s.mgc.wdogFrom + max 1 (s.get RSTC_WDOG_MS) * 10 ^ 6 ≤ s.now then
    (s.raise 0x04 0 0).warmPulse RSTC_CAUSE_WATCHDOG
  else s)

/-- WATCHDOG_KICK (R432). -/
def execWatchdogKick (a : Agent) (v : Word) (s : State) : Host.Outcome State Fault Refusal :=
  .next (s.mgcOnly a RSTC_WDOG_KICK_KEY.off fun s =>
    if v.toNat % 256 = 0xA5 then { s with mgc := { s.mgc with wdogFrom := s.now } } else s.cfg RSTC_WDOG_KICK_KEY.off)

/-- WATCHDOG_CONFIG (R432): EN is cleared only in TEST. -/
def execWatchdogConfig (a : Agent) (v : Word) (s : State) : Host.Outcome State Fault Refusal :=
  .next (s.mgcOnly a RSTC_WDOG_EN.off fun s =>
    if s.flag RSTC_WDOG_EN ∧ bitAt v.toNat 16 = 0 ∧ s.get FC_PHASE_PHASE ≠ 2 then s.cfg RSTC_WDOG_EN.off
    else
      let t := (s.set RSTC_WDOG_MS v.toNat).set RSTC_WDOG_EN (bitAt v.toNat 16)
      { t with mgc := { t.mgc with wdogFrom := s.now } })

/-- HPP_WARM_RESET_APPLY (R384). -/
def execHppWarmResetApply (s : State) : Host.Outcome State Fault Refusal :=
  .next (match s.hpp.warmAt with
  | some t => if s.awake ∧ t ≤ s.now then s.warmPulse RSTC_CAUSE_HPP else s
  | none => s)

end Sys2Proof.Machine
end

