-- ==== Sys2Proof/Machine/Boot.lean ====
section
/-! DEFINITION. The boot of the part (R433, R472, R475 to R477) and the restart of the MGC alone (R479), one stage a tick. -/

namespace Sys2Proof.Machine

/-! ## Steps 1 to 3: the boot ROM -/

/-- A strap that holds 11 raises source 0x03 (R29, R433): unit 0 BOOT_SRC, 1 CLK_MODE, 2 GANG_ID. The boot of a Warm reset, which samples
no strap, raises it again for the straps it keeps: DESIGN CHOICE, log entry 83. -/
def State.judgeStraps (s : State) : State :=
  let s := s.when (s.get RSTC_STRAPS_BOOT_SRC == 3 && !s.factoryTest) (·.raise 0x03 0 0)
  let s := s.when (s.get RSTC_STRAPS_CLK_MODE == 3 && !s.factoryTest) (·.raise 0x03 1 0)
  s.when (s.get RSTC_STRAPS_GANG_ID == 3) (·.raise 0x03 2 0)

/-- The boot ROM joins CAN0 as node 1, at 1 Mbit/s nominal and 2 Mbit/s data (R477). -/
def State.joinCan0 (s : State) : State :=
  (((s.set (CAN_C_ACCEPT_NODE 0) 1).set (CAN_C_CTRL_NOM 0) 1).set (CAN_C_CTRL_DATA 0) 0).canEnable 0 true

/-- An image runs after `chooseImage`, or the recovery loader waits on CAN0 (R475). -/
def State.afterChoice (s : State) : State :=
  if s.mgc.up then { s with mgc := { s.mgc with boot := 4 } }
  else { s with mgc := { s.mgc with boot := 0 } }.joinCan0

/-- The boot ROM runs (R472, R475, R477). With a bad Daymark CRC the part does not boot. -/
def State.bootRom (s : State) : State :=
  if !s.daymarkOk then { s with mgc := { s.mgc with boot := 0, bell := true } }
  else
    let s := s.judgeStraps
    match s.bootSource with
    | 0 => s.chooseImage.afterChoice
    | 1 => { s with mgc := { s.mgc with boot := 0, loader := 1 } }
    | 2 => { s with mgc := { s.mgc with boot := 0, loader := 2 } }.joinCan0
    | _ => { s with mgc := { s.mgc with boot := 0 } }

/-! ## Step 4: the configuration (R387) -/

/-- The copy in use: region and slot, the higher SEQ of the two. -/
def State.bootCopy (s : State) : Option (Nat × ConfigSlot) :=
  match s.copyOf 0, s.copyOf 1 with
  | none, none => none
  | some a, none => some (0, a)
  | none, some b => some (1, b)
  | some a, some b => if later b.seq a.seq then some (1, b) else some (0, a)

/-- A configuration fault of the configuration store (R387): its UNIT and INFO are free values. -/
def State.storedFault (s : State) : State :=
  let (u, s) := s.draw
  let (i, s) := s.draw
  s.raise 0x01 (u % 65536) (i % 2 ^ 32)

/-- The record of an entry is applied: out of range it gives way to the default, of another TYPE or size it is ignored, and an entry
without one takes its default. -/
def State.applyRecord (s : State) (c : ConfigSlot) (e : DictEntry) : State :=
  match aget c.values e.key with
  | none => s.putDict e.key e.default
  | some (typ, v) =>
    if !e.typeOk typ v.length then s.putDict e.key e.default
    else if s.rangeOk e v then s.putDict e.key v
    else (s.putDict e.key e.default).storedFault

/-- Step 4 (R387): the configuration is loaded; every RW entry is at its default. -/
def State.loadConfig (s : State) : State :=
  let s := { s with hpp := { s.hpp with dict := [] } }
  match s.bootCopy with
  | none => { s with hpp := { s.hpp with source := 2, seq := 0, storedAt := 0, inUse := [] } }.raise 0x50 0 0
  | some (r, c) =>
    let s := s.each rwsEntries fun s e => s.applyRecord c e
    { s with hpp := { s.hpp with source := r, seq := c.seq, storedAt := c.storedAt, inUse := c.values } }

/-- The settings that blocks hold take effect (R353). -/
def State.applyConfig (s : State) : State :=
  let s := s.each [0x110001, 0x110002, 0x30000B, 0x30000C, 0x30000D, 0x30000E, 0x30000F, 0x300010, 0x300011] fun s k => s.settingEffect k
  (s.set MGH_CTRL_READ_ONLY (s.setting 0x3000 18)).followCanEn

/-- Step 4: MGC firmware runs; the reset's cause enters the Logbook (R482), and the LMC is enabled. -/
def State.bootFirmware (s : State) : State :=
  let s := (s.loadConfig.applyConfig).logbook 4 (le 4 (s.word RSTC_CAUSE_POR.off).toNat)
  { s.enableLmc with mgc := { s.mgc with boot := 2 } }

/-! ## Steps 5 and 6 -/

/-- The default ring layout (R248): 24 MiB for each column queue and 4 MiB for each other, back to back in the device reserve
from a place that the manual leaves to the firmware. -/
def State.placeRings (s : State) : State :=
  let (v, s) := s.draw
  let base := 2 ^ 30 + v % 2 ^ 17 * 4096
  s.each (List.range 72) fun s q =>
    let a := if q < 64 then base + q * (24 * 2 ^ 20) else base + 1536 * 2 ^ 20 + (q - 64) * (4 * 2 ^ 20)
    (s.set (OQ_Q_RING_BASE_ADDR q) (a / 4096)).set (OQ_Q_RING_SIZE_BYTES q) ((if q < 64 then 24 else 4) * 2 ^ 20)

/-- The staging area (R294), in the rest of the device reserve, of a size that the manual leaves to the firmware. -/
def State.placeStage (s : State) : State :=
  let (v, s) := s.draw
  (s.set MGH_STAGE_BASE_ADDR (13 * 2 ^ 28 / 4096)).set MGH_STAGE_SIZE_BYTES ((64 + v % 449) * 2 ^ 20)

/-- MGH_CTRL.EN rises: the read request rings start at 0 (R310). -/
def State.enableMgh (s : State) : State :=
  if s.flag MGH_CTRL_EN then s
  else
    let s := s.set MGH_CTRL_EN 1
    let s := s.each (List.range 4) fun s b => s.set (MGH_MAG_RQ_HEAD_INDEX b) 0
    { s with mag := { s.mag with bays := s.mag.bays.map fun x => { x with rqRun := true } } }

/-- Step 6: the blocks are enabled, the phase is SERVICE, and mooring starts. -/
def State.bootService (s : State) : State :=
  let s := s.enablePpr
  let s := s.each [TLR_CTRL_EN, KPR_CTRL_EN, OQ_CTRL_EN, FAL_CTRL_EN, PKR_CTRL_EN] fun s f => s.set f 1
  let s := (s.enableMgh.set FC_PHASE_PHASE 1)
  let s := { s with mgc := { s.mgc with boot := 0 } }
  s.when (s.flag MGH_CTRL_AUTO_MOOR && s.mag.afresh.isNone) (·.each (List.range 4) State.startMoor)

/-- Step 5 has failed (R476): the phase stays at START, and a fault, which the manual does not name, is reported through HPP. -/
def State.bootFailed (s : State) : State :=
  let (a, s) := s.draw
  let (b, s) := s.draw
  { s with mgc := { s.mgc with boot := 0 } }.notify 0x0011 [a % 256, b % 4]

/-- Step 5 is awaited: the LMC's initialisation, then the microcode. -/
def State.bootMemory (s : State) : State :=
  if s.flag LMC_STATUS_READY then
    if s.ucImageValid (s.ucSlot s.nor.ucInUse) then
      let t := s.placeUc
      let t := t.each (List.range 2) fun t d => if t.dieOff d then t else t.loadDie d
      t.placeRings.placeStage.bootService
    else s.bootFailed
  else if s.get LMC_STATUS_INIT_ERR ≠ 0 then s.bootFailed
  else s

/-! ## The restart of R479 -/

/-- The ROM has run the new image: the requests that waited are answered in the order in which they came. -/
def State.restartStage (s : State) : State :=
  let s := s.restartMgc
  let w := s.hpp.waiting
  { s with hpp := { s.hpp with waiting := [] } }.each w fun s r => s.takeRequest r.1 r.2

/-- The boot stage that is due. -/
def State.bootStage (s : State) : State :=
  match s.mgc.boot with
  | 1 => s.bootRom
  | 4 => s.bootFirmware
  | 2 => s.bootMemory
  | 3 => s.restartStage
  | _ => s

end Sys2Proof.Machine
end

