-- ==== Sys2Proof/Machine/Bpm.lean ====
section
/-! DEFINITION. The Buffer Pool Manager (R256 to R264): pools of buffers, free lists threaded through them, owner maps. -/

namespace Sys2Proof.Machine

/-- Pool `p`. -/
def State.pool (s : State) (p : Nat) : Pool := s.pools.getD p Pool.reset

/-- Change pool `p`. -/
def State.modPool (s : State) (p : Nat) (f : Pool → Pool) : State := { s with pools := modAt s.pools p f }

/-- Buffers of a pool: a COUNT of 0 acts as 1 (R256). -/
def State.poolCount (s : State) (p : Nat) : Nat := max 1 (s.get (BPM_P_COUNT_BUFFERS p))

/-- Bytes of a buffer. -/
def State.bufSize (s : State) (p : Nat) : Nat := 2 ^ (12 + s.get (BPM_P_CFG_SIZE_LOG p))

/-- The address of buffer `i`. -/
def State.bufAddr (s : State) (p i : Nat) : Nat := s.getAddr (BPM_P_BASE_ADDR p) + i * s.bufSize p

/-- The buffer of the pool that starts at `a`. -/
def State.bufAt (s : State) (p a : Nat) : Option Nat :=
  let b := s.getAddr (BPM_P_BASE_ADDR p)
  let i := (a - b) / s.bufSize p
  if b ≤ a ∧ (a - b) % s.bufSize p = 0 ∧ i < s.poolCount p then some i else none

/-- The end of a free list. -/
def listEnd : Nat := 2 ^ 64 - 1

/-- The link of a free buffer (R257). -/
def linkBytes (next p : Nat) : List Nat :=
  let l := le 8 next ++ [p, 0xA5, 0, 0]
  l ++ le 4 (crc32c l)

/-- The NEXT of a link whose POOL, MARK and CHECK are right (R263). -/
def linkNext (p : Nat) (l : List Nat) : Option Nat :=
  if rdLe l 8 1 = p ∧ rdLe l 9 1 = 0xA5 ∧ rdLe l 12 4 = crc32c (l.take 12) then some (rdLe l 0 8) else none

/-- An assigned requester ID other than 0x00 (R258). -/
def assigned (r : Nat) : Bool := r == 1 || r == 2 || decide (0x10 ≤ r ∧ r ≤ 0x1F) || decide (0x20 ≤ r ∧ r ≤ 0x26)

/-- The place of a requester in a pool's operation registers, for those that have one (R258, R261): the MGC, the host, the DMA
channels. -/
def reqIx (r : Nat) : Option Nat := if r = 1 ∨ r = 2 then some (r - 1) else if 0x10 ≤ r ∧ r ≤ 0x1F then some (r - 0x10 + 2) else none

/-- The requester at a place. -/
def reqAt (ix : Nat) : ReqId := if ix < 2 then ix + 1 else 0x10 + (ix - 2)

/-- The key of the high word of a 64-bit quantity that the requester at a place has latched (R6). Each agent and each channel has latches
of its own: DESIGN CHOICE, log entry 39. -/
def latchKey (ix off : Nat) : Nat := 32 * off + ix

/-- Write the owner byte of buffer `i`. -/
def State.setOwner (s : State) (p i r : Nat) : State := (s.memWrite (s.get (BPM_P_OWNER_BASE_ADDR p) + i) [r]).2

/-- The owner byte of buffer `i`; none where it cannot be read. -/
def State.owner (s : State) (p i : Nat) : Option Nat × State :=
  let (l, s) := s.memRead (s.get (BPM_P_OWNER_BASE_ADDR p) + i) 1
  (l.map fun l => l.headD 0, s)

/-- The reason a pool serves no request: 2 halted, 3 broken, in the codes of R259. -/
def State.poolOut (s : State) (p : Nat) : Option Nat :=
  if !s.flag (BPM_P_CFG_EN p) then some 2 else if s.flag (BPM_P_INIT_BROKEN p) then some 3 else none

/-- The fault of a pool: a rejected operation or BROKEN (R260, R263). -/
def State.poolBad (s : State) (p : Nat) : State := (s.setBit BPM_EVENTS_BAD p).raise 0x32 p 0

/-- Initialisation starts (R256): the list is empty until it is done. -/
def State.bpmStart (s : State) (p : Nat) : State :=
  if s.flag (BPM_P_CFG_EN p) then s.cfg (BPM_P_INIT_INIT p).off
  else ((s.set (BPM_P_INIT_BUSY p) 1).set (BPM_P_FREE_COUNT p) 0).modPool p fun o => { o with head := none }

/-- BPM_INIT (R256). -/
def execBpmInit (_a : Agent) (p : Nat) (s : State) : Host.Outcome State Fault Refusal := .next (s.bpmStart (p % 16))

/-- Every buffer is threaded onto the free list in ascending order, and every owner byte cleared (R256). -/
def State.bpmThread (s : State) (p : Nat) : State :=
  let n := s.poolCount p
  s.each (List.range n) fun s i =>
    ((s.memWrite (s.bufAddr p i) (linkBytes (if i + 1 = n then listEnd else s.bufAddr p (i + 1)) p)).2).setOwner p i 0

/-- Initialisation is complete (R256). -/
def State.bpmDone (s : State) (p : Nat) : State :=
  if s.flag (BPM_P_INIT_BUSY p) then
    let t := ((s.bpmThread p).set (BPM_P_INIT_BUSY p) 0).set (BPM_P_INIT_BROKEN p) 0
    (t.set (BPM_P_FREE_COUNT p) (s.poolCount p)).modPool p fun o => { o with head := some (s.bufAddr p 0) }
  else s

/-- BPM_INIT_DONE (R256). -/
def execBpmInitDone (p : Nat) (s : State) : Host.Outcome State Fault Refusal := .next (s.bpmDone (p % 16))

/-- A failed allocation (R259): its reason, and the address bits 0. -/
def State.allocFail (s : State) (p reason : Nat) : Nat × State := (1 + 2 * reason, s.inc (BPM_P_STATS_FAILS p))

/-- A broken link at the head (R263). -/
def State.allocBroken (s : State) (p : Nat) : Nat × State :=
  ((s.set (BPM_P_INIT_BROKEN p) 1).poolBad p).allocFail p 3

/-- An allocation (R259, R263, R264): its result in the layout of `BPM_Pp_ALLOC`. -/
def State.alloc (s : State) (r p : Nat) : Nat × State :=
  match s.poolOut p, (s.pool p).head with
  | some x, _ => s.allocFail p x
  | none, none => s.allocFail p 1
  | none, some a =>
    match s.memRead a 16 with
    | (none, s) => s.allocBroken p
    | (some l, s) =>
      match linkNext p l, s.bufAt p a with
      | some nx, some i =>
        if nx = listEnd ∨ (s.bufAt p nx).isSome then
          let n := s.get (BPM_P_FREE_COUNT p)
          let m := s.get (BPM_P_LOW_MARK_COUNT p)
          let s := (s.setOwner p i r).modPool p fun o => { o with head := if nx = listEnd then none else some nx }
          let s := s.set (BPM_P_FREE_COUNT p) (n - 1)
          (a / 4096 * 4096, s.when (decide (m ≤ n ∧ n - 1 < m)) (·.setBit BPM_EVENTS_LOW p))
        else s.allocBroken p
      | _, _ => s.allocBroken p

/-- The result reaches its requester: one that reads registers reads the low word and the latched high word (R6, R259). -/
def State.allocTo (s : State) (r p : Nat) : State :=
  let (v, s) := s.alloc r p
  match reqIx r with
  | some ix =>
    let hi := (BPM_P_ALLOC_RESULT p).off + 4
    { s with latch := aput s.latch (latchKey ix hi) (BitVec.ofNat 32 (v / 2 ^ 32)) }.answer (.word (BitVec.ofNat 32 v))
  | none => s.answer (.bytes (toBytes (le 8 v)))

/-- BPM_ALLOC (R259). -/
def execBpmAlloc (r : ReqId) (p : Nat) (s : State) : Host.Outcome State Fault Refusal :=
  .next (if assigned r then s.allocTo r (p % 16) else s)

/-- The outcome of an operation reaches its requester (R261): its own `BPM_Pp_OP_RESULT`, where it reads registers. -/
def State.opOutcome (s : State) (r p code : Nat) : State :=
  match reqIx r with
  | some ix => s.modPool p fun o => { o with opResult := o.opResult.set ix code }
  | none => s.answer (.code code)

/-- A rejected operation (R260). -/
def State.opRejected (s : State) (r p code : Nat) : State := ((s.inc (BPM_P_STATS_BAD_FREE p)).poolBad p).opOutcome r p code

/-- What an operation of requester `r` on `a` finds: its buffer, or the code of its rejection (R260, R261, R263). An owner
byte that cannot be read shows no owner. -/
def State.opJudge (s : State) (r p a : Nat) : (Option Nat × Nat) × State :=
  if (s.poolOut p).isSome then ((none, 4), s)
  else
    match s.bufAt p a with
    | none => ((none, 3), s)
    | some i =>
      match s.owner p i with
      | (some 0, s) => ((none, 2), s)
      | (some o, s) => (if o = r then (some i, 0) else (none, 1), s)
      | (none, s) => ((none, 1), s)

/-- A free (R260). -/
def State.free (s : State) (r p a : Nat) : State :=
  match s.opJudge r p a with
  | ((none, c), s) => s.opRejected r p c
  | ((some i, _), s) =>
    let s := ((s.memWrite a (linkBytes ((s.pool p).head.getD listEnd) p)).2).setOwner p i 0
    ((s.modPool p fun o => { o with head := some a }).set (BPM_P_FREE_COUNT p) (s.get (BPM_P_FREE_COUNT p) + 1)).opOutcome r p 0

/-- BPM_FREE (R260). -/
def execBpmFree (r : ReqId) (p addr : Nat) (s : State) : Host.Outcome State Fault Refusal :=
  .next (if assigned r then s.free r (p % 16) addr else s)

/-- A hand-over (R261). -/
def State.handover (s : State) (r p a o : Nat) : State :=
  match s.opJudge r p a with
  | ((none, c), s) => s.opRejected r p c
  | ((some i, _), s) => if assigned o then (s.setOwner p i o).opOutcome r p 0 else s.opRejected r p 5

/-- BPM_HANDOVER (R261). -/
def execBpmHandover (r : ReqId) (p addr newOwner : Nat) (s : State) : Host.Outcome State Fault Refusal :=
  .next (if assigned r then s.handover r (p % 16) addr newOwner else s)

end Sys2Proof.Machine
end

