-- ==== Sys2Proof/Machine/Can.lean ====
section
/-! DEFINITION. HPP messages as bytes, the CXL mailbox's HPP Request (R322, R323, R357, R367), and the CAN FD controllers (R364,
R365, R390, R391). -/

namespace Sys2Proof.Machine

/-! ## Messages as bytes (R357 to R361) -/

/-- A message as received: OP, FLAGS, SRC, DST, TID, payload. -/
structure HppMsg where
  op : Nat
  flags : Nat
  src : Nat
  dst : Nat
  tid : Nat
  payload : List Nat
  deriving DecidableEq, Repr

/-- The message that exactly these bytes are. -/
def parseMsg (l : List Nat) : Option HppMsg :=
  let n := rdLe l 6 2
  if l.length = 8 + n ∧ 8 ≤ l.length ∧ n ≤ 1080 then
    some ⟨rdLe l 0 1, rdLe l 1 1, rdLe l 2 1, rdLe l 3 1, rdLe l 4 2, l.drop 8⟩
  else none

/-- The operation of a request: none for an operation that asks the dictionary nothing, and for a payload too short for its
operation or too long. -/
def HppMsg.request (m : HppMsg) : Option HppOp :=
  let p := m.payload
  let i := rdLe p 0 2
  let b := rdLe p 2 1
  if m.flags / 16 ≠ 1 then some (.unsupported m.op (m.flags / 16))
  else
    match m.op with
    | 0x01 => if p.length = 8 then some (.read i b) else none
    | 0x02 => if 8 ≤ p.length then some (.write i b (rdLe p 4 1) (p.drop 8)) else none
    | 0x03 => if p.length = 14 then some (.readBlock i b (rdLe p 8 4) (rdLe p 12 2)) else none
    | 0x04 => if 16 ≤ p.length then
        some (HppOp.checked (.writeBlock i b (rdLe p 4 1) (rdLe p 8 4) (rdLe p 12 4) (p.drop 16))) else none
    | 0x10 => none
    | 0x20 => none
    | 0x21 => none
    | 0x22 => none
    | 0x30 => none
    | op => some (.unsupported op 1)

/-- What carries a message. -/
def HppMsg.head (m : HppMsg) (c : Carrier) (peer : Nat) : Hpp := ⟨c, peer, m.src, m.dst, m.tid⟩

/-- An HPP Request of the mailbox (R323, R367). A message that asks nothing is received, and changes nothing. -/
def State.mboxHpp (s : State) (l : List Nat) : State :=
  match parseMsg l with
  | none => s.mailboxDone (.code 2)
  | some m =>
    match m.request with
    | some op => if m.flags % 2 = 1 then s.mailboxDone (.bytes []) else s.arrive (m.head .mailbox 0) op
    | none => if m.op ≤ 4 then s.mailboxDone (.code 2) else s.mailboxDone (.bytes [])

/-- HPP_REQUEST (R313, R322, R323): a mailbox command, by its opcode. -/
def execHppRequest (opcode : Nat) (payload : List Byte) (s : State) : Host.Outcome State Fault Refusal :=
  .next (if !(s.awake && s.host) then s
  else if opcode = 0xC000 then (if s.role = 2 then s.mailboxDone (.code 3) else s.mboxHpp (toNats payload))
  else if opcode = 0x0300 then s.mboxTime
  else if opcode = 0x0400 then s.mailboxDone .supportedLogs
  else if opcode = 0x0401 then s.mboxLog true
  else s.mailboxDone (.code 3))

/-! ## Reception (R365, R390, R391) -/

/-- A received frame is discarded and counted. -/
def State.rxOther (s : State) (c : Nat) : State := s.inc (CAN_C_COUNTS_RX_OTHER c)

/-- Frames with this DST are received (R391). -/
def State.canAccepts (s : State) (c dst : Nat) : Bool :=
  s.flag (CAN_C_ACCEPT_ALL c) || dst == 127 || dst == s.get (CAN_C_ACCEPT_NODE c)

/-- A frame goes into the receive ring at RXR_BASE (R391); TS, the start of the frame, is a free value. The firmware's own ring,
where none is given, takes every frame. -/
def State.rxRing (s : State) (c : Nat) (f : CanFrame) : Bool × State :=
  let base := s.getAddr (CAN_C_RXR_BASE_ADDR c)
  if base = 0 then (true, s)
  else
    let i := (s.canCtl c).rxHead
    let a := base + 80 * i
    match s.memRead a 80 with
    | (none, s) => (false, s.inc (CAN_C_COUNTS_RX_NODESC c))
    | (some d, s) =>
      if d.getD 5 0 % 2 = 0 then (false, s.inc (CAN_C_COUNTS_RX_NODESC c))
      else
        let (t, s) := s.draw
        let s := (s.memWrite a (le 4 (f.id % 2 ^ 29 + 2 ^ 29 * b2n f.brs) ++ [f.data.length % 256, 0])).2
        let s := (s.memWrite (a + 8) (le 8 t ++ fit 64 (toNats f.data))).2
        let s := s.modCan c fun x => { x with rxHead := (i + 1) % max 1 (s.get (CAN_C_RXR_SIZE_COUNT c)) }
        (true, s.icuPulse (33 + 2 * c))

/-- The identifier agrees with the header (R364, R365); SRC 0 is allowed in ANSWER alone. -/
def HppMsg.agrees (m : HppMsg) (id : Nat) : Bool :=
  bits id 25 1 == m.flags % 2 && bits id 18 7 == m.dst && bits id 11 7 == m.src && bits id 0 11 == m.tid % 2048 &&
    (m.src != 0 || m.op == 0x21)

/-- A message has come on a CAN bus (R369 to R373). -/
def State.canMessage (s : State) (c : Nat) (m : HppMsg) : State :=
  let s := s.hear c m.src
  if m.flags % 2 = 1 then s
  else if m.flags / 16 = 1 ∧ m.op = 0x21 then s.heardAnswer c m.src m.payload
  else if m.flags / 16 = 1 ∧ m.op = 0x20 then s.heardRoll c m.src
  else match m.request with | some op => s.arrive (m.head (canOf c) m.src) op | none => s

/-- The reassembly buffer of an identifier is forgotten. -/
def State.dropPart (s : State) (c id : Nat) : State := s.modCan c fun x => { x with parts := adel x.parts id }

/-- A message is complete: its length comes from LEN, and the rest of the last frame is padding. -/
def State.wholeMessage (s : State) (c id : Nat) (l : List Nat) : State :=
  match parseMsg (l.take (8 + rdLe l 6 2)) with
  | some m => if m.agrees id then s.canMessage c m else s.rxOther c
  | none => s.rxOther c

/-- A segment (R364, R365). -/
def State.segment (s : State) (c id : Nat) (d : List Nat) : State :=
  let g := d.headD 0
  let old := aget (s.canCtl c).parts id
  let take := fun (s : State) (l : List Nat) =>
    if bitAt g 6 = 1 then (s.dropPart c id).wholeMessage c id l
    else s.modCan c fun x => { x with parts := aput x.parts id (g % 64 + 1, l, s.now) }
  if d = [] then s.rxOther c
  else if bitAt g 7 = 1 then
    let s := s.when old.isSome (·.rxOther c)
    if g % 64 = 0 then take (s.dropPart c id) (d.drop 1) else (s.dropPart c id).rxOther c
  else
    match old with
    | some (n, l, t) =>
      if n = g % 64 ∧ s.now ≤ t + 10 ^ 7 then take s (l ++ d.drop 1) else (s.dropPart c id).rxOther c
    | none => s.rxOther c

/-- MGC firmware, or the recovery loader, takes messages of the bus. -/
def State.canServed (s : State) (c : Nat) : Bool := s.mgc.up || s.mgc.boot == 3 || (s.mgc.loader == 2 && c == 0)

/-- The error counts after the bus has carried a frame. ISO 11898-1 moves them on errors that no command brings, so both are free values;
the controller is error-passive from 128 on (PRESUMED, log entry 54). -/
def State.canErrors (s : State) (c : Nat) : State :=
  let (t, s) := s.draw
  let (r, s) := s.draw
  let s := (s.set (CAN_C_STATUS_TEC c) t).set (CAN_C_STATUS_REC c) r
  let passive := decide (128 ≤ s.get (CAN_C_STATUS_TEC c) ∨ 128 ≤ s.get (CAN_C_STATUS_REC c))
  s.set (CAN_C_STATUS_STATE c) (b2n passive)

/-- CAN_FRAME_RECEIVED (R365, R390, R391): a controller that is bus-off receives nothing. -/
def execCanFrameReceived (c : Nat) (f : CanFrame) (s : State) : Host.Outcome State Fault Refusal :=
  let c := c % 2
  .next (if !(s.awake && s.flag (CAN_C_CTRL_EN c)) || s.get (CAN_C_STATUS_STATE c) == 2 then s
  else
  let s := s.canErrors c
  if !(f.fd && f.ext) then s.rxOther c
  else if !s.canAccepts c (bits f.id 18 7) then s
  else
    let (ok, t) := s.rxRing c f
    t.when (ok && t.canServed c) (·.segment c (f.id % 2 ^ 29) (toNats f.data)))

/-- CAN_REASSEMBLY_TIMEOUT (R365). -/
def execCanReassemblyTimeout (c src : Nat) (s : State) : Host.Outcome State Fault Refusal :=
  let c := c % 2
  let old := (s.canCtl c).parts.filter fun p => bits p.1 11 7 == src && decide (p.2.2.2 + 10 ^ 7 < s.now)
  .next (s.each old fun s p => (s.dropPart c p.1).rxOther c)

/-! ## Transmission -/

/-- The controller goes bus-off (R390). -/
def State.busOff (s : State) (c : Nat) : State :=
  if s.get (CAN_C_STATUS_STATE c) = 2 then s
  else (((s.canErrors c).set (CAN_C_STATUS_STATE c) 2).inc (CAN_C_COUNTS_BUS_OFF c)).raise 0x4C c 0

/-- A frame leaves, unless the controller aborts it. -/
def State.canOut (s : State) (c id : Nat) (brs aborted : Bool) (d : List Nat) : State :=
  if aborted then s else s.emit (.can c id brs (toBytes d))

/-- The descriptor at the head of the transmit ring at TXR_BASE is sent or aborted, and written back (R391): none when the
controller does not own it. -/
def State.txRing (s : State) (c : Nat) (aborted : Bool) : Option State :=
  let base := s.getAddr (CAN_C_TXR_BASE_ADDR c)
  let i := (s.canCtl c).txHead
  let a := base + 80 * i
  if base = 0 then none
  else
    match s.memRead a 80 with
    | (none, _) => none
    | (some d, s) =>
      if d.getD 5 0 % 2 = 0 then none
      else
        let (t, s) := s.draw
        let s := (s.memWrite (a + 5) [2 * b2n aborted]).2
        let s := (s.memWrite (a + 8) (le 8 t)).2
        let s := s.modCan c fun x => { x with txHead := (i + 1) % max 1 (s.get (CAN_C_TXR_SIZE_COUNT c)) }
        let id := rdLe d 0 4
        some ((s.canOut c (id % 2 ^ 29) (bitAt id 29 == 1) aborted ((d.drop 16).take (d.getD 4 0))).icuPulse (32 + 2 * c))

/-- The oldest frame of MGC firmware is sent or aborted. -/
def State.txOutbox (s : State) (c : Nat) (aborted : Bool) : State :=
  match (s.canCtl c).outbox with
  | [] => s
  | (id, d) :: rest => (s.modCan c fun x => { x with outbox := rest }).canOut c id true aborted d

/-- CAN_FRAME_SENT (R390, R391): a listening or stopped controller sends nothing, nor does one that is bus-off. -/
def execCanFrameSent (c : Nat) (aborted : Bool) (s : State) : Host.Outcome State Fault Refusal :=
  let c := c % 2
  .next (if !(s.awake && s.flag (CAN_C_CTRL_EN c)) || s.flag (CAN_C_CTRL_LISTEN c) || (s.get (CAN_C_STATUS_STATE c) == 2 && !aborted) then s
  else
    let t := if aborted then s.busOff c else s.canErrors c
    (t.txRing c aborted).getD (t.txOutbox c aborted))

/-- CAN_RING_KICK (R391): the heads are read anew for every frame, so a kick changes nothing (DEDUCED, log entry 54). -/
def execCanRingKick (_a : Agent) (_c : Nat) (_tx _rx : Bool) (s : State) : Host.Outcome State Fault Refusal := .next s

/-- CAN_BUS_OFF_RECOVERY (R390). -/
def execCanBusOffRecovery (c : Nat) (s : State) : Host.Outcome State Fault Refusal :=
  let c := c % 2
  .next (if s.flag (CAN_C_CTRL_EN c) ∧ s.flag (CAN_C_CTRL_AUTO_RECOVER c) ∧ s.get (CAN_C_STATUS_STATE c) = 2 then
    s.clear [CAN_C_STATUS_STATE c, CAN_C_STATUS_TEC c, CAN_C_STATUS_REC c]
  else s)

end Sys2Proof.Machine
end

