-- ==== Sys2Proof/Machine/Faults.lean ====
section
/-! DEFINITION. The Fault Collector's commands (R417, R419, R420, R422, R425). -/

namespace Sys2Proof.Machine

/-- COLLECTOR_SELF_FAULT (R422): source 0x00, the latch, FC_SELF.OK and SAFE. -/
def execCollectorSelfFault (s : State) : Host.Outcome State Fault Refusal :=
  let t := (s.set FC_SELF_OK 0).raise 0x00 0 0
  .next { t with fc := { t.fc with latch := true } }

/-- FC_RAISE (R419): sources 0xF0 to 0xFF, severities 0 to 2, from the Management Controller alone. -/
def execFcRaise (a : Agent) (v : Word) (s : State) : Host.Outcome State Fault Refusal :=
  let src := bits v.toNat 0 8
  let sev := bits v.toNat 8 2
  .next (s.mgcOnly a FC_RAISE_SOURCE.off fun s =>
    if src < 0xF0 ∨ sev = 3 then s.cfg FC_RAISE_SOURCE.off else s.raiseAs src sev 0 (bits v.toNat 16 16))

/-- FC_FIRST_CLR (R420). -/
def execFcFirstClr (_a : Agent) (s : State) : Host.Outcome State Fault Refusal :=
  .next { s with fc := { s.fc with first := { s.fc.first with valid := false } } }

/-- FC_PHASE_WRITE (R417). -/
def execFcPhaseWrite (a : Agent) (v : Word) (s : State) : Host.Outcome State Fault Refusal :=
  .next (s.mgcOnly a FC_PHASE_PHASE.off fun s =>
    if s.clipOpen ∧ v.toNat % 4 ≠ 1 then s.cfg FC_PHASE_PHASE.off else s.set FC_PHASE_PHASE (v.toNat % 4))

/-- BASIC (R425): it takes effect at the next Beacon snapshot. -/
def execBasic (_a : Agent) (s : State) : Host.Outcome State Fault Refusal :=
  .next (s.wantBasic 8 0)

/-- RESTORE (R425): accepted in BASIC when none of the last 16 frames was a deficit frame. -/
def execRestore (_a : Agent) (s : State) : Host.Outcome State Fault Refusal :=
  .next (if s.get FC_LEVEL_LEVEL = 2 ∧ !s.fc.deficits.contains true then { s with fc := { s.fc with restoreDue := true } }
    else s.cfg FC_LEVEL_CMD_BASIC.off)

/-- FC_CLR_COUNTS (R420). -/
def execFcClrCounts (_a : Agent) (s : State) : Host.Outcome State Fault Refusal :=
  .next { s.set FC_LOG_HEAD_LOST 0 with fc := { s.fc with count := [] } }

end Sys2Proof.Machine
end

