-- ==== Sys2Proof/Machine/Interrupts.lean ====
section
/-! DEFINITION. The Interrupt Controller (R435 to R448): eligibility, claims, completes, host vectors and their messages,
and the commands of its family. A context is 64 for the MGC and v for host vector v. -/

namespace Sys2Proof.Machine

/-- The source is pending (R439): a level source while its input is high and it is not in service, or software set it. -/
def State.isPending (s : State) (n : Nat) : Bool :=
  let x := s.source n
  if s.isLevel n then x.soft || (x.input && x.inService.isNone) else x.pend || x.soft

/-- The source belongs to a context (R441, R443). -/
def State.routedTo (s : State) (n ctx : Nat) : Bool :=
  if ctx = 64 then s.target n == 1 else s.target n == 2 && s.vectorOf n == ctx

/-- The source is eligible for the context (R439); source 49 only while the host has set the mailbox doorbell interrupt enable (R443). -/
def State.eligible (s : State) (n ctx : Nat) : Bool :=
  s.isPending n && (s.source n).inService.isNone && s.flag (ICU_SRC_ENABLE n) && s.get (ICU_SRC_PRIO n) != 0 &&
    s.routedTo n ctx && (n != 49 || s.cxl.fn.mboxInt)

/-- The eligible sources of a context, in ascending order. -/
def State.eligibles (s : State) (ctx : Nat) : List Nat := (s.icu.sources.map (·.1)).filter fun n => s.eligible n ctx

/-- The highest of a list of sources (R440): the group and the sub-priority together are the priority itself; ties go to
the lowest number. -/
def State.highest (s : State) : List Nat → Option Nat
  | [] => none
  | n :: t =>
    match s.highest t with
    | none => some n
    | some m => if s.get (ICU_SRC_PRIO m) > s.get (ICU_SRC_PRIO n) then some m else some n

/-- The group of a priority (R440). -/
def State.groupOf (s : State) (n : Nat) : Nat := s.get (ICU_SRC_PRIO n) / 2 ^ s.get ICU_CTRL_SPLIT

/-- The running group of the MGC context (R441). -/
def State.runningGroup (s : State) : Option Nat :=
  ((s.icu.sources.filter fun e => e.2.inService == some 64).map fun e => s.groupOf e.1).foldl
    (fun a g => match a with | none => some g | some b => some (max b g)) none

/-- The MGC interrupt line (R441, R448). -/
def State.mgcLine (s : State) : Bool :=
  s.flag ICU_CTRL_EN &&
    match s.runningGroup with
    | none => !(s.eligibles 64).isEmpty
    | some g => (s.eligibles 64).any fun n => s.groupOf n > g

/-- A claim in a context (R442, R443): the highest eligible source with its count, or 1023; the latter arms a vector. -/
def State.claim (s : State) (ctx : Nat) : State :=
  match s.highest (s.eligibles ctx) with
  | none =>
    let s := if ctx < 64 then s.putVector ctx { s.vector ctx with disarmed := false } else s
    s.answer (.word 1023#32)
  | some n =>
    let x := s.source n
    (s.putSource n { x with count := 0, pend := false, soft := false, inService := some ctx }).answer
      (.word (BitVec.ofNat 32 (n + 65536 * x.count)))

/-- A complete in a context (R442, R444). -/
def State.complete (s : State) (ctx id off : Nat) : State :=
  if id = 1023 then s
  else if (s.source id).inService = some ctx then s.putSource id { s.source id with inService := none }
  else s.cfg off

/-- The vector is due (R444). -/
def State.due (s : State) (v : Nat) : Bool :=
  s.flag ICU_CTRL_EN && !(s.vector v).disarmed && !(s.eligibles v).isEmpty

/-- The vector's own moderation lets its message go (R445). -/
def State.moderationPassed (s : State) (v : Nat) : Bool :=
  let x := s.vector v
  let hold := s.get (ICU_HV_MOD_HOLDOFF v)
  let cnt := s.get (ICU_HV_MOD_COUNT v)
  hold == 0 || (match x.lastSent with | none => true | some t => decide (t + 1000 * hold ≤ s.now)) ||
    (cnt != 0 && decide (cnt ≤ x.events))

/-- Send the vector's message and disarm it; one that is masked is recorded in the pending bit array (R444). -/
def State.sendMsix (s : State) (v : Nat) : State :=
  let s := s.putVector v { s.vector v with disarmed := true, lastSent := some s.now, events := 0, held := false }
  if bitAt s.cxl.fn.masked v = 0 then s.emit (.msix v)
  else { s with cxl := { s.cxl with fn := { s.cxl.fn with pba := s.cxl.fn.pba ||| 2 ^ v } } }

/-- Send or hold the message of a due vector (R444, R445). -/
def State.msix (s : State) (v : Nat) : State :=
  if s.due v then
    let hold := s.putVector v { s.vector v with held := true }
    if !s.host ∨ !s.cxl.fn.msixEnable then hold
    else if s.flag ICU_HOST_SLEEP then (if s.flag (ICU_HV_MOD_WAKE v) then s.sendMsix v else hold)
    else if s.flag ICU_HOST_IDLE || (s.vector v).held || s.moderationPassed v then s.sendMsix v
    else s
  else if (s.vector v).held then s.putVector v { s.vector v with held := false }
  else s

/-- Every vector that has a source routed to it sends what may be sent. -/
def State.msixAll (s : State) : State :=
  s.each ((s.icu.sources.filter fun e => s.target e.1 == 2).map fun e => s.vectorOf e.1).dedup fun s v => s.msix v

/-- An events register holds a set bit. -/
def State.anyEvent (s : State) (f : Fld) : Bool := s.word f.off != 0#32

/-- The levels of the wired sources that follow a condition (R435). -/
def State.wiredLevels (s : State) : List (Nat × Bool) :=
  [(5, s.bellLow), (8, s.anyEvent PPR_EVENTS_LANE_LOST), (10, s.anyEvent FAL_EVENTS_DECIDED),
    (11, s.anyEvent PKR_EVENTS_FRAME_DONE), (12, s.anyEvent OQ_EVENTS_RESET), (13, s.anyEvent BPM_EVENTS_LOW),
    (14, s.anyEvent LMC_EVENTS_CE), (15, s.anyEvent MGH_EVENTS_MOORED), (16, s.anyEvent CXP_EVENTS_HOST_UP),
    (17, s.anyEvent KPR_EVENTS_GRANT_CHANGE)] ++
  (List.range 4).map (fun r => (20 + r, s.anyEvent (CE_RG_EVENTS_SPARE_IN r))) ++
  (List.range 2).map (fun p => (26 + 4 * p, decide (((s.eth.getD p EthPort.reset).ts).length ≠ 0))) ++
  (List.range 2).map (fun p => (27 + 4 * p, s.flag (ETH_P_GATE_STAT_LATE_START p) || s.flag (ETH_P_GATE_STAT_CONFIG_ERR p))) ++
  (List.range 5).map (fun i => (40 + i, decide ((((s.queues.getD (67 + i) OutQ.reset).lanes.headD Lane.reset).entries).length ≠ 0))) ++
  [(56, s.anyEvent AON_WAKE_CAUSE_WAKE_PIN), (57, s.kpr.powerFail.isSome)]

/-- The wired level inputs take their levels (R437). -/
def State.sampleInputs (s : State) : State := s.each s.wiredLevels fun s e => s.icuInput e.1 e.2

/-! ## Commands -/

/-- ICU_SOURCE_EVENT (R437): the input of a wired source takes a level. -/
def execIcuSourceEvent (n : Nat) (level : Bool) (s : State) : Host.Outcome State Fault Refusal :=
  .next (if n < 384 ∧ sourceKnown n then s.icuInput n level else s)

/-- ICU_DOORBELL (R436). -/
def execIcuDoorbell (v : Word) (s : State) : Host.Outcome State Fault Refusal :=
  .next (if 384 ≤ v.toNat ∧ v.toNat ≤ 511 then s.icuEvent v.toNat else s.cfg ICU_DOORBELL_SOURCE.off)

/-- ICU_MGC_CLAIM (R442): a host read returns 1023 and claims nothing. -/
def execIcuMgcClaim (a : Agent) (s : State) : Host.Outcome State Fault Refusal :=
  .next (match a with | .mgc => s.claim 64 | .host => s.answer (.word 1023#32))

/-- ICU_MGC_COMPLETE (R442). -/
def execIcuMgcComplete (a : Agent) (v : Word) (s : State) : Host.Outcome State Fault Refusal :=
  .next (s.mgcOnly a ICU_MGC_COMPLETE_ID.off fun s => s.complete 64 (v.toNat % 1024) ICU_MGC_COMPLETE_ID.off)

/-- ICU_HV_CLAIM (R443). -/
def execIcuHvClaim (vec : Nat) (s : State) : Host.Outcome State Fault Refusal := .next (s.claim (vec % 64))

/-- ICU_HV_COMPLETE (R444): every write arms the vector. -/
def execIcuHvComplete (vec : Nat) (v : Word) (s : State) : Host.Outcome State Fault Refusal :=
  let k := vec % 64
  let t := s.putVector k { s.vector k with disarmed := false }
  .next (t.complete k (v.toNat % 1024) (ICU_HV_COMPLETE_ID k).off)

/-- Software sets one source pending (R435, R439). -/
def State.setPending (s : State) (off n : Nat) : State :=
  if sourceKnown n then
    let s := s.icuEvent n
    if s.isLevel n then s.putSource n { s.source n with soft := true } else s
  else s.cfg off

/-- Software clears one source's pending bit (R439). -/
def State.clearPending (s : State) (n : Nat) : State :=
  if s.isLevel n then s.putSource n { s.source n with soft := false }
  else s.putSource n { s.source n with pend := false, soft := false }

/-- ICU_PEND_SET (R439). -/
def execIcuPendSet (_a : Agent) (n : Nat) (v : Word) (s : State) : Host.Outcome State Fault Refusal :=
  .next (s.each ((List.range 32).filter fun b => v.toNat.testBit b) fun s b =>
    s.setPending (ICU_PEND_SET_PEND (n % 16)).off (32 * (n % 16) + b))

/-- ICU_PEND_CLR (R439). -/
def execIcuPendClr (_a : Agent) (n : Nat) (v : Word) (s : State) : Host.Outcome State Fault Refusal :=
  .next (s.each ((List.range 32).filter fun b => v.toNat.testBit b) fun s b => s.clearPending (32 * (n % 16) + b))

/-- CLR_ONE (R438). -/
def execClrOne (_a : Agent) (n : Nat) (s : State) : Host.Outcome State Fault Refusal :=
  .next (s.putSource (n % 512) { s.source (n % 512) with count := 0 })

/-- CLR_ALL (R438). -/
def execClrAll (_a : Agent) (s : State) : Host.Outcome State Fault Refusal :=
  .next (s.each (s.icu.sources.map (·.1)) fun s n => s.putSource n { s.source n with count := 0 })

/-- MSIX_HOLDOFF_EXPIRY (R445). -/
def execMsixHoldoffExpiry (vec : Nat) (s : State) : Host.Outcome State Fault Refusal := .next (s.msix (vec % 64))

end Sys2Proof.Machine
end

