-- ==== Sys2Proof/Machine/Proxy.lean ====
section
/-! DEFINITION. The Proxy Path (R331 to R336): development of the mosaic, proxy frames, and host delivery. -/

namespace Sys2Proof.Machine

/-! ## Development (R332, R333) -/

/-- A linear RGB pixel. -/
abbrev Rgb := Int × Int × Int

/-- Clip to 0 to 65 535. -/
def clip16 (v : Int) : Int := max 0 (min 65535 v)

/-- The RGB pixel of cell (i, j) of a mosaic, in 16-bit linear values (R332, R96). -/
def ProxyInput.cell (p : ProxyInput) (i j : Nat) : Rgb :=
  let v := fun k => siteSample p.lines i j k * 2 ^ (16 - p.depth)
  if p.mono then
    let m := (v 0 + v 1 + v 2 + v 3 + 2) / 4
    (m, m, m)
  else
    let at' := fun c k => v ((sitesOf p.cfa c).getD k 0)
    (at' 0 0, (at' 1 0 + at' 1 1) / 2, at' 2 0)

/-- Black level, gains and matrix, from the copies in force (R332). -/
def State.colour (s : State) (p : Rgb) : Rgb :=
  let b : Int := (s.getF PXP_BLACK_LEVEL : Nat)
  let r := max (p.1 - b) 0
  let g := max (p.2.1 - b) 0
  let u := max (p.2.2 - b) 0
  let r := clip16 (r * (s.getF PXP_GAIN_R : Nat) / 2 ^ 12)
  let u := clip16 (u * (s.getF PXP_GAIN_B : Nat) / 2 ^ 12)
  let m := fun n => signed 16 (s.getF (PXP_MATRIX_M n))
  let row := fun k => clip16 ((m (3 * k) * r + m (3 * k + 1) * g + m (3 * k + 2) * u + 2048) / 2 ^ 12)
  (row 0, row 1, row 2)

/-- The developed image, Wd × Hd (R332). -/
def State.developed (s : State) (p : ProxyInput) : List (List Rgb) :=
  (List.range (p.height / 2)).map fun i => (List.range (p.width / 2)).map fun j => s.colour (p.cell i j)

/-- A pixel of an image, its edges clamped (R333). -/
def pixelAt (im : List (List Rgb)) (x y : Int) : Rgb :=
  let row := im.getD (min y.toNat (im.length - 1)) []
  row.getD (min x.toNat (row.length - 1)) (0, 0, 0)

/-- A pixel made colour by colour from four. -/
def mix (f : Int → Int → Int → Int → Int) (a b c e : Rgb) : Rgb :=
  (f a.1 b.1 c.1 e.1, f a.2.1 b.2.1 c.2.1 e.2.1, f a.2.2 b.2.2 c.2.2 e.2.2)

/-- The image halved in both dimensions (R333). -/
def halve (im : List (List Rgb)) : List (List Rgb) :=
  (List.range (im.length / 2)).map fun y => (List.range ((im.getD 0 []).length / 2)).map fun x =>
    let at' := fun dx dy => pixelAt im (2 * x + dx : Nat) (2 * y + dy : Nat)
    mix (fun a b c e => (a + b + c + e + 2) / 4) (at' 0 0) (at' 1 0) (at' 0 1) (at' 1 1)

/-- Halved while the developed image is at least twice as wide as the active area (R333). -/
def reduce (wa : Nat) : Nat → List (List Rgb) → List (List Rgb)
  | 0, im => im
  | fuel + 1, im => if 2 * wa ≤ (im.getD 0 []).length then reduce wa fuel (halve im) else im

/-- A quotient, rounded one way or the other where it is not whole (log entry 22). -/
def roundFree (n d : Nat) : Nat := n / d + (if n % d ≠ 0 ∧ Config.roundUp n d then 1 else 0)

/-- A sampling position in units of 1/(2a): the whole part, and the weight of the next pixel in units of 1/256 (R333). -/
def samplePos (x a w : Nat) : Int × Nat :=
  let n : Int := ((2 * x + 1) * w : Nat) - (a : Nat)
  (n / (2 * a : Nat), roundFree (256 * (n % (2 * a : Nat)).toNat) (2 * a))

/-- The bilinear sample of the reduced image for pixel (x, y) of the active area (R333). -/
def bilinear (im : List (List Rgb)) (wa ha x y : Nat) : Rgb :=
  let (u, fu) := samplePos x wa (im.getD 0 []).length
  let (v, fv) := samplePos y ha im.length
  let f := fun a b c e => ((roundFree ((256 - fu) * (256 - fv) * a.toNat + fu * (256 - fv) * b.toNat +
    (256 - fu) * fv * c.toNat + fu * fv * e.toNat) 65536 : Nat) : Int)
  mix f (pixelAt im u v) (pixelAt im (u + 1) v) (pixelAt im u (v + 1)) (pixelAt im (u + 1) (v + 1))

/-- An entry of the look-up table (R332). -/
def State.lut (s : State) (i : Nat) : Nat := sget (fun i => i / 4) s.proxy.lut i

/-- Y′, Cb and Cr of a linear pixel (R332). -/
def State.ycc (s : State) (p : Rgb) : Nat × Nat × Nat :=
  let l := fun (v : Int) => (s.lut (v.toNat / 16) : Int)
  let r := l p.1
  let g := l p.2.1
  let b := l p.2.2
  let c := fun (v : Int) => (clip16 v).toNat
  (c (64 + (746 * r + 2509 * g + 253 * b + 2048) / 2 ^ 12), c (512 + (-411 * r - 1383 * g + 1794 * b + 2048) / 2 ^ 12),
    c (512 + (1794 * r - 1630 * g - 164 * b + 2048) / 2 ^ 12))

/-- A line of (Y′, Cb, Cr) reduced to 4:2:2 co-sited, in the order Cb, Y′, Cr, Y′ (R332, R336). -/
def reduce422 : List (Nat × Nat × Nat) → List Nat
  | a :: b :: t => (a.2.1 + b.2.1 + 1) / 2 :: a.1 :: (a.2.2 + b.2.2 + 1) / 2 :: b.1 :: reduce422 t
  | _ => []

/-- Wo and Ho (R333). -/
def State.outSize (s : State) : Nat × Nat := if s.flag PXP_CTRL_OUT_FMT then (3840, 2160) else (1920, 1080)

/-- Wa and Ha (R333). -/
def activeSize (wd hd wo ho : Nat) : Nat × Nat :=
  if hd * wo ≤ wd * ho then (wo, 2 * (wo * hd / (2 * wd))) else (2 * (ho * wd / (2 * hd)), ho)

/-- The picture that a mosaic develops to (R332, R333). -/
def State.develop (s : State) (p : ProxyInput) : ProxyPicture :=
  let (wo, ho) := s.outSize
  let (wa, ha) := activeSize (p.width / 2) (p.height / 2) wo ho
  let x0 := 2 * ((wo - wa) / 4)
  let y0 := 2 * ((ho - ha) / 4)
  let im := reduce wa 16 (s.developed p)
  let px := fun x y =>
    if x0 ≤ x ∧ x < x0 + wa ∧ y0 ≤ y ∧ y < y0 + ha then s.ycc (bilinear im wa ha (x - x0) (y - y0)) else (64, 512, 512)
  ⟨p.epoch, p.time, wo, ho, (List.range ho).map fun y => reduce422 ((List.range wo).map fun x => px x y)⟩

/-! ## Starts and ends of development -/

/-- A review development starts (R331): the mosaic lies in DRAM in the layout of R190; the samples of a line that cannot be read are free. FRAME_EPOCH and BEACON_TIME of a
review picture are not given and are free values (log entry 23). -/
def State.reviewStart (s : State) : State :=
  if !s.proxyOn ∨ s.get PXP_CTRL_SRC = 0 then s
  else if s.flag PXP_STATUS_DEVELOPING then s.inc PXP_COUNTS2_REVIEW_DROP
  else
    let w := s.get PXP_REVIEW_FMT0 % 65536
    let h := s.get PXP_REVIEW_FMT0 / 65536
    let f := s.get PXP_REVIEW_FMT1
    let base := s.getAddr PXP_REVIEW_BASE_ADDR
    let (ls, s) := (List.range h).foldl (fun (a : List (List Nat) × State) y =>
      match a.2.memRead (base + y * s.getAddr PXP_REVIEW_PITCH_BYTES) (2 * w) with
      | (some l, s) => (a.1 ++ [(List.range w).map fun x => rdLe l (2 * x) 2], s)
      | (none, s) => let (l, s) := State.drawList w s; (a.1 ++ [l.map (· % 65536)], s)) ([], s)
    let (e, s) := s.draw
    let (t, s) := s.draw
    { s.set PXP_STATUS_DEVELOPING 1 with proxy := { s.proxy with
      input := some ⟨e % 2 ^ 32, t, w, h, 10 + 2 * (f % 4), f / 4 % 2 == 1, f / 8 % 256, ls⟩ } }

/-- REVIEW_GO (R331). -/
def execReviewGo (_a : Agent) (s : State) : Host.Outcome State Fault Refusal := .next s.reviewStart

/-- PROXY_PICTURE_DONE (R331, R334): the picture becomes the newest complete one; in BASIC and SAFE it is abandoned. -/
def execProxyPictureDone (s : State) : Host.Outcome State Fault Refusal :=
  .next (match s.proxy.input with
    | none => s
    | some p =>
      let t := { s.set PXP_STATUS_DEVELOPING 0 with proxy := { s.proxy with input := none } }
      if s.proxyOn then
        { t.set PXP_STATUS8_EPOCH p.epoch with proxy := { t.proxy with
          newest := some (s.develop p)
          taken := false } }
      else t)

/-- PXP_CLR_COUNTS (R335). -/
def execPxpClrCounts (_a : Agent) (s : State) : Host.Outcome State Fault Refusal :=
  .next (s.clear [PXP_COUNTS_UNFUNDED, PXP_COUNTS_REPEATED, PXP_COUNTS2_HOST_SKIP, PXP_COUNTS2_REVIEW_DROP])

/-- PXP_LUT_WRITE (R332): INDEX advances after the write. -/
def execPxpLutWrite (_a : Agent) (v : Word) (s : State) : Host.Outcome State Fault Refusal :=
  let i := s.get PXP_LUT_SEL_INDEX
  .next { s.incWrap PXP_LUT_SEL_INDEX with proxy := { s.proxy with
    lut := sput (fun i => i / 4) s.proxy.lut i (v.toNat % 1024) } }

/-! ## Proxy frames (R334, R336, R338) -/

/-- NUM and DEN of a proxy rate (R338). -/
def proxyRate (r : Nat) : Nat × Nat :=
  match r with
  | 0 => (24000, 1001)
  | 1 => (24, 1)
  | 2 => (25, 1)
  | 3 => (30000, 1001)
  | 4 => (30, 1)
  | 5 => (50, 1)
  | 6 => (60000, 1001)
  | _ => (60, 1)

/-- The proxy rate selected. -/
def State.outRate (s : State) : Nat × Nat := proxyRate (s.get PXP_CTRL_OUT_RATE)

/-- t_k (R334). -/
def State.proxyTime (s : State) (k : Nat) : Nat := k * (10 ^ 9 * s.outRate.2) / s.outRate.1

/-- The greatest k with t_k at or before the DTC. -/
def State.proxyK (s : State) : Nat := ((s.dtcNs + 1) * s.outRate.1 - 1) / (10 ^ 9 * s.outRate.2)

/-- The lowest free host buffer (R336). -/
def State.freeBuffer (s : State) : Option Nat := (List.range 8).find? fun i => bitAt (s.get PXP_HOST_FREE_MAP) i == 1

/-- A picture is delivered to the host (R336): its lines, then the entry of queue 67 once they are written. -/
def State.deliver (s : State) (p : ProxyPicture) : State :=
  if !s.flag PXP_CTRL_HOST_EN ∨ !s.host then s
  else
    match s.freeBuffer with
    | none => s.inc PXP_COUNTS2_HOST_SKIP
    | some i =>
      let s := s.clearBit PXP_HOST_FREE_MAP i
      let base := s.getAddr PXP_HOST_BASE_ADDR + i * (4 * p.wo * p.ho)
      let (ok, s) := p.lines.zipIdx.foldl (fun (a : Bool × State) l =>
        let (ok, s) := a.2.memWrite (base + 4 * p.wo * l.2) (l.1.flatMap (le 2))
        (a.1 && ok, s)) (true, s)
      if ok then (s.enqueue 67 0 ⟨p.epoch, 0, 0, 4, 0, [i, 0, 0, 0] ++ le 4 0 ++ le 8 p.time, none⟩).2 else s

/-- PROXY_FRAME_TICK (R334): the senders and host delivery take the newest complete picture. -/
def execProxyFrameTick (s : State) : Host.Outcome State Fault Refusal :=
  .next (if s.proxyOn ∧ s.proxy.lastTick ≠ some s.proxyK then
    let t := { s with proxy := { s.proxy with lastTick := some s.proxyK } }
    match s.proxy.newest with
    | none => t
    | some p =>
      let t := t.when s.proxy.taken (·.inc PXP_COUNTS_REPEATED)
      { t with proxy := { t.proxy with
        taken := true
        sent := some p } }.deliver p
  else s)

end Sys2Proof.Machine
end

