-- ==== Sys2Proof/Machine/Network.lean ====
section
/-! DEFINITION. The Ethernet ports (R329, R330, R342, R345 to R351), the ST 2110 senders (R337 to R341) and the PTP servo
(R343, R344). -/

namespace Sys2Proof.Machine

/-- Port `p` beside its registers. -/
def State.port (s : State) (p : Nat) : EthPort := s.eth.getD p EthPort.reset

/-- Change port `p`. -/
def State.modPort (s : State) (p : Nat) (f : EthPort → EthPort) : State := { s with eth := modAt s.eth p f }

/-- Bits per ns of a port (R329). -/
def State.portRate (s : State) (p : Nat) : Nat := if s.flag (ETH_P_CTRL_SPEED p) then 10 else 25

/-- Wire bytes of a frame (R346, R347): with its FCS, and 20 bytes of preamble and gap. -/
def EgressFrame.wire (f : EgressFrame) : Nat := f.len + 4 + 20

/-! ## Gates (R348 to R350) -/

/-- The entries of a cycle as (mask, length): the cycle's end cuts them, and the last mask holds to it (R348). -/
def gateSpans : Nat → List (Nat × Nat) → List (Nat × Nat)
  | _, [] => []
  | left, [e] => [(e.1, left)]
  | left, e :: t => if left ≤ e.2 then [(e.1, left)] else e :: gateSpans (left - e.2) t

/-- The spans of a gate list's cycle. -/
def GateList.spans (g : GateList) : List (Nat × Nat) := gateSpans g.cycle g.entries

/-- The spans that follow offset `t` of a cycle, the first cut to what is left of it. -/
def spansFrom : Nat → List (Nat × Nat) → List (Nat × Nat)
  | _, [] => []
  | t, e :: l => if t < e.2 then (e.1, e.2 - t) :: l else spansFrom (t - e.2) l

/-- How long class `c` stays open from the start of a run of spans. -/
def openFor (c : Nat) : List (Nat × Nat) → Nat
  | [] => 0
  | e :: l => if bitAt e.1 c = 1 then e.2 + openFor c l else 0

/-- The gate of class `c` is open throughout the cycle (R350). -/
def GateList.always (g : GateList) (c : Nat) : Bool := g.spans.all fun e => bitAt e.1 c == 1

/-- The longest window of class `c` (R350), of a class that is not always open. -/
def GateList.longest (g : GateList) (c : Nat) : Nat :=
  ((List.range g.spans.length).map fun i => openFor c (g.spans.drop i ++ g.spans)).foldl max 0

/-- Where the cycle of a list stands (R349). -/
def State.cycleAt (s : State) (g : GateList) : Nat := (((s.dtcNs : Nat) - (g.start : Nat) : Int) % (g.cycle : Nat)).toNat

/-- The mask of the entry in which the cycle stands. -/
def State.maskAt (s : State) (g : GateList) : Nat := ((spansFrom (s.cycleAt g) g.spans).head?.map (·.1)).getD 255

/-- The operational list, while gates are in force (R348). -/
def State.gates (s : State) (p : Nat) : Option GateList :=
  if s.flag (ETH_P_CTRL_GATE_EN p) then (s.port p).oper else none

/-- A frame's transmission fits `ns` ns (R346). -/
def State.fits (s : State) (p : Nat) (f : EgressFrame) (ns : Nat) : Bool := decide (8 * f.wire ≤ s.portRate p * ns)

/-- The gate of a frame's class is open and stays open for its transmission (R346, R350). -/
def State.gateOk (s : State) (p : Nat) (f : EgressFrame) : Bool :=
  match s.gates p with
  | none => true
  | some g =>
    bitAt (s.port p).mask f.cls == 1 &&
      (g.always f.cls || s.fits p f (openFor f.cls (spansFrom (s.cycleAt g) g.spans ++ g.spans)))

/-- The frame exceeds its class's longest window (R350), or the longest frame of R329. -/
def State.tooLong (s : State) (p : Nat) (f : EgressFrame) : Bool :=
  decide (1518 < f.len) ||
    match s.gates p with | none => false | some g => !g.always f.cls && !s.fits p f (g.longest f.cls)

/-! ## Shapers (R347) -/

/-- A bucket in units of 1/8000 byte after `ns` ns at `rate` Mb/s under a cap in bytes. -/
def refill (level rate cap ns : Nat) : Nat := min (level + rate * ns) (8000 * cap)

/-- The buckets of a flow now; they start full (log entry 24). -/
def State.flowBuckets (s : State) (p f : Nat) : Buckets :=
  let cbs := s.get (ETH_P_F_BURST_CBS p f)
  let pbs := s.get (ETH_P_F_BURST_PBS p f)
  match aget (s.port p).buckets f with
  | none => ⟨8000 * cbs, 8000 * pbs, s.now⟩
  | some b =>
    ⟨refill b.committed (s.get (ETH_P_F_RATE_CIR p f)) cbs (s.now - b.last),
      refill b.peak (s.get (ETH_P_F_RATE_PIR p f)) pbs (s.now - b.last), s.now⟩

/-- Write the buckets of a flow. -/
def State.putBuckets (s : State) (p f : Nat) (b : Buckets) : State :=
  s.modPort p fun e => { e with buckets := aput e.buckets f b }

/-- The shaper of a frame's flow allows it (R347). -/
def State.shaperOk (s : State) (p : Nat) (f : EgressFrame) : Bool :=
  s.get (ETH_P_F_RATE_CIR p f.flow) == 0 ||
    let b := s.flowBuckets p f.flow
    decide (8000 * f.wire ≤ b.committed ∧ 8000 * f.wire ≤ b.peak)

/-- A frame's start takes its wire bytes from both buckets. -/
def State.takeTokens (s : State) (p : Nat) (f : EgressFrame) : State :=
  if s.get (ETH_P_F_RATE_CIR p f.flow) = 0 then s
  else
    let b := s.flowBuckets p f.flow
    s.putBuckets p f.flow { b with committed := b.committed - 8000 * f.wire, peak := b.peak - 8000 * f.wire }

/-! ## Egress (R345, R346) -/

/-- The class of a flow (R345). -/
def State.flowClass (s : State) (p f : Nat) : Nat := if f = 2 then 7 else s.get (ETH_P_F_CLASS_CLASS p f)

/-- A transmit descriptor is written back with OWN cleared (R330). -/
def State.txBack (s : State) (p i status : Nat) (ts : Bool) : State :=
  let a := s.getAddr (ETH_P_TXR_BASE_ADDR p) + 16 * i
  (s.memWrite (a + 11) [2 * b2n ts + 4 * status]).2.icuPulse (24 + 4 * p)

/-- A frame is dropped (R345, R350): its descriptor is written back, or its sender counts a packet. -/
def State.dropFrame (s : State) (p : Nat) (f : EgressFrame) (status : Nat) : State :=
  let s := match f.desc with | some (i, ts) => s.txBack p i status ts | none => s
  match f.packet with | some (k, _, _) => s.inc (ETH_SND_COUNTS_DROPPED k) | none => s

/-- A frame is dropped as too long (R350). -/
def State.dropLong (s : State) (p : Nat) (f : EgressFrame) : State := (s.inc (ETH_P_DROP_TOO_LONG p)).dropFrame p f 1

/-- A frame is enqueued in its flow's class, or dropped (R345, R350). -/
def State.enqueueFrame (s : State) (p : Nat) (f : EgressFrame) : State :=
  if s.tooLong p f then s.dropLong p f
  else if 128 ≤ ((s.port p).queue.filter fun x => x.cls == f.cls).length then (s.inc (ETH_P_DROP_QFULL p)).dropFrame p f 2
  else s.modPort p fun e => { e with queue := e.queue ++ [f] }

/-- The head frame of a class. -/
def State.headOf (s : State) (p c : Nat) : Option EgressFrame := (s.port p).queue.find? fun f => f.cls == c

/-- Take the head frame of a class out of its FIFO. -/
def State.unqueue (s : State) (p c : Nat) : State :=
  s.modPort p fun e => { e with queue := e.queue.eraseP fun f => f.cls == c }

/-- Head frames that no window of the list takes are dropped (R350). -/
def State.dropHeads (p c : Nat) : Nat → State → State
  | 0, s => s
  | fuel + 1, s =>
    match s.headOf p c with
    | some f => if s.tooLong p f then State.dropHeads p c fuel ((s.unqueue p c).dropLong p f) else s
    | none => s

/-- The class that may start, the highest first (R346). -/
def State.nextClass (s : State) (p : Nat) : Option EgressFrame :=
  ([7, 6, 5, 4, 3, 2, 1, 0].filterMap fun c => s.headOf p c).find? fun f => s.gateOk p f && s.shaperOk p f

/-- The timestamp of an event now (R342). -/
def State.ethTime (s : State) (p : Nat) : Nat := unsigned 64 ((s.dtcNs : Nat) + signed 16 (s.get (ETH_P_TS_ADJ_NS p)))

/-- A timestamp enters its FIFO of 16 (R342): within 4 ns of the crossing, the error a free value. -/
def State.stamp (s : State) (p dir typ seq : Nat) : State :=
  if (s.port p).ts.length < 16 then
    let (v, s) := s.draw
    let t := unsigned 64 ((s.ethTime p : Nat) + (v % 9 : Nat) - 4)
    s.modPort p fun e => { e with ts := e.ts ++ [(dir, typ, seq, t)] }
  else s.inc (ETH_P_RXERR_TS_LOST p)

/-! ### What a frame says (R329, R342, R351), in the layouts of Ethernet II, IEEE 802.1Q, IPv4 and UDP (PRESUMED, log entry 71) -/

/-- Two bytes of a frame, most significant first. -/
def rd16 (l : List Nat) (o : Nat) : Nat := 256 * l.getD o 0 + l.getD (o + 1) 0

/-- The frame carries an 802.1Q tag. -/
def tagged (l : List Nat) : Bool := rd16 l 12 == 0x8100

/-- Where the EtherType of a frame stands. -/
def typeAt (l : List Nat) : Nat := if tagged l then 16 else 12

/-- The PCP of a frame's tag. -/
def framePcp (l : List Nat) : Option Nat := if tagged l then some (l.getD 14 0 / 32) else none

/-- A PAUSE frame. -/
def isPause (l : List Nat) : Bool := rd16 l (typeAt l) == 0x8808 && rd16 l (typeAt l + 2) == 1

/-- Where the UDP header of a frame stands, when it carries UDP over IPv4. -/
def udpAt (l : List Nat) : Option Nat :=
  let o := typeAt l + 2
  if rd16 l (o - 2) = 0x0800 ∧ l.getD o 0 / 16 = 4 ∧ l.getD (o + 9) 0 = 17 then some (o + 4 * (l.getD o 0 % 16)) else none

/-- The frame carries a PTP message: UDP destination port 319 or 320. -/
def isPtp (l : List Nat) : Bool := match udpAt l with | some o => rd16 l (o + 2) == 319 || rd16 l (o + 2) == 320 | none => false

/-- messageType and sequenceId of a PTP message (R342), 0 in a frame without one. -/
def ptpHead (l : List Nat) : Nat × Nat :=
  match udpAt l with | some o => (l.getD (o + 8) 0 % 16, rd16 l (o + 38)) | none => (0, 0)

/-- The frame carries a PTP event message (R342): port 319, with a messageType of Sync, Delay_Req, Pdelay_Req or Pdelay_Resp. -/
def isPtpEvent (l : List Nat) : Bool :=
  match udpAt l with | some o => rd16 l (o + 2) == 319 && decide ((ptpHead l).1 < 4) | none => false

/-- The FCS at the end of a received frame is right (R329). -/
def fcsOk (l : List Nat) : Bool := decide (4 ≤ l.length) && rdLe l (l.length - 4) 4 == crc32 (l.take (l.length - 4))

/-- A port is enabled and powered: hold-up powers the ports down (R401). -/
def State.portOn (s : State) (p : Nat) : Bool := s.flag (ETH_P_CTRL_EN p) && !s.flag KPR_STATUS_HOLDUP

/-- EGRESS_FRAME_START (R346, R347, R350). -/
def execEgressFrameStart (port : Nat) (s : State) : Host.Outcome State Fault Refusal :=
  let p := port % 2
  .next (if s.portOn p = true ∧ (s.port p).sending = none then
    let s := s.each (List.range 8) fun s c => State.dropHeads p c 128 s
    match s.nextClass p with
    | none => s
    | some f =>
      let s := ((s.unqueue p f.cls).takeTokens p f).modPort p fun e => { e with sending := some f }
      match f.desc with
      | some (_, true) => s.stamp p 1 (ptpHead f.data).1 (ptpHead f.data).2
      | _ => s
  else s)

/-- EGRESS_FRAME_DONE (R330): the frame has left the port. -/
def execEgressFrameDone (port : Nat) (s : State) : Host.Outcome State Fault Refusal :=
  let p := port % 2
  .next (match (s.port p).sending with
    | none => s
    | some f =>
      let s := (s.emit (.eth p f.cls (toBytes f.data))).modPort p fun e => { e with sending := none }
      let s := match f.packet with | some (k, e, n) => s.emit (.proxyPacket k e (n / 8) n) | none => s
      match f.desc with
      | some (i, ts) => s.txBack p i 0 ts
      | none => s)

/-- A transmit descriptor is still on its way. -/
def EthPort.holds (e : EthPort) (i : Nat) : Bool :=
  (e.queue ++ e.sending.toList).any fun f => (f.desc.map (·.1)) == some i

/-- The descriptor at the head of the transmit ring is taken, when the port owns it (R330). -/
def State.takeTx (s : State) (p : Nat) : State :=
  let i := (s.port p).txHead
  if !s.portOn p ∨ (s.port p).holds i then s
  else
    match s.memRead (s.getAddr (ETH_P_TXR_BASE_ADDR p) + 16 * i) 16 with
    | (none, s) => s
    | (some d, s) =>
      if rdLe d 11 1 % 2 = 0 then s
      else
        let flow := rdLe d 10 1 % 32
        let (b, s) := s.memRead (rdLe d 0 8) (rdLe d 8 2)
        let s := s.modPort p fun e => { e with txHead := (i + 1) % max 1 (s.get (ETH_P_TXR_SIZE_COUNT p)) }
        s.enqueueFrame p ⟨flow, s.flowClass p flow, b.getD [], rdLe d 8 2, some (i, bitAt (rdLe d 11 1) 1 == 1), none⟩

/-- ETH_TX_DESCRIPTOR (R330). -/
def execEthTxDescriptor (port : Nat) (s : State) : Host.Outcome State Fault Refusal := .next (s.takeTx (port % 2))

/-- ETH_RING_KICK_TX (R330): the head is read again. -/
def execEthRingKickTx (_a : Agent) (port : Nat) (s : State) : Host.Outcome State Fault Refusal := .next (s.takeTx (port % 2))

/-- ETH_RING_KICK_RX (R330): the head of the receive ring is read anew for every frame, so the kick changes nothing. -/
def execEthRingKickRx (_a : Agent) (_port : Nat) (s : State) : Host.Outcome State Fault Refusal := .next s

/-! ## Ingress (R329, R330, R342, R351) -/

/-- The class of a received frame (R351). -/
def State.ingressClass (s : State) (p : Nat) (l : List Nat) : Nat :=
  if isPtp l then 7 else (framePcp l).getD (s.get (ETH_P_IN_DEFCLASS_CLASS p))

/-- The policing bucket of a class now, in units of 1/8000 byte; it starts full (log entry 24). -/
def State.policeLevel (s : State) (p c : Nat) : Nat :=
  let cap := 64 * s.get (ETH_P_POL_BURST p c)
  match (s.port p).police.find? fun e => e.1 == c with
  | none => 8000 * cap
  | some e => refill e.2.1 (s.get (ETH_P_POL_RATE p c)) cap (s.now - e.2.2)

/-- Write a policing bucket. -/
def State.putPolice (s : State) (p c level : Nat) : State :=
  s.modPort p fun e => { e with police := aput e.police c (level, s.now) }

/-- Policing of a frame of class `c` (R351): whether it passes. -/
def State.policed (s : State) (p c len : Nat) : Bool × State :=
  if s.get (ETH_P_POL_RATE p c) = 0 then (true, s)
  else
    let l := s.policeLevel p c
    if 8000 * len ≤ l then (true, s.putPolice p c (l - 8000 * len))
    else (false, (s.putPolice p c l).incWrap (ETH_P_POL_DROP_COUNT p c))

/-- A received frame reaches the receive ring without its FCS (R330). -/
def State.deliverRx (s : State) (p c : Nat) (l : List Nat) : State :=
  let i := (s.port p).rxHead
  let a := s.getAddr (ETH_P_RXR_BASE_ADDR p) + 16 * i
  match s.memRead a 16 with
  | (none, s) => s.inc (ETH_P_RXERR_NO_DESC p)
  | (some d, s) =>
    if rdLe d 11 1 % 2 = 0 then s.inc (ETH_P_RXERR_NO_DESC p)
    else
      let s := (s.memWrite (rdLe d 0 8) l).2
      let s := (s.memWrite (a + 8) (le 2 l.length ++ [c, rdLe d 11 1 / 2 * 2])).2
      let s := s.modPort p fun e => { e with rxHead := (i + 1) % max 1 (s.get (ETH_P_RXR_SIZE_COUNT p)) }
      s.icuPulse (25 + 4 * p)

/-- ETH_FRAME_RECEIVED (R329, R342, R351). -/
def execEthFrameReceived (port : Nat) (frame : List Byte) (s : State) : Host.Outcome State Fault Refusal :=
  let p := port % 2
  let l := toNats frame
  .next (if !s.portOn p then s
  else if !fcsOk l then s.inc (ETH_P_RXERR_FCS p)
  else if 1522 < l.length then s.inc (ETH_P_RXERR_OVERSIZE p)
  else if isPause l then s
  else
    let c := s.ingressClass p l
    match s.policed p c l.length with
    | (false, t) => t
    | (true, t) => (t.when (isPtpEvent l) (·.stamp p 0 (ptpHead l).1 (ptpHead l).2)).deliverRx p c (l.take (l.length - 4)))

/-- ETH_TS_POP (R342): a read of `ETH_Pp_TS_INFO`. -/
def execEthTsPop (_a : Agent) (port : Nat) (s : State) : Host.Outcome State Fault Refusal :=
  let p := port % 2
  .next (match (s.port p).ts with
    | [] => s.answer (.word 0#32)
    | (dir, typ, seq, t) :: rest =>
      ((s.modPort p fun e => { e with ts := rest }).set (ETH_P_TS_NS_NS p) t).answer
        (.word (BitVec.ofNat 32 (1 + 2 * (dir % 2) + 4 * (typ % 16) + 65536 * (seq % 65536)))))

/-- ETH_CLR_COUNTS (R351). -/
def execEthClrCounts (_a : Agent) (port : Nat) (s : State) : Host.Outcome State Fault Refusal :=
  let p := port % 2
  .next (s.clear ([ETH_P_DROP_TOO_LONG p, ETH_P_DROP_QFULL p, ETH_P_RXERR_FCS p, ETH_P_RXERR_OVERSIZE p, ETH_P_RXERR_NO_DESC p,
    ETH_P_RXERR_TS_LOST p] ++ (List.range 8).map (ETH_P_POL_DROP_COUNT p)))

/-! ## Gate lists (R348, R349) -/

/-- GATE_COMMIT (R349). -/
def execGateCommit (_a : Agent) (port : Nat) (s : State) : Host.Outcome State Fault Refusal :=
  let p := port % 2
  let n := s.get (ETH_P_GATE_LEN_COUNT p)
  let cycle := s.get (ETH_P_GATE_CYCLE_NS p)
  let b := s.get (ETH_P_GATE_BASE_NS p)
  let first := s.dtcNs + 1000
  .next (if n = 0 ∨ 64 < n ∨ cycle < 1000 ∨ 10 ^ 9 < cycle then (s.set (ETH_P_GATE_STAT_CONFIG_ERR p) 1).cfg (ETH_P_GATE_CMD_COMMIT p).off
  else
    let start := if first ≤ b then b else b + ceilDiv (first - b) cycle * cycle
    let g : GateList := ⟨(List.range n).map fun i => (s.get (ETH_P_GATEE_MASK p i), s.get (ETH_P_GATEE_INTERVAL p i)), cycle, start⟩
    let t := (s.set (ETH_P_GATE_STAT_PENDING p) 1).set (ETH_P_GATE_START_NS p) start
    let t := t.when (decide (b < first)) (·.set (ETH_P_GATE_STAT_LATE_START p) 1)
    t.modPort p fun e => { e with next := some g })

/-- GATE_LIST_START (R349): at S. -/
def execGateListStart (port : Nat) (s : State) : Host.Outcome State Fault Refusal :=
  let p := port % 2
  .next (match (s.port p).next with
    | none => s
    | some g =>
      if g.start ≤ s.dtcNs then
        (s.set (ETH_P_GATE_STAT_PENDING p) 0).modPort p fun e => { e with
          oper := some g
          next := none
          mask := s.maskAt g }
      else s)

/-- GATE_ENTRY_CHANGE (R348). -/
def execGateEntryChange (port : Nat) (s : State) : Host.Outcome State Fault Refusal :=
  let p := port % 2
  .next (match (s.port p).oper with
    | none => s
    | some g => s.modPort p fun e => { e with mask := s.maskAt g })

/-! ## Senders (R337 to R341) -/

/-- Packets of a proxy frame (R339). -/
def State.framePackets (s : State) : Nat := s.outSize.2 * (s.outSize.1 / 480)

/-- SENDER_ENABLE (R341): a write of 1 to EN. -/
def execSenderEnable (_a : Agent) (k : Nat) (s : State) : Host.Outcome State Fault Refusal :=
  let k := k % 2
  let p := s.get (ETH_SND_CTRL_PORT k)
  let others := (List.range 2).filter fun j => j != k && s.flag (ETH_SND_CTRL_EN j) && s.get (ETH_SND_CTRL_PORT j) == p
  let (n, d) := s.outRate
  .next (if s.flag (ETH_SND_CTRL_EN k) then s
  else if 9 * s.portRate p * 10 ^ 9 * d < 10 * (others.length + 1) * s.framePackets * 10288 * n then
    (s.set (ETH_SND_STAT_REFUSED k) 1).cfg (ETH_SND_CTRL_EN k).off
  else
    let t := ((s.set (ETH_SND_CTRL_EN k) 1).set (ETH_SND_STAT_REFUSED k) 0).set (ETH_SND_STAT_RUNNING k) 1
    { t with proxy := { t.proxy with senders := modAt t.proxy.senders k fun x => { x with
      frame := none
      pic := none
      next := 0 } } })

/-- The ones'-complement sum of an IPv4 header. -/
def ipSum (l : List Nat) : Nat :=
  let t := ((List.range (l.length / 2)).map fun i => 256 * l.getD (2 * i) 0 + l.getD (2 * i + 1) 0).foldl (· + ·) 0
  let t := t % 65536 + t / 65536
  65535 - (t % 65536 + t / 65536)

/-- 480 pixels as 240 pgroups of 5 bytes (R339): four samples of 10 bits each. -/
def pgroups (l : List Nat) : List Nat := packBits (l.flatMap (bitsOf 10))

/-- The frame of packet `n` of a sender's proxy frame (R339, R340). `ipId` is the IPv4 identification, which the manual
does not give. -/
def State.senderFrame (s : State) (k n ipId : Nat) (x : Sender) (pic : ProxyPicture) (tk : Nat) : List Nat :=
  let p := s.get (ETH_SND_CTRL_PORT k)
  let per := pic.wo / 480
  let line := n / per
  let px := n % per * 480
  let tag := if s.flag (ETH_SND_CTRL_VLAN_EN k) then
      [0x81, 0] ++ be 2 (8192 * s.flowClass p k + s.get (ETH_SND_DST_MAC_VID k)) else []
  let ip := fun sum => [0x45, 4 * s.get (ETH_SND_RTP_DSCP k)] ++ be 2 1248 ++ be 2 ipId ++ [0x40, 0, 64, 17] ++ be 2 sum ++
    be 4 (s.get (ETH_P_IPV4_ADDR p)) ++ be 4 (s.get (ETH_SND_DST_IP_ADDR k))
  let last := n + 1 == pic.ho * per
  be 6 (s.get (ETH_SND_DST_MAC_ADDR k)) ++ be 6 (s.get (ETH_P_MAC_ADDR p)) ++ tag ++ [8, 0] ++ ip (ipSum (ip 0)) ++
    be 2 (s.get (ETH_SND_UDP_SRC k)) ++ be 2 (s.get (ETH_SND_UDP_DST k)) ++ be 2 1228 ++ [0, 0] ++
    [0x80, 128 * b2n last + s.get (ETH_SND_RTP_PT k)] ++ be 2 x.seq ++ be 4 (tk * 90000 / 10 ^ 9) ++
    be 4 (s.get (ETH_SND_SSRC_SSRC k)) ++ be 2 (x.seq / 65536) ++ be 2 1200 ++ be 2 line ++ be 2 px ++
    pgroups (((pic.lines.getD line []).drop (2 * px)).take 960)

/-- Packets of sender `k` that wait or leave. -/
def State.packetsOf (s : State) (k : Nat) : Nat :=
  (s.eth.flatMap fun e => e.queue ++ e.sending.toList).countP fun f => (f.packet.map (·.1)) == some k

/-- A proxy frame ends: the packets that have not left are dropped, and the frame counts as late (R340). -/
def State.cutFrame (s : State) (k : Nat) (x : Sender) : State :=
  let unsent := if x.pic.isSome then s.framePackets - x.next else 0
  if x.frame.isNone ∨ (unsent = 0 ∧ s.packetsOf k = 0) then s
  else
    let mine := fun (f : EgressFrame) => (f.packet.map (·.1)) == some k
    let queued := (s.eth.flatMap (·.queue)).countP mine
    let keep := fun (e : EthPort) => ({ e with queue := e.queue.filter fun f => !mine f } : EthPort)
    let s := { s with eth := s.eth.map keep }
    (s.incBy (ETH_SND_COUNTS_DROPPED k) (unsent + queued)).inc (ETH_SND_COUNTS_LATE k)

/-- The next proxy frame's first packet is due: the sender passes on to it (R340). -/
def State.nextProxyFrame (s : State) (k : Nat) : State :=
  let x := s.proxy.senders.getD k Sender.reset
  match s.proxy.lastTick with
  | none => s
  | some kk =>
    let tk := s.proxyTime kk
    if x.frame = some (kk, tk) ∨ s.dtcNs < tk + s.get (ETH_SND_OFFSET_NS k) then s
    else
      let s := s.cutFrame k x
      { s with proxy := { s.proxy with senders := modAt s.proxy.senders k fun x => { x with
        frame := some (kk, tk)
        pic := s.proxy.sent
        next := 0 } } }

/-- SENDER_PACKET_DUE (R340): a pacing instant, t_k + OFFSET and then 90 % of the proxy frame period in equal parts. -/
def execSenderPacketDue (k : Nat) (s : State) : Host.Outcome State Fault Refusal :=
  let k := k % 2
  .next (if s.flag (ETH_SND_CTRL_EN k) ∧ s.proxyOn then
    let s := s.nextProxyFrame k
    let x := s.proxy.senders.getD k Sender.reset
    let (num, den) := s.outRate
    let total := s.framePackets
    match x.frame, x.pic with
    | some (kk, tk), some pic =>
      let since := s.dtcNs - (tk + s.get (ETH_SND_OFFSET_NS k))
      if x.next < total ∧ tk + s.get (ETH_SND_OFFSET_NS k) ≤ s.dtcNs ∧ 9 * x.next * 10 ^ 9 * den ≤ 10 * total * num * since then
        let (id, s) := s.draw
        let data := s.senderFrame k x.next (id % 65536) x pic tk
        let p := s.get (ETH_SND_CTRL_PORT k)
        let s := { s with proxy := { s.proxy with senders := modAt s.proxy.senders k fun x => { x with
          next := x.next + 1
          seq := (x.seq + 1) % 2 ^ 32 } } }
        s.enqueueFrame p ⟨k, s.flowClass p k, data, data.length, none, some (k, kk, x.next)⟩
      else s
    | _, _ => s
  else s)

/-! ## PTP (R343, R344) -/

/-- TB_CMD.LOCK and UNLOCK act only under REF PTP (R486). -/
def State.servoLock (s : State) (locked : Bool) : State :=
  if s.ref = 1 then (if locked then s.lockGained else s.lockLost) else s

/-- PTP_SYNC (R344). -/
def execPtpSync (offset adj : Int) (s : State) : Host.Outcome State Fault Refusal :=
  .next (if s.mgc.up then
    let run := if offset.natAbs < 100 then s.ptp.syncRun + 1 else 0
    let s := { s with ptp := { s.ptp with syncRun := run } }
    let s := if !s.clipOpen ∧ 1000000 < offset.natAbs then
        let v := unsigned 64 (-offset)
        (s.set TB_SET_VALUE v).stepTime v
      else s
    let s := s.when (decide (s.ref = 1)) (·.set TB_ADJ_ADJ (unsigned 32 (max (-4294967) (min 4294967 adj))))
    let s := s.when (decide (16 ≤ run)) (·.servoLock true)
    s.when (decide (1000 < offset.natAbs)) (·.servoLock false)
  else s)

/-- The best of the masters heard: the lowest rank, the earlier heard at a tie (R343). -/
def bestMaster : List (Nat × Nat × Nat) → Option (Nat × Nat × Nat)
  | [] => none
  | m :: t => match bestMaster t with | none => some m | some b => if b.2.2 < m.2.2 then some b else some m

/-- The masters heard change: the port of the best one is used. -/
def State.setMasters (s : State) (l : List (Nat × Nat × Nat)) : State :=
  { s with ptp := { s.ptp with
    masters := l
    port := (bestMaster l).map (·.1) } }

/-- PTP_ANNOUNCE (R343, R344, R370). -/
def execPtpAnnounce (port clockId rank : Nat) (s : State) : Host.Outcome State Fault Refusal :=
  .next (if s.mgc.up then
    let l := s.ptp.masters.filter fun m => !(m.1 == port % 2 && m.2.1 == clockId)
    (s.setMasters (l ++ [(port % 2, clockId, rank)])).light 5 clockId 1 (some (be 8 clockId))
  else s)

/-- ANNOUNCE_TIMEOUT (R344): the grandmaster in use is lost. -/
def execAnnounceTimeout (s : State) : Host.Outcome State Fault Refusal :=
  .next (match bestMaster s.ptp.masters with
    | none => s
    | some m =>
      let s := (s.setMasters (s.ptp.masters.filter (· != m))).servoLock false
      let s : State := { s with ptp := { s.ptp with syncRun := 0 } }
      s.light 5 m.2.1 2 none)

end Sys2Proof.Machine
end

