-- ==== Sys2Proof/Machine/Access.lean ====
section
/-! DEFINITION. Accesses to BAR0 (R6 to R9, R37 to R43, R53 to R58, R424, R428): what a read of a word returns and does, what a write
of a word does field by field, and what the windows and the refused kinds of access give. -/

namespace Sys2Proof.Machine

/-- The state that a command leads to. -/
def did (o : Host.Outcome State Fault Refusal) (s : State) : State := match o with | .next t => t | _ => s

/-! ## Where an access goes -/

/-- A write that is discarded and logged as a corrected configuration fault (R416). The unit of an offset that lies in no block of R37
is not given and is a free value. -/
def State.cfgAt (s : State) (off : Nat) : State :=
  if off < 0x5C0000 ∨ (0x1000000 ≤ off ∧ off < 0x2000000) then s.cfg off
  else let (v, s) := s.draw; s.raise 0x01 (v % 2 ^ 16) off

/-- The gang window (R43). -/
def gangWindow (off : Nat) : Bool := decide (0x2000000 ≤ off ∧ off < 0x4000000)

/-- An access through the gang window while the Gang Link is not trained (R43, R428). Its block has no index in R416: a free value. -/
def State.gangOff (s : State) (a : Agent) (off : Nat) (isRead : Bool) : State :=
  let (v, s) := s.draw
  let s := s.raise 0x02 (v % 2 ^ 16) off
  match a with
  | .host => s.unsupportedReq
  | .mgc => if isRead then s.answer (.word 0xDEC00FF0#32) else s

/-- A reserved offset (R40): a read returns 0, a write is discarded and logged. -/
def State.reserved (s : State) (off : Nat) (w : Option Word) : State :=
  match w with | none => s.answer (.word 0#32) | some _ => s.cfgAt off

/-- An access through the gang window (R43): the follower answers a read with `reply`. -/
def State.gangAccess (s : State) (a : Agent) (off : Nat) (w : Option Word) (reply : Word) : State :=
  if s.role ≠ 1 then s.reserved off w
  else if s.gang.up then
    let s := s.emit (.gangAccess a (off - 0x2000000) w)
    if w.isNone then s.answer (.word reply) else s
  else s.gangOff a off w.isNone

/-- An access while the part sleeps or its IOD is in reset (log entry 30): nothing takes it. -/
def State.noAccess (s : State) (a : Agent) : State := match a with | .host => s.unsupportedReq | .mgc => s

/-! ## Reads -/

/-- Where a region's register lies: the region, and the offset in its window (R38). -/
def regionOf (off : Nat) : Nat × Nat := ((off - 0x1000000) / 0x400000, (off - 0x1000000) % 0x400000)

/-- Fields of the Coding Engine space that are not held in registers. -/
def State.ceShown (s : State) (off : Nat) : List (Fld × Nat) :=
  let (r, o) := regionOf off
  let banks := (s.regions.getD r Region.reset).banks
  let open_ := fun (i : Nat) => (banks.getD i none)
  if o = 0x4 then
    [(CE_RG_STATUS_ACTIVE r, ((List.range 17).filter fun e => s.engState (17 * r + e) == 3).length)]
  else if o = 0x14 then [(CE_RG_BANK_OPEN r, b2n (open_ 0).isSome + 2 * b2n (open_ 1).isSome)]
  else if 0x40000 ≤ o ∧ o < 0x140000 ∧ o % 0x40000 = 0 then
    let q := o / 0x40000 - 1
    (List.range 4).map fun i => (⟨off, 8 * i, 7⟩, ceilDiv (s.occupied (16 * r + 4 * q + i)) 4096)
  else if 0x200000 ≤ o ∧ o < 0x310000 ∧ o % 0x10000 = 0 then
    let n := 17 * r + (o - 0x200000) / 0x10000
    let jobs := (s.eng n).jobs.length
    [(CE_ENG_STATE_BUSY n, b2n (jobs != 0)), (CE_ENG_STATE_JOBS n, jobs), (CE_ENG_STATE_MACRO n, (s.eng n).macro_)]
  else []

/-- Fields of the Output Queues' registers that are not held in registers (R246, R249). -/
def State.oqShown (s : State) (off : Nat) : List (Fld × Nat) :=
  let q := (off - 0x181000) / 64
  let fill := (s.queue q).lanes.foldl (fun a l => a + l.fill) 0
  if off = (OQ_Q_STAT_EMPTY q).off then [(OQ_Q_STAT_EMPTY q, b2n (fill == 0)), (OQ_Q_STAT_LANES q, b2n (s.twoLanes q))]
  else if off = (OQ_Q_FILL_BYTES q).off then [(OQ_Q_FILL_BYTES q, fill)]
  else []

/-- The agent's place in a pool's operation registers. -/
def agentIx (a : Agent) : Nat := match a with | .mgc => 0 | .host => 1

/-- Fields of the pools' registers, by the place of the requester that reads (R258 to R261). -/
def State.bpmShown (s : State) (ix off : Nat) : List (Fld × Nat) :=
  let p := (off - 0x1C0100) / 64
  if off = (BPM_P_OP_ADDR_ADDR p).off then [(BPM_P_OP_ADDR_ADDR p, (s.pool p).opAddr.getD ix 0)]
  else if off = (BPM_P_OP_RESULT_CODE p).off then [(BPM_P_OP_RESULT_CODE p, (s.pool p).opResult.getD ix 0)]
  else []

/-- The entry of the fault log at place `e` (R420): the newest stands just below NEXT. -/
def State.logEntry (s : State) (e : Nat) : FaultRec :=
  s.fc.log.getD ((s.get FC_LOG_HEAD_NEXT + 31 - e) % 32) FaultRec.none

/-- Fields of the Fault Collector's registers (R417, R420). -/
def State.fcShown (s : State) (off : Nat) : List (Fld × Nat) :=
  if (FC_FIRST_DATA 0).off ≤ off ∧ off ≤ (FC_FIRST_DATA 5).off then [(⟨off, 0, 32⟩, rdLe s.fc.first.bytes (off - (FC_FIRST_DATA 0).off) 4)]
  else if (FC_LOG_DATA_DATA 0).off ≤ off ∧ off ≤ (FC_LOG_DATA_DATA 5).off then
    [(⟨off, 0, 32⟩, rdLe (s.logEntry (s.get FC_LOG_SEL_ENTRY)).bytes (off - (FC_LOG_DATA_DATA 0).off) 4)]
  else if off = FC_SEV_DATA_SEV.off then
    let e := s.sevEntry (s.get FC_SEV_SEL_PHASE) (s.get FC_SEV_SEL_SOURCE)
    [(FC_SEV_DATA_SEV, e % 4), (FC_SEV_DATA_AS_RAISED, e / 4)]
  else if off = FC_SRC_DATA_COUNT.off then
    let n := s.get FC_SRC_SEL_SOURCE
    [(FC_SRC_DATA_COUNT, sget (fun _ => 0) s.fc.count n), (FC_SRC_DATA_LAST_SEV, sget (fun _ => 0) s.fc.lastSev n)]
  else []

/-- The pending bits of sources 32n to 32n + 31 (R439). -/
def State.pendingWord (s : State) (n : Nat) : Nat :=
  (List.range 32).foldl (fun a b => if s.isPending (32 * n + b) then a + 2 ^ b else a) 0

/-- Fields of the Interrupt Controller's registers (R438 to R445). -/
def State.icuShown (s : State) (off : Nat) : List (Fld × Nat) :=
  if off = ICU_MGC_STAT_LINE.off then
    [(ICU_MGC_STAT_LINE, b2n s.mgcLine), (ICU_MGC_STAT_RUNNING_VALID, b2n s.runningGroup.isSome),
      (ICU_MGC_STAT_RUNNING, s.runningGroup.getD 0)]
  else if 0x501000 ≤ off ∧ off < 0x501800 then
    let n := (off - 0x501000) / 4
    let x := s.source n
    [(ICU_SRC_TARGET n, s.target n), (ICU_SRC_VECTOR n, s.vectorOf n), (ICU_SRC_PENDING n, b2n (s.isPending n)),
      (ICU_SRC_IN_SERVICE n, b2n x.inService.isSome), (ICU_SRC_INPUT n, b2n (x.input && decide (n < 384))), (ICU_SRC_COUNT n, x.count)]
  else if 0x501800 ≤ off ∧ off < 0x501840 then
    let n := (off - 0x501800) / 4
    [(ICU_PEND_SET_PEND n, s.pendingWord n)]
  else if 0x502000 ≤ off ∧ off % 16 = 12 then
    let v := (off - 0x502000) / 16
    [(ICU_HV_STAT_ARMED v, b2n !(s.vector v).disarmed), (ICU_HV_STAT_DUE v, b2n (s.due v)), (ICU_HV_STAT_HELD v, b2n (s.vector v).held)]
  else []

/-- Bytes written to a bay in the last second, in MB/s (MGH_MAGm_RATE). -/
def State.bayRate (s : State) (b : Nat) : Nat :=
  (((s.bay b).wrote.filter fun e => decide (s.now < e.1 + 10 ^ 9)).foldl (fun a e => a + e.2) 0) / 10 ^ 6

/-- The fields of the register at `off` that show what the blocks hold beside their registers, with what they read as for the
requester at place `ix`. -/
def State.shown (s : State) (ix off : Nat) : List (Fld × Nat) :=
  match blockOf off with
  | 0 => if off = BU_STATUS_RUNNING.off then [(BU_STATUS_SRC_ACTIVE, s.source_), (BU_STATUS_IN_PRESENT, b2n s.beaconInPresent)] else []
  | 1 => if off = TB_CTRL_REF.off then [(TB_CTRL_REF, s.ref)] else if off = TB_DTC_NS.off then [(TB_DTC_NS, s.dtcNs)] else []
  | 4 => if off = FAL_HIST_DATA_BYTES.off then [(FAL_HIST_DATA_BYTES, sget (fun _ => 0) s.hist (s.get FAL_HIST_SEL_BIN))] else []
  | 5 => if off = PKR_STATUS_WAITING.off then [(PKR_STATUS_WAITING, s.waiting)] else []
  | 6 => if 0x181000 ≤ off then s.oqShown off else []
  | 7 => if 0x1C0100 ≤ off then s.bpmShown ix off else []
  | 9 =>
    let ch := (off - 0x240200) / 64
    if 0x240200 ≤ off ∧ off = (LMC_CH_TRACE_DATA_CMD ch).off then
      [(⟨off, 0, 27⟩, (s.lmc.trace.getD ch []).getD (s.get (LMC_CH_TRACE_SEL_ENTRY ch)) 0)] else []
  | 10 =>
    let b := (off - 0x280100) / 64
    if 0x280100 ≤ off ∧ off = (MGH_MAG_RATE_MBPS b).off then [(MGH_MAG_RATE_MBPS b, s.bayRate b)] else []
  | 11 => if off = CXP_BIAS_STAT_BIAS.off then [(CXP_BIAS_STAT_BIAS, b2n (s.pageBias (s.get CXP_BIAS_PAGE_INDEX)))] else []
  | 12 => if off = (ETH_P_F_CLASS_CLASS 0 2).off ∨ off = (ETH_P_F_CLASS_CLASS 1 2).off then [(⟨off, 0, 3⟩, 7)] else []
  | 13 =>
    if off = PXP_LUT_DATA_VALUE.off then [(PXP_LUT_DATA_VALUE, sget (fun i => i / 4) s.proxy.lut (s.get PXP_LUT_SEL_INDEX))] else []
  | 17 =>
    let c := s.get KPR_REFUSE_SEL_CODE
    if off = KPR_REFUSE_DATA_REFUSED.off then
      [(KPR_REFUSE_DATA_REFUSED, (aget s.kpr.refused c).getD 0), (KPR_REFUSE_DATA_ABORTED, (aget s.kpr.aborted c).getD 0)] else []
  | 18 => s.fcShown off
  | 20 => s.icuShown off
  | 23 => s.ceShown off
  | _ => []

/-- The value of the register whose first word lies at `off`: its low word below its high word. -/
def State.regValue (s : State) (ix off : Nat) : Nat :=
  (s.shown ix off).foldl (fun n e => insBits n e.1.lo e.1.width e.2)
    ((s.word off).toNat + 2 ^ 32 * (s.word (off + 4)).toNat)

/-- The word of a register that a read returns. -/
def State.readValue (s : State) (ix base : Nat) (high : Bool) : Word :=
  let n := s.regValue ix base
  BitVec.ofNat 32 (if high then n / 2 ^ 32 else n)

/-- A read of a 64-bit quantity's low word latches its high word until that is read (R6). -/
def State.readLow (s : State) (ix off : Nat) : State :=
  { s with latch := aput s.latch (latchKey ix (off + 4)) (s.readValue ix off true) }.answer (.word (s.readValue ix off false))

/-- A read of a 64-bit quantity's high word (R6). -/
def State.readHigh (s : State) (ix off : Nat) : State :=
  match aget s.latch (latchKey ix off) with
  | some h => { s with latch := adel s.latch (latchKey ix off) }.answer (.word h)
  | none => s.answer (.word (s.readValue ix (off - 4) true))

/-- Reads that do something (R253, R259, R342, R442, R443). -/
def State.readDoes (s : State) (a : Agent) (ix off : Nat) : Option State :=
  let q := (off - 0x181000) / 64
  let p := (off - 0x1C0100) / 64
  let e := (off - 0x301000) / 0x1000
  let v := (off - 0x502000) / 16
  if 0x181000 ≤ off ∧ q < 72 ∧ off = (OQ_Q_POP_DATA q).off then some (did (execOqPop a q s) s)
  else if 0x1C0100 ≤ off ∧ p < 16 ∧ off = (BPM_P_ALLOC_RESULT p).off then some (did (execBpmAlloc (reqAt ix) p s) s)
  else if 0x301000 ≤ off ∧ e < 2 ∧ off = (ETH_P_TS_INFO_VALID e).off then some (did (execEthTsPop a e s) s)
  else if off = ICU_MGC_CLAIM_ID.off then some (did (execIcuMgcClaim a s) s)
  else if 0x502000 ≤ off ∧ v < 64 ∧ off = (ICU_HV_CLAIM_ID v).off then some (did (execIcuHvClaim v s) s)
  else none

/-- A naturally aligned 32-bit read of a block's register, or of a reserved offset (R40). A DMA channel's is one of agent `a` at a place
`ix` of its own. -/
def State.readReg (s : State) (a : Agent) (ix off : Nat) : State :=
  match regFind off with
  | none => s.reserved off none
  | some (r, _, _, high) =>
    match s.readDoes a ix off with
    | some t => t
    | none =>
      if high then s.readHigh ix off
      else if r.wide then s.readLow ix off
      else s.answer (.word (s.readValue ix off false))

/-- A read of a word, wherever it lies, by agent `a` as the requester at place `ix`. What a follower would answer is a free value. -/
def State.readWordAt (s : State) (a : Agent) (ix off : Nat) : State :=
  if !s.awake then s.noAccess a
  else if gangWindow off then let (v, s) := s.draw; s.gangAccess a off none (BitVec.ofNat 32 v)
  else if s.isOff off then s.offAccess a off true
  else s.readReg a ix off

/-- A read of a word by an agent. -/
def State.readWord (s : State) (a : Agent) (off : Nat) : State := s.readWordAt a (agentIx a) off

/-! ## Writes: which fields take them -/

/-- The bits of a field that lie in the low or the high word of its register. -/
def RegField.mask (f : RegField) (high : Bool) : Nat :=
  let m := (2 ^ f.width - 1) * 2 ^ f.lo
  if high then m / 2 ^ 32 else m % 2 ^ 32

/-- The bit of a register that starts and stops its block (R424), for the registers that have one. -/
def enBit (off : Nat) : Option Nat :=
  if [0x80000, 0xC0000, 0x100000, 0x140000, 0x180000, 0x240000, 0x280000, 0x340000, 0x440000, 0x301000, 0x302000, 0x300100, 0x300140,
      0x380000, 0x381000].contains off then some 0
  else if 0x1C0108 ≤ off ∧ off < 0x1C0508 ∧ off % 64 = 8 then some 4
  else none

/-- The block that a Halt-class field of the register at `off` belongs to is halted, as its chapter defines it (R52, R224, R248, R256,
R265, R311, R424). -/
def State.halted (s : State) (off : Nat) : Bool :=
  match blockOf off with
  | 0 => !s.beaconRuns
  | 2 => !s.flag PPR_CTRL_EN
  | 3 => !s.flag TLR_CTRL_EN
  | 4 => !s.flag FAL_CTRL_EN
  | 5 => !s.flag PKR_CTRL_EN
  | 6 => !s.flag OQ_CTRL_EN
  | 7 => !s.flag (BPM_P_CFG_EN ((off - 0x1C0100) / 64))
  | 8 => let n := (off - 0x200100) / 64; !s.flag (DMA_CH_CTRL_EN n) || s.chanState n == 3
  | 9 => !s.flag LMC_CTRL_EN
  | 10 => !s.flag MGH_CTRL_EN
  | 11 => !s.host
  | 12 => if off < 0x301000 then !s.flag (ETH_SND_CTRL_EN ((off - 0x300100) / 64)) else !s.flag (ETH_P_CTRL_EN ((off - 0x301000) / 0x1000))
  | 13 => !s.flag PXP_CTRL_EN
  | 14 => !s.flag (CAN_C_CTRL_EN ((off - 0x380000) / 0x1000))
  | 17 => !s.flag KPR_CTRL_EN
  | 23 => let (r, o) := regionOf off; s.iaHalted (17 * r + (o - 0x200000) / 0x10000)
  | _ => true

/-- A Halt-class field at bit `lo` of the register at `off` may be written by a write of `v` (R424): its block is halted, or this write
starts or stops it. OUT_FMT and OUT_RATE also need every sender to be stopped (R341). -/
def State.mayWriteHalt (s : State) (off lo : Nat) (v : Word) : Bool :=
  let flips := match enBit off with | some b => bitAt v.toNat b != bitAt (s.word off).toNat b | none => false
  (s.halted off || flips) &&
    !(decide (off = PXP_CTRL_OUT_FMT.off ∧ 3 ≤ lo) && (s.flag (ETH_SND_CTRL_EN 0) || s.flag (ETH_SND_CTRL_EN 1)))

/-- Values of the Ethernet port registers that are discarded (R329, R330, R347). -/
def ethBad (o lo n : Nat) : Bool :=
  if o = 0 then
    let fec := bits n 2 2
    if lo = 2 then fec == 3 || (fec == 2 && bits n 1 1 == 1) else lo == 1 && fec == 2 && bits n 1 1 == 1
  else if o = 0x2C ∨ o = 0x38 then bits n 0 11 == 0 || decide (1024 < bits n 0 11)
  else if 0x200 ≤ o ∧ o < 0x400 then
    if o % 16 = 0 then decide (bits n 16 16 < bits n 0 16)
    else o % 16 == 4 && (decide (bits n 0 16 < 1542) || decide (bits n 16 16 < 1542))
  else false

/-- The value that a write of `n` gives the field at bit `lo` of the register at `off` is one that is discarded and logged. -/
def State.badField (s : State) (off lo n : Nat) : Bool :=
  match blockOf off with
  | 0 => off == BU_CTRL_SRC.off && lo == 1 && bits n 1 2 == 3
  | 1 =>
    if off = TB_ADJ_ADJ.off then decide (4294967 < (signed 32 n).natAbs)
    else if off = TB_LTC_CTRL_RATE.off then
      let rate := if 6 ≤ bits n 0 3 then s.get TB_LTC_CTRL_RATE else bits n 0 3
      if lo = 0 then decide (6 ≤ bits n 0 3) else lo == 4 && bits n 4 2 == 3 && decide (2 < rate)
    else false
  | 2 => off == PPR_CTRL_BOND.off && lo == 1 && bits n 1 2 == 3
  | 6 => decide (0x181000 ≤ off) && off % 64 == 8 && n % 4096 != 0
  | 7 => decide (0x1C0100 ≤ off) && ((off % 64 == 8 && lo == 0 && decide (13 ≤ bits n 0 4)) || (off % 64 == 12 && decide (2 ^ 20 < bits n 0 21)))
  | 8 => decide (0x200100 ≤ off) && off % 64 == 12 && (bits n 0 13 == 0 || decide (4096 < bits n 0 13))
  | 9 => off == LMC_WQ_HIGH.off && lo == 0 && decide (bits n 0 6 ≤ bits n 8 6)
  | 10 =>
    (off == MGH_STAGE_SIZE_BYTES.off && n % 2 ^ 20 != 0) ||
      (decide (0x280100 ≤ off) && off % 64 == 36 && (bits n 0 11 == 0 || decide (1024 < bits n 0 11)))
  | 12 => decide (0x301000 ≤ off) && ethBad ((off - 0x301000) % 0x1000) lo n
  | 13 => off == PXP_CTRL_OUT_RATE.off && lo == 4 && decide (8 ≤ bits n 4 4)
  | 14 => (off % 0x1000 == 0x18 || off % 0x1000 == 0x24) && (bits n 0 9 == 0 || decide (256 < bits n 0 9))
  | 17 => decide (0x440040 ≤ off ∧ off < 0x440084) && decide (bits n 0 16 < keeperCost ((off - 0x440040) / 4))
  | 20 => decide (0x501000 ≤ off ∧ off < 0x501800) && off != (ICU_SRC_TARGET 49).off && lo == 10 && bits n 10 2 == 3
  | _ => false

/-- A field whose writes are ignored (R345, R437, R443). -/
def ignoredField (off lo : Nat) : Bool :=
  off == (ETH_P_F_CLASS_CLASS 0 2).off || off == (ETH_P_F_CLASS_CLASS 1 2).off ||
    (decide (0x501000 ≤ off ∧ off < 0x501800) &&
      ((decide ((ICU_SRC_SENSE 384).off ≤ off) && lo == 8) || (off == (ICU_SRC_TARGET 49).off && (lo == 10 || lo == 12))))

/-- What becomes of a write of `v` at a field (R9, R424): 0 nothing to store, 1 stored, 2 discarded and logged. -/
def State.fieldTakes (s : State) (off : Nat) (high : Bool) (v : Word) (f : RegField) : Nat :=
  let m := f.mask high
  let base := if high then off - 4 else off
  let new := v.toNat &&& m
  let old := (s.word off).toNat &&& m
  if ignoredField base f.lo then 0
  else
    match f.acc with
    | .rw => if s.badField base f.lo v.toNat then 2 else 1
    | .rwb => if s.badField base f.lo v.toNat then 2 else 1
    | .rwh =>
      if enBit base = some f.lo then 1
      else if new = old then 0
      else if s.mayWriteHalt base f.lo v && !s.badField base f.lo v.toNat then 1 else 2
    | _ => 0

/-! ## Writes: what they start and stop -/

/-- Registers whose field that starts and stops something acts through a command, with that field's bit. -/
def hookBit (off : Nat) : Option Nat :=
  if off = BU_CTRL_RUN.off then some 0
  else if 0x200100 ≤ off ∧ off < 0x200500 ∧ off % 64 = 0 then some 0
  else match enBit off with | some 0 => some 0 | _ => none

/-- A sender stops (R341): the frame it was sending ends. -/
def State.stopSender (s : State) (k : Nat) : State :=
  { (s.set (ETH_SND_CTRL_EN k) 0).set (ETH_SND_STAT_RUNNING k) 0 with proxy := { s.proxy with senders := modAt s.proxy.senders k fun x => { x with
    frame := none
    pic := none
    next := 0 } } }

/-- The Output Queues halt: every entry is discarded. -/
def State.stopQueues (s : State) : State :=
  { s.set OQ_CTRL_EN 0 with queues := s.queues.map (fun _ => OutQ.reset), refs := [] }

/-- The LMC stops (R237): it is ready no longer. -/
def State.stopLmc (s : State) : State :=
  { (s.set LMC_CTRL_EN 0).set LMC_STATUS_READY 0 with lmc := { s.lmc with initFrom := none, wq := [], held := [], training := List.replicate 4 none } }

/-- The Magazine Host stops: it takes no entry of a read request ring. -/
def State.stopMgh (s : State) : State :=
  { s.set MGH_CTRL_EN 0 with mag := { s.mag with bays := s.mag.bays.map fun x => { x with rqRun := false } } }

/-- The Proxy Path stops: the picture in development is abandoned. -/
def State.stopProxy (s : State) : State :=
  { (s.set PXP_CTRL_EN 0).set PXP_STATUS_DEVELOPING 0 with proxy := { s.proxy with
    gather := []
    input := none } }

/-- An Ethernet port starts: the address of 0x1100:0B or 0x1100:0C is its own (R353). -/
def State.startPort (s : State) (p : Nat) : State :=
  let s := s.set (ETH_P_CTRL_EN p) 1
  let ip := s.setting 0x1100 (11 + p)
  s.when (ip != 0) (·.set (ETH_P_IPV4_ADDR p) ip)

/-- A write has changed the field that starts and stops what the register at `off` belongs to. -/
def State.startStop (s : State) (a : Agent) (off : Nat) (en : Bool) : State :=
  match blockOf off with
  | 0 => if en then did (execBeaconRun a s) s else did (execBeaconStop a s) s
  | 2 => if en then did (execPprEnable a s) s else s.pprStop
  | 3 => s.set TLR_CTRL_EN (b2n en)
  | 4 => s.set FAL_CTRL_EN (b2n en)
  | 5 => s.set PKR_CTRL_EN (b2n en)
  | 6 => if en then s.set OQ_CTRL_EN 1 else s.stopQueues
  | 8 => did (execDmaEnable a ((off - 0x200100) / 64) en s) s
  | 9 => if en then did (execLmcEnable a s) s else s.stopLmc
  | 10 => if en then s.enableMgh else s.stopMgh
  | 12 =>
    if off < 0x301000 then
      let k := (off - 0x300100) / 64
      if en then did (execSenderEnable a k s) s else s.stopSender k
    else
      let p := (off - 0x301000) / 0x1000
      if en then s.startPort p else s.set (ETH_P_CTRL_EN p) 0
  | 13 => if en then s.set PXP_CTRL_EN 1 else s.stopProxy
  | 14 => s.canEnable ((off - 0x380000) / 0x1000) en
  | 17 => s.set KPR_CTRL_EN (b2n en)
  | _ => s

/-! ## Writes: what they command -/

/-- Do what bit `b` of a written word commands. -/
def State.bitDoes (s : State) (v : Word) (b : Nat) (f : State → Host.Outcome State Fault Refusal) : State :=
  if v.toNat.testBit b then did (f s) s else s

/-- `CE_ENG_CMD`, `CE_ENG_CLR` and `CE_ENG_IA_CMD` (R207, R224). What the ECC finds in a
word read is a free value; CE_IA_READ gives one. -/
def State.ceStrobe (s : State) (a : Agent) (off : Nat) (v : Word) : State :=
  let (r, o) := regionOf off
  let k := (o - 0x200000) / 0x10000
  let e : EngId := ⟨r, k / 4, k % 4, k == 16⟩
  if o < 0x200000 then s
  else if o % 0x10000 = 0x4 then
    let s := (s.bitDoes v 0 (execCeHalt a e)).bitDoes v 1 (execCeResume a e)
    let s := (s.bitDoes v 2 (execCeLoad a e)).bitDoes v 3 (execCeReset a e)
    (s.bitDoes v 4 (execCeUnretire a e)).bitDoes v 5 (execCeAdmit a e)
  else if o % 0x10000 = 0x30 then s.bitDoes v 0 (execCeClrCounts a e)
  else if o % 0x10000 = 0x5C then
    let (x, s) := s.draw
    s.bitDoes v 0 (execCeIaRead a e ([EccFinding.clean, .correctable, .uncorrectable 0 0].getD (x % 3) .clean))
  else s

/-- `MGH_CMD` and the doorbells of the read request rings. -/
def State.mghStrobe (s : State) (a : Agent) (off : Nat) (v : Word) : State :=
  if off = MGH_CMD_MOOR.off then
    let bays := bits v.toNat 8 4
    let s := ((s.bitDoes v 0 (execMoor a bays)).bitDoes v 1 (execUnmoor a bays)).bitDoes v 2 (execFormat a bays)
    let s := (s.bitDoes v 3 (execOpenClip a)).bitDoes v 4 (execCloseClip a (bits v.toNat 16 3))
    ((s.bitDoes v 5 (execDeleteLast a)).bitDoes v 6 (execRebuild a)).bitDoes v 7 (execMghClrCounts a)
  else if 0x280100 ≤ off ∧ off % 64 = 40 then s.bitDoes v 0 (execRqDoorbell a ((off - 0x280100) / 64))
  else s

/-- `LMC_CMD` and `LMC_CHc_POLICY`. -/
def State.lmcStrobe (s : State) (a : Agent) (off : Nat) (v : Word) : State :=
  if off = LMC_CMD_RETRAIN.off then
    let p := bits v.toNat 4 3
    let s := (s.bitDoes v 0 (execLmcRetrain a p)).bitDoes v 1 (execLmcRetire a p)
    (s.bitDoes v 2 (execLmcThaw a p)).bitDoes v 3 (execLmcClrCounts a)
  else if 0x240200 ≤ off ∧ off % 64 = 0 then s.bitDoes v 1 (execClrCapture a ((off - 0x240200) / 64))
  else s

/-- `BPM_Pp_OP` and `BPM_Pp_INIT`, on the requester's own operation address (R256, R260, R261). -/
def State.bpmStrobe (s : State) (a : Agent) (ix off : Nat) (v : Word) : State :=
  let p := (off - 0x1C0100) / 64
  let addr := (s.pool p).opAddr.getD ix 0
  if off < 0x1C0100 then s
  else if off = (BPM_P_OP_FREE p).off then
    (s.bitDoes v 0 (execBpmFree (reqAt ix) p addr)).bitDoes v 1 (execBpmHandover (reqAt ix) p addr (bits v.toNat 8 8))
  else if off = (BPM_P_INIT_INIT p).off then s.bitDoes v 0 (execBpmInit a p)
  else s

/-- The strobes of the Ethernet ports. -/
def State.ethStrobe (s : State) (a : Agent) (off : Nat) (v : Word) : State :=
  let p := (off - 0x301000) / 0x1000
  let o := (off - 0x301000) % 0x1000
  if off < 0x301000 then s
  else if o = 0x3C then (s.bitDoes v 0 (execEthRingKickTx a p)).bitDoes v 1 (execEthRingKickRx a p)
  else if o = 0x50 then s.bitDoes v 0 (execGateCommit a p)
  else if o = 0x488 then s.bitDoes v 0 (execEthClrCounts a p)
  else s

/-- `DMA_CHn_CTRL` beside EN and PRIO (R265, R270). -/
def State.dmaStrobe (s : State) (a : Agent) (off : Nat) (v : Word) : State :=
  let n := (off - 0x200100) / 64
  if 0x200100 ≤ off ∧ off % 64 = 0 then
    let s := (s.bitDoes v 2 (execDmaKick a n)).bitDoes v 3 (execDmaResume a n)
    (s.bitDoes v 4 (execDmaSkip a n)).bitDoes v 5 (execDmaAbort a n)
  else s

/-- The strobes of the Interrupt Controller. -/
def State.icuStrobe (s : State) (a : Agent) (off : Nat) (v : Word) : State :=
  if off = ICU_CMD_CLR_ONE.off then (s.bitDoes v 0 (execClrOne a (bits v.toNat 16 9))).bitDoes v 1 (execClrAll a)
  else if off = ICU_DOORBELL_SOURCE.off then did (execIcuDoorbell v s) s
  else if off = ICU_MGC_COMPLETE_ID.off then did (execIcuMgcComplete a v s) s
  else if 0x501800 ≤ off ∧ off < 0x501840 then did (execIcuPendSet a ((off - 0x501800) / 4) v s) s
  else if 0x501840 ≤ off ∧ off < 0x501880 then did (execIcuPendClr a ((off - 0x501840) / 4) v s) s
  else if 0x502000 ≤ off ∧ off % 16 = 4 then did (execIcuHvComplete ((off - 0x502000) / 16) v s) s
  else s

/-- The write-only and write-1-to-set fields of the register at `off` act, in the order of their bits. -/
def State.strobe (s : State) (a : Agent) (ix off : Nat) (v : Word) : State :=
  match blockOf off with
  | 0 => if off = BU_CMD_FORCE_COMMIT.off then (s.bitDoes v 0 (execForceCommit a)).bitDoes v 1 (execBuClrCounts a) else s
  | 1 =>
    if off = TB_CMD_SET.off then
      (((s.bitDoes v 0 (execTbSet a)).bitDoes v 1 (execTbStep a)).bitDoes v 2 (execTbLock a)).bitDoes v 3 (execTbUnlock a)
    else if off = TB_LTC_CMD_LOAD.off then s.bitDoes v 0 (execLtcLoad a)
    else if off = TB_LTC_CTRL_RATE.off then s.genChange
    else s
  | 2 =>
    if off = PPR_SUBST_GO.off then (s.bitDoes v 4 (execSubstGo a)).bitDoes v 5 (execSubstUndo a)
    else if off = PPR_CMD_CLR_COUNTS.off then (s.bitDoes v 0 (execPprClrCounts a)).bitDoes v 1 (execPprRetrain a)
    else s
  | 4 => if off = FAL_CMD_CLR_COUNTS.off then s.bitDoes v 0 (execFalClrCounts a) else s
  | 5 => if off = PKR_CMD_CLR_COUNTS.off then s.bitDoes v 0 (execPkrClrCounts a) else s
  | 6 => if 0x181000 ≤ off ∧ off % 64 = 0x18 then s.bitDoes v 0 (execPushEnd a ((off - 0x181000) / 64)) else s
  | 7 => s.bpmStrobe a ix off v
  | 8 => s.dmaStrobe a off v
  | 9 => s.lmcStrobe a off v
  | 10 => s.mghStrobe a off v
  | 11 =>
    if off = CXP_BIAS_CMD_TO_HOST.off then (s.bitDoes v 0 (execToHost a)).bitDoes v 1 (execToDevice a)
    else if off = CXP_CMD_CLR_COUNTS.off then (s.bitDoes v 0 (execCxpClrCounts a)).bitDoes v 1 (execCacheFlush a)
    else s
  | 12 => s.ethStrobe a off v
  | 13 =>
    if off = PXP_CMD_REVIEW_GO.off then (s.bitDoes v 0 (execReviewGo a)).bitDoes v 1 (execPxpClrCounts a)
    else if off = PXP_HOST_FREE_MAP.off then s.set PXP_HOST_FREE_MAP (s.get PXP_HOST_FREE_MAP ||| v.toNat % 256)
    else s
  | 14 =>
    if off % 0x1000 = 0x28 then did (execCanRingKick a ((off - 0x380000) / 0x1000) (v.toNat.testBit 0) (v.toNat.testBit 1) s) s else s
  | 17 =>
    if off = KPR_CMD_RETAIN.off then
      ((s.bitDoes v 0 (execRetain a)).bitDoes v 1 (execOff a)).bitDoes v 2 (execKprClrCounts a) else s
  | 18 =>
    if off = FC_LEVEL_CMD_BASIC.off then (s.bitDoes v 0 (execBasic a)).bitDoes v 1 (execRestore a)
    else if off = FC_FIRST_CLR_CLR.off then s.bitDoes v 0 (execFcFirstClr a)
    else if off = FC_CMD_CLR_COUNTS.off then s.bitDoes v 0 (execFcClrCounts a)
    else s
  | 20 => s.icuStrobe a off v
  | 23 => s.ceStrobe a off v
  | _ => s

/-! ## Writes: registers taken whole -/

/-- `RSTC_REQ` (R429, R430): the reach asked for, under its key. -/
def State.resetRequest (s : State) (a : Agent) (v : Word) : State :=
  let n := v.toNat
  if bits n 16 8 ≠ 0x5A then s.cfg RSTC_REQ_REACH.off
  else
    match bits n 0 4 with
    | 1 => did (execRstcWarm a s) s
    | 2 => did (execRstcDie a (bits n 4 1) s) s
    | 3 => did (execRstcEngine a ⟨bits n 8 2, bits n 10 2, bits n 12 2, bits n 14 1 == 1⟩ s) s
    | 4 => did (execRstcCold a s) s
    | 5 => did (execRstcLink a s) s
    | _ => s.cfg RSTC_REQ_REACH.off

/-- `FC_SEV_DATA` (R417): the entry selected takes SEV and is as raised no longer. Nothing is stored in the SERVICE column or for source
0x00. -/
def State.writeSeverity (s : State) (v : Word) : State :=
  let src := s.get FC_SEV_SEL_SOURCE
  let ph := s.get FC_SEV_SEL_PHASE
  if src = 0 ∨ ph = 1 then s
  else { s with fc := { s.fc with sev := sput sevDefault s.fc.sev (256 * ph + src) (v.toNat % 4) } }

/-- A word of a requester's operation address in pool `p`. -/
def State.writeOpAddr (s : State) (ix p : Nat) (high : Bool) (v : Word) : State :=
  let old := (s.pool p).opAddr.getD ix 0
  let new := if high then old % 2 ^ 32 + 2 ^ 32 * v.toNat else old / 2 ^ 32 * 2 ^ 32 + v.toNat
  s.modPool p fun o => { o with opAddr := setAt o.opAddr ix new }

/-- Registers of the Magazine Host that only the Management Controller writes. -/
def mghOwned (off : Nat) : Bool :=
  off == MGH_CMD_MOOR.off || off == MGH_FMT0_WIDTH.off || off == MGH_FMT1_RATED_MBPS.off ||
    decide ((MGH_NAME_BYTES 0).off ≤ off ∧ off ≤ (MGH_NAME_BYTES 15).off)

/-- The image registers of a region, which the host does not write (R220). -/
def ucOwned (off : Nat) : Bool :=
  (List.range 4).any fun r => off == (CE_RG_UC_ADDR_ADDR r).off || off == (CE_RG_UC_ADDR_ADDR r).off + 4 || off == (CE_RG_UC_CRC_CRC r).off

/-- Writes that a register takes as a whole. -/
def State.writeWhole (s : State) (a : Agent) (ix off : Nat) (v : Word) : Option State :=
  let p := (off - 0x1C0100) / 64
  if off = BU_EPOCH_PRESET_EPOCH.off then some (did (execEpochPreset a v s) s)
  else if off = TB_CTRL_REF.off then some (did (execTbRefChange a (v.toNat % 4) s) s)
  else if off = PXP_LUT_DATA_VALUE.off then some (did (execPxpLutWrite a v s) s)
  else if 0x1C0100 ≤ off ∧ p < 16 ∧ off = (BPM_P_OP_ADDR_ADDR p).off then some (s.writeOpAddr ix p false v)
  else if 0x1C0100 ≤ off ∧ p < 16 ∧ off = (BPM_P_OP_ADDR_ADDR p).off + 4 then some (s.writeOpAddr ix p true v)
  else if off = FC_PHASE_PHASE.off then some (did (execFcPhaseWrite a v s) s)
  else if off = FC_SEV_DATA_SEV.off then some (s.mgcOnly a off fun s => s.writeSeverity v)
  else if off = FC_RAISE_SOURCE.off then some (did (execFcRaise a v s) s)
  else if off = RSTC_REQ_REACH.off then some (s.resetRequest a v)
  else if off = RSTC_WDOG_MS.off then some (did (execWatchdogConfig a v s) s)
  else if off = RSTC_WDOG_KICK_KEY.off then some (did (execWatchdogKick a v s) s)
  else if a = .host ∧ (mghOwned off || ucOwned off) then some (s.cfg off)
  else none

/-! ## Writes -/

/-- The levels of the buckets whose rate or depth a write changes are settled at the old ones first (R347, R351). -/
def State.settleBuckets (s : State) (off : Nat) : State :=
  let p := (off - 0x301000) / 0x1000
  let o := (off - 0x301000) % 0x1000
  if off < 0x301000 ∨ 0x303000 ≤ off then s
  else if 0x200 ≤ o ∧ o < 0x400 then
    let f := (o - 0x200) / 16
    s.putBuckets p f (s.flowBuckets p f)
  else if 0x400 ≤ o ∧ o < 0x440 then
    let c := (o - 0x400) / 8
    s.putPolice p c (s.policeLevel p c)
  else s

/-- The bits of a written word that its register stores, and whether some field discards it. -/
def State.storedBits (s : State) (off : Nat) (high : Bool) (v : Word) (fs : List RegField) : Nat × Bool :=
  (fs.foldl (fun m f => if s.fieldTakes off high v f = 1 then m + f.mask high else m) 0, fs.any fun f => s.fieldTakes off high v f == 2)

/-- The word that a register holds after a write: the stored bits taken, write-1-to-clear bits cleared. -/
def newWord (old v : Word) (m c : Nat) : Word :=
  let m := BitVec.ofNat 32 m
  ((old &&& ~~~m) ||| (v &&& m)) &&& ~~~(v &&& BitVec.ofNat 32 c)

/-- A Beacon-class write is tagged whatever it carries (R55). -/
def State.tagReg (s : State) (a : Agent) (r : RegSpec) (high : Bool) : State :=
  s.when (r.fields.any fun f => f.acc == .rwb && f.mask high != 0) (·.tagWrite a)

/-- The fields of a register take a written word (R9): what they store is stored, and what they start or stop starts or stops. -/
def State.takeFields (s : State) (a : Agent) (off : Nat) (v : Word) (r : RegSpec) (high : Bool) : State :=
  let m := (s.storedBits off high v r.fields).1
  let hook := if high then none else hookBit off
  let old := s.word off
  let flips := match hook with | some b => bitAt v.toNat b != bitAt old.toNat b | none => false
  let m := match hook with | some b => m &&& (2 ^ 32 - 1 - 2 ^ b) | none => m
  let s := (s.settleBuckets off).putWord off (newWord old v m (r.maskOf high fun x => x == .w1c))
  s.when flips fun s => s.startStop a off (v.toNat.testBit (hook.getD 0))

/-- A write of a word of a register (R9, R424), field by field. A write that several fields discard is logged once. -/
def State.writeFields (s : State) (a : Agent) (ix off : Nat) (v : Word) (r : RegSpec) (high : Bool) : State :=
  let bad := (s.storedBits off high v r.fields).2
  let s := ((s.tagReg a r high).takeFields a off v r high).when bad (·.cfg off)
  if high then s else s.strobe a ix off v

/-- The Management Controller's writes of the present clock, with one more (R42). -/
def State.noteMgcWrite (s : State) (off : Nat) (v : Word) : State :=
  { s with mgcWrites := ⟨s.now, aput (if s.mgcWrites.at_ = s.now then s.mgcWrites.words else []) off v⟩ }

/-- What the Management Controller wrote to a register in the present clock (R42). -/
def State.mgcWrote (s : State) (off : Nat) : Option Word := if s.mgcWrites.at_ = s.now then aget s.mgcWrites.words off else none

/-- A host write is applied before the Management Controller's of the same clock (R42): where that one came first, its value is
taken again, and what it strobes is not. -/
def State.mgcLast (s : State) (a : Agent) (off : Nat) (r : RegSpec) (high : Bool) : State :=
  match a, s.mgcWrote off with
  | .host, some v => if off = BU_EPOCH_PRESET_EPOCH.off ∨ off = TB_CTRL_REF.off then (s.writeWhole .mgc 0 off v).getD s else s.takeFields .mgc off v r high
  | _, _ => s

/-- A naturally aligned 32-bit write of a block's register, or of a reserved offset (R40). -/
def State.writeReg (s : State) (a : Agent) (ix off : Nat) (v : Word) : State :=
  match regFind off with
  | none => s.reserved off (some v)
  | some (r, _, _, high) =>
    let t := match s.writeWhole a ix off v with
      | some t => t
      | none => s.writeFields a ix off v r high
    (t.mgcLast a off r high).when (ix == 0) (·.noteMgcWrite off v)

/-- The queue whose push window holds an offset (R252). -/
def pushAt (off : Nat) : Option Nat :=
  if 0x1A0000 ≤ off ∧ off < 0x1A8000 ∧ pushQueue (64 + (off - 0x1A0000) / 0x1000) then some (64 + (off - 0x1A0000) / 0x1000) else none

/-- A write of a word, wherever it lies, by agent `a` as the requester at place `ix`. -/
def State.writeWordAt (s : State) (a : Agent) (ix off : Nat) (v : Word) : State :=
  if !s.awake then s.noAccess a
  else if gangWindow off then s.gangAccess a off (some v) 0#32
  else if s.isOff off then s.offAccess a off false
  else
    match pushAt off with
    | some q => s.push q ((off - 0x1A0000) % 0x1000) (le 4 v.toNat)
    | none => if off % 4 = 0 then s.writeReg a ix off v else s.cfgAt off

/-- A write of a word by an agent. -/
def State.writeWord (s : State) (a : Agent) (off : Nat) (v : Word) : State := s.writeWordAt a (agentIx a) off v

/-- REGISTER_WRITE (R424). -/
def execRegisterWrite (a : Agent) (off : Nat) (v : Word) (s : State) : Host.Outcome State Fault Refusal := .next (s.writeWord a off v)

/-- LOW_WORD_LATCH_READ (R6): a read of a low word, or of any word. -/
def execLowWordLatchRead (a : Agent) (off : Nat) (s : State) : Host.Outcome State Fault Refusal := .next (s.readWord a (off / 4 * 4))

/-- An access that is not a naturally aligned 32-bit access (R7): a read returns the whole word, and where it crosses a word or is wider
than 4 bytes the word of its first byte (DESIGN CHOICE, log entry 39); a write is discarded and logged, but for the push windows, which
take aligned writes of 8 and 64 bytes also (R252). -/
def State.oddAccess (s : State) (a : Agent) (off size : Nat) (w : Option Word) : State :=
  if off % 4 = 0 ∧ size = 4 then (match w with | none => s.readWord a off | some v => s.writeWord a off v)
  else
    match w with
    | none => s.readWord a (off / 4 * 4)
    | some _ =>
      if !s.awake then s.noAccess a
      else if gangWindow off then s.gangAccess a off w 0#32
      else if s.isOff off then s.offAccess a off false
      else s.cfgAt off

/-- UNALIGNED_ACCESS (R7). -/
def execUnalignedAccess (a : Agent) (off size : Nat) (w : Option Word) (s : State) : Host.Outcome State Fault Refusal :=
  .next (s.oddAccess a off size w)

/-- RESERVED_OFFSET_ACCESS (R40). -/
def execReservedOffsetAccess (a : Agent) (off : Nat) (w : Option Word) (s : State) : Host.Outcome State Fault Refusal :=
  .next (match w with | none => s.readWord a (off / 4 * 4) | some v => s.writeWord a off v)

/-- GANG_WINDOW_ACCESS (R43). -/
def execGangWindowAccess (a : Agent) (off : Nat) (w : Option Word) (reply : Word) (s : State) : Host.Outcome State Fault Refusal :=
  .next (if s.awake then s.gangAccess a (0x2000000 + off % 0x2000000) w reply else s.noAccess a)

end Sys2Proof.Machine
end

