-- ==== Sys2Proof/Machine/Dma.lean ====
section
/-! DEFINITION. What a DMA descriptor does (R266 to R270) and what a program does (R271, R272): native copies, accesses to fixed
addresses of BAR0, the events of a completion, and the five instructions of program mode. A descriptor is moved whole by one command
(log entry 14). -/

namespace Sys2Proof.Machine

/-! ## Fixed accesses -/

/-- Bytes of what an access answered. -/
def Resp.data (r : Resp) : Option (List Nat) :=
  match r with | .word v => some (le 4 v.toNat) | .bytes b => some (toNats b) | _ => Option.none

/-- A fixed BAR0 read of `w` bytes by channel `n` (R7, R268, R428): a read that is not of 32 bits returns the whole word, and the bytes
beyond it are a free value. What software last read stays as it was. A pool sees the channel's own requester (R258). -/
def State.busRead (s : State) (n off w : Nat) : Option (List Nat) × State :=
  let old := s.resp
  if 2 ^ 26 ≤ off then (none, s)
  else if s.isOff off ∨ (gangWindow off ∧ s.role = 1 ∧ !s.gang.up) then (none, { s.readWordAt .mgc (n + 2) (off / 4 * 4) with resp := old })
  else
    let t := s.readWordAt .mgc (n + 2) (off / 4 * 4)
    let (x, u) := t.draw
    (some (((t.resp.data.getD []).take 4 ++ le 60 x).take w), { u with resp := old })

/-- A fixed BAR0 write by a channel (R7, R252, R268, R428): false where the block is off. -/
def State.busWrite (s : State) (n off : Nat) (l : List Nat) : Bool × State :=
  let old := s.resp
  if 2 ^ 26 ≤ off then (false, s)
  else if s.isOff off ∨ (gangWindow off ∧ s.role = 1 ∧ !s.gang.up) then (false, { s.writeWordAt .mgc (n + 2) (off / 4 * 4) 0#32 with resp := old })
  else
    match pushAt off with
    | some q => (true, s.push q ((off - 0x1A0000) % 0x1000) l)
    | none =>
      let v := BitVec.ofNat 32 (unle (l.take 4))
      let t := if l.length = 4 then s.writeWordAt .mgc (n + 2) off v else s.oddAccess .mgc off l.length (some v)
      (true, { t with resp := old })

/-- A read of `w` bytes at a fixed address: BAR0 lies from 2⁶³ on (log entry 7). -/
def State.fixRead (s : State) (n a w : Nat) : Option (List Nat) × State :=
  if a < 2 ^ 63 then s.memRead a w else s.busRead n (a - 2 ^ 63) w

/-- A write at a fixed address. -/
def State.fixWrite (s : State) (n a : Nat) (l : List Nat) : Bool × State :=
  if a < 2 ^ 63 then s.memWrite a l else s.busWrite n (a - 2 ^ 63) l

/-- A read of the line of an incrementing source that holds `a`, of which the funnel takes up to `len` bytes from `a` (R268). -/
def State.lineOf (s : State) (a len : Nat) : Option (List Nat) × State :=
  let (l, s) := s.memRead (a / 64 * 64) 64
  (l.map fun l => (l.drop (a % 64)).take len, s)

/-! ## Native copies (R268) -/

/-- What a copy is asked for: source, destination, length, which of them is fixed, FIX_WIDTH. -/
structure Copy where
  src : Nat
  dst : Nat
  len : Nat
  srcFix : Bool
  dstFix : Bool
  fixWidth : Nat
  deriving DecidableEq, Repr

/-- Bytes of an access to a fixed address. -/
def Copy.width (c : Copy) : Nat := match c.fixWidth with | 0 => 4 | 1 => 8 | _ => 64

/-- A fixed address is right for its width (R268). -/
def Copy.fixOk (c : Copy) (fixed : Bool) (a : Nat) : Bool :=
  if fixed then a % c.width == 0 && c.len % c.width == 0 else decide (a + c.len ≤ 2 ^ 63)

/-- The descriptor is a good one (R268, R270): no incrementing address lies in BAR0 space. -/
def Copy.ok (c : Copy) : Bool :=
  decide (1 ≤ c.len ∧ c.len ≤ 0x1000000) && c.fixWidth != 3 && c.fixOk c.srcFix c.src && c.fixOk c.dstFix c.dst

/-- The width of the write at `a` of an incrementing destination that ends at `e` (R268): a whole line, else the widest naturally
aligned narrow access that fits. -/
def narrow (a e : Nat) : Nat := ([64, 32, 16, 8, 4, 2].find? fun w => a % w == 0 && decide (a + w ≤ e)).getD 1

/-- The widths of the writes from `a` to `e`. -/
def spans : Nat → Nat → Nat → List Nat
  | 0, _, _ => []
  | f + 1, a, e => if a < e then narrow a e :: spans f (a + narrow a e) e else []

/-- The widths of a copy's writes, in order: those of R268 up to an incrementing destination's end, FIX_WIDTH for a fixed one. Before and
after its whole lines it has at most six each. -/
def Copy.pieces (c : Copy) : List Nat :=
  if c.dstFix then List.replicate (c.len / c.width) c.width else spans (c.len / 64 + 12) c.dst (c.dst + c.len)

/-- The next access to the source, at `p` bytes from its start: FIX_WIDTH bytes of a fixed one, what is left of a line (R268). -/
def Copy.readNext (c : Copy) (n p : Nat) (s : State) : Option (List Nat) × State :=
  if c.srcFix then s.fixRead n c.src c.width else s.lineOf (c.src + p) (c.len - p)

/-- Read on at `p` until `k` bytes stand in the funnel, at most `f` times: where the source has got to, and the funnel. -/
def Copy.fill (n : Nat) (c : Copy) (k : Nat) : Nat → Nat → List Nat → State → Option (Nat × List Nat) × State
  | 0, p, l, s => (some (p, l), s)
  | f + 1, p, l, s =>
    if k ≤ l.length then (some (p, l), s)
    else
      match c.readNext n p s with
      | (none, s) => (none, s)
      | (some x, s) => Copy.fill n c k f (p + x.length) (l ++ x) s

/-- Write the pieces of a copy in order, at `o` bytes from the destination's start, until an access fails: 0 done, 1 a read failed or
was poisoned, 2 a write failed. What was written before stands (R270). -/
def Copy.move (n : Nat) (c : Copy) : List Nat → Nat → Nat → List Nat → State → Nat × State
  | [], _, _, _, s => (0, s)
  | k :: t, o, p, l, s =>
    match c.fill n k 16 p l s with
    | (none, s) => (1, s)
    | (some (p, l), s) =>
      match (if c.dstFix then s.fixWrite n c.dst (l.take k) else s.memWrite (c.dst + o) (l.take k)) with
      | (false, s) => (2, s)
      | (true, s) => Copy.move n c t (o + k) p (l.drop k) s

/-- A native copy by channel `n`: the STATUS it would end with. -/
def State.copy (s : State) (n : Nat) (c : Copy) : Nat × State := if c.ok then c.move n c.pieces 0 0 [] s else (3, s)

/-! ## Descriptors -/

/-- The copy of a native descriptor (R266). -/
def DmaJob.native (j : DmaJob) : Copy := ⟨j.src, j.dst, j.len, bitAt j.ctrl 1 == 1, bitAt j.ctrl 2 == 1, bits j.ctrl 3 2⟩

/-- The descriptor runs a program. -/
def DmaJob.prog (j : DmaJob) : Bool := bitAt j.ctrl 5 == 1

/-- A program's address and length are good, and its FIX_WIDTH is not the reserved one (R266, R268, R270). -/
def DmaJob.progOk (j : DmaJob) : Bool :=
  decide (16 ≤ j.len ∧ j.len ≤ 65536 ∧ j.src + j.len ≤ 2 ^ 63) && j.len % 16 == 0 && bits j.ctrl 3 2 != 3

/-- Change the job of a channel. -/
def State.modJob (s : State) (n : Nat) (f : DmaJob → DmaJob) : State := s.modChan n fun c => { c with job := c.job.map f }

/-- The descriptor a channel works on: it runs and has not ended. -/
def State.running (s : State) (n : Nat) : Option DmaJob :=
  if s.awake && s.chanState n == 1 then (s.chan n).job.filter fun j => !j.done else none

/-- DMA_DESCRIPTOR (R268, R270): a native descriptor is moved; that of a program is checked. -/
def execDmaDescriptor (ch : Nat) (s : State) : Host.Outcome State Fault Refusal :=
  let n := ch % 16
  .next (match s.running n with
  | none => s
  | some j =>
    if j.prog then (if j.progOk then s else s.dmaHalt n 3)
    else
      match s.copy n j.native with
      | (0, t) => t.modJob n fun j => { j with done := true }
      | (st, t) => t.dmaHalt n st)

/-- An event is sent (R269). The INFO of a reserved code is not given and is a free value. -/
def State.sendEvent (s : State) (code : Nat) : State :=
  if code = 0 then s
  else if code < 0x40 then s.pulseLine code
  else if code = 0x41 ∨ code = 0x42 ∨ code = 0x45 then s.closePush (code - 0x41 + 65)
  else if 0x48 ≤ code ∧ code ≤ 0x4B then s.rqRing (code - 0x48)
  else if code = 0x4C then s.reviewStart
  else let (v, s) := s.draw; s.raise 0x01 8 (v % 2 ^ 32)

/-- DMA_DESCRIPTOR_COMPLETE (R267, R269, R270): a write-back that fails halts the channel as any failing write does. -/
def execDmaDescriptorComplete (ch : Nat) (s : State) : Host.Outcome State Fault Refusal :=
  let n := ch % 16
  .next (if !s.awake || s.chanState n != 1 then s
  else
    match (s.chan n).job with
    | none => s
    | some j =>
      if !j.done then s
      else
        match (s.sendEvent (bits j.ctrl 8 8)).putDesc n j 0 with
        | (false, t) => t.dmaHalt n 2
        | (true, t) =>
          let t := t.incWrap (DMA_CH_DONE_COUNT n)
          if bitAt j.ctrl 6 = 1 then t.haltAt n j.index else (t.modChan n fun c => { c with job := none }).dmaFetch n)

/-! ## Programs (R271) -/

/-- The instruction at which the program of channel `n` stands, when its opcode is `op`, is given to `f`. An opcode that is not in the
table, or running past the end, is a program error; a program that cannot be read is a read error. -/
def State.atOp (s : State) (n op : Nat) (f : DmaJob → List Nat → State → State) : State :=
  match s.running n with
  | none => s
  | some j =>
    if !j.prog then s
    else if !j.progOk then s.dmaHalt n 3
    else if j.len < j.pc + 16 then s.dmaHalt n 6
    else
      match s.memRead (j.src + j.pc) 16 with
      | (none, s) => s.dmaHalt n 1
      | (some l, s) =>
        let o := rdLe l 0 1
        if o = 0 ∨ 5 < o then s.dmaHalt n 6 else if o = op then f j l s else s

/-- The program passes on to its next instruction. -/
def State.nextOp (s : State) (n : Nat) : State := s.modJob n fun j => { j with pc := j.pc + 16 }

/-- The copy that a MOVE makes (R271). -/
def DmaJob.moveOf (j : DmaJob) (l : List Nat) : Copy :=
  let b := rdLe l 1 1
  let len := rdLe l 4 4
  let i := if bitAt b 4 = 1 then len * j.jumps.getD (rdLe l 2 1) 0 else 0
  ⟨(j.dst + rdLe l 8 4 + i) % 2 ^ 64, (j.dst + rdLe l 12 4 + i) % 2 ^ 64, len, bitAt b 0 == 1, bitAt b 1 == 1, bits b 2 2⟩

/-- MOVE (R271). A loop counter that does not exist is taken as a program error (log entry 31). -/
def execDmaMove (ch : Nat) (s : State) : Host.Outcome State Fault Refusal :=
  let n := ch % 16
  .next (s.atOp n 1 fun j l s =>
    if bitAt (rdLe l 1 1) 4 = 1 ∧ 3 < rdLe l 2 1 then s.dmaHalt n 6
    else
      match s.copy n (j.moveOf l) with
      | (0, t) => t.nextOp n
      | (st, t) => t.dmaHalt n st)

/-- LOOP (R271). -/
def execDmaLoop (ch : Nat) (s : State) : Host.Outcome State Fault Refusal :=
  let n := ch % 16
  .next (s.atOp n 2 fun j l s =>
    let k := rdLe l 2 1
    let target := rdLe l 8 4
    let c := (j.counters.getD k none).getD (rdLe l 4 4 - 1)
    if 3 < k ∨ j.pc ≤ target ∨ target % 16 ≠ 0 then s.dmaHalt n 6
    else if c = 0 then s.modJob n fun j => { j with counters := setAt j.counters k none, pc := j.pc + 16 }
    else s.modJob n fun j => { j with
      counters := setAt j.counters k (some (c - 1))
      jumps := setAt j.jumps k (j.jumps.getD k 0 + 1)
      pc := target })

/-- WAIT (R271, R272). An event line that does not exist is taken as a program error (log entry 31). -/
def execDmaWait (ch : Nat) (s : State) : Host.Outcome State Fault Refusal :=
  let n := ch % 16
  .next (s.atOp n 3 fun _ l s =>
    let k := rdLe l 2 1
    if k = 0 ∨ 63 < k then s.dmaHalt n 6 else s.waitLine n k (rdLe l 4 4))

/-- SIGNAL (R271). -/
def execDmaSignal (ch : Nat) (s : State) : Host.Outcome State Fault Refusal :=
  let n := ch % 16
  .next (s.atOp n 4 fun _ l s => (s.sendEvent (rdLe l 2 1)).nextOp n)

/-- END (R271): the descriptor is to complete. -/
def execDmaEnd (ch : Nat) (s : State) : Host.Outcome State Fault Refusal :=
  let n := ch % 16
  .next (s.atOp n 5 fun _ _ s => s.modJob n fun j => { j with done := true })

/-- DMA_WAIT_TIMEOUT (R270, R271): a WAIT with a timeout has waited that many µs. -/
def execDmaWaitTimeout (ch : Nat) (s : State) : Host.Outcome State Fault Refusal :=
  let n := ch % 16
  .next (match (s.chan n).wait with
  | none => s
  | some (_, us) => if s.awake ∧ us ≠ 0 ∧ (s.chan n).since + 1000 * us ≤ s.now then s.dmaHalt n 4 else s)

end Sys2Proof.Machine
end

