-- ==== Sys2Proof/Machine/Dispatch.lean ====
section
/-! DEFINITION. One arm per command: each a direct call of its meaning. -/

namespace Sys2Proof.Machine

/-- What a command does to everything but the queue. -/
def exec (i : Instr) (s : State) : Host.Outcome State Fault Refusal :=
  match i with
  | .registerWrite a off v => Sys2Proof.Machine.execRegisterWrite a off v s
  | .unalignedAccess a off size w => Sys2Proof.Machine.execUnalignedAccess a off size w s
  | .reservedOffsetAccess a off w => Sys2Proof.Machine.execReservedOffsetAccess a off w s
  | .gangWindowAccess a off w reply => Sys2Proof.Machine.execGangWindowAccess a off w reply s
  | .timerBeaconInstant => Sys2Proof.Machine.execTimerBeaconInstant s
  | .beaconInEdge => Sys2Proof.Machine.execBeaconInEdge s
  | .flywheelEdge => Sys2Proof.Machine.execFlywheelEdge s
  | .beaconMiss => Sys2Proof.Machine.execBeaconMiss s
  | .beaconEdge => Sys2Proof.Machine.execBeaconEdge s
  | .beaconOutEnd => Sys2Proof.Machine.execBeaconOutEnd s
  | .beaconRun a => Sys2Proof.Machine.execBeaconRun a s
  | .beaconStop a => Sys2Proof.Machine.execBeaconStop a s
  | .forceCommit a => Sys2Proof.Machine.execForceCommit a s
  | .buClrCounts a => Sys2Proof.Machine.execBuClrCounts a s
  | .epochPreset a v => Sys2Proof.Machine.execEpochPreset a v s
  | .gangBeaconSymbol epoch sym => Sys2Proof.Machine.execGangBeaconSymbol epoch sym s
  | .gangSymbolTimeout => Sys2Proof.Machine.execGangSymbolTimeout s
  | .tbSet a => Sys2Proof.Machine.execTbSet a s
  | .tbStep a => Sys2Proof.Machine.execTbStep a s
  | .tbLock a => Sys2Proof.Machine.execTbLock a s
  | .tbUnlock a => Sys2Proof.Machine.execTbUnlock a s
  | .tbRefChange a ref => Sys2Proof.Machine.execTbRefChange a ref s
  | .ltcInWord tc user frameNs => Sys2Proof.Machine.execLtcInWord tc user frameNs s
  | .ltcInTimeout => Sys2Proof.Machine.execLtcInTimeout s
  | .ltcLoad a => Sys2Proof.Machine.execLtcLoad a s
  | .ltcOutFrameStart => Sys2Proof.Machine.execLtcOutFrameStart s
  | .pprEnable a => Sys2Proof.Machine.execPprEnable a s
  | .pprRetrain a => Sys2Proof.Machine.execPprRetrain a s
  | .pprClrCounts a => Sys2Proof.Machine.execPprClrCounts a s
  | .blockLockGained lane => Sys2Proof.Machine.execBlockLockGained lane s
  | .blockLockLost lane => Sys2Proof.Machine.execBlockLockLost lane s
  | .trainRetry link => Sys2Proof.Machine.execTrainRetry link s
  | .alignBlock lane logical link count slot => Sys2Proof.Machine.execAlignBlock lane logical link count slot s
  | .statusAck code refused => Sys2Proof.Machine.execStatusAck code refused s
  | .backChannelAckTimeout => Sys2Proof.Machine.execBackChannelAckTimeout s
  | .substGo a => Sys2Proof.Machine.execSubstGo a s
  | .substUndo a => Sys2Proof.Machine.execSubstUndo a s
  | .substErrorThreshold lane errors => Sys2Proof.Machine.execSubstErrorThreshold lane errors s
  | .linePacket link p => Sys2Proof.Machine.execLinePacket link p s
  | .metadataPacket link p => Sys2Proof.Machine.execMetadataPacket link p s
  | .engineJob e sram part coded escape => Sys2Proof.Machine.execEngineJob e sram part coded escape s
  | .macroOpBoundary e => Sys2Proof.Machine.execMacroOpBoundary e s
  | .machineCheck e cause ucAddr quarter macroOp => Sys2Proof.Machine.execMachineCheck e cause ucAddr quarter macroOp s
  | .macroOpWatchdog e ucAddr macroOp => Sys2Proof.Machine.execMacroOpWatchdog e ucAddr macroOp s
  | .controlStoreScrub e ucAddr parityBad => Sys2Proof.Machine.execControlStoreScrub e ucAddr parityBad s
  | .ceHalt a e => Sys2Proof.Machine.execCeHalt a e s
  | .ceResume a e => Sys2Proof.Machine.execCeResume a e s
  | .ceLoad a e => Sys2Proof.Machine.execCeLoad a e s
  | .ceReset a e => Sys2Proof.Machine.execCeReset a e s
  | .ceUnretire a e => Sys2Proof.Machine.execCeUnretire a e s
  | .ceAdmit a e => Sys2Proof.Machine.execCeAdmit a e s
  | .ceClrCounts a e => Sys2Proof.Machine.execCeClrCounts a e s
  | .ceIaRead a e ecc => Sys2Proof.Machine.execCeIaRead a e ecc s
  | .microcodeLoadDone e readBackOk => Sys2Proof.Machine.execMicrocodeLoadDone e readBackOk s
  | .engineResetDone e readBackOk selfTestOk => Sys2Proof.Machine.execEngineResetDone e readBackOk selfTestOk s
  | .engineUngateDone e bad => Sys2Proof.Machine.execEngineUngateDone e bad s
  | .falDecision => Sys2Proof.Machine.execFalDecision s
  | .falWaitTimeout => Sys2Proof.Machine.execFalWaitTimeout s
  | .falClrCounts a => Sys2Proof.Machine.execFalClrCounts a s
  | .packerFrameStart => Sys2Proof.Machine.execPackerFrameStart s
  | .packerRowEmit => Sys2Proof.Machine.execPackerRowEmit s
  | .packerFrameDone => Sys2Proof.Machine.execPackerFrameDone s
  | .pkrClrCounts a => Sys2Proof.Machine.execPkrClrCounts a s
  | .decodeUnit => Sys2Proof.Machine.execDecodeUnit s
  | .lmcEnable a => Sys2Proof.Machine.execLmcEnable a s
  | .lmcInitDone ranks needsRfm trainFailed => Sys2Proof.Machine.execLmcInitDone ranks needsRfm trainFailed s
  | .dramRequest r ecc => Sys2Proof.Machine.execDramRequest r ecc s
  | .writeQueueDrain ch => Sys2Proof.Machine.execWriteQueueDrain ch s
  | .openRowTimeout ch cs bank => Sys2Proof.Machine.execOpenRowTimeout ch cs bank s
  | .mr4Poll readings => Sys2Proof.Machine.execMr4Poll readings s
  | .refreshDue rank bank => Sys2Proof.Machine.execRefreshDue rank bank s
  | .patrolScrubRead rank ecc => Sys2Proof.Machine.execPatrolScrubRead rank ecc s
  | .ceLimitReached rank => Sys2Proof.Machine.execCeLimitReached rank s
  | .retrainDue rank drift temp => Sys2Proof.Machine.execRetrainDue rank drift temp s
  | .retrainForceTimeout => Sys2Proof.Machine.execRetrainForceTimeout s
  | .rankRetrainDone rank => Sys2Proof.Machine.execRankRetrainDone rank s
  | .lmcRetrain a pos => Sys2Proof.Machine.execLmcRetrain a pos s
  | .lmcRetire a pos => Sys2Proof.Machine.execLmcRetire a pos s
  | .lmcThaw a pos => Sys2Proof.Machine.execLmcThaw a pos s
  | .lmcClrCounts a => Sys2Proof.Machine.execLmcClrCounts a s
  | .clrCapture a ch => Sys2Proof.Machine.execClrCapture a ch s
  | .migrationGranuleCopy src spare => Sys2Proof.Machine.execMigrationGranuleCopy src spare s
  | .migrationCopyDone => Sys2Proof.Machine.execMigrationCopyDone s
  | .queueEntryWrite q lane epoch row column kind flags body copiesDiffer => Sys2Proof.Machine.execQueueEntryWrite q lane epoch row column kind flags body copiesDiffer s
  | .pushWindowWrite q off data => Sys2Proof.Machine.execPushWindowWrite q off data s
  | .pushEnd a q => Sys2Proof.Machine.execPushEnd a q s
  | .oqPop a q => Sys2Proof.Machine.execOqPop a q s
  | .bpmInit a p => Sys2Proof.Machine.execBpmInit a p s
  | .bpmInitDone p => Sys2Proof.Machine.execBpmInitDone p s
  | .bpmAlloc r p => Sys2Proof.Machine.execBpmAlloc r p s
  | .bpmFree r p addr => Sys2Proof.Machine.execBpmFree r p addr s
  | .bpmHandover r p addr newOwner => Sys2Proof.Machine.execBpmHandover r p addr newOwner s
  | .dmaEnable a ch en => Sys2Proof.Machine.execDmaEnable a ch en s
  | .dmaKick a ch => Sys2Proof.Machine.execDmaKick a ch s
  | .dmaPoll ch => Sys2Proof.Machine.execDmaPoll ch s
  | .dmaResume a ch => Sys2Proof.Machine.execDmaResume a ch s
  | .dmaSkip a ch => Sys2Proof.Machine.execDmaSkip a ch s
  | .dmaAbort a ch => Sys2Proof.Machine.execDmaAbort a ch s
  | .dmaDescriptor ch => Sys2Proof.Machine.execDmaDescriptor ch s
  | .dmaDescriptorComplete ch => Sys2Proof.Machine.execDmaDescriptorComplete ch s
  | .dmaMove ch => Sys2Proof.Machine.execDmaMove ch s
  | .dmaLoop ch => Sys2Proof.Machine.execDmaLoop ch s
  | .dmaWait ch => Sys2Proof.Machine.execDmaWait ch s
  | .dmaSignal ch => Sys2Proof.Machine.execDmaSignal ch s
  | .dmaEnd ch => Sys2Proof.Machine.execDmaEnd ch s
  | .dmaWaitTimeout ch => Sys2Proof.Machine.execDmaWaitTimeout ch s
  | .magPresenceEdge bay m => Sys2Proof.Machine.execMagPresenceEdge bay m s
  | .moorPresenceStable bay => Sys2Proof.Machine.execMoorPresenceStable bay s
  | .magLinkUp bay link => Sys2Proof.Machine.execMagLinkUp bay link s
  | .magControllerReady bay ready adminOk queuesOk => Sys2Proof.Machine.execMagControllerReady bay ready adminOk queuesOk s
  | .moorComplete bay => Sys2Proof.Machine.execMoorComplete bay s
  | .moor a bays => Sys2Proof.Machine.execMoor a bays s
  | .unmoor a bays => Sys2Proof.Machine.execUnmoor a bays s
  | .format a bays => Sys2Proof.Machine.execFormat a bays s
  | .openClip a => Sys2Proof.Machine.execOpenClip a s
  | .closeClip a reason => Sys2Proof.Machine.execCloseClip a reason s
  | .deleteLast a => Sys2Proof.Machine.execDeleteLast a s
  | .rebuild a => Sys2Proof.Machine.execRebuild a s
  | .rebuildDone => Sys2Proof.Machine.execRebuildDone s
  | .mghClrCounts a => Sys2Proof.Machine.execMghClrCounts a s
  | .nvmeCompletion bay vec error => Sys2Proof.Machine.execNvmeCompletion bay vec error s
  | .nvmeCommandTimeout bay => Sys2Proof.Machine.execNvmeCommandTimeout bay s
  | .commitRoundStart => Sys2Proof.Machine.execCommitRoundStart s
  | .roundAgeTimeout => Sys2Proof.Machine.execRoundAgeTimeout s
  | .commitRoundEnd flushUs => Sys2Proof.Machine.execCommitRoundEnd flushUs s
  | .smartLogPoll => Sys2Proof.Machine.execSmartLogPoll s
  | .magScrubRead f => Sys2Proof.Machine.execMagScrubRead f s
  | .rqDoorbell a bay => Sys2Proof.Machine.execRqDoorbell a bay s
  | .magReadRequest bay readOk => Sys2Proof.Machine.execMagReadRequest bay readOk s
  | .cxlLinkUp cxlMode speed width => Sys2Proof.Machine.execCxlLinkUp cxlMode speed width s
  | .hostArrival => Sys2Proof.Machine.execHostArrival s
  | .hostDeparture linkLost => Sys2Proof.Machine.execHostDeparture linkLost s
  | .linkReset => Sys2Proof.Machine.execLinkReset s
  | .hdmDecoderCommit base => Sys2Proof.Machine.execHdmDecoderCommit base s
  | .cxlMemRequest off len w ecc => Sys2Proof.Machine.execCxlMemRequest off len w ecc s
  | .toHost a => Sys2Proof.Machine.execToHost a s
  | .toDevice a => Sys2Proof.Machine.execToDevice a s
  | .biasChangeDone => Sys2Proof.Machine.execBiasChangeDone s
  | .cacheFlush a => Sys2Proof.Machine.execCacheFlush a s
  | .cxpClrCounts a => Sys2Proof.Machine.execCxpClrCounts a s
  | .viralReceived => Sys2Proof.Machine.execViralReceived s
  | .getTimestamp => Sys2Proof.Machine.execGetTimestamp s
  | .getSupportedLogs => Sys2Proof.Machine.execGetSupportedLogs s
  | .getLog commandEffects => Sys2Proof.Machine.execGetLog commandEffects s
  | .hppRequest opcode payload => Sys2Proof.Machine.execHppRequest opcode payload s
  | .ethFrameReceived port frame => Sys2Proof.Machine.execEthFrameReceived port frame s
  | .ethTsPop a port => Sys2Proof.Machine.execEthTsPop a port s
  | .ethRingKickTx a port => Sys2Proof.Machine.execEthRingKickTx a port s
  | .ethRingKickRx a port => Sys2Proof.Machine.execEthRingKickRx a port s
  | .ethTxDescriptor port => Sys2Proof.Machine.execEthTxDescriptor port s
  | .egressFrameStart port => Sys2Proof.Machine.execEgressFrameStart port s
  | .egressFrameDone port => Sys2Proof.Machine.execEgressFrameDone port s
  | .gateEntryChange port => Sys2Proof.Machine.execGateEntryChange port s
  | .gateCommit a port => Sys2Proof.Machine.execGateCommit a port s
  | .gateListStart port => Sys2Proof.Machine.execGateListStart port s
  | .ethClrCounts a port => Sys2Proof.Machine.execEthClrCounts a port s
  | .senderEnable a k => Sys2Proof.Machine.execSenderEnable a k s
  | .proxyFrameTick => Sys2Proof.Machine.execProxyFrameTick s
  | .senderPacketDue k => Sys2Proof.Machine.execSenderPacketDue k s
  | .proxyPictureDone => Sys2Proof.Machine.execProxyPictureDone s
  | .reviewGo a => Sys2Proof.Machine.execReviewGo a s
  | .pxpClrCounts a => Sys2Proof.Machine.execPxpClrCounts a s
  | .pxpLutWrite a v => Sys2Proof.Machine.execPxpLutWrite a v s
  | .ptpSync offset adj => Sys2Proof.Machine.execPtpSync offset adj s
  | .ptpAnnounce port clockId rank => Sys2Proof.Machine.execPtpAnnounce port clockId rank s
  | .announceTimeout => Sys2Proof.Machine.execAnnounceTimeout s
  | .hppRead h index sub => Sys2Proof.Machine.execHppRead h index sub s
  | .hppWrite h index sub typ value => Sys2Proof.Machine.execHppWrite h index sub typ value s
  | .hppReadBlock h index sub offset count => Sys2Proof.Machine.execHppReadBlock h index sub offset count s
  | .hppWriteBlock h index sub typ offset total data => Sys2Proof.Machine.execHppWriteBlock h index sub typ offset total data s
  | .blockSequenceTimeout carrier peer index sub => Sys2Proof.Machine.execBlockSequenceTimeout carrier peer index sub s
  | .hppUnsupported h op version => Sys2Proof.Machine.execHppUnsupported h op version s
  | .canReassemblyTimeout c src => Sys2Proof.Machine.execCanReassemblyTimeout c src s
  | .answer c src uid vendor product name => Sys2Proof.Machine.execAnswer c src uid vendor product name s
  | .rollCall c src round => Sys2Proof.Machine.execRollCall c src round s
  | .heartbeat c src => Sys2Proof.Machine.execHeartbeat c src s
  | .heartbeatTimer => Sys2Proof.Machine.execHeartbeatTimer s
  | .rollCallTimer c => Sys2Proof.Machine.execRollCallTimer c s
  | .udpControllerTimeout peer => Sys2Proof.Machine.execUdpControllerTimeout peer s
  | .commitNotifyTimer => Sys2Proof.Machine.execCommitNotifyTimer s
  | .clipStart h => Sys2Proof.Machine.execClipStart h s
  | .clipStop h => Sys2Proof.Machine.execClipStop h s
  | .storageMoor h bays => Sys2Proof.Machine.execStorageMoor h bays s
  | .storageUnmoor h bays => Sys2Proof.Machine.execStorageUnmoor h bays s
  | .storageFormat h bays => Sys2Proof.Machine.execStorageFormat h bays s
  | .storageDeleteLast h => Sys2Proof.Machine.execStorageDeleteLast h s
  | .storageRebuild h => Sys2Proof.Machine.execStorageRebuild h s
  | .decodeStart h => Sys2Proof.Machine.execDecodeStart h s
  | .decodeStop h => Sys2Proof.Machine.execDecodeStop h s
  | .deviceReset h arg => Sys2Proof.Machine.execDeviceReset h arg s
  | .store h => Sys2Proof.Machine.execStore h s
  | .defaults h => Sys2Proof.Machine.execDefaults h s
  | .autoStoreTimer => Sys2Proof.Machine.execAutoStoreTimer s
  | .configStoreStart => Sys2Proof.Machine.execConfigStoreStart s
  | .fwImage h image => Sys2Proof.Machine.execFwImage h image s
  | .fwActivate h => Sys2Proof.Machine.execFwActivate h s
  | .fwConfirm h => Sys2Proof.Machine.execFwConfirm h s
  | .epochCommit h which => Sys2Proof.Machine.execEpochCommit h which s
  | .ucImage h image => Sys2Proof.Machine.execUcImage h image s
  | .ucSelect h => Sys2Proof.Machine.execUcSelect h s
  | .retain a => Sys2Proof.Machine.execRetain a s
  | .off a => Sys2Proof.Machine.execOff a s
  | .kprClrCounts a => Sys2Proof.Machine.execKprClrCounts a s
  | .entryAbort wake => Sys2Proof.Machine.execEntryAbort wake s
  | .entryComplete => Sys2Proof.Machine.execEntryComplete s
  | .idleTimer => Sys2Proof.Machine.execIdleTimer s
  | .wakeEvent bit => Sys2Proof.Machine.execWakeEvent bit s
  | .pwrFailFall => Sys2Proof.Machine.execPwrFailFall s
  | .holdupOffEntry => Sys2Proof.Machine.execHoldupOffEntry s
  | .pwrFailRise => Sys2Proof.Machine.execPwrFailRise s
  | .grantFormation => Sys2Proof.Machine.execGrantFormation s
  | .deficitLimit => Sys2Proof.Machine.execDeficitLimit s
  | .rampSlot => Sys2Proof.Machine.execRampSlot s
  | .tempSample readings => Sys2Proof.Machine.execTempSample readings s
  | .collectorSelfFault => Sys2Proof.Machine.execCollectorSelfFault s
  | .fcRaise a v => Sys2Proof.Machine.execFcRaise a v s
  | .fcFirstClr a => Sys2Proof.Machine.execFcFirstClr a s
  | .fcPhaseWrite a v => Sys2Proof.Machine.execFcPhaseWrite a v s
  | .basic a => Sys2Proof.Machine.execBasic a s
  | .restore a => Sys2Proof.Machine.execRestore a s
  | .fcClrCounts a => Sys2Proof.Machine.execFcClrCounts a s
  | .porRelease bootSrc clkMode gangId => Sys2Proof.Machine.execPorRelease bootSrc clkMode gangId s
  | .resetNFall => Sys2Proof.Machine.execResetNFall s
  | .resetNRise => Sys2Proof.Machine.execResetNRise s
  | .pwrgdFall => Sys2Proof.Machine.execPwrgdFall s
  | .supplyBelowTrip => Sys2Proof.Machine.execSupplyBelowTrip s
  | .domainRelease d => Sys2Proof.Machine.execDomainRelease d s
  | .lockFailTimeout d => Sys2Proof.Machine.execLockFailTimeout d s
  | .rstcWarm a => Sys2Proof.Machine.execRstcWarm a s
  | .rstcDie a die => Sys2Proof.Machine.execRstcDie a die s
  | .rstcEngine a e => Sys2Proof.Machine.execRstcEngine a e s
  | .rstcCold a => Sys2Proof.Machine.execRstcCold a s
  | .rstcLink a => Sys2Proof.Machine.execRstcLink a s
  | .watchdogExpiry => Sys2Proof.Machine.execWatchdogExpiry s
  | .watchdogKick a v => Sys2Proof.Machine.execWatchdogKick a v s
  | .watchdogConfig a v => Sys2Proof.Machine.execWatchdogConfig a v s
  | .gangLinkTrained latency => Sys2Proof.Machine.execGangLinkTrained latency s
  | .gangLinkFail => Sys2Proof.Machine.execGangLinkFail s
  | .icuSourceEvent n level => Sys2Proof.Machine.execIcuSourceEvent n level s
  | .icuDoorbell v => Sys2Proof.Machine.execIcuDoorbell v s
  | .icuMgcClaim a => Sys2Proof.Machine.execIcuMgcClaim a s
  | .icuMgcComplete a v => Sys2Proof.Machine.execIcuMgcComplete a v s
  | .icuHvClaim vec => Sys2Proof.Machine.execIcuHvClaim vec s
  | .icuHvComplete vec v => Sys2Proof.Machine.execIcuHvComplete vec v s
  | .icuPendSet a n v => Sys2Proof.Machine.execIcuPendSet a n v s
  | .icuPendClr a n v => Sys2Proof.Machine.execIcuPendClr a n v s
  | .clrOne a n => Sys2Proof.Machine.execClrOne a n s
  | .clrAll a => Sys2Proof.Machine.execClrAll a s
  | .msixHoldoffExpiry vec => Sys2Proof.Machine.execMsixHoldoffExpiry vec s
  | .mainPwrEnRaise => Sys2Proof.Machine.execMainPwrEnRaise s
  | .logbookHour => Sys2Proof.Machine.execLogbookHour s
  | .logbookBucketRefill => Sys2Proof.Machine.execLogbookBucketRefill s
  | .ageingMeasure readings => Sys2Proof.Machine.execAgeingMeasure readings s
  | .lowWordLatchRead a off => Sys2Proof.Machine.execLowWordLatchRead a off s
  | .magLinkDown bay => Sys2Proof.Machine.execMagLinkDown bay s
  | .moorPerstRelease bay => Sys2Proof.Machine.execMoorPerstRelease bay s
  | .moorStepTimeout bay => Sys2Proof.Machine.execMoorStepTimeout bay s
  | .magShutdownComplete bay => Sys2Proof.Machine.execMagShutdownComplete bay s
  | .bayMoorAfresh => Sys2Proof.Machine.execBayMoorAfresh s
  | .cacheFlushDone => Sys2Proof.Machine.execCacheFlushDone s
  | .hppWarmResetApply => Sys2Proof.Machine.execHppWarmResetApply s
  | .configStoreDone readBackOk => Sys2Proof.Machine.execConfigStoreDone readBackOk s
  | .canFrameReceived c f => Sys2Proof.Machine.execCanFrameReceived c f s
  | .canFrameSent c aborted => Sys2Proof.Machine.execCanFrameSent c aborted s
  | .canRingKick a c tx rx => Sys2Proof.Machine.execCanRingKick a c tx rx s
  | .canBusOffRecovery c => Sys2Proof.Machine.execCanBusOffRecovery c s
  | .aonSupplyLost => Sys2Proof.Machine.execAonSupplyLost s
  | .followerReadoutEnd => Sys2Proof.Machine.execFollowerReadoutEnd s
  | .gangShortfallReport n => Sys2Proof.Machine.execGangShortfallReport n s

end Sys2Proof.Machine
end

