-- ==== Sys2Proof/Machine/Tick.lean ====
section
/-! DEFINITION. One tick of the 1 GHz time-base clock (R60, R63, R427), which passes on an empty queue (log entry 1): the clocks and
counters, and what the blocks and the Management Controller do without a command. -/

namespace Sys2Proof.Machine

/-! ## Clocks -/

/-- The 32.768 kHz counter of the Always-On domain (R63, R454): every ns it gains 32 768 parts of 10⁹ of a tick. An edge may stop or
start the DTC, and may reach the alarm. -/
def State.aonClock (s : State) : State :=
  if !s.aon.supply then s
  else if s.aon.phase + 32768 < 10 ^ 9 then { s with aon := { s.aon with phase := s.aon.phase + 32768 } }
  else
    let s := { s with aon := { s.aon with phase := s.aon.phase + 32768 - 10 ^ 9 } }.incWrap AON_TICKS_TICKS
    let s := s.when (s.awake || s.kpr.mode != .on) State.aonEdge
    s.when (s.get AON_TICKS_TICKS == s.get AON_ALARM_TICKS) (·.wakeEvent 5)

/-- The time-base clock and the DTC (R60): both stand in RETAIN and OFF once the Time Base has latched (R63), the DTC also until it
is advanced, and while a Cold reset holds. -/
def State.timeClock (s : State) : State :=
  if s.kpr.mode ≠ .on ∧ s.tb.sleepTicks.isSome then s
  else
    let s := { s with clk := s.clk + 2 ^ 32 }
    if (s.domain 0).inReset ∧ (s.domain 0).reach = 4 then s
    else
      let s := { s with tb := { s.tb with disc := s.tb.disc + s.rate } }
      if s.tb.sleepTicks.isSome then s else { s with tb := { s.tb with dtc := (s.tb.dtc + s.rate) % 2 ^ 96 } }

/-! ## SAFE (R427) -/

/-- Steps 3 to 5 of SAFE: intake stops, engines are to halt, unfinished frame units are abandoned, and the clip closes with
REASON 5 at what its durable units reach. -/
def State.safeSteps (s : State) : State :=
  if !s.fc.safeDue then s
  else
    let units := match s.mag.set with | some b => s.mag.units.filter fun u => u.given b | none => []
    let s : State := { s.set PKR_STATUS_EMITTING 0 with
      fc := { s.fc with safeDue := false }
      frames := []
      engines := s.engines.map fun (g : Engine) => { g with jobs := [], haltReq := true }
      mag := { s.mag with units := units }
      clip := { s.clip with stopReq := s.clip.stopReq || decide (s.clip.step = 3 ∨ s.clip.step = 4) } }
    if s.mag.clip.isSome ∧ s.mag.closing = none then (s.beginClose 5).tryClose else s

/-! ## A tick -/

/-- What the running part does at a tick: its boot, the clip, the Keeper, a load in service, interrupts and notifications. -/
def State.work (s : State) : State :=
  let s := (s.countTime 1).bootStage
  let s := s.safeSteps
  let s := s.when s.mgc.up (·.clipStage)
  let s := s.when s.mgc.up (·.reloadStep)
  (s.sendSymbol.keeperStep.sampleInputs.msixAll).deliverNotes

/-- Time in RETAIN is counted in the Logbook (R481). -/
def State.retainTime (s : State) : State :=
  s.when (s.kpr.mode == .retain) fun s => { s with log := { s.log with cur := { s.log.cur with retainNs := s.log.cur.retainNs + 1 } } }

/-- One tick: 1 ns. -/
def State.tick (s : State) : State :=
  let s := s.timeClock.aonClock.retainTime
  s.when s.awake State.work

end Sys2Proof.Machine
end

