-- ==== Sys2Proof/Machine/Pins.lean ====
section
/-! DEFINITION. The states of the pins (R452, R458 to R462): what each group of pins does while the part is unpowered, in a Cold or a Warm
reset, and running. -/

namespace Sys2Proof.Machine

/-- The groups of R459. -/
inductive PinGroup where
  | serdesTx
  | serdesRx
  | magRefclk
  | lpddrReset
  | lpddrData
  | bell
  | beaconOut
  | magPwrEn (bay : Nat)
  | magPerst (bay : Nat)
  | canTx (c : Nat)
  | alwaysOnIn
  | mainPwrEn
  | vioIn
  deriving DecidableEq, Repr

/-- What a pin does. `driven` is whatever its block makes of it: a signal that this model does not follow level by level. -/
inductive PinState where
  | highZ
  /-- High impedance with the pull-up of R465. -/
  | pullUp
  | electricalIdle
  | highZTermination
  | input
  | inputPullUp
  | low
  | high
  | hold
  | driven
  deriving DecidableEq, Repr

/-- The columns of R459, and the running part. -/
inductive PinPhase where
  | unpowered
  | cold
  | warm
  | running
  deriving DecidableEq, Repr

/-- The column that applies: the main group is off while MAIN_PWR_EN is low (R451). -/
def State.pinPhase (s : State) : PinPhase :=
  if !s.aon.mainPwrEn then .unpowered
  else if !(s.domain 0).inReset then .running
  else if (s.domain 0).reach = 4 then .cold
  else .warm

/-- A level as a driven pin shows it. -/
def levelPin (b : Bool) : PinState := if b then .high else .low

/-- An open-drain pin: low, or released to its pull-up on the board (R462). -/
def openDrain (low : Bool) : PinState := if low then .low else .highZ

/-- A VIO bank output: `held` under a Warm reset, `now` while the part runs. -/
def vioOut (p : PinPhase) (held now : PinState) : PinState :=
  match p with
  | .unpowered => .highZ
  | .cold => .pullUp
  | .warm => held
  | .running => now

/-- The state of a group of pins (R459, R460, R462). The Always-On bank keeps its supply when the main group is off. -/
def State.pin (s : State) (g : PinGroup) : PinState :=
  let p := s.pinPhase
  let h := s.rstc.held
  let o := s.outPins
  match g with
  | .serdesTx => match p with | .unpowered => .highZ | .cold => .electricalIdle | .warm => .electricalIdle | .running => .driven
  | .serdesRx => match p with | .unpowered => .highZTermination | .cold => .highZTermination | .warm => .highZTermination | .running => .input
  | .magRefclk => match p with | .unpowered => .highZ | .cold => .low | .warm => .hold | .running => .driven
  | .lpddrReset => match p with | .unpowered => .highZ | .cold => .low | .warm => .hold | .running => .driven
  | .lpddrData => match p with | .unpowered => .highZ | .cold => .highZ | .warm => .hold | .running => .driven
  | .bell => vioOut p (openDrain h.bell) (openDrain o.bell)
  | .beaconOut => vioOut p (levelPin h.beaconOut) (levelPin o.beaconOut)
  | .magPwrEn b => vioOut p (levelPin (h.pwrEn.getD b false)) (levelPin (o.pwrEn.getD b false))
  | .magPerst b => vioOut p (levelPin (h.perst.getD b false)) (levelPin (o.perst.getD b false))
  | .canTx c => vioOut p .high (if s.flag (CAN_C_CTRL_EN c) then .driven else .high)
  | .alwaysOnIn => if !s.aon.supply then .highZ else if p = .running then .input else .inputPullUp
  | .mainPwrEn => levelPin s.aon.mainPwrEn
  | .vioIn => match p with | .unpowered => .highZ | .cold => .inputPullUp | .warm => .input | .running => .input

end Sys2Proof.Machine
end

