-- ==== Sys2Proof/WellFormed.lean ====
section
/-! DEFINITION. Which terms of `Instr` are commands that can come: every index names something the part has, and every operand fits
the field the manual gives it. -/

namespace Sys2Proof

/-- Below a bound. -/
def lt (n bound : Nat) : Bool := decide (n < bound)

/-- From `lo` to `hi`. -/
def within (lo n hi : Nat) : Bool := decide (lo ≤ n ∧ n ≤ hi)

/-- An offset of a word. -/
def aligned (n : Nat) : Bool := n % 4 == 0

/-- A queue with a push window (R252). -/
def pushQueueId (q : Nat) : Bool := q == 65 || q == 66 || q == 69

/-- An assigned requester (R258). -/
def reqWf (r : ReqId) : Bool := r == 1 || r == 2 || within 0x10 r 0x1F || within 0x20 r 0x26

/-- An engine the part has (R18). The spare of a region has no quad and slot, which are 0. -/
def EngId.wf (e : EngId) : Bool := lt e.region 4 && lt e.quad 4 && lt e.slot 4 && (!e.spare || (e.quad == 0 && e.slot == 0))

/-- A request's fields fit its header (R357). -/
def Hpp.wf (h : Hpp) : Bool := lt h.src 128 && lt h.dst 128 && lt h.tid 65536

/-- The bytes of a packet are whole 8-byte data blocks, a header at least (R80). -/
def packetWf (p : List Byte) : Bool := p.length % 8 == 0 && within 24 p.length 65536

/-- A magazine reports a 20-byte serial number, and its blocks are of 4096 bytes (R276, R277). -/
def Magazine.wf (m : Magazine) : Bool :=
  m.serial.length == 20 && m.media.all fun b => lt b.1 m.blocks && b.2.length == 4096

/-- Upsets lie in one of the 32 code-blocks of a record, and in a segment of at most 32 KiB (R200). -/
def JobFaults.wf (f : JobFaults) : Bool := f.coded.all (fun u => lt u.1 32 && lt u.2.1 32769) && f.escape.all fun u => lt u.1 32769

/-- A DRAM request carries as many bytes as it writes (R233). -/
def DramReq.wf (r : DramReq) : Bool := lt r.addr (2 ^ 62) && match r.data with | none => true | some l => l.length == r.len

/-- A CAN frame's identifier has 29 bits, or 11, and it carries at most 64 bytes (R390). -/
def CanFrame.wf (f : CanFrame) : Bool := lt f.id (if f.ext then 2 ^ 29 else 2 ^ 11) && lt f.data.length 65

/-- The command can come. -/
def wellFormed : Instr → Bool
  | .registerWrite _ off _ => lt off 0x4000000
  | .unalignedAccess _ off size _ => lt off 0x4000000 && within 1 size 64
  | .reservedOffsetAccess _ off _ => lt off 0x4000000
  | .gangWindowAccess _ off _ _ => lt off 0x2000000
  | .timerBeaconInstant => true
  | .beaconInEdge => true
  | .flywheelEdge => true
  | .beaconMiss => true
  | .beaconEdge => true
  | .beaconOutEnd => true
  | .beaconRun _ => true
  | .beaconStop _ => true
  | .forceCommit _ => true
  | .buClrCounts _ => true
  | .epochPreset _ _ => true
  | .gangBeaconSymbol _ b => lt b.dtc (2 ^ 64) && lt b.frac 8 && lt b.columns 65
  | .gangSymbolTimeout => true
  | .tbSet _ => true
  | .tbStep _ => true
  | .tbLock _ => true
  | .tbUnlock _ => true
  | .tbRefChange _ ref => lt ref 4
  | .ltcInWord _ _ _ => true
  | .ltcInTimeout => true
  | .ltcLoad _ => true
  | .ltcOutFrameStart => true
  | .pprEnable _ => true
  | .pprRetrain _ => true
  | .pprClrCounts _ => true
  | .blockLockGained lane => lt lane 17
  | .blockLockLost lane => lt lane.lane 17
  | .trainRetry link => lt link 4
  | .alignBlock lane logical link count _ => lt lane.lane 17 && lt logical 32 && lt link 4 && lt count (2 ^ 32)
  | .statusAck c _ => lt c.link 4 && within 1 c.code 5
  | .backChannelAckTimeout => true
  | .substGo _ => true
  | .substUndo _ => true
  | .substErrorThreshold lane _ => lt lane 17
  | .linePacket link p => lt link 4 && packetWf p
  | .metadataPacket link p => lt link 4 && packetWf p
  | .engineJob e sram part coded escape => e.wf && (JobFaults.mk sram part coded escape).wf
  | .macroOpBoundary e => e.wf
  | .machineCheck e cause ucAddr quarter macroOp => e.wf && within 1 cause 5 && lt ucAddr 8192 && lt quarter 16 && lt macroOp 256
  | .macroOpWatchdog e ucAddr macroOp => e.wf && lt ucAddr 8192 && lt macroOp 256
  | .controlStoreScrub e ucAddr _ => e.wf && lt ucAddr 8192
  | .ceHalt _ e => e.wf
  | .ceResume _ e => e.wf
  | .ceLoad _ e => e.wf
  | .ceReset _ e => e.wf
  | .ceUnretire _ e => e.wf
  | .ceAdmit _ e => e.wf
  | .ceClrCounts _ e => e.wf
  | .ceIaRead _ e _ => e.wf
  | .microcodeLoadDone e _ => e.wf
  | .engineResetDone e _ _ => e.wf
  | .engineUngateDone e bad => e.wf && match bad with | none => true | some (a, q) => lt a 8192 && within 1 q 15
  | .falDecision => true
  | .falWaitTimeout => true
  | .falClrCounts _ => true
  | .packerFrameStart => true
  | .packerRowEmit => true
  | .packerFrameDone => true
  | .pkrClrCounts _ => true
  | .decodeUnit => true
  | .lmcEnable _ => true
  | .lmcInitDone r _ _ => r.sizes.length == 4 && r.temps.length == 8
  | .dramRequest r _ => r.wf
  | .writeQueueDrain ch => lt ch 4
  | .openRowTimeout ch cs bank => lt ch 4 && lt cs 2 && lt bank 16
  | .mr4Poll readings => readings.length == 8
  | .refreshDue rank bank => lt rank 8 && lt bank 16
  | .patrolScrubRead rank _ => lt rank 8
  | .ceLimitReached rank => lt rank 8
  | .retrainDue rank _ _ => lt rank 8
  | .retrainForceTimeout => true
  | .rankRetrainDone rank => lt rank 8
  | .lmcRetrain _ pos => lt pos 8
  | .lmcRetire _ pos => lt pos 8
  | .lmcThaw _ pos => lt pos 8
  | .lmcClrCounts _ => true
  | .clrCapture _ ch => lt ch 4
  | .migrationGranuleCopy _ _ => true
  | .migrationCopyDone => true
  | .queueEntryWrite q lane epoch row column kind flags _ _ => lt q 72 && lt lane 2 && lt epoch (2 ^ 32) && lt row 65536 && lt column 256 && lt kind 7 && lt flags 16
  | .pushWindowWrite q off _ => pushQueueId q && lt off 4096
  | .pushEnd _ q => lt q 72
  | .oqPop _ q => lt q 72
  | .bpmInit _ p => lt p 16
  | .bpmInitDone p => lt p 16
  | .bpmAlloc r p => reqWf r && lt p 16
  | .bpmFree r p addr => reqWf r && lt p 16 && lt addr (2 ^ 64)
  | .bpmHandover r p addr newOwner => reqWf r && lt p 16 && lt addr (2 ^ 64) && lt newOwner 256
  | .dmaEnable _ ch _ => lt ch 16
  | .dmaKick _ ch => lt ch 16
  | .dmaPoll ch => lt ch 16
  | .dmaResume _ ch => lt ch 16
  | .dmaSkip _ ch => lt ch 16
  | .dmaAbort _ ch => lt ch 16
  | .dmaDescriptor ch => lt ch 16
  | .dmaDescriptorComplete ch => lt ch 16
  | .dmaMove ch => lt ch 16
  | .dmaLoop ch => lt ch 16
  | .dmaWait ch => lt ch 16
  | .dmaSignal ch => lt ch 16
  | .dmaEnd ch => lt ch 16
  | .dmaWaitTimeout ch => lt ch 16
  | .magPresenceEdge bay m => lt bay 4 && (match m with | none => true | some x => x.wf)
  | .moorPresenceStable bay => lt bay 4
  | .magLinkUp bay link => lt bay 4 && (match link with | none => true | some x => within 1 x.1 5 && within 1 x.2 3)
  | .magControllerReady bay _ _ _ => lt bay 4
  | .moorComplete bay => lt bay 4
  | .moor _ bays => lt bays 16
  | .unmoor _ bays => lt bays 16
  | .format _ bays => lt bays 16
  | .openClip _ => true
  | .closeClip _ reason => within 1 reason 6
  | .deleteLast _ => true
  | .rebuild _ => true
  | .rebuildDone => true
  | .mghClrCounts _ => true
  | .nvmeCompletion bay vec _ => lt bay 4 && lt vec 5
  | .nvmeCommandTimeout bay => lt bay 4
  | .commitRoundStart => true
  | .roundAgeTimeout => true
  | .commitRoundEnd flushUs => flushUs.length == 4
  | .smartLogPoll => true
  | .magScrubRead _ => true
  | .rqDoorbell _ bay => lt bay 4
  | .magReadRequest bay _ => lt bay 4
  | .cxlLinkUp _ speed width => lt speed 3 && lt width 4
  | .hostArrival => true
  | .hostDeparture _ => true
  | .linkReset => true
  | .hdmDecoderCommit _ => true
  | .cxlMemRequest _ len _ _ => lt len 65
  | .toHost _ => true
  | .toDevice _ => true
  | .biasChangeDone => true
  | .cacheFlush _ => true
  | .cxpClrCounts _ => true
  | .viralReceived => true
  | .getTimestamp => true
  | .getSupportedLogs => true
  | .getLog _ => true
  | .hppRequest opcode _ => lt opcode 65536
  | .ethFrameReceived port frame => lt port 2 && lt frame.length 65536
  | .ethTsPop _ port => lt port 2
  | .ethRingKickTx _ port => lt port 2
  | .ethRingKickRx _ port => lt port 2
  | .ethTxDescriptor port => lt port 2
  | .egressFrameStart port => lt port 2
  | .egressFrameDone port => lt port 2
  | .gateEntryChange port => lt port 2
  | .gateCommit _ port => lt port 2
  | .gateListStart port => lt port 2
  | .ethClrCounts _ port => lt port 2
  | .senderEnable _ k => lt k 2
  | .proxyFrameTick => true
  | .senderPacketDue k => lt k 2
  | .proxyPictureDone => true
  | .reviewGo _ => true
  | .pxpClrCounts _ => true
  | .pxpLutWrite _ _ => true
  | .ptpSync _ _ => true
  | .ptpAnnounce port clockId _ => lt port 2 && lt clockId (2 ^ 64)
  | .announceTimeout => true
  | .hppRead h index sub => h.wf && lt index 65536 && lt sub 256
  | .hppWrite h index sub typ _ => h.wf && lt index 65536 && lt sub 256 && lt typ 256
  | .hppReadBlock h index sub offset count => h.wf && lt index 65536 && lt sub 256 && lt offset (2 ^ 32) && lt count 65536
  | .hppWriteBlock h index sub typ offset total _ => h.wf && lt index 65536 && lt sub 256 && lt typ 256 && lt offset (2 ^ 32) && lt total (2 ^ 32)
  | .blockSequenceTimeout _ _ index sub => lt index 65536 && lt sub 256
  | .hppUnsupported h op version => h.wf && lt op 256 && lt version 256
  | .canReassemblyTimeout c src => lt c 2 && lt src 128
  | .answer c src uid vendor product _ => lt c 2 && lt src 128 && lt uid (2 ^ 64) && lt vendor (2 ^ 32) && lt product (2 ^ 32)
  | .rollCall c src round => lt c 2 && lt src 128 && lt round 256
  | .heartbeat c src => lt c 2 && lt src 128
  | .heartbeatTimer => true
  | .rollCallTimer c => lt c 2
  | .udpControllerTimeout _ => true
  | .commitNotifyTimer => true
  | .clipStart h => h.wf
  | .clipStop h => h.wf
  | .storageMoor h bays => h.wf && lt bays 16
  | .storageUnmoor h bays => h.wf && lt bays 16
  | .storageFormat h bays => h.wf && lt bays 16
  | .storageDeleteLast h => h.wf
  | .storageRebuild h => h.wf
  | .decodeStart h => h.wf
  | .decodeStop h => h.wf
  | .deviceReset h _ => h.wf
  | .store h => h.wf
  | .defaults h => h.wf
  | .autoStoreTimer => true
  | .configStoreStart => true
  | .fwImage h _ => h.wf
  | .fwActivate h => h.wf
  | .fwConfirm h => h.wf
  | .epochCommit h which => h.wf && lt which 256
  | .ucImage h _ => h.wf
  | .ucSelect h => h.wf
  | .retain _ => true
  | .off _ => true
  | .kprClrCounts _ => true
  | .entryAbort wake => (match wake with | none => true | some b => lt b 8)
  | .entryComplete => true
  | .idleTimer => true
  | .wakeEvent bit => lt bit 8
  | .pwrFailFall => true
  | .holdupOffEntry => true
  | .pwrFailRise => true
  | .grantFormation => true
  | .deficitLimit => true
  | .rampSlot => true
  | .tempSample readings => readings.length == 24
  | .collectorSelfFault => true
  | .fcRaise _ _ => true
  | .fcFirstClr _ => true
  | .fcPhaseWrite _ _ => true
  | .basic _ => true
  | .restore _ => true
  | .fcClrCounts _ => true
  | .porRelease bootSrc clkMode gangId => lt bootSrc 4 && lt clkMode 4 && lt gangId 4
  | .resetNFall => true
  | .resetNRise => true
  | .pwrgdFall => true
  | .supplyBelowTrip => true
  | .domainRelease d => lt d 4
  | .lockFailTimeout d => within 1 d 3
  | .rstcWarm _ => true
  | .rstcDie _ die => lt die 2
  | .rstcEngine _ e => e.wf
  | .rstcCold _ => true
  | .rstcLink _ => true
  | .watchdogExpiry => true
  | .watchdogKick _ _ => true
  | .watchdogConfig _ _ => true
  | .gangLinkTrained latency => lt latency 65536
  | .gangLinkFail => true
  | .icuSourceEvent n _ => lt n 384
  | .icuDoorbell _ => true
  | .icuMgcClaim _ => true
  | .icuMgcComplete _ _ => true
  | .icuHvClaim vec => lt vec 64
  | .icuHvComplete vec _ => lt vec 64
  | .icuPendSet _ n _ => lt n 16
  | .icuPendClr _ n _ => lt n 16
  | .clrOne _ n => lt n 512
  | .clrAll _ => true
  | .msixHoldoffExpiry vec => lt vec 64
  | .mainPwrEnRaise => true
  | .logbookHour => true
  | .logbookBucketRefill => true
  | .ageingMeasure readings => readings.length == 12
  | .lowWordLatchRead _ off => lt off 0x4000000 && aligned off
  | .magLinkDown bay => lt bay 4
  | .moorPerstRelease bay => lt bay 4
  | .moorStepTimeout bay => lt bay 4
  | .magShutdownComplete bay => lt bay 4
  | .bayMoorAfresh => true
  | .cacheFlushDone => true
  | .hppWarmResetApply => true
  | .configStoreDone _ => true
  | .canFrameReceived c f => lt c 2 && f.wf
  | .canFrameSent c _ => lt c 2
  | .canRingKick _ c _ _ => lt c 2
  | .canBusOffRecovery c => lt c 2
  | .aonSupplyLost => true
  | .followerReadoutEnd => true
  | .gangShortfallReport n => lt n 129

end Sys2Proof
end

