-- ==== Sys2Proof/Safety.lean ====
section
/-! DEFINITION. What counts as a safe run, in the terms the claims use: the memory's canonical form, the canonical form
of every sparse map of the state, what no command does to the rest of the machine, and a step that answers a next
state. -/

namespace Sys2Proof.Machine

/-- The canonical form of DRAM: addresses strictly rising, no byte listed that an unlisted address reads as. -/
def Memory.wf (m : List Host.Cell) : Bool := swf (fun _ => 0#8) m

/-- Every sparse map of the register file and of the memories is in its canonical form, so that equal contents are equal
data. -/
def State.canonical (s : State) : Bool :=
  swf regReset s.regs && swf regReset s.force && Memory.wf s.dram && swf (fun _ => false) s.poison &&
    swf (fun _ => none) s.hostMem

/-- The part has every unit that the spec gives it, and no other: 68 engines in 4 regions (R18), 72 output queues (R245), 16 buffer
pools (R256), 16 DMA channels (R265), 2 Ethernet ports (R329), 2 CAN controllers (R390), 4 bays (R274), 4 clock domains (R431),
2 codec dies (R26); and the fault log holds at most 32 records (R420). -/
def State.shaped (s : State) : Bool :=
  s.engines.length == 68 && s.regions.length == 4 && s.queues.length == 72 && s.pools.length == 16 && s.dma.length == 16 &&
    s.eth.length == 2 && s.can.length == 2 && s.mag.bays.length == 4 && s.rstc.domains.length == 4 && s.kpr.gated.length == 2 &&
    decide (s.fc.log.length ≤ 32)

/-- The invariant of the machine: its maps are canonical and it has its shape. -/
def State.wf (s : State) : Bool := s.canonical && s.shaped

/-- What no meaning may break: the commands that wait are untouched, the canonical forms stay, and no free value is
drawn twice. -/
structure Keeps (s t : State) : Prop where
  pending : t.pending = s.pending
  wf : s.wf = true → t.wf = true
  draws : s.draws ≤ t.draws

/-- DRAM, the poison of its lines and the host's memory are what they were: nothing is stored to. -/
def SameMemory (s t : State) : Prop := t.dram = s.dram ∧ t.poison = s.poison ∧ t.hostMem = s.hostMem

/-- Every register word keeps what it had, but for those at the offsets listed. -/
def OnlyWords (l : List Nat) (s t : State) : Prop := ∀ k, k ∉ l → t.word k = s.word k

/-- The frame of a command that stores nothing: no memory changes, and no register word but those at the offsets listed. -/
def KeepsBut (l : List Nat) (s t : State) : Prop := OnlyWords l s t ∧ SameMemory s t

/-- The frame of a command that stores at most to the rings of the output queues `l` (R247, R248): every DRAM byte outside those rings
keeps its value, and so does the host's memory. -/
def RingsOnly (l : List Nat) (s t : State) : Prop :=
  t.hostMem = s.hostMem ∧ ∀ x, (∀ q ∈ l, x < 4096 * s.get (OQ_Q_RING_BASE_ADDR q) ∨
    4096 * s.get (OQ_Q_RING_BASE_ADDR q) + s.get (OQ_Q_RING_SIZE_BYTES q) ≤ x) →
      sget (fun _ => 0#8) t.dram x = sget (fun _ => 0#8) s.dram x

/-- `n` bytes at `a` are DRAM that a block of the part accesses by itself: the lines are on, and none is asked of the host (R315), since they
lie in the device reserve or the host cannot be reached. -/
abbrev State.usable (s : State) (a n : Nat) : Prop := a < 2 ^ 62 ∧ s.allOn a n = true ∧ (s.hostReach = false ∨ a + n ≤ 2 ^ 32)

/-- The register words that show the Magazine Host's set, its bays and its command: MGH_STATUS, MGH_CMD_STAT, MGH_SET_ID, MGH_NEXT_ROW,
MGH_ROWS_FREE, and MGH_MAG_STATE of the four bays. -/
def mghWords : List Nat :=
  [0x280004, 0x28000C, 0x280018, 0x28001C, 0x280034, 0x280038, 0x28003C, 0x280040, 0x280100, 0x280140, 0x280180, 0x2801C0]

/-- The register words that may change when the set is settled anew (R282, R300): those of `mghWords`, MGH_EVENTS, MGH_PF_TIME, and the Fault
Collector's, since a magazine that has become a duplicate fails. -/
def mghSettles : List Nat := mghWords ++ [0x280060, 0x28007C] ++ (List.range 65536).map fun i => 0x480000 + 4 * i

/-- Faults of source `src` have been counted once more (saturating). -/
def Counted (src : Nat) (s t : State) : Prop :=
  sget (fun _ => 0) t.fc.count src = min (sget (fun _ => 0) s.fc.count src + 1) 255

/-- A fault of source `src` has been raised: it is counted (saturating), and one sequence number is used. -/
def Raised (src : Nat) (s t : State) : Prop :=
  sget (fun _ => 0) t.fc.count src = min (sget (fun _ => 0) s.fc.count src + 1) 255 ∧ t.fc.seq = (s.fc.seq + 1) % 65536

/-- The access is discarded and logged (R41, R416): source 0x01 is raised, no memory changes, and no register word outside the Fault
Collector. -/
def Logged (s t : State) : Prop :=
  Raised 0x01 s t ∧ SameMemory s t ∧ ∀ k, k < 0x480000 ∨ 0x4C0000 ≤ k → t.word k = s.word k

/-- DMA channel `n` has taken the descriptor at index `i`, whose first 24 bytes are `l`, and HEAD has passed on. -/
def Taken (n i : Nat) (l : List Nat) (s t : State) : Prop :=
  t.chanState n = 1 ∧ t.get (DMA_CH_HEAD_INDEX n) = s.nextIndex n i % 4096 ∧
    (t.chan n).job = some ⟨i, rdLe l 0 8, rdLe l 8 8, rdLe l 16 4, rdLe l 20 4, false, 0, [none, none, none, none], [0, 0, 0, 0]⟩ ∧
    KeepsBut [(DMA_CH_CTRL_EN n).off, (DMA_CH_HEAD_INDEX n).off, (DMA_CH_STAT_STATE n).off] s t

/-- A request on the carrier of `h` reaches MGC firmware that runs, and is new to it (R362 to R367). -/
def State.hears (s : State) (h : Hpp) : Bool :=
  s.awake && s.mgc.up && s.addressed h && (s.kept h).isNone && s.clip.req.isNone &&
    match h.carrier with
    | .mailbox => s.host && s.role != 2
    | .udp => (s.flag (ETH_P_CTRL_EN 0) || s.flag (ETH_P_CTRL_EN 1)) && !s.flag KPR_STATUS_HOLDUP && s.role != 2
    | c => s.flag (CAN_C_CTRL_EN (busOf c)) && h.src != 0

/-- Request `h` of operation `op` has been answered with payload `p` (R357, R362, R363): the reply is kept, and it is the mailbox's
output, or the datagram sent last. A broadcast gets none. -/
def Answered (h : Hpp) (op : Nat) (p : List Nat) (s t : State) : Prop :=
  h.dst ≠ 127 → t.hpp.replies = (⟨h.carrier, h.peer, h.tid, s.now, t.replyBytes h op p⟩ :: s.hpp.replies).take 32 ∧
    (h.carrier = .mailbox → t.resp = .bytes (toBytes (t.replyBytes h op p))) ∧
    (h.carrier = .udp → t.out.head? = some (.hpp .udp h.peer (toBytes (t.replyBytes h op p))))

/-- Bay `b` holds a magazine that FORMAT has just written as member `i` (R289, R307): nothing but the two superblock copies. -/
def Formatted (width chunkLog i : Nat) (b : Bay) : Prop :=
  b.volatile = [] ∧ ∃ x : Superblock, x.member = i ∧ x.width = width ∧ x.chunkLog = chunkLog ∧ x.nextClip = 0 ∧
    b.media = writeOn (writeOn [] 1 { x with seq := 1 }.bytes) 2 { x with seq := 2 }.bytes

/-- Registers of which every field is plain RW, one or more in every block that has any: offset and mask of the bits that are not
reserved. -/
def plainRegs : List (Nat × Nat) :=
  [(0x18, 0xFF), (0x1C, 0xFF), (0x40048, 0xFFFFFFFF), (0x40050, 0xFFFFFFFF), (0x80014, 0xFFFF), (0x100040, 0xFFF), (0x180004, 0x7F),
    (0x1C011C, 0x1FFFFF), (0x200118, 0xFFFF), (0x240010, 0xFF0FFF), (0x240018, 0x7FFFF), (0x240020, 0xFF)] ++
  [(0x240024, 0xFFFF), (0x240028, 0xFF), (0x28004C, 0xFF), (0x280050, 0xFFFF), (0x2C0014, 0x7FFF), (0x301014, 0x7FFFF),
    (0x340040, 0xFFF), (0x34005C, 0x3FFC0), (0x38000C, 0xFF), (0x44000C, 0xFFFF), (0x440014, 0xFFFFFFFF), (0x440018, 0xFFFF)] ++
  [(0x480000, 3), (0x480010, 0xFF), (0x4800A0, 0xFFFFFFFF), (0x540000, 0xFF)]

/-- The interrupt sources and host vectors are in their canonical form. -/
def State.icuWf (s : State) : Bool :=
  swf (fun _ => (⟨0, false, false, none, false⟩ : IcuSource)) s.icu.sources && swf (fun _ => (⟨false, none, 0, false⟩ : IcuVector)) s.icu.vectors

/-- Source `n` is the one that a claim in context `ctx` takes (R440): eligible, of the greatest priority, of several the lowest number. -/
def State.claims (s : State) (n ctx : Nat) : Prop :=
  s.eligible n ctx = true ∧ ∀ m, s.eligible m ctx = true →
    s.get (ICU_SRC_PRIO m) < s.get (ICU_SRC_PRIO n) ∨ s.get (ICU_SRC_PRIO m) = s.get (ICU_SRC_PRIO n) ∧ n ≤ m

/-- The register words that the Daymark or the bays give their value at a reset (R279, R429): the MAC addresses of the Ethernet
ports and the states of the bays. -/
def fusedWords : List Nat :=
  [(ETH_P_MAC_ADDR 0).off, (ETH_P_MAC_ADDR 0).off + 4, (ETH_P_MAC_ADDR 1).off, (ETH_P_MAC_ADDR 1).off + 4] ++
    (List.range 4).map (fun b => (MGH_MAG_STATE_STATE b).off)

/-- A Cold reset has been asserted (R429, R453) with cause word `cause`: nothing of the main domains survives, and it is held until
POR release. What is stored (NOR, Logbook), the Always-On domain and the straps stay. -/
def ColdHeld (cause : Word) (s t : State) : Prop :=
  t.word RSTC_CAUSE_POR.off = cause ∧ t.rstc.porDone = false ∧ (∀ d < 4, ∃ r, t.rstc.domains[d]? = some ⟨true, r, false, none, s.now⟩ ∧ 4 ≤ r) ∧
    t.dram = [] ∧ t.poison = [] ∧ t.frames = [] ∧ t.mag.clip = none ∧ t.mgc.up = false ∧ t.nor = s.nor ∧ t.log = s.log ∧ t.aon = s.aon ∧
    (∀ k, k ∈ [0x4C0004] ∨ 0x540000 ≤ k ∧ k < 0x580000 → t.word k = s.word k) ∧
    (∀ k, k ∉ fusedWords → k ∉ [0x4C0000, 0x4C0004] → ¬ (0x540000 ≤ k ∧ k < 0x580000) → t.word k = regReset k)

/-- A Warm reset of the IOD has been asserted (R429, R430): three domains are held in it, and the IOD waits for its lock. DRAM, the time
bases, FRAME_EPOCH, the fault log, what is stored and the Always-On domain stay; every other register is at its reset value. -/
def WarmHeld (s t : State) : Prop :=
  (∀ d < 3, ∃ x, t.rstc.domains[d]? = some x ∧ x.inReset = true ∧ 3 ≤ x.reach) ∧
    t.dram = s.dram ∧ t.poison = s.poison ∧ t.hostMem = s.hostMem ∧ t.tb = s.tb ∧ t.fc.log = s.fc.log ∧ t.nor = s.nor ∧ t.log = s.log ∧
    t.aon = s.aon ∧ t.frames = [] ∧ t.engines = State.reset.engines ∧ t.mag.clip = none ∧ t.mgc.up = false ∧ t.epoch = s.epoch ∧ t.get FC_SELF_OK = 1 ∧ t.get BU_SHADOW_EPOCH_EPOCH = (s.epoch + 1) % 2 ^ 32 ∧
    (∀ k, warmKeeps k = false → k ∉ fusedWords → (∀ e < 68, k ≠ (CE_ENG_STATE_STATE e).off) → t.word k = regReset k)

/-- A command completes: it answers a next state, of which `P` holds. -/
def Completes (c : Instr) (s : State) (P : State → Prop) : Prop := ∃ t, exec c s = .next t ∧ P t

/-- A step is safe when it answers a next state: no fault and no refusal. -/
def Safe (s : State) : Prop := ∃ t, step s = .next t

/-- A safe run of `n` steps from `s`. -/
def SafeRun : Nat → State → Prop
  | 0, _ => True
  | n + 1, s => ∃ t, step s = .next t ∧ SafeRun n t

end Sys2Proof.Machine
end

