-- ==== Sys2Proof/Certificates/Slice0/Obligations.lean ====
section
/-! DEFINITION. The statements: what the commands, the queue, the reset state and the coding tools of the part do, one definition each.
A docstring says what its statement says and which rules or sections of the spec it comes from. KeepsBut, OnlyWords and SameMemory are
the frames (Safety.lean); Completes says that the command answers a next state with the properties given. -/

open Sys2Proof Sys2Proof.Machine

/-- A step runs the command at the front of the queue with the rest of the queue. For every state, every command c and every rest: if the queue of waiting
commands is c :: rest, a step is exec of c on the state whose queue is rest; and a step of the state with c :: rest put in its queue is the same. That
the block takes its commands from a first in, first out queue is the model's form (log entries 1 and 2), not a rule of the spec. From:
spec/00_scope.md (Signals and sequences); spec/95_what_each_step_holds.md. -/
def Obligations.StepRunsTheFrontCommand : Prop :=
  ∀ (s : State) (c : Instr) (rest : List Instr),
    (s.pending = c :: rest → step s = exec c { s with pending := rest }) ∧
    step { s with pending := c :: rest } = exec c { s with pending := rest }

/-- On an empty queue a step is one tick of the clock. With nothing waiting, a step answers a next state whose queue is empty. The clock has gone on by
one tick of 1 ns (2^32 of its units), unless the part sleeps and the Time Base counts always-on ticks in its place; then the clock stands still. That
a step on an empty queue is a tick, and how long it is, is the model's choice (log entry 1). From: spec/02_beacon_and_time.md (Device Time Counter);
spec/14_power_and_keeper.md (Power states). -/
def Obligations.EmptyQueueTicks : Prop :=
  ∀ s : State, s.pending = [] → ∃ t, step s = .next t ∧ t.pending = [] ∧
    (s.kpr.mode = .on ∨ s.tb.sleepTicks = none → t.clk = s.clk + 2 ^ 32) ∧
    (s.kpr.mode ≠ .on → s.tb.sleepTicks.isSome = true → t.clk = s.clk)

/-- Every command of the table completes in every state, and so every run of any length is safe. For every number n and every state s, whatever waits in
its queue: a step of s answers a next state, so do n steps in a row, and every command of the table, with every operand, run on s answers a next state
that keeps the queue. No command of this part ends in a fault of the model or in a refusal. From: spec/95_what_each_step_holds.md; spec/00_scope.md
(Registers). -/
def Obligations.EveryRunIsSafe : Prop :=
  ∀ (n : Nat) (s : State), Safe s ∧ SafeRun n s ∧ ∀ c : Instr, Completes c s fun t => t.pending = s.pending

/-- State.reset holds what the spec gives for a reset, in canonical form. State.reset meets the invariant of the machine and that of the interrupt
controller; nothing waits; no DRAM byte is listed and the DRAM list is canonical; the fault log is empty; FRAME_EPOCH is 0; FC_PHASE is 0, FC_LEVEL is
0, the Beacon does not run, RSTC_CAUSE shows POR; no host is present and no clip is open; and every register word, and every value in force, is the
reset value of the register tables (regReset). The tables' values of RSTC_STRAPS and of the MAC addresses, which the spec takes from pins and the
Daymark, are the model's choice (log entries 33 and 9), and so are the empty DRAM, the power-on cause and the absent host and clip of a first power-up
(log entries 35 and 36). From: spec/00_scope.md (Registers); spec/15_faults_and_resets.md (Resets); spec/02_beacon_and_time.md (FRAME_EPOCH). -/
def Obligations.ResetState : Prop :=
  State.reset.wf = true ∧ State.reset.icuWf = true ∧ State.reset.pending = [] ∧ State.reset.dram = [] ∧ State.reset.fc.log = [] ∧
    State.reset.epoch = 0 ∧ State.reset.get FC_PHASE_PHASE = 0 ∧ State.reset.get FC_LEVEL_LEVEL = 0 ∧ State.reset.get BU_STATUS_RUNNING = 0 ∧
    State.reset.get RSTC_CAUSE_POR = 1 ∧ State.reset.beaconRuns = false ∧ State.reset.host = false ∧ State.reset.clipOpen = false ∧
    (∀ k, State.reset.word k = regReset k ∧ State.reset.inForce k = regReset k) ∧ Memory.wf State.reset.dram = true

/-- Every step keeps the invariant of the machine. For every state s that meets State.wf, if a step of s answers next t, then t meets it: the maps of
registers, of values in force, of DRAM, of poison and of host memory are canonical (keys strictly rising, nothing listed that an unlisted key reads
as), and the part has its shape: 68 engines, 4 regions, 72 output queues, 16 buffer pools, 16 DMA channels, 2 Ethernet ports, 2 CAN controllers, 4
bays, 4 clock domains, 2 gate flags of dies, and at most 32 records in the fault log. It covers all 269 commands and the tick. From: spec/00_scope.md
(Registers); spec/01_architecture.md (The six levels); spec/09_queues_pools_dma.md (Output queues); spec/15_faults_and_resets.md (The record and the
log). -/
def Obligations.StepKeepsTheInvariant : Prop :=
  ∀ s t : State, s.wf = true → step s = .next t → t.wf = true

/-- A step takes exactly the front command and never draws a free value twice. For all states s and t, if a step of s answers next t, then t's queue is
s's queue without its front command (empty if it was empty), and the counter of free values has not gone back. The queue and the counter are the
model's own fields (log entries 1 and 4). From: spec/95_what_each_step_holds.md. -/
def Obligations.StepConsumesTheQueue : Prop :=
  ∀ s t : State, step s = .next t → t.pending = s.pending.tail ∧ s.draws ≤ t.draws

/-- Register writes and reads by field class, and the latch of a 64-bit read. While the part is awake, for either agent and every value v. Where no write
of the MGC came in the same clock, or the agent is the MGC: a write of BU_OUT_WIDTH stores v mod 256; one of a plain read-write register of plainRegs
stores v masked by its fields; one of the read-only BU_FRAME_EPOCH changes nothing and raises nothing; one of the Beacon-class FAL_QFLOOR stores the
field, leaves the values in force, and tags the agent's last-write register with the shadow epoch; CXP_CTRL.MBOX_VEC takes a write while no host is
present, and with a host present a write of its value changes nothing and a change is discarded and raises 0x01; a write of FAL_EVENTS clears exactly
those of its five bits that are written as 1. A host write of a register of plainRegs in the clock of an MGC write of it leaves what the MGC wrote
(same-clock order, R42). Each clause names the words that change; no memory does. A read of a plain register answers its word and changes nothing. A
read of any register that does nothing more (no side effect and no CMD) completes: the low or only word answers its value, the low word of a 64-bit
register also latches the high word for the requester, and a read of a high word with a latched value answers and uses it up. A read of TB_DTC answers
the low 32 bits of device time and latches the high 32. That the latch is one for each requester is the model's choice (log entry 39). From:
spec/00_scope.md (Registers); spec/01_architecture.md (Global address map); spec/02_beacon_and_time.md (Field classes and the shadow commit);
spec/02_beacon_and_time.md (Device Time Counter); spec/11_host_cxl.md (CXL Port registers); spec/05_rate_control.md (Frame Allocator registers). -/
def Obligations.RegisterAccesses : Prop :=
  ∀ (s : State) (a : Agent) (v : Word), s.wf = true → s.awake = true →
    (a = .mgc ∨ s.mgcWrites.at_ ≠ s.now →
      (Completes (.registerWrite a BU_OUT_WIDTH_WIDTH.off v) s fun t => t.get BU_OUT_WIDTH_WIDTH = v.toNat % 256 ∧
        KeepsBut [BU_OUT_WIDTH_WIDTH.off] s t) ∧
      (∀ p ∈ plainRegs, Completes (.registerWrite a p.1 v) s fun t => t.word p.1 = v &&& BitVec.ofNat 32 p.2 ∧ KeepsBut [p.1] s t) ∧
      (Completes (.registerWrite a BU_FRAME_EPOCH_EPOCH.off v) s fun t => t.fc = s.fc ∧ KeepsBut [] s t) ∧
      (Completes (.registerWrite a FAL_QFLOOR_Q.off v) s fun t => t.get FAL_QFLOOR_Q = v.toNat % 4096 ∧ t.force = s.force ∧
        t.get (if a = .host then BU_LAST_WR_EPOCH_HOST_EPOCH else BU_LAST_WR_EPOCH_MGC_EPOCH) = s.get BU_SHADOW_EPOCH_EPOCH ∧
        KeepsBut [FAL_QFLOOR_Q.off, (if a = .host then BU_LAST_WR_EPOCH_HOST_EPOCH else BU_LAST_WR_EPOCH_MGC_EPOCH).off] s t) ∧
      (s.host = false → Completes (.registerWrite a CXP_CTRL_MBOX_VEC.off v) s fun t => t.get CXP_CTRL_MBOX_VEC = v.toNat % 64 ∧
        KeepsBut [CXP_CTRL_MBOX_VEC.off] s t) ∧
      (s.host = true → v.toNat % 64 = s.get CXP_CTRL_MBOX_VEC → Completes (.registerWrite a CXP_CTRL_MBOX_VEC.off v) s fun t =>
        t.fc = s.fc ∧ KeepsBut [] s t) ∧
      (s.host = true → v.toNat % 64 ≠ s.get CXP_CTRL_MBOX_VEC → Completes (.registerWrite a CXP_CTRL_MBOX_VEC.off v) s fun t =>
        t.get CXP_CTRL_MBOX_VEC = s.get CXP_CTRL_MBOX_VEC ∧ Raised 0x01 s t ∧ SameMemory s t) ∧
      (Completes (.registerWrite a FAL_EVENTS_DECIDED.off v) s fun t =>
        t.word FAL_EVENTS_DECIDED.off = s.word FAL_EVENTS_DECIDED.off &&& ~~~(v &&& 0x1F#32) ∧ KeepsBut [FAL_EVENTS_DECIDED.off] s t)) ∧
    (∀ p ∈ plainRegs, ∀ u, s.mgcWrote p.1 = some u → Completes (.registerWrite .host p.1 v) s fun t =>
      t.word p.1 = u &&& BitVec.ofNat 32 p.2 ∧ KeepsBut [p.1] s t) ∧
    (∀ p ∈ plainRegs, Completes (.lowWordLatchRead a p.1) s fun t => t.resp = .word (s.word p.1) ∧ KeepsBut [] s t) ∧
    (∀ off r i j high, regFind (off / 4 * 4) = some (r, i, j, high) → gangWindow (off / 4 * 4) = false → s.isOff (off / 4 * 4) = false →
      s.readDoes a (agentIx a) (off / 4 * 4) = none →
      (high = false → r.wide = false → Completes (.lowWordLatchRead a off) s fun t =>
        t.resp = .word (s.readValue (agentIx a) (off / 4 * 4) false) ∧ t.latch = s.latch ∧ KeepsBut [] s t) ∧
      (high = false → r.wide = true → Completes (.lowWordLatchRead a off) s fun t =>
        t.resp = .word (s.readValue (agentIx a) (off / 4 * 4) false) ∧
        aget t.latch (latchKey (agentIx a) (off / 4 * 4 + 4)) = some (s.readValue (agentIx a) (off / 4 * 4) true) ∧ KeepsBut [] s t) ∧
      (high = true → ∀ h, aget s.latch (latchKey (agentIx a) (off / 4 * 4)) = some h → Completes (.lowWordLatchRead a off) s fun t =>
        t.resp = .word h ∧ aget t.latch (latchKey (agentIx a) (off / 4 * 4)) = none ∧ KeepsBut [] s t)) ∧
    (Completes (.lowWordLatchRead a TB_DTC_NS.off) s fun t => t.resp = .word (BitVec.ofNat 32 s.dtcNs) ∧
      aget t.latch (latchKey (agentIx a) (TB_DTC_NS.off + 4)) = some (BitVec.ofNat 32 (s.dtcNs / 2 ^ 32)) ∧ KeepsBut [] s t)

/-- Accesses that are unaligned, of a wrong size or at a reserved offset complete as the rules say. While the part is awake, outside the gang window and
in no block that is off, each of these completes: a read that is unaligned or not 32 bits wide, of a register that a read only reads, answers the
value of the aligned word that holds its first byte and raises nothing (that this is the word, where the access crosses one, is the model's choice,
log entry 39); an unaligned or wide write changes no register outside the Fault Collector and no memory, and raises source 0x01 with the block's index
and the offset in the record; a read of a word at which no register stands answers 0 and changes nothing; a write of such a word outside the push
windows raises source 0x01 in the same way. From: spec/00_scope.md (Registers); spec/15_faults_and_resets.md (Fault sources and classes). -/
def Obligations.RefusedAccesses : Prop :=
  ∀ (s : State) (a : Agent) (off size : Nat) (v : Word), s.wf = true → s.awake = true → gangWindow off = false → s.isOff off = false →
    (off % 4 ≠ 0 ∨ size ≠ 4 →
      (∀ r i j, regFind (off / 4 * 4) = some (r, i, j, false) → s.readDoes a (agentIx a) (off / 4 * 4) = none →
        Completes (.unalignedAccess a off size none) s fun t =>
          t.resp = .word (s.readValue (agentIx a) (off / 4 * 4) false) ∧ t.fc = s.fc ∧ KeepsBut [] s t) ∧
      (∀ p ∈ plainRegs, off / 4 * 4 = p.1 → Completes (.unalignedAccess a off size none) s fun t =>
        t.resp = .word (s.word p.1) ∧ t.fc = s.fc ∧ KeepsBut [] s t) ∧
      (Completes (.unalignedAccess a off size (some v)) s fun t => Raised 0x01 s t ∧ SameMemory s t ∧
        (∀ k, k < 0x480000 ∨ 0x4C0000 ≤ k → t.word k = s.word k) ∧
        (off < 0x5C0000 → s.fc.log.length < 32 → ∃ x ∈ t.fc.log, x.source = 0x01 ∧ x.unit = off / 0x40000 ∧ x.info = off))) ∧
    (regFind (off / 4 * 4) = none →
      Completes (.reservedOffsetAccess a off none) s fun t => t.resp = .word 0#32 ∧ t.fc = s.fc ∧ KeepsBut [] s t) ∧
    (off % 4 = 0 → regFind off = none → pushAt off = none →
      Completes (.reservedOffsetAccess a off (some v)) s fun t => Raised 0x01 s t ∧ SameMemory s t ∧
        (∀ k, k < 0x480000 ∨ 0x4C0000 ≤ k → t.word k = s.word k) ∧
        (off < 0x5C0000 → s.fc.log.length < 32 → ∃ x ∈ t.fc.log, x.source = 0x01 ∧ x.unit = off / 0x40000 ∧ x.info = off))

/-- The Beacon edge: the epoch, the shadow epoch and the Beacon time. With an edge due from a source k at an instant that has come and the Beacon running,
the edge completes whatever else is pending in the part: FRAME_EPOCH becomes the next epoch (or the symbol's on a follower), BU_SHADOW_EPOCH is one
more modulo 2^32, a preset is no longer armed, BEACON_TIME is device time (or the time in the symbol), the instant is kept as the last edge, the run
of flywheel edges grows by one or starts again, no edge is due, and an agent still waits for a commit of its write only where HOLD keeps it out. With
no edge due, or the Beacon stopped, the command leaves the state as it is. That a late command takes its own time as the edge's is the model's choice
(log entry 78). From: spec/02_beacon_and_time.md (What happens at a Beacon); spec/02_beacon_and_time.md (FRAME_EPOCH); spec/02_beacon_and_time.md
(Field classes and the shadow commit). -/
def Obligations.BeaconEdge : Prop :=
  ∀ s : State, s.wf = true →
    (∀ k at8, s.bu.edgeDue = some (k, at8) → at8 ≤ s.now8 → s.beaconRuns = true → Completes .beaconEdge s fun t =>
      t.epoch = s.nextEpoch k ∧ t.get BU_SHADOW_EPOCH_EPOCH = (s.nextEpoch k + 1) % 2 ^ 32 ∧ t.get BU_STATUS_PRESET_ARMED = 0 ∧
      t.get BU_BEACON_TIME_TIME = (match k with | .gang _ d _ => d % 2 ^ 64 | _ => s.dtcNs) ∧
      t.bu.lastEdge = some (if s.now8 < at8 + 8 then at8 else s.now8) ∧
      t.bu.missRun = (if k = .flywheel then s.bu.missRun + 1 else 0) ∧ t.bu.edgeDue = none ∧
      t.bu.waitHost = (s.bu.waitHost && s.flag BU_CTRL_HOLD) ∧ t.bu.waitMgc = (s.bu.waitMgc && s.flag BU_CTRL_HOLD)) ∧
    (s.bu.edgeDue = none ∨ s.beaconRuns = false → Completes .beaconEdge s fun t => t = s)

/-- What makes a Beacon edge due, and what is counted instead. A due instant of the free-running timer that is clear of the last edge makes an edge due at
the source event (256 ns later on a lead) and passes on to the next; a due PTP instant is treated the same, or counted as skipped when it is not
clear; an edge on BEACON_IN clear of the last one makes an edge due 23 to 25 ns later (the synchroniser) and ends flywheeling; one that is not clear
(and not the first after a change of source) counts as a runt; on another source an edge only is seen; the flywheel makes an edge due when the last
edge is one period plus the window old (two after a change of source), counts it, starts the lock run again and turns a locked time base on that
reference to holdover; when the misses in a row reach MISS_LIMIT source 0x08 is raised, once a run; the BEACON_OUT pulse ends when its width has
passed. Each clause names the register words that may change. From: spec/02_beacon_and_time.md (Beacon sources); spec/02_beacon_and_time.md (Beacon
Unit registers). -/
def Obligations.BeaconSources : Prop :=
  ∀ s : State, s.wf = true →
    (s.beaconRuns = true → s.bu.edgeDue = none → s.source_ = 0 → s.bu.tStart + s.sched s.bu.k * 2 ^ 32 ≤ s.tb.disc →
      s.clearOfLast (s.edgeAt 0) = true →
      Completes .timerBeaconInstant s fun t => t.bu.edgeDue = some (.timer, 8 * (s.now + s.lag)) ∧ t.bu.k = s.bu.k + 1 ∧ KeepsBut [] s t) ∧
    (s.beaconRuns = true → s.bu.edgeDue = none → s.source_ = 1 → s.getF BU_PHASE_PHASE + s.sched s.bu.ptpK ≤ s.dtcNs → s.bu.ptpFrom ≤ s.now →
      (s.clearOfLast (s.edgeAt 0) = true → Completes .timerBeaconInstant s fun t =>
        t.bu.edgeDue = some (.timer, 8 * (s.now + s.lag)) ∧ t.bu.ptpK = s.bu.ptpK + 1 ∧ KeepsBut [] s t) ∧
      (s.clearOfLast (s.edgeAt 0) = false → Completes .timerBeaconInstant s fun t => t.bu.edgeDue = none ∧ t.bu.ptpK = s.bu.ptpK + 1 ∧
        t.get BU_COUNTS2_SKIPPED = min (s.get BU_COUNTS2_SKIPPED + 1) 65535 ∧ KeepsBut [BU_COUNTS2_SKIPPED.off] s t)) ∧
    (s.beaconRuns = true → s.source_ = 2 → s.bu.edgeDue = none → (∀ w, 23 ≤ w → w ≤ 25 → s.clearOfLast (s.edgeAt w) = true) →
      Completes .beaconInEdge s fun t => (∃ w, 23 ≤ w ∧ w ≤ 25 ∧ t.bu.edgeDue = some (.beaconIn, 8 * (s.now + w + s.lag))) ∧
        t.get BU_STATUS_FLYWHEEL = 0 ∧ t.bu.seen = some s.now ∧ t.bu.fresh = false ∧
        KeepsBut [BU_STATUS_FLYWHEEL.off, TB_ADJ_ADJ.off, TB_QUALITY_STATE.off] s t) ∧
    (s.beaconRuns = true → s.source_ = 2 → s.bu.fresh = false → (∀ w, 23 ≤ w → w ≤ 25 → s.clearOfLast (s.edgeAt w) = false) →
      Completes .beaconInEdge s fun t => t.bu.edgeDue = s.bu.edgeDue ∧ t.get BU_COUNTS_RUNT = min (s.get BU_COUNTS_RUNT + 1) 65535 ∧
        KeepsBut [BU_COUNTS_RUNT.off] s t) ∧
    (s.source_ ≠ 2 ∨ s.beaconRuns = false → Completes .beaconInEdge s fun t => t.bu.edgeDue = s.bu.edgeDue ∧
      (s.bu.seen = none → t.bu.seen = some s.now) ∧ KeepsBut [] s t) ∧
    (∀ e, s.bu.lastEdge = some e → s.beaconRuns = true → s.source_ = 2 → s.bu.edgeDue = none →
      s.reachedPpW (if s.bu.fresh then 2 else 1) (s.edgeAt 0 - e) = true →
      Completes .flywheelEdge s fun t => t.bu.edgeDue = some (.flywheel, 8 * (s.now + s.lag)) ∧ t.bu.fresh = false ∧
        t.get BU_STATUS_FLYWHEEL = 1 ∧ t.get BU_COUNTS_FLYWHEEL = min (s.get BU_COUNTS_FLYWHEEL + 1) 65535 ∧ t.tb.lockRun = 0 ∧
        (s.ref = 2 → s.get TB_QUALITY_STATE = 2 → t.get TB_QUALITY_STATE = 3) ∧
        KeepsBut [BU_STATUS_FLYWHEEL.off, BU_COUNTS_FLYWHEEL.off, TB_QUALITY_STATE.off] s t) ∧
    (max 1 (s.get BU_MISS_LIMIT_LIMIT) ≤ s.bu.missRun → s.bu.missTold = false → Completes .beaconMiss s fun t =>
      Raised 0x08 s t ∧ t.bu.missTold = true ∧ SameMemory s t) ∧
    (s.bu.missRun < max 1 (s.get BU_MISS_LIMIT_LIMIT) ∨ s.bu.missTold = true → Completes .beaconMiss s fun t => t = s) ∧
    (∀ e, s.bu.outSince = some e → e + 1000 * max 1 (s.get BU_OUT_WIDTH_WIDTH) ≤ s.now →
      Completes .beaconOutEnd s fun t => t.out = .beaconOut false :: s.out ∧ t.bu.outSince = none ∧ KeepsBut [] s t)

/-- Beacon Unit commands: run, stop, clear counts, preset and force commit. RUN and STOP are writes of BU_CTRL and tag the agent's last-write register.
RUN of a stopped Beacon sets RUN and RUNNING, forgets the last edge and sets the first timer instant 10 microseconds on; of a running one it only
tags. STOP with no clip open clears both, drops an edge that is due, and applies every held reset: no die and no engine has one left; with nothing
held and the memory controller idle only the three words change. With a clip open it is discarded and raises 0x01. CLR_COUNTS clears the four counts
of runts, flywheel, held and skipped edges. A preset with the Beacon stopped stores the value, arms it, sets the shadow epoch one above it and re-tags
the agents whose writes wait; with it running the same value changes nothing and another one raises 0x01. FORCE_COMMIT with the Beacon stopped commits
the plain shadows, the rate where it is valid, the format where it is, and outside the modes CFS and QCAP the target, and ends the waits; with it
running it changes no value in force and raises 0x01. From: spec/02_beacon_and_time.md (Beacon sources); spec/02_beacon_and_time.md (FRAME_EPOCH);
spec/02_beacon_and_time.md (Field classes and the shadow commit); spec/02_beacon_and_time.md (Beacon Unit registers). -/
def Obligations.BeaconCommands : Prop :=
  ∀ (s : State) (a : Agent) (l : Fld), s.wf = true → l = (if a = .host then BU_LAST_WR_EPOCH_HOST_EPOCH else BU_LAST_WR_EPOCH_MGC_EPOCH) →
    (s.flag BU_CTRL_RUN = false →
      Completes (.beaconRun a) s fun t => t.get BU_CTRL_RUN = 1 ∧ t.get BU_STATUS_RUNNING = 1 ∧ t.bu.lastEdge = none ∧
        t.bu.edgeDue = none ∧ t.bu.tStart = s.tb.disc + 10000 * 2 ^ 32 ∧ t.bu.k = 0 ∧ t.bu.missRun = 0 ∧
        t.get l = s.get BU_SHADOW_EPOCH_EPOCH ∧ KeepsBut [BU_CTRL_RUN.off, BU_STATUS_RUNNING.off, l.off] s t) ∧
    (s.flag BU_CTRL_RUN = true → Completes (.beaconRun a) s fun t => t.get l = s.get BU_SHADOW_EPOCH_EPOCH ∧ KeepsBut [l.off] s t) ∧
    (s.clipOpen = false → Completes (.beaconStop a) s fun t => t.get BU_CTRL_RUN = 0 ∧ t.get BU_STATUS_RUNNING = 0 ∧ t.bu.edgeDue = none ∧
      t.get l = s.get BU_SHADOW_EPOCH_EPOCH ∧ t.get RSTC_HELD_DIE = 0 ∧ (∀ e < 68, (t.eng e).resetHeld = false) ∧
      (s.get RSTC_HELD_DIE = 0 → (∀ e < 68, (s.eng e).resetHeld = false) → s.lmc.retireDue = none → s.lmc.migration = none →
        (∀ x ∈ s.lmc.timing, x.due = none) → KeepsBut [BU_CTRL_RUN.off, BU_STATUS_RUNNING.off, l.off] s t)) ∧
    (s.clipOpen = true → Completes (.beaconStop a) s fun t => t.get BU_CTRL_RUN = s.get BU_CTRL_RUN ∧
      t.get BU_STATUS_RUNNING = s.get BU_STATUS_RUNNING ∧ t.bu.edgeDue = s.bu.edgeDue ∧ Raised 0x01 s t ∧ SameMemory s t) ∧
    (Completes (.buClrCounts a) s fun t => t.get BU_COUNTS_RUNT = 0 ∧ t.get BU_COUNTS_FLYWHEEL = 0 ∧ t.get BU_COUNTS2_HELD = 0 ∧
        t.get BU_COUNTS2_SKIPPED = 0 ∧ KeepsBut [BU_COUNTS_RUNT.off, BU_COUNTS2_HELD.off] s t) ∧
    (∀ v : Word, s.beaconRuns = false →
      Completes (.epochPreset a v) s fun t => t.word BU_EPOCH_PRESET_EPOCH.off = v ∧ t.get BU_STATUS_PRESET_ARMED = 1 ∧
        t.get BU_SHADOW_EPOCH_EPOCH = (v.toNat + 1) % 2 ^ 32 ∧
        t.get BU_LAST_WR_EPOCH_HOST_EPOCH = (if s.bu.waitHost then (v.toNat + 1) % 2 ^ 32 else s.get BU_LAST_WR_EPOCH_HOST_EPOCH) ∧
        t.get BU_LAST_WR_EPOCH_MGC_EPOCH = (if s.bu.waitMgc then (v.toNat + 1) % 2 ^ 32 else s.get BU_LAST_WR_EPOCH_MGC_EPOCH) ∧
        KeepsBut [BU_EPOCH_PRESET_EPOCH.off, BU_STATUS_PRESET_ARMED.off, BU_SHADOW_EPOCH_EPOCH.off, BU_LAST_WR_EPOCH_HOST_EPOCH.off,
          BU_LAST_WR_EPOCH_MGC_EPOCH.off] s t) ∧
    (∀ v : Word, s.beaconRuns = true → (v = s.word BU_EPOCH_PRESET_EPOCH.off → Completes (.epochPreset a v) s fun t => t = s) ∧
      (v ≠ s.word BU_EPOCH_PRESET_EPOCH.off → Completes (.epochPreset a v) s fun t =>
        t.word BU_EPOCH_PRESET_EPOCH.off = s.word BU_EPOCH_PRESET_EPOCH.off ∧ Raised 0x01 s t ∧ SameMemory s t)) ∧
    (s.beaconRuns = false → Completes (.forceCommit a) s fun t => t.bu.waitHost = false ∧ t.bu.waitMgc = false ∧
      (∀ k ∈ plainShadows, t.inForce k = s.word k) ∧ (rateOk (s.get BU_RATE_NUM_NUM) (s.get BU_RATE_DEN_DEN) = true →
        t.inForce 0x8 = s.word 0x8 ∧ t.inForce 0xC = s.word 0xC) ∧ (s.shadowFormatOk = true → t.inForce 0x80004 = s.word 0x80004 ∧
        t.inForce 0x80008 = s.word 0x80008) ∧ (s.get FAL_CTRL_MODE ≠ 1 → s.get FAL_CTRL_MODE ≠ 2 → t.inForce 0x100004 = s.word 0x100004) ∧
      SameMemory s t) ∧
    (s.beaconRuns = true → Completes (.forceCommit a) s fun t => t.force = s.force ∧ Raised 0x01 s t ∧ SameMemory s t)

/-- The Gang Link: Beacon symbols, failure, training, shortfall, readout and the window. On a follower with the link up: a Beacon symbol whose edge
(arrival + D - L) errs by at most 4 ns from the last edge plus P makes that edge due with the symbol's epoch, time and columns, locks the gang and the
time base, and shows the error in SKEW where it is a whole number of units; one that errs by more makes it due, drops the lock, and at the second in a
row takes the link down and raises 0x48; the first after a start makes it due. No symbol by P + W drops the link and the lock and raises 0x48, and so
does a failure of the link. Training with a latency within 240 ns sets the link up with rejoin due, above it nothing. A lead keeps a shortfall
reported before its grant forms, and a follower's readout end in the first frame that waits for it. A window access of an awake lead with the link up
passes the access on, with its reply; with it down a read answers 0xDEC00FF0 to the MGC and unsupported to the host, and raises 0x02. The columns in a
symbol are the model's form of R31 (log entry 62). From: spec/02_beacon_and_time.md (Across the Gang Link); spec/01_architecture.md (System);
spec/01_architecture.md (Global address map); spec/14_power_and_keeper.md (The frame budget). -/
def Obligations.GangLink : Prop :=
  ∀ s : State, s.wf = true →
    (∀ (e : Word) (d f n l : Nat) (x : Int × Nat), s.role = 2 → s.gang.up = true → s.beaconRuns = true → s.bu.lastEdge = some l →
      s.gangError l (s.gangEdgeAt f) = x → x.1.natAbs ≤ 32 * x.2 →
      Completes (.gangBeaconSymbol e ⟨d, f, n⟩) s fun t => t.bu.edgeDue = some (.gang e d n, s.now8 + f % 8 + 2048 - 4 * s.get BU_GANG_LATENCY) ∧
        t.bu.gangBad = 0 ∧ t.get BU_STATUS_GANG_LOCK = 1 ∧ t.get TB_QUALITY_STATE = 2 ∧
        (x.1 % x.2 = 0 → t.get BU_GANG_SKEW = unsigned 16 (x.1 / x.2)) ∧
        KeepsBut [BU_GANG_SKEW.off, BU_STATUS_GANG_LOCK.off, TB_QUALITY_STATE.off] s t) ∧
    (∀ (e : Word) (d f n l : Nat) (x : Int × Nat), s.role = 2 → s.gang.up = true → s.beaconRuns = true → s.bu.lastEdge = some l →
      s.gangError l (s.gangEdgeAt f) = x → 32 * x.2 < x.1.natAbs →
      Completes (.gangBeaconSymbol e ⟨d, f, n⟩) s fun t => t.bu.edgeDue = some (.gang e d n, s.gangEdgeAt f) ∧ t.bu.gangBad = s.bu.gangBad + 1 ∧
        t.get BU_STATUS_GANG_LOCK = 0 ∧ SameMemory s t ∧
        (s.bu.gangBad = 0 → KeepsBut [BU_GANG_SKEW.off, BU_STATUS_GANG_LOCK.off, TB_QUALITY_STATE.off] s t) ∧
        (1 ≤ s.bu.gangBad → t.gang = ⟨false, false, false⟩ ∧ Raised 0x48 s t)) ∧
    (∀ (e : Word) (d f n : Nat), s.role = 2 → s.gang.up = true → s.beaconRuns = true → s.bu.lastEdge = none →
      Completes (.gangBeaconSymbol e ⟨d, f, n⟩) s fun t => t.bu.edgeDue = some (.gang e d n, s.gangEdgeAt f) ∧ KeepsBut [] s t) ∧
    (∀ l, s.role = 2 → s.gang.up = true → s.beaconRuns = true → s.bu.edgeDue = none → s.bu.lastEdge = some l →
      s.reachedPpW 1 (s.now8 - l) = true → Completes .gangSymbolTimeout s fun t => t.gang = ⟨false, false, false⟩ ∧
        t.get BU_STATUS_GANG_LOCK = 0 ∧ Raised 0x48 s t ∧ SameMemory s t) ∧
    (s.role = 2 → s.gang.up = true → Completes .gangLinkFail s fun t => t.gang = ⟨false, false, false⟩ ∧ t.get BU_STATUS_GANG_LOCK = 0 ∧
      Raised 0x48 s t ∧ SameMemory s t) ∧
    (s.role = 1 → s.gang.up = true → Completes .gangLinkFail s fun t => t.gang = ⟨false, false, false⟩) ∧
    (∀ n, s.role ≠ 0 → n ≤ 480 → Completes (.gangLinkTrained n) s fun t => t.gang.up = true ∧ t.gang.rejoin = true ∧
      t.get BU_GANG_LATENCY = n ∧ t.bu.gangBad = 0 ∧ KeepsBut [BU_GANG_LATENCY.off] s t) ∧
    (∀ n, 480 < n → Completes (.gangLinkTrained n) s fun t => t = s) ∧
    (∀ n, s.role = 1 → s.gang.up = true → s.kpr.formed = none → s.kpr.forming = none →
      Completes (.gangShortfallReport n) s fun t => t.kpr.shortfall = some n ∧ KeepsBut [] s t) ∧
    (∀ f, s.role = 1 → s.gang.up = true → (s.frames.find? fun f => f.info.ganged && f.followerEnd.isNone && !f.closed) = some f →
      Completes .followerReadoutEnd s fun t => KeepsBut [] s t ∧
        ∀ g ∈ t.frames, g.info.epoch = f.info.epoch → g.followerEnd = some s.now) ∧
    (∀ (a : Agent) (off : Nat) (w reply : Word), off < 0x2000000 → s.awake = true → s.role = 1 → s.gang.up = true →
      (Completes (.gangWindowAccess a off none reply) s fun t => t.out = .gangAccess a off none :: s.out ∧ t.resp = .word reply ∧
        KeepsBut [] s t) ∧
      (Completes (.gangWindowAccess a off (some w) reply) s fun t => t.out = .gangAccess a off (some w) :: s.out ∧ KeepsBut [] s t)) ∧
    (∀ (off : Nat) (reply : Word), off < 0x2000000 → s.awake = true → s.role = 1 → s.gang.up = false →
      (Completes (.gangWindowAccess .mgc off none reply) s fun t => t.resp = .word 0xDEC00FF0#32 ∧ Raised 0x02 s t ∧ SameMemory s t) ∧
      (Completes (.gangWindowAccess .host off none reply) s fun t => t.resp = .unsupported ∧ Raised 0x02 s t ∧ SameMemory s t))

/-- Time Base commands: set, step, lock, unlock and change of reference. SET makes device time the value of TB_SET, STEP adds it modulo 2^64, and with a
reference other than PTP both leave the quality FREE; with PTP as reference LOCK makes the quality LOCKED and UNLOCK of it HOLDOVER, UNLOCK of any
other quality changes nothing, and with another reference both raise 0x01 and leave the quality. A change of reference to 0, 1 or 2 on a package that
is no follower is stored, a LOCKED quality becomes HOLDOVER and the lock run starts anew; 3 is discarded and raises 0x01; a follower ignores the
write. Frames are stated. From: spec/02_beacon_and_time.md (Device Time Counter); spec/02_beacon_and_time.md (Time Base registers). -/
def Obligations.TimeBase : Prop :=
  ∀ (s : State) (a : Agent), s.wf = true →
    (Completes (.tbSet a) s fun t => t.dtcNs = s.get TB_SET_VALUE ∧
      (s.ref ≠ 1 → t.get TB_QUALITY_STATE = 1) ∧ KeepsBut [TB_QUALITY_STATE.off, BU_COUNTS2_SKIPPED.off] s t) ∧
    (Completes (.tbStep a) s fun t => t.dtcNs = (s.dtcNs + s.get TB_SET_VALUE) % 2 ^ 64 ∧
      (s.ref ≠ 1 → t.get TB_QUALITY_STATE = 1) ∧ KeepsBut [TB_QUALITY_STATE.off, BU_COUNTS2_SKIPPED.off] s t) ∧
    (s.ref = 1 → Completes (.tbLock a) s fun t => t.get TB_QUALITY_STATE = 2 ∧ KeepsBut [TB_QUALITY_STATE.off] s t) ∧
    (s.ref = 1 → s.get TB_QUALITY_STATE = 2 → Completes (.tbUnlock a) s fun t => t.get TB_QUALITY_STATE = 3 ∧
      KeepsBut [TB_QUALITY_STATE.off] s t) ∧
    (s.ref = 1 → s.get TB_QUALITY_STATE ≠ 2 → Completes (.tbUnlock a) s fun t => t = s) ∧
    (s.ref ≠ 1 → (Completes (.tbLock a) s fun t => t.get TB_QUALITY_STATE = s.get TB_QUALITY_STATE ∧ Raised 0x01 s t ∧ SameMemory s t) ∧
      (Completes (.tbUnlock a) s fun t => t.get TB_QUALITY_STATE = s.get TB_QUALITY_STATE ∧ Raised 0x01 s t ∧ SameMemory s t)) ∧
    (∀ r, r < 3 → s.role ≠ 2 → s.get TB_CTRL_REF ≠ r → Completes (.tbRefChange a r) s fun t => t.get TB_CTRL_REF = r ∧
      (s.get TB_QUALITY_STATE = 2 → t.get TB_QUALITY_STATE = 3) ∧ t.tb.lockRun = 0 ∧
      KeepsBut [TB_CTRL_REF.off, TB_QUALITY_STATE.off] s t) ∧
    (s.role = 2 → ∀ r, Completes (.tbRefChange a r) s fun t => t = s) ∧
    (s.role ≠ 2 → s.get TB_CTRL_REF ≠ 3 → Completes (.tbRefChange a 3) s fun t => t.get TB_CTRL_REF = s.get TB_CTRL_REF ∧
      Raised 0x01 s t ∧ SameMemory s t)

/-- Linear timecode in and out. A word received at the rate within 10 per cent is shown with its user bits and without bit 6, RATE_MATCH says whether it
came within 0.5 per cent, the count of Beacons in its frame begins at 0, and it is valid when it follows the one before; two frame times without one
clear IN_VALID and RATE_MATCH; LOAD is kept for the next output frame. At a frame start that is due, with the output enabled: FREE sends the preset
once loaded and the next timecode otherwise, with the user bits set; JAM sends what comes in while it is valid, and runs on from the last word with
its user bits when it is not; time of day is sent as the State.tod word; each is kept as the generator's word. With the generator off, or no frame
start due, nothing changes. Frames are stated. What is due between steps of the DTC is the model's choice (log entry 81). From:
spec/02_beacon_and_time.md (Timecode); spec/02_beacon_and_time.md (Time Base registers). -/
def Obligations.LinearTimecode : Prop :=
  ∀ (s : State) (a : Agent), s.wf = true →
    (∀ (tc user : Word) (ns n d : Nat), ltcRate (s.get TB_LTC_CTRL_RATE) = (n, d) →
      10 * ((10 ^ 9 * d : Nat) - (n * ns : Nat) : Int).natAbs ≤ n * ns →
      Completes (.ltcInWord tc user ns) s fun t => t.word TB_LTC_IN_FRAMES.off = tc &&& 0xFFFFFFBF#32 ∧
        t.word TB_LTC_IN_USER_BITS.off = user ∧ t.tb.ltcLast = some s.now ∧ t.tb.inSub = 0 ∧
        t.get TB_LTC_STAT_RATE_MATCH = (if 200 * ((10 ^ 9 * d : Nat) - (n * ns : Nat) : Int).natAbs ≤ n * ns then 1 else 0) ∧
        (s.tb.ltcLast.isSome = true → tcNext (s.get TB_LTC_CTRL_RATE) s.ltcIn = (tc &&& 0xFFFFFFBF#32).toNat →
          t.get TB_LTC_STAT_IN_VALID = 1) ∧
        KeepsBut [TB_LTC_IN_FRAMES.off, TB_LTC_IN_USER_BITS.off, TB_LTC_STAT_IN_VALID.off] s t) ∧
    (∀ w n d : Nat, s.tb.ltcLast = some w → ltcRate (s.get TB_LTC_CTRL_RATE) = (n, d) → 2 * 10 ^ 9 * d ≤ n * (s.now - w) →
      Completes .ltcInTimeout s fun t => t.get TB_LTC_STAT_IN_VALID = 0 ∧ t.get TB_LTC_STAT_RATE_MATCH = 0 ∧
        KeepsBut [TB_LTC_STAT_IN_VALID.off] s t) ∧
    (Completes (.ltcLoad a) s fun t => t.tb.genLoad = true ∧ KeepsBut [] s t) ∧
    (s.genDue = true → s.get TB_LTC_CTRL_OUT_EN = 1 →
      (s.get TB_LTC_CTRL_GEN_MODE = 1 → s.tb.genLoad = true →
        Completes .ltcOutFrameStart s fun t => t.tb.gen = (s.word TB_LTC_PRESET_FRAMES.off).toNat ∧ t.tb.genLoad = false ∧ t.tb.genSub = 0 ∧
          t.out = .ltcOut (s.word TB_LTC_PRESET_FRAMES.off) (BitVec.ofNat 32 (s.get TB_LTC_USER_BITS)) :: s.out ∧ KeepsBut [] s t) ∧
      (s.get TB_LTC_CTRL_GEN_MODE = 1 → s.tb.genLoad = false →
        Completes .ltcOutFrameStart s fun t => t.tb.gen = tcNext (s.get TB_LTC_CTRL_RATE) s.tb.gen ∧ t.tb.genSub = 0 ∧
          t.out = .ltcOut (BitVec.ofNat 32 (tcNext (s.get TB_LTC_CTRL_RATE) s.tb.gen)) (BitVec.ofNat 32 (s.get TB_LTC_USER_BITS)) :: s.out ∧
          KeepsBut [] s t) ∧
      (s.get TB_LTC_CTRL_GEN_MODE = 2 → s.get TB_LTC_STAT_IN_VALID = 1 →
        Completes .ltcOutFrameStart s fun t => t.out = .ltcOut (s.word TB_LTC_IN_FRAMES.off) (s.word TB_LTC_IN_USER_BITS.off) :: s.out ∧
          t.tb.gen = s.ltcIn ∧ KeepsBut [] s t) ∧
      (s.get TB_LTC_CTRL_GEN_MODE = 2 → s.get TB_LTC_STAT_IN_VALID = 0 → s.tb.genLoad = false →
        Completes .ltcOutFrameStart s fun t => t.out = .ltcOut (BitVec.ofNat 32 (tcNext (s.get TB_LTC_CTRL_RATE) s.tb.gen))
          (BitVec.ofNat 32 s.tb.genUser) :: s.out ∧ KeepsBut [] s t) ∧
      (s.get TB_LTC_CTRL_GEN_MODE = 3 →
        Completes .ltcOutFrameStart s fun t => t.out = .ltcOut (BitVec.ofNat 32 s.tod) (BitVec.ofNat 32 (s.get TB_LTC_USER_BITS)) :: s.out ∧
          t.tb.gen = s.tod ∧ KeepsBut [] s t)) ∧
    (s.get TB_LTC_CTRL_GEN_MODE = 0 ∨ s.genDue = false → Completes .ltcOutFrameStart s fun t => t = s)

/-- The pixel port: enable, retrain, block lock, alignment and markers. Outside a hold-up: enabling the Pixel Port tags the write (R55) and starts a
training attempt of every link in use, and so does a retrain command; clearing counts clears the discard, lost, late and lane counts; block lock of an
enabled lane is shown, its loss counts at least 16 sync errors, sets the event and takes the lock away; the next attempt of a link that is down starts
100 microseconds after the last: it sends TRAIN with its CRC-8 and takes its lanes' locks; an ALIGN block that names a lane or a link that the lane
does not have counts a marker error, and the errors that come with it; a regular ALIGN block with the links down aligns the lane, and exactly those
links come up whose logical lanes are all aligned and deskewed. Frames are stated. Errors as operands are the model's form (log entry 84). From:
spec/03_pixel_port.md (Lanes and links); spec/03_pixel_port.md (Training); spec/03_pixel_port.md (Pixel Port Receiver registers). -/
def Obligations.PixelPortLanes : Prop :=
  ∀ (s : State) (a : Agent) (l : Fld), s.wf = true → l = (if a = .host then BU_LAST_WR_EPOCH_HOST_EPOCH else BU_LAST_WR_EPOCH_MGC_EPOCH) →
    s.flag KPR_STATUS_HOLDUP = false →
    (s.flag PPR_CTRL_EN = false → Completes (.pprEnable a) s fun t => t.get PPR_CTRL_EN = 1 ∧ t.get l = s.get BU_SHADOW_EPOCH_EPOCH ∧
      (∀ k ∈ t.linksInUse, t.linkUp k = false ∧ aget t.ppr.trainAt k = some s.now) ∧
      KeepsBut [PPR_CTRL_EN.off, PPR_LINK_STATUS_LINK_UP.off, l.off] s t) ∧
    (s.flag PPR_CTRL_EN = true → Completes (.pprEnable a) s fun t => t.get l = s.get BU_SHADOW_EPOCH_EPOCH ∧ t.ppr = s.ppr ∧
      KeepsBut [l.off] s t) ∧
    (Completes (.pprRetrain a) s fun t => (∀ k ∈ s.linksInUse, t.linkUp k = false ∧ aget t.ppr.trainAt k = some s.now) ∧
      KeepsBut [PPR_LINK_STATUS_LINK_UP.off] s t) ∧
    (Completes (.pprClrCounts a) s fun t => t.get PPR_DISCARD_CRC = 0 ∧ t.get PPR_DISCARD_FORMAT = 0 ∧ t.get PPR_LOST_LINES_LOST = 0 ∧
      t.get PPR_LATE_LATE_LINES = 0 ∧ (∀ n < 17, t.get (PPR_ERR_LANE_SYNC n) = 0 ∧ t.get (PPR_ERR_LANE_MARKER n) = 0) ∧
      KeepsBut ([PPR_DISCARD_CRC.off, PPR_LOST_LINES_LOST.off, PPR_LATE_LATE_LINES.off] ++ (List.range 17).map fun n => 0x80040 + 4 * n) s t) ∧
    (∀ n, n < 17 → n < s.ppr.lanes.length → s.laneOn n = true → (s.ppl n).lock = false → Completes (.blockLockGained n) s fun t =>
      (t.ppl n).lock = true ∧ (t.ppl n).aligned = false ∧ bitAt (t.get PPR_LINK_STATUS_BLOCK_LOCK) n = 1 ∧
      KeepsBut [PPR_LINK_STATUS_BLOCK_LOCK.off] s t) ∧
    (∀ n e, n < 17 → n < s.ppr.lanes.length → s.laneOn n = true → (s.ppl n).lock = true → Completes (.blockLockLost ⟨n, e⟩) s fun t =>
      (t.ppl n).lock = false ∧ t.get (PPR_ERR_LANE_SYNC n) = min (s.get (PPR_ERR_LANE_SYNC n) + max 16 e) 65535 ∧
      t.get PPR_EVENTS_LANE_LOST = 1 ∧ SameMemory s t) ∧
    (∀ k, s.linkEn k = true → s.linkUp k = false → s.substBusy k = false →
      (∀ b, aget s.ppr.trainAt k = some b → b + 100000 ≤ s.now) → Completes (.trainRetry k) s fun t =>
        aget t.ppr.trainAt k = some s.now ∧ t.ppr.bc = s.ppr.bc ++ [⟨1, 2 ^ s.linkSize - 1, k, false, max s.now s.ppr.bcFree + 320⟩] ∧
        (∀ n ∈ s.lanesOf k, n < s.ppr.lanes.length → (t.ppl n).lock = false) ∧
        (s.flag PPR_CTRL_BC_EN = true → t.out = .backChannel 1 [2 ^ s.linkSize - 1, crc8 [1, 2 ^ s.linkSize - 1]] :: s.out) ∧
        KeepsBut [PPR_LINK_STATUS_LINK_UP.off] s t) ∧
    (∀ n logical link count slot e, n < 17 → n < s.ppr.lanes.length → s.laneOn n = true → (s.ppl n).lock = true →
      s.markerBad n logical link = true → Completes (.alignBlock ⟨n, e⟩ logical link count slot) s fun t =>
        t.get (PPR_ERR_LANE_MARKER n) = min (s.get (PPR_ERR_LANE_MARKER n) + 1) 65535 ∧
        t.get (PPR_ERR_LANE_SYNC n) = min (s.get (PPR_ERR_LANE_SYNC n) + e) 65535 ∧ KeepsBut [(PPR_ERR_LANE_MARKER n).off] s t) ∧
    (∀ n logical link count slot, n < 17 → n < s.ppr.lanes.length → s.laneOn n = true → (s.ppl n).lock = true →
      s.markerBad n logical link = false → s.ppr.subst = none → (s.ppl n).count.isSome = true → (s.ppl n).logical = logical →
      (s.ppl n).link = link → slot = (s.ppl n).slot + 4096 → (∀ k, s.linkUp k = false) →
      Completes (.alignBlock ⟨n, 0⟩ logical link count slot) s fun t =>
        (t.ppl n).aligned = true ∧ (t.ppl n).count = some count ∧ (t.ppl n).slot = slot ∧
        (∀ k ∈ s.linksInUse, t.linkUp k = t.linkReady k) ∧
        KeepsBut [PPR_LINK_STATUS_LINK_UP.off, PPR_SKEW_LINK0.off] s t)

/-- The pixel port: back channel, spare-lane substitution, line and metadata packets. A STATUS block takes the oldest message of its code and link off the
list; for SUBST and UNDO it acknowledges the substitution, or ends it with SUBST_FAIL when refused. A message 4 microseconds without a STATUS is sent
once more; then given up with its event and source 0x10; before that nothing happens. A substitution of an enabled and unused spare is sent with
SPARE_BUSY, else fails, and so is an undo while the spare carries the lane; errors above the threshold are counted on their lane. On a link that is up
outside SAFE and hold-up, for every packet's bytes: one with a bad CRC-32C only counts; a line packet of the frame that fails the checks of R82 only
counts; one that passes, in the Tiler's order and with no row due, becomes exactly its line; a metadata packet within the limits is counted, and
stores at most to the ring of queue 64; a longer one only counts. Frames are stated. From: spec/03_pixel_port.md (The back channel);
spec/03_pixel_port.md (Spare-lane substitution); spec/03_pixel_port.md (Line packets); spec/03_pixel_port.md (Lines, links and frames). -/
def Obligations.PixelPortMessages : Prop :=
  ∀ (s : State) (a : Agent), s.wf = true →
    (∀ i k, (s.ppr.bc.findIdx? fun m => m.code == 1 && m.link == k) = some i → ∀ r, Completes (.statusAck ⟨k, 1⟩ r) s fun t =>
      t.ppr.bc = s.ppr.bc.eraseIdx i ∧ KeepsBut [] s t) ∧
    (∀ i k c x, c = 2 ∨ c = 3 → (s.ppr.bc.findIdx? fun m => m.code == c && m.link == k) = some i → s.ppr.subst = some x →
      Completes (.statusAck ⟨k, c⟩ false) s fun t =>
        t.ppr.bc = s.ppr.bc.eraseIdx i ∧ t.ppr.subst = some { x with acked := true } ∧ KeepsBut [] s t) ∧
    (∀ i k c, c = 2 ∨ c = 3 → (s.ppr.bc.findIdx? fun m => m.code == c && m.link == k) = some i →
      Completes (.statusAck ⟨k, c⟩ true) s fun t => t.ppr.subst = none ∧ t.get PPR_EVENTS_SUBST_FAIL = 1 ∧
        t.get PPR_LINK_STATUS_SPARE_BUSY = 0 ∧ KeepsBut [PPR_EVENTS_SUBST_FAIL.off, PPR_LINK_STATUS_SPARE_BUSY.off] s t) ∧
    (∀ m ms, s.ppr.bc = m :: ms → m.sent + 4000 ≤ s.now →
      (m.again = false → Completes .backChannelAckTimeout s fun t =>
        t.ppr.bc = ms ++ [⟨m.code, m.arg, m.link, true, max s.now s.ppr.bcFree + 320⟩] ∧ KeepsBut [] s t) ∧
      (m.again = true → m.code = 1 → Completes .backChannelAckTimeout s fun t =>
        t.ppr.bc = ms ∧ t.get PPR_EVENTS_TRAIN_FAIL = 1 ∧ Raised 0x10 s t ∧ SameMemory s t) ∧
      (m.again = true → m.code ≠ 1 → Completes .backChannelAckTimeout s fun t =>
        t.ppr.subst = none ∧ t.get PPR_EVENTS_SUBST_FAIL = 1 ∧ Raised 0x10 s t ∧ SameMemory s t)) ∧
    (∀ m ms, s.ppr.bc = m :: ms → s.now < m.sent + 4000 → Completes .backChannelAckTimeout s fun t => t = s) ∧
    (s.get PPR_CTRL_SPARE_EN = 1 → s.get PPR_LINK_STATUS_SPARE_USE = 31 → s.get PPR_LINK_STATUS_SPARE_BUSY = 0 →
      Completes (.substGo a) s fun t => t.get PPR_LINK_STATUS_SPARE_BUSY = 1 ∧ t.ppr.subst = some ⟨s.get PPR_SUBST_LANE, false, false⟩ ∧
        t.ppr.bc = s.ppr.bc ++ [⟨2, s.get PPR_SUBST_LANE, s.get PPR_SUBST_LANE / s.linkSize, false, max s.now s.ppr.bcFree + 320⟩] ∧
        KeepsBut [PPR_LINK_STATUS_SPARE_BUSY.off] s t) ∧
    (s.get PPR_CTRL_SPARE_EN = 0 ∨ s.get PPR_LINK_STATUS_SPARE_USE ≠ 31 ∨ s.get PPR_LINK_STATUS_SPARE_BUSY = 1 →
      Completes (.substGo a) s fun t => t.get PPR_EVENTS_SUBST_FAIL = 1 ∧ KeepsBut [PPR_EVENTS_SUBST_FAIL.off] s t) ∧
    (s.get PPR_LINK_STATUS_SPARE_USE = s.get PPR_SUBST_LANE → s.get PPR_LINK_STATUS_SPARE_BUSY = 0 →
      Completes (.substUndo a) s fun t => t.get PPR_LINK_STATUS_SPARE_BUSY = 1 ∧ t.ppr.subst = some ⟨s.get PPR_SUBST_LANE, true, false⟩ ∧
        KeepsBut [PPR_LINK_STATUS_SPARE_BUSY.off] s t) ∧
    (s.get PPR_LINK_STATUS_SPARE_USE ≠ s.get PPR_SUBST_LANE ∨ s.get PPR_LINK_STATUS_SPARE_BUSY = 1 →
      Completes (.substUndo a) s fun t => t.get PPR_EVENTS_SUBST_FAIL = 1 ∧ KeepsBut [PPR_EVENTS_SUBST_FAIL.off] s t) ∧
    (∀ n errors, n < 17 → n < s.ppr.lanes.length → s.get PPR_SUB_THRESH_COUNT < errors → s.lanePowered n = true →
      Completes (.substErrorThreshold n errors) s fun t => (t.ppl n).errors = errors ∧
        t.get (PPR_ERR_LANE_SYNC n) = min (s.get (PPR_ERR_LANE_SYNC n) + (errors - (s.ppl n).errors)) 65535 ∧ SameMemory s t) ∧
    (∀ (k : Nat) (l : List Byte) (p : Packet), s.linkEn k = true → s.linkUp k = true → s.get FC_LEVEL_LEVEL ≠ 3 →
      s.flag KPR_STATUS_HOLDUP = false → p = packetOf (toNats l) →
      (packetCrcOk (toNats l) = false → ∀ c ∈ [Instr.linePacket k l, .metadataPacket k l], Completes c s fun t =>
        t.get PPR_DISCARD_CRC = min (s.get PPR_DISCARD_CRC + 1) 65535 ∧ t.ppr = s.ppr ∧ KeepsBut [PPR_DISCARD_CRC.off] s t) ∧
      (packetCrcOk (toNats l) = true → s.ppr.lastLine = false → s.ppr.dropped = false → s.ppr.cnt = some p.frameCnt →
        (p.typ = 1 → s.lineOk p = false → Completes (.linePacket k l) s fun t =>
          t.get PPR_DISCARD_FORMAT = min (s.get PPR_DISCARD_FORMAT + 1) 65535 ∧ t.ppr = s.ppr ∧ KeepsBut [PPR_DISCARD_FORMAT.off] s t) ∧
        (p.typ = 1 → s.lineOk p = true → s.ppr.lines ≠ [] → s.ppr.buf = [] → p.line ≤ s.ppr.nextLine → s.buffered k < 2 →
          s.rowsDue p.line ≤ s.ppr.rowsDone → s.ppr.rowsDone < s.fmtRows →
          Completes (.linePacket k l) s fun t => t.line p.line = some (fit s.fmtW (p.samples.map (· % 2 ^ s.fmtD))) ∧
            (∀ n, n ≠ p.line → t.line n = s.line n) ∧ t.ppr.nextLine = max s.ppr.nextLine (p.line + 1) ∧ KeepsBut [] s t) ∧
        (p.typ = 2 → p.pixels ≤ 4096 → p.bytes = packetLen p.pixels → s.ppr.metaPackets < 256 → s.ppr.metaBytes + p.pixels ≤ 65536 →
          (Completes (.metadataPacket k l) s fun t => t.ppr.metaPackets = s.ppr.metaPackets + 1 ∧
            t.ppr.metaBytes = s.ppr.metaBytes + p.pixels ∧ t.ppr.lines = s.ppr.lines ∧ RingsOnly [64] s t) ∧
          (s.frameOf s.epoch = none → Completes (.metadataPacket k l) s fun t =>
            t.ppr.metaPackets = s.ppr.metaPackets + 1 ∧ KeepsBut [] s t)) ∧
        (p.typ = 2 → 4096 < p.pixels → Completes (.metadataPacket k l) s fun t =>
          t.get PPR_DISCARD_FORMAT = min (s.get PPR_DISCARD_FORMAT + 1) 65535 ∧ t.ppr = s.ppr ∧ KeepsBut [PPR_DISCARD_FORMAT.off] s t)))

/-- Colour decorrelation and its inverse. For every depth d and cell (r, g1, g2, b), with gs the floor of (g1 + g2) / 2: the forward decorrelation gives
(gs − 2^(d−1), g1 − g2, r − gs, b − gs), the inverse gives the cell back, and where d is positive and the samples are d-bit, the first component lies
in −2^(d−1) to 2^(d−1) − 1 and the others in −(2^d − 1) to 2^d − 1. For every four values, the inverse is gs = shifted + 2^(d−1), g2 = gs − floor(gd /
2), and (cr + gs, g2 + gd, g2, cb + gs). From: R97; R98. -/
def Obligations.Decorrelation : Prop :=
  (∀ (d : Nat) (r g1 g2 b gs : Int), gs = (g1 + g2) / 2 →
    decorr d r g1 g2 b = (gs - 2 ^ (d - 1), g1 - g2, r - gs, b - gs) ∧
    recorr d (gs - 2 ^ (d - 1)) (g1 - g2) (r - gs) (b - gs) = (r, g1, g2, b) ∧
    (0 < d → (∀ v ∈ [r, g1, g2, b], 0 ≤ v ∧ v ≤ 2 ^ d - 1) →
      -2 ^ (d - 1) ≤ (decorr d r g1 g2 b).1 ∧ (decorr d r g1 g2 b).1 ≤ 2 ^ (d - 1) - 1 ∧
      ∀ v ∈ [(decorr d r g1 g2 b).2.1, (decorr d r g1 g2 b).2.2.1, (decorr d r g1 g2 b).2.2.2], -(2 ^ d - 1) ≤ v ∧ v ≤ 2 ^ d - 1)) ∧
  ∀ (d : Nat) (shifted gd cr cb gs g2 : Int), gs = shifted + 2 ^ (d - 1) → g2 = gs - gd / 2 →
    recorr d shifted gd cr cb = (cr + gs, g2 + gd, g2, cb + gs)

/-- The 5/3 lifting of a line and its inverse. For every line x of even length of at least 4: both bands have half its length, d[k] = x[2k+1] −
floor((x[2k] + x[2k+2]) / 2) and s[k] = x[2k] + floor((d[k−1] + d[k] + 2) / 4), with x[n] = x[n−2] and d[−1] = d[0], and the inverse gives x back. For
all bands s and d of the same length of at least 2, the inverse has twice that length and is given by the two formulas of the inverse transform with
the same extensions. From: R100; R101. -/
def Obligations.WaveletLine : Prop :=
  (∀ x : List Int, x.length % 2 = 0 → 4 ≤ x.length →
    (lift x).1.length = x.length / 2 ∧ (lift x).2.length = x.length / 2 ∧
    (∀ k < x.length / 2,
      (lift x).2.getD k 0 = x.getD (2 * k + 1) 0 - (x.getD (2 * k) 0 + x.getD (if 2 * k + 2 = x.length then 2 * k else 2 * k + 2) 0) / 2 ∧
      (lift x).1.getD k 0 = x.getD (2 * k) 0 + ((lift x).2.getD (if k = 0 then 0 else k - 1) 0 + (lift x).2.getD k 0 + 2) / 4) ∧
    unlift (lift x).1 (lift x).2 = x) ∧
  ∀ s d : List Int, s.length = d.length → 2 ≤ s.length → (unlift s d).length = 2 * s.length ∧ ∀ k < s.length,
    (unlift s d).getD (2 * k) 0 = s.getD k 0 - (d.getD (if k = 0 then 0 else k - 1) 0 + d.getD k 0 + 2) / 4 ∧
    (unlift s d).getD (2 * k + 1) 0 =
      d.getD k 0 + ((unlift s d).getD (2 * k) 0 + (unlift s d).getD (if k + 1 = s.length then 2 * k else 2 * k + 2) 0) / 2

/-- The two-dimensional wavelet of a component is inverted exactly. For every component of 4m rows of 8n values (m and n positive), undoing its subbands
gives the component back: the whole two-level transform by rows and columns loses nothing, at every value of the samples. From:
spec/04_eloa_coding_tools.md (The 5/3 lifting wavelet). -/
def Obligations.WaveletComponent : Prop :=
  ∀ (m n : Nat) (a : List (List Int)), 0 < m → 0 < n → a.length = 4 * m → (∀ r ∈ a, r.length = 8 * n) → unbands (bands a) = a

/-- Stuffing is inverted by destuffing and makes no marker. For every list of raw bytes: destuffing its stuffed segment gives the raw bytes back, every
byte of the segment is below 256, and every 0xFF in it is followed by a byte below 0x80. From: spec/04_eloa_coding_tools.md (Stuffing and markers). -/
def Obligations.Stuffing : Prop :=
  ∀ raw : List Nat, (∀ x ∈ raw, x < 256) → destuff (stuff raw) = some raw ∧ (∀ x ∈ stuff raw, x < 256) ∧
    ∀ i, (stuff raw)[i]? = some 0xFF → ∃ y, (stuff raw)[i + 1]? = some y ∧ y < 0x80

/-- Escape stripes: the payload, the segment and its decoding under every key. With d bits a sample, w samples a row and n = 2wd: for every tile-stripe of
16 rows of w d-bit samples and every one-byte key K, the payload has n bytes, its bits are the samples in raster order with the most significant bit
first, the segment is stuff(K, Y XOR K), and decoding it gives the samples back. For every segment that destuffs: with fewer than n + 1 raw bytes it
gives no stripe (malformed); otherwise, whatever the first byte K is, it gives the 16 × w stripe whose payload is the next n raw bytes XOR K. From:
R129; R130. -/
def Obligations.EscapeStripes : Prop :=
  ∀ d w n : Nat, n = 2 * w * d →
    (∀ (k : Nat) (t : List (List Nat)), k < 256 → t.length = 16 → (∀ r ∈ t, r.length = w ∧ ∀ x ∈ r, x < 2 ^ d) →
      (escapePayload d w t).length = n ∧ (escapePayload d w t).flatMap byteBits = t.flatten.flatMap (bitsOf d) ∧
      escapeSeg k (escapePayload d w t) = stuff (k :: (escapePayload d w t).map (· ^^^ k)) ∧
      escapeSamples d w (escapeSeg k (escapePayload d w t)) = some t) ∧
    ∀ seg raw, destuff seg = some raw → (raw.length < n + 1 → escapeSamples d w seg = none) ∧
      ∀ k l, raw = k :: l → n ≤ l.length → ∃ t, escapeSamples d w seg = some t ∧ t.length = 16 ∧
        (∀ r ∈ t, r.length = w ∧ ∀ x ∈ r, x < 2 ^ d) ∧ escapePayload d w t = (l.take n).map (· ^^^ k)

/-- The Frame Allocator: the decision, its timeout and its counts. With a complete frame to decide after its readout end, the allocator enabled on a
package that is no follower, and fewer than 4 descriptors waiting: the decision keeps the merged histogram, shows epoch, limit, fixed, above and quota
bytes in its registers, sets DECIDED and clears BUSY; the frames stay as they are but for that epoch, which is closed with its decision, fixed part,
quota and the escape stripes declared lost, and no bank keeps that epoch. An incomplete frame 230 microseconds after its readout sets BUSY, TIMEOUT,
its count and event, and stores at most to the rings of the queues. On a follower, with the allocator disabled, or with nothing to decide both
commands change nothing. CLR_COUNTS clears the six counts. What the frame chooses is the model's Frame.choose, named in the premise. From:
spec/05_rate_control.md (The frame decision); spec/05_rate_control.md (Deadlines); spec/05_rate_control.md (Frame Allocator registers). -/
def Obligations.FrameAllocator : Prop :=
  ∀ (s : State) (a : Agent), s.wf = true →
    (∀ f t0 h fixed lost d, s.deciding = some f → s.readoutEnd f = some t0 → s.allocates = true → f.complete = true →
      h = s.merged f → f.choose h (f.recBytes + fixedFrame f.info (s.metasOf f.info.epoch)) = (fixed, lost, d) → s.waiting < 4 →
      Completes .falDecision s fun t => t.hist = h ∧ t.get FAL_DEC_EPOCH_EPOCH = f.info.epoch % 2 ^ 32 ∧
        t.get FAL_DEC_TSTAR_LIM = d.lim % 2 ^ 13 ∧ t.get FAL_DEC_FIXED_BYTES = fixed % 2 ^ 32 ∧ t.get FAL_DEC_ABOVE_BYTES = d.above % 2 ^ 32 ∧
        t.get FAL_DEC_QUOTA_BYTES = d.quota % 2 ^ 32 ∧ t.get FAL_EVENTS_DECIDED = 1 ∧ t.get FAL_STATUS_BUSY = 0 ∧
        t.frames = (s.frames.map fun g => if g.info.epoch = f.info.epoch then
          { g with declared := g.declared ++ lost, closed := true, decision := some d, fixed := fixed, quota := d.quota } else g) ∧
        (∀ g ∈ t.regions, ∀ b ∈ g.banks, ∀ k, b = some k → k.epoch ≠ f.info.epoch) ∧
        KeepsBut [FAL_STATUS_BUSY.off, FAL_DEC_EPOCH_EPOCH.off, FAL_DEC_TSTAR_LIM.off, FAL_DEC_FIXED_BYTES.off, FAL_DEC_ABOVE_BYTES.off,
          FAL_DEC_QUOTA_BYTES.off, FAL_DEC_TIME_NS.off, FAL_COUNTS_OVERSIZE.off, FAL_EVENTS_DECIDED.off] s t) ∧
    (∀ f t0, s.deciding = some f → s.readoutEnd f = some t0 → s.allocates = true → f.complete = false → t0 + 230000 ≤ s.now →
      Completes .falWaitTimeout s fun t => t.get FAL_STATUS_BUSY = 1 ∧ t.get FAL_STATUS_TIMEOUT = 1 ∧
        t.get FAL_COUNTS_TIMEOUT = min (s.get FAL_COUNTS_TIMEOUT + 1) 65535 ∧ t.get FAL_EVENTS_TIMEOUT = 1 ∧
        RingsOnly (List.range 72) s t) ∧
    (s.role = 2 ∨ s.flag FAL_CTRL_EN = false ∨ s.deciding = none → (Completes .falDecision s fun t => t = s) ∧
      Completes .falWaitTimeout s fun t => t = s) ∧
    (Completes (.falClrCounts a) s fun t => t.get FAL_COUNTS_OVERSIZE = 0 ∧ t.get FAL_COUNTS_TIMEOUT = 0 ∧ t.get FAL_ESC_BUDGET = 0 ∧
      t.get FAL_ESC_SIZE = 0 ∧ t.get FAL_ESC2_FORCED = 0 ∧ t.get FAL_ESC2_VREPL = 0 ∧
      KeepsBut [FAL_COUNTS_OVERSIZE.off, FAL_ESC_BUDGET.off, FAL_ESC2_FORCED.off] s t)

/-- The Packer: a frame from its start to its end. For the frame at the front, with the Packer running and the Magazine Host accepting: a dropped frame
starts and ends with its dropped-frame record; a decided one starts, its bytes with its opening header; a row whose records can be taken is emitted:
the next row is due, its offset is where it begins, and the bytes so far stay in front; a row command for a frame not started, ended or not accepted
changes nothing. These store at most to the rings of the queues (which refill the windows, R247). The end of a frame shows epoch, size, tie, filler
and margin, counts a late one (margin below 0), sets FRAME_DONE and takes it off the list; CLR_COUNTS clears LATE and DROPPED. From:
spec/05_rate_control.md (Admission and filler); spec/05_rate_control.md (Packer registers); spec/06_bitstream_decode_conceal.md (The frame). -/
def Obligations.Packer : Prop :=
  ∀ (s : State) (a : Agent) (f : Frame) (fs : List Frame), s.wf = true → s.frames = f :: fs →
    (∀ reason, f.started = false → s.packs = true → s.accepts = true → f.drop = some reason →
      Completes .packerFrameStart s fun t => t.get PKR_STATUS_EMITTING = 1 ∧ RingsOnly (List.range 72) s t ∧
        ∃ g, t.frameOf f.info.epoch = some g ∧ g.started = true ∧ g.ended = true ∧
          g.out = droppedRecord f.info.epoch f.info.clipFrame f.info.beaconTime reason) ∧
    (f.started = false → s.packs = true → s.accepts = true → f.drop = none → f.decides = true → f.decision.isSome = true →
      Completes .packerFrameStart s fun t => t.get PKR_STATUS_EMITTING = 1 ∧ RingsOnly (List.range 72) s t ∧
        ∃ g, t.frameOf f.info.epoch = some g ∧ g.started = true ∧ f.info.opening <+: g.out) ∧
    (f.started = true → s.packs = true → f.ended = false → s.accepts = true → f.row < f.info.rows →
      (State.takeRow f f.row (List.range f.info.cols.length) s).1.isSome = true →
      Completes .packerRowEmit s fun t => RingsOnly (List.range 72) s t ∧ ∃ g, t.frameOf f.info.epoch = some g ∧ g.row = f.row + 1 ∧
        g.offsets = f.offsets ++ [f.out.length] ∧ f.out <+: g.out) ∧
    (f.started = false ∨ s.packs = false ∨ f.ended = true ∨ s.accepts = false → Completes .packerRowEmit s fun t => t = s) ∧
    (f.started = true → f.ended = true → s.packs = true → s.clip.stopReq = false → (s.endUnit f).mag.closing = none → Completes .packerFrameDone s fun t =>
      t.get PKR_EMIT_EPOCH_EPOCH = f.info.epoch % 2 ^ 32 ∧ t.get PKR_LAST_SIZE_BYTES = f.out.length % 2 ^ 32 ∧
      t.get PKR_LAST_TIE_BYTES = f.tie % 2 ^ 32 ∧ t.get PKR_LAST_FILLER_BYTES = f.filler % 2 ^ 32 ∧
      t.get PKR_LAST_MARGIN_NS = unsigned 32 (s.margin f.info.epoch) ∧ t.get PKR_EVENTS_FRAME_DONE = 1 ∧ t.get PKR_STATUS_EMITTING = 0 ∧
      t.get PKR_COUNTS_LATE = (if s.margin f.info.epoch < 0 then min (s.get PKR_COUNTS_LATE + 1) 65535 else s.get PKR_COUNTS_LATE) ∧
      t.frames = fs ∧ SameMemory s t) ∧
    (Completes (.pkrClrCounts a) s fun t => t.get PKR_COUNTS_LATE = 0 ∧ t.get PKR_COUNTS_DROPPED = 0 ∧ KeepsBut [PKR_COUNTS_LATE.off] s t)

/-- Engine commands: halt, resume, load, reset, unretire, admit, counts and the indirect port. For each of the 68 engines and either agent. On a die that
is off each of the eight commands changes no engine and raises 0x02. On a die that is on: HALT of a READY engine is kept for the next boundary; RESUME
of a HALTED one makes it READY; LOAD by the MGC from OFF, READY or HALTED makes it RESETTING and keeps where it came from and the image address; RESET
of an engine not RETIRED is held for the Beacon while it runs, and at once without it drops its jobs, call stack and local SRAM; UNRETIRE by the MGC
makes a RETIRED engine ISOLATED with its isolations cleared; ADMIT is kept for an engine whose position the spare has taken; CLR_COUNTS clears its
four counts; an indirect read of a halted engine returns the stored control-store word in five parts, or the local SRAM word read before, and advances
the address. Where the rule refuses one (wrong state, a host LOAD or UNRETIRE, an engine not halted) no engine changes and it is discarded and logged
with 0x01. Frames are stated. From: spec/07_engines_and_microcode.md (Engine states); spec/07_engines_and_microcode.md (Loading in service);
spec/07_engines_and_microcode.md (Spares); spec/07_engines_and_microcode.md (Engine registers); spec/07_engines_and_microcode.md (Indirect access
port). -/
def Obligations.EngineCommands : Prop :=
  ∀ (s : State) (a : Agent) (e : EngId) (n : Nat), s.wf = true → n = engNum e →
    (s.dieOff (n / 34) = true → ∀ c ∈ [Instr.ceHalt a e, .ceResume a e, .ceLoad a e, .ceReset a e, .ceUnretire a e, .ceAdmit a e,
        .ceClrCounts a e, .ceIaRead a e .clean], Completes c s fun t => t.engines = s.engines ∧ Raised 0x02 s t ∧ SameMemory s t) ∧
    (s.dieOff (n / 34) = false →
    (s.engState n = 2 → Completes (.ceHalt a e) s fun t => (t.eng n).haltReq = true ∧ KeepsBut [] s t) ∧
    (s.engState n ≠ 2 → Completes (.ceHalt a e) s fun t => t.engines = s.engines ∧ Logged s t) ∧
    (s.engState n = 4 → Completes (.ceResume a e) s fun t => t.engState n = 2 ∧ (t.eng n).readyAt = some s.now ∧
      KeepsBut [(CE_ENG_STATE_STATE n).off, (CE_RG_STATUS_SPARE (n / 17)).off] s t) ∧
    (s.engState n ≠ 4 → Completes (.ceResume a e) s fun t => t.engines = s.engines ∧ Logged s t) ∧
    (s.engState n = 0 ∨ s.engState n = 2 ∨ s.engState n = 4 → Completes (.ceLoad .mgc e) s fun t => t.engState n = 1 ∧
      (t.eng n).loadFrom = some (s.engState n) ∧ (t.eng n).image = s.getAddr (CE_RG_UC_ADDR_ADDR (n / 17)) / 64 * 64 ∧
      KeepsBut [(CE_ENG_STATE_STATE n).off, (CE_RG_STATUS_SPARE (n / 17)).off] s t) ∧
    (Completes (.ceLoad .host e) s fun t => t.engines = s.engines ∧ Logged s t) ∧
    (s.engState n ≠ 6 → s.beaconRuns = true → Completes (.ceReset a e) s fun t => (t.eng n).resetHeld = true ∧
      t.engState n = s.engState n ∧ KeepsBut [] s t) ∧
    (s.engState n ≠ 6 → s.beaconRuns = false → Completes (.ceReset a e) s fun t => t.engState n = 1 ∧ (t.eng n).jobs = [] ∧
      (t.eng n).stack = [] ∧ (t.eng n).sram = LocalSram.reset ∧ RingsOnly (List.range 72) s t) ∧
    (s.engState n = 6 → Completes (.ceReset a e) s fun t => t.engines = s.engines ∧ Logged s t) ∧
    (s.engState n = 6 → Completes (.ceUnretire .mgc e) s fun t => t.engState n = 5 ∧ t.get (CE_ENG_FAULTS_ISOLATIONS n) = 0 ∧
      KeepsBut [(CE_ENG_STATE_STATE n).off, (CE_ENG_FAULTS_ISOLATIONS n).off] s t) ∧
    (Completes (.ceUnretire .host e) s fun t => t.engines = s.engines ∧ Logged s t) ∧
    ((s.eng n).away = true → Completes (.ceAdmit a e) s fun t => (t.eng n).admitReq = true ∧ KeepsBut [] s t) ∧
    ((s.eng n).away = false → Completes (.ceAdmit a e) s fun t => t.engines = s.engines ∧ Logged s t) ∧
    (Completes (.ceClrCounts a e) s fun t => t.get (CE_ENG_VCOUNT_CODED n) = 0 ∧ t.get (CE_ENG_VCOUNT_ESCAPE n) = 0 ∧
      t.get (CE_ENG_VERIFIED_COUNT n) = 0 ∧ t.get (CE_ENG_FAULTS_SRAM_CORR n) = 0 ∧
      KeepsBut [(CE_ENG_VCOUNT_CODED n).off, (CE_ENG_VERIFIED_COUNT n).off, (CE_ENG_FAULTS_SRAM_CORR n).off] s t) ∧
    (∀ ecc w, s.iaHalted n = true → s.get (CE_ENG_IA_SEL_SPACE n) = 1 → s.get (CE_ENG_IA_ADDR_ADDR n) < 8192 →
      aget (s.eng n).store (s.get (CE_ENG_IA_ADDR_ADDR n)) = some w → Completes (.ceIaRead a e ecc) s fun t =>
        t.get (CE_ENG_IA_ADDR_ADDR n) = s.get (CE_ENG_IA_ADDR_ADDR n) + 1 ∧ t.get (CE_ENG_IA_DATA0_DATA n) = bits w 0 32 ∧
        t.get (CE_ENG_IA_DATA1_DATA n) = bits w 32 32 ∧ t.get (CE_ENG_IA_DATA2_DATA n) = bits w 64 32 ∧
        t.get (CE_ENG_IA_DATA3_DATA n) = bits w 96 32 ∧ t.get (CE_ENG_IA_DATA4_DATA n) = bits w 128 16 ∧
        KeepsBut [(CE_ENG_IA_ADDR_ADDR n).off, (CE_ENG_IA_DATA0_DATA n).off, (CE_ENG_IA_DATA1_DATA n).off, (CE_ENG_IA_DATA2_DATA n).off,
          (CE_ENG_IA_DATA3_DATA n).off, (CE_ENG_IA_DATA4_DATA n).off] s t) ∧
    (∀ v, s.iaHalted n = true → s.get (CE_ENG_IA_SEL_SPACE n) = 0 → s.get (CE_ENG_IA_ADDR_ADDR n) < 131072 →
      aget (s.eng n).sram.read (s.get (CE_ENG_IA_ADDR_ADDR n) / 4) = some v → Completes (.ceIaRead a e .clean) s fun t =>
        t.get (CE_ENG_IA_ADDR_ADDR n) = s.get (CE_ENG_IA_ADDR_ADDR n) + 4 ∧ t.get (CE_ENG_IA_DATA0_DATA n) = v % 2 ^ 32 ∧
        KeepsBut [(CE_ENG_IA_ADDR_ADDR n).off, (CE_ENG_IA_DATA0_DATA n).off, (CE_ENG_IA_DATA1_DATA n).off, (CE_ENG_IA_DATA2_DATA n).off,
          (CE_ENG_IA_DATA3_DATA n).off, (CE_ENG_IA_DATA4_DATA n).off] s t) ∧
    (∀ ecc, s.iaHalted n = false → Completes (.ceIaRead a e ecc) s fun t => t.engines = s.engines ∧ Logged s t))

/-- Engine events: jobs, boundaries, machine checks, scrubs, loads, resets and ungating. For each engine. The front job of a BOUND engine with no halt
waiting: without errors it leaves the jobs and the SRAM holds its samples; with an uncorrectable partition error it leaves them and the quad's count
rises; inconsistent, or with an uncorrectable SRAM error, it is a machine check of cause 5 or 4. A boundary that the sequencer reaches makes an engine
asked to halt HALTED (outside SAFE and hold-up), one asked to gate OFF, and leaves any other running; a run that ends in a check is that machine
check. A machine check (also the watchdog's, cause 3) of a running engine records its cause, drops its jobs, isolates it and holds its reset for the
Beacon, or begins it at once without one (no retirement limit); of another it changes nothing. A control-store parity error found by the scrub holds a
reset and raises 0x20. A good load ends READY (OFF if it was OFF and is not needed) and valid with LOAD_DONE, a bad one ISOLATED with its error; a
reset ends READY, or ISOLATED and counted when its self-test fails; an ungating ends READY with clear SRAM, or as a machine check of cause 1. They
store at most to the rings of the queues (a lost tile's entry may spill); the loads to nothing where the image lies below the HDM range. From:
spec/07_engines_and_microcode.md (Jobs); spec/07_engines_and_microcode.md (Engine states); spec/07_engines_and_microcode.md (Events and machine
checks); spec/07_engines_and_microcode.md (Loading in service); spec/07_engines_and_microcode.md (Spares). -/
def Obligations.EngineEvents : Prop :=
  ∀ (s : State) (e : EngId) (n : Nat), s.wf = true → n = engNum e →
    (∀ j rest (f : JobFaults), (s.eng n).jobs = j :: rest → s.engState n = 3 → (s.eng n).haltReq = false →
      (j.ok = true → f.sram = .clean → f.part = .clean → j.verify = false ∨ s.beaconRuns = true →
        Completes (.engineJob e f.sram f.part f.coded f.escape) s fun t => (t.eng n).jobs = rest ∧ (t.eng n).sram.samples = escapePayload j.depth j.width j.lines ∧
          RingsOnly (List.range 72) s t) ∧
      (∀ y h, j.ok = true → f.sram = .clean → f.part = .uncorrectable y h → j.slot < 64 →
        Completes (.engineJob e f.sram f.part f.coded f.escape) s fun t => (t.eng n).jobs = rest ∧
          t.get (CE_Q_ECC_UNCORR (j.slot / 4)) = min (s.get (CE_Q_ECC_UNCORR (j.slot / 4)) + 1) 65535 ∧ RingsOnly (List.range 72) s t) ∧
      (s.get (CE_RG_CTRL_RETIRE_LIMIT (n / 17)) = 0 →
        (j.ok = false → Completes (.engineJob e f.sram f.part f.coded f.escape) s fun t => t.get (CE_ENG_MCHK_CAUSE n) = 5 ∧ (t.eng n).jobs = [] ∧
          t.engState n = (if s.beaconRuns then 5 else 1) ∧ RingsOnly (List.range 72) s t) ∧
        (∀ y h, j.ok = true → f.sram = .uncorrectable y h → Completes (.engineJob e f.sram f.part f.coded f.escape) s fun t => t.get (CE_ENG_MCHK_CAUSE n) = 4 ∧
          (t.eng n).jobs = [] ∧ t.engState n = (if s.beaconRuns then 5 else 1) ∧ RingsOnly (List.range 72) s t))) ∧
    (∀ f : JobFaults, (s.eng n).jobs = [] ∨ s.engState n ≠ 3 → Completes (.engineJob e f.sram f.part f.coded f.escape) s fun t => t = s) ∧
    (∀ u, s.runs n = true → s.runMacro n = (.boundary, u) →
      ((s.eng n).haltReq = true → s.engState n = 2 → s.get FC_LEVEL_LEVEL ≠ 3 → s.flag KPR_STATUS_HOLDUP = false →
        Completes (.macroOpBoundary e) s fun t => t.engState n = 4 ∧ (t.eng n).haltReq = false ∧ (t.eng n).pc = (u.eng n).pc ∧
          KeepsBut [(CE_ENG_STATE_STATE n).off] s t) ∧
      ((s.eng n).haltReq = false → (s.eng n).gateReq = true → s.engState n = 2 →
        Completes (.macroOpBoundary e) s fun t => t.engState n = 0 ∧ (t.eng n).gateReq = false ∧
          KeepsBut [(CE_ENG_STATE_STATE n).off, (CE_RG_STATUS_SPARE (n / 17)).off] s t) ∧
      ((s.eng n).haltReq = false → (s.eng n).gateReq = false → Completes (.macroOpBoundary e) s fun t => t = u ∧ KeepsBut [] s t)) ∧
    (∀ u c x q, s.runs n = true → s.runMacro n = (.check c x q, u) → s.get (CE_RG_CTRL_RETIRE_LIMIT (n / 17)) = 0 →
      Completes (.macroOpBoundary e) s fun t => t.get (CE_ENG_MCHK_CAUSE n) = c ∧ (t.eng n).jobs = [] ∧
        t.engState n = (if s.beaconRuns then 5 else 1) ∧ RingsOnly (List.range 72) s t) ∧
    (∀ cause x q m, s.runs n = true → 1 ≤ cause → cause ≤ 5 → s.get (CE_RG_CTRL_RETIRE_LIMIT (n / 17)) = 0 →
      Completes (.machineCheck e cause x q m) s fun t => t.get (CE_ENG_MCHK_CAUSE n) = cause ∧ (t.eng n).jobs = [] ∧
        t.engState n = (if s.beaconRuns then 5 else 1) ∧ (t.eng n).resetHeld = s.beaconRuns ∧ RingsOnly (List.range 72) s t) ∧
    (∀ x m, s.runs n = true → s.get (CE_RG_CTRL_RETIRE_LIMIT (n / 17)) = 0 →
      Completes (.macroOpWatchdog e x m) s fun t => t.get (CE_ENG_MCHK_CAUSE n) = 3 ∧ t.engState n = (if s.beaconRuns then 5 else 1) ∧
        (t.eng n).jobs = [] ∧ RingsOnly (List.range 72) s t) ∧
    (∀ cause x q m, s.runs n = false → (Completes (.machineCheck e cause x q m) s fun t => t = s) ∧
      Completes (.macroOpWatchdog e x m) s fun t => t = s) ∧
    (∀ x, s.runs n = true ∨ s.engState n = 4 → s.beaconRuns = true → Completes (.controlStoreScrub e x true) s fun t =>
      (t.eng n).resetHeld = true ∧ t.engState n = s.engState n ∧ Raised 0x20 s t ∧ SameMemory s t) ∧
    (∀ x, Completes (.controlStoreScrub e x false) s fun t => t = s) ∧
    (∀ f ok, s.engState n = 1 → (s.eng n).loadFrom = some f →
      ((s.load n ok).1 = 0 → Completes (.microcodeLoadDone e ok) s fun t =>
        t.engState n = (if f = 0 ∧ s.needed n = false then 0 else 2) ∧ t.get (CE_ENG_UC_STAT_VALID n) = 1 ∧
        t.get (CE_ENG_UC_STAT_LOAD_ERR n) = 0 ∧ t.get (CE_RG_EVENTS_LOAD_DONE (n / 17)) = 1 ∧
        ((s.eng n).image + 2 ^ 21 ≤ 2 ^ 32 → SameMemory s t)) ∧
      ((s.load n ok).1 ≠ 0 → Completes (.microcodeLoadDone e ok) s fun t =>
        t.engState n = 5 ∧ t.get (CE_ENG_UC_STAT_VALID n) = 0 ∧ t.get (CE_ENG_UC_STAT_LOAD_ERR n) = (s.load n ok).1 ∧
        t.get (CE_RG_EVENTS_LOAD_FAIL (n / 17)) = 1 ∧ ((s.eng n).image + 2 ^ 21 ≤ 2 ^ 32 → SameMemory s t))) ∧
    (∀ ok, s.engState n = 1 → (s.eng n).loadFrom = none →
      ((s.load n ok).1 = 0 → Completes (.engineResetDone e ok true) s fun t =>
        t.engState n = 2 ∧ (t.eng n).readyAt = some s.now ∧ t.get (CE_ENG_UC_STAT_VALID n) = 1 ∧
        t.get (CE_RG_EVENTS_LOAD_DONE (n / 17)) = 1 ∧ ((s.eng n).image + 2 ^ 21 ≤ 2 ^ 32 → SameMemory s t)) ∧
      (s.get (CE_RG_CTRL_RETIRE_LIMIT (n / 17)) = 0 → Completes (.engineResetDone e ok false) s fun t => t.engState n = 5 ∧
        t.get (CE_ENG_FAULTS_ISOLATIONS n) = min (s.get (CE_ENG_FAULTS_ISOLATIONS n) + 1) 255 ∧
        ((s.eng n).image + 2 ^ 21 ≤ 2 ^ 32 → SameMemory s t))) ∧
    (s.engState n = 0 → (s.eng n).ungating = true →
      (Completes (.engineUngateDone e none) s fun t => t.engState n = 2 ∧
        (t.eng n).ungating = false ∧ (t.eng n).readyAt = some s.now ∧ (t.eng n).sram = LocalSram.reset ∧
        KeepsBut [(CE_ENG_STATE_STATE n).off, (CE_RG_STATUS_SPARE (n / 17)).off] s t) ∧
      (∀ x q, s.get (CE_RG_CTRL_RETIRE_LIMIT (n / 17)) = 0 → Completes (.engineUngateDone e (some (x, q))) s fun t =>
        t.get (CE_ENG_MCHK_CAUSE n) = 1 ∧ t.engState n = (if s.beaconRuns then 5 else 1) ∧ RingsOnly (List.range 72) s t))

/-- DRAM reads and writes, the write queue, rows, refresh, MR4, patrol scrub and captures. Requests to DRAM that is on, of the host or below the HDM
range: a read that need not wait answers its bytes, or poison of its length where a line is poisoned, and changes no register; one whose line has an
uncorrectable error answers poison, counts it and poisons the line; a read that must wait is held; a write with room in the queues stores exactly its
bytes. A read of DRAM that is off answers poison without data, and such a write does nothing, and both raise 0x02 (0x40 for the host over CXL.mem). A
channel that serves, its write queue at the high mark or past the age limit, drains to the low mark with none left too old; below it, or while the
channel is off or trains, nothing happens. A row left open for OPEN_MAX closes, and only it; a refresh closes its bank; an MR4 poll shows the highest
rate of the rank's dies, sets TEMP on a change and raises 0x2A when one is hot; a patrol read changes nothing when clean, counts, sets CE and raises
0x28 when correctable, counts and sets UE when not, and does nothing with HOURS 0. CLR_COUNTS and CLR_CAPTURE clear what they name. Frames are stated.
From: spec/08_memory_controller.md (Inline ECC and the address map); spec/08_memory_controller.md (Scheduling); spec/08_memory_controller.md
(Refresh); spec/08_memory_controller.md (Registers). -/
def Obligations.DramAccesses : Prop :=
  ∀ (s : State) (a : Agent), s.wf = true →
    (∀ (r : DramReq) (l : List EccFinding), r.data = none → s.allOn r.addr r.len = true →
      (s.reqWaits s.lmc.held r = false → reqDevice r = false ∨ r.addr + max r.len 1 ≤ 2 ^ 32 →
        ((∀ e ∈ l, e = .clean) → s.poisonedIn r.addr r.len = false → Completes (.dramRequest r l) s fun t =>
          t.resp = .bytes ((List.range r.len).map fun i => sget (fun _ => 0#8) s.dram (r.addr + i)) ∧ KeepsBut [] s t) ∧
        ((∀ e ∈ l, e = .clean) → s.poisonedIn r.addr r.len = true → Completes (.dramRequest r l) s fun t =>
          (∃ b : List Byte, t.resp = .poison b ∧ b.length = r.len) ∧ KeepsBut [] s t) ∧
        (∀ y h q, linesOf r.addr r.len = [r.addr / 64] → l = [.uncorrectable y h] → s.serving (64 * (r.addr / 64)) = some q → q < 8 →
          s.lmc.migration = none → Completes (.dramRequest r l) s fun t => (∃ b : List Byte, t.resp = .poison b ∧ b.length = r.len) ∧
            t.isPoisoned (r.addr / 64) = true ∧ t.get (LMC_RANK_UE q) = min (s.get (LMC_RANK_UE q) + 1) 255 ∧ t.get LMC_EVENTS_UE = 1 ∧
            t.dram = s.dram ∧ t.hostMem = s.hostMem)) ∧
      (s.reqWaits s.lmc.held r = true → Completes (.dramRequest r l) s fun t => t.lmc.held = s.lmc.held ++ [⟨r, l, s.now⟩] ∧
        KeepsBut [] s t)) ∧
    (∀ (r : DramReq) (d : List Byte) (l : List EccFinding), r.data = some d → s.allOn r.addr d.length = true →
      (∀ x ∈ linesOf r.addr d.length, s.dramWaits (64 * x) = false ∧ s.biasWaits (64 * x) = false) → s.lmc.held = [] →
      (∀ ch, (s.wqOf ch).length + (linesOf r.addr d.length).length ≤ 64) → reqDevice r = false ∨ r.addr + d.length ≤ 2 ^ 32 →
      (∀ e ∈ l, e = .clean) → Completes (.dramRequest r l) s fun t =>
        (∀ k, sget (fun _ => 0#8) t.dram k = if r.addr ≤ k ∧ k < r.addr + d.length then d.getD (k - r.addr) 0 else
          sget (fun _ => 0#8) s.dram k) ∧ t.hostMem = s.hostMem ∧ OnlyWords [] s t) ∧
    (∀ (r : DramReq) (l : List EccFinding), s.allOn r.addr (reqSize r) = false →
      (r.data = none → Completes (.dramRequest r l) s fun t => t.resp = .poison [] ∧
        Raised (if reqDevice r then 0x02 else 0x40) s t ∧ SameMemory s t) ∧
      (∀ d, r.data = some d → d ≠ [] → r.addr % 64 + d.length ≤ 64 → Completes (.dramRequest r l) s fun t =>
        Raised (if reqDevice r then 0x02 else 0x40) s t ∧ SameMemory s t)) ∧
    (∀ ch, s.chOn ch = true → s.chTrains ch = false → s.lmc.held = [] → (s.wqOf ch).length ≤ 64 →
      (s.get LMC_WQ_HIGH ≤ (s.wqOf ch).length ∨ (∃ e ∈ s.wqOf ch, s.aged e.since = true) → Completes (.writeQueueDrain ch) s fun t =>
        (t.wqOf ch).length ≤ s.get LMC_WQ_LOW ∧ (∀ e ∈ t.wqOf ch, e ∈ s.wqOf ch ∧ s.aged e.since = false) ∧ KeepsBut [] s t) ∧
      ((s.wqOf ch).length < s.get LMC_WQ_HIGH → (∀ e ∈ s.wqOf ch, s.aged e.since = false) →
        Completes (.writeQueueDrain ch) s fun t => t = s)) ∧
    (∀ ch, s.chOn ch = false ∨ s.chTrains ch = true → Completes (.writeQueueDrain ch) s fun t => t = s) ∧
    (swf (fun _ => DramBank.mk none false 0 2) s.lmc.banks = true →
      (∀ ch cs bank k, ch < 4 → cs < 2 → bank < 16 → k = 16 * (2 * ch + cs) + bank → (s.bank k).left = true →
        10 * s.get LMC_SCHED_OPEN_MAX ≤ s.now - (s.bank k).last → s.chOn ch = true →
        Completes (.openRowTimeout ch cs bank) s fun t => (t.bank k).row = none ∧ (t.bank k).predictor = (s.bank k).predictor ∧
          (∀ j, j ≠ k → t.bank j = s.bank j) ∧ KeepsBut [] s t) ∧
      (∀ r bank, r < 8 → bank < 16 → s.rank r ≠ 0 → s.rank r ≠ 5 → s.chOn (r / 2) = true → s.chTrains (r / 2) = false →
        Completes (.refreshDue r bank) s fun t => (t.bank (16 * r + bank)).row = none ∧
          (∀ j, j ≠ 16 * r + bank → t.bank j = s.bank j) ∧ KeepsBut [] s t)) ∧
    (∀ r l, r < 8 → l ≠ [] → s.rank r ≠ 0 → s.rank r ≠ 5 → s.chOn (r / 2) = true →
      Completes (.mr4Poll (List.replicate r [] ++ [l])) s fun t => t.get (LMC_RANK_RATE r) = (mr4Of l).1 % 32 ∧
        (∀ x ∈ l, x.1 ≤ (mr4Of l).1 ∧ (x.2.1 = true → (mr4Of l).2.1 = true)) ∧
        (s.get (LMC_RANK_RATE r) ≠ (mr4Of l).1 % 32 → t.get LMC_EVENTS_TEMP = 1) ∧ ((mr4Of l).2.1 = true → Raised 0x2A s t) ∧
        SameMemory s t) ∧
    (∀ r, r < 8 → s.get LMC_SCRUB_HOURS ≠ 0 → [1, 2, 3, 4].contains (s.rank r) = true → s.chOn (r / 2) = true → s.chTrains (r / 2) = false →
      (Completes (.patrolScrubRead r .clean) s fun t => KeepsBut [] s t) ∧
      (Completes (.patrolScrubRead r .correctable) s fun t => t.get (LMC_RANK_CE r) = min (s.get (LMC_RANK_CE r) + 1) 65535 ∧
        t.get LMC_EVENTS_CE = 1 ∧ Raised 0x28 s t ∧ SameMemory s t) ∧
      (∀ y h, s.lmc.migration = none → Completes (.patrolScrubRead r (.uncorrectable y h)) s fun t =>
        t.get (LMC_RANK_UE r) = min (s.get (LMC_RANK_UE r) + 1) 255 ∧ t.get LMC_EVENTS_UE = 1 ∧ t.dram = s.dram ∧ t.hostMem = s.hostMem)) ∧
    (∀ r, r < 8 → s.get LMC_SCRUB_HOURS = 0 → ∀ e, Completes (.patrolScrubRead r e) s fun t => t = s) ∧
    (Completes (.lmcClrCounts a) s fun t => (∀ r < 8, t.get (LMC_RANK_CE r) = 0 ∧ t.get (LMC_RANK_UE r) = 0 ∧
      t.get (LMC_RANK_STATE r) = s.get (LMC_RANK_STATE r)) ∧ KeepsBut ((List.range 8).map fun r => 0x240100 + 4 * r) s t) ∧
    (∀ ch, ch < 4 → Completes (.clrCapture a ch) s fun t => t.get (LMC_CH_ERR_ADDR_ADDR ch) = 0 ∧ t.get (LMC_CH_ERR_SYND_VALID ch) = 0 ∧
      t.get (LMC_CH_ERR_SYND_SYND ch) = 0 ∧
      KeepsBut [(LMC_CH_ERR_ADDR_ADDR ch).off, (LMC_CH_ERR_ADDR_ADDR ch).off + 4, (LMC_CH_ERR_SYND_SYND ch).off] s t)

/-- The memory controller: enable, initialisation, retraining, retirement, migration and thaw. EN starts initialisation, once; one that fails shows its
code, and one that succeeds is READY, with memory cleared, the queues empty, each rank's temperature as trained and the capacity of the ranks in use;
without one in progress nothing happens. With the Beacon running, a drift at its limit or RETRAIN makes a retraining due, and one due for a second is
forced; its end counts it and sets TRAIN_DONE. RETIRE of a rank in use with a spare is kept for the Beacon while it runs and starts the migration at
once without it; with no spare, and of the spare itself, it sets NO_SPARE and raises 0x29; the corrected-error limit asks for retirement. THAW
unfreezes a channel and takes its queued writes back: their lines are as before and no other byte changes. A granule of a migration moves its pointer
on by 256; the copy's end waits for the Beacon, or without it retires the source and puts the destination in use. Frames are stated. From:
spec/08_memory_controller.md (Devices and topology); spec/08_memory_controller.md (Training); spec/08_memory_controller.md (Rank retirement);
spec/08_memory_controller.md (Freeze for diagnosis); spec/08_memory_controller.md (Registers). -/
def Obligations.MemoryController : Prop :=
  ∀ (s : State) (a : Agent), s.wf = true →
    (s.flag LMC_CTRL_EN = false → Completes (.lmcEnable a) s fun t => t.get LMC_CTRL_EN = 1 ∧ t.lmc.initFrom = some s.now ∧
      KeepsBut [LMC_CTRL_EN.off] s t) ∧
    (s.flag LMC_CTRL_EN = true → Completes (.lmcEnable a) s fun t => t = s) ∧
    (∀ ranks rfm failed temps, s.lmc.initFrom.isSome = true → s.initErr ranks rfm failed ≠ 0 → Completes (.lmcInitDone ⟨ranks, temps⟩ rfm failed) s fun t =>
      t.get LMC_STATUS_INIT_ERR = s.initErr ranks rfm failed ∧ t.get LMC_STATUS_READY = s.get LMC_STATUS_READY ∧
      t.lmc.initFrom = none ∧ KeepsBut [LMC_STATUS_INIT_ERR.off] s t) ∧
    (∀ ranks rfm failed temps, s.lmc.initFrom.isSome = true → s.initErr ranks rfm failed = 0 → Completes (.lmcInitDone ⟨ranks, temps⟩ rfm failed) s fun t =>
      t.get LMC_STATUS_READY = 1 ∧ t.get LMC_STATUS_INIT_ERR = 0 ∧ t.lmc.rankBytes = rankData ((ranks.headD []).headD 0) ∧
      t.get LMC_CAP_BYTES = (t.lmc.setA.length + t.lmc.setB.length) * t.lmc.rankBytes % 2 ^ 64 ∧ t.dram = [] ∧ t.poison = [] ∧
      t.lmc.wq = [] ∧ (∀ q < 8, (t.lmc.timing.getD q RankTiming.reset).trained = temps.getD q 0) ∧ t.hostMem = s.hostMem) ∧
    (∀ ranks rfm failed temps, s.lmc.initFrom = none → Completes (.lmcInitDone ⟨ranks, temps⟩ rfm failed) s fun t => t = s) ∧
    (∀ r drift temp, r < 8 → s.lmc.timing.length = 8 → s.beaconRuns = true → s.flag LMC_TRAIN_AUTO = true →
      s.get LMC_TRAIN_DRIFT ≤ drift → [1, 2, 3, 4].contains (s.rank r) = true →
      Completes (.retrainDue r drift temp) s fun t => (t.lmc.timing.getD r RankTiming.reset).due.isSome = true ∧ KeepsBut [] s t) ∧
    (∀ x d, x ∈ s.lmc.timing → x.due = some d → 10 ^ 9 ≤ s.now - d → Completes .retrainForceTimeout s fun t =>
      t.lmc.forced = true ∧ KeepsBut [] s t) ∧
    (∀ r, r < 8 → s.beaconRuns = true → s.lmc.held = [] → s.lmc.training.length = 4 → s.lmc.training.getD (r / 2) none = some r →
      Completes (.rankRetrainDone r) s fun t => t.get (LMC_CH_STAT_TRAINING (r / 2)) = 0 ∧ t.get LMC_EVENTS_TRAIN_DONE = 1 ∧
        t.get (LMC_CH_STAT_TRAINS (r / 2)) = min (s.get (LMC_CH_STAT_TRAINS (r / 2)) + 1) 65535 ∧
        t.lmc.training.getD (r / 2) none = none ∧ KeepsBut [(LMC_CH_STAT_TRAINING (r / 2)).off, LMC_EVENTS_TRAIN_DONE.off] s t) ∧
    (∀ r, r < 8 → s.lmc.timing.length = 8 → s.beaconRuns = true → [1, 2, 3, 4].contains (s.rank r) = true →
      Completes (.lmcRetrain a r) s fun t => (t.lmc.timing.getD r RankTiming.reset).due.isSome = true ∧ KeepsBut [] s t) ∧
    (∀ r d, r < 8 → s.beaconRuns = true → s.rank r = 1 → s.lmc.retireDue = none → s.lmc.migration = none → s.spareRank r = some d →
      Completes (.lmcRetire a r) s fun t => t.lmc.retireDue = some r ∧ KeepsBut [] s t) ∧
    (∀ r d, r < 8 → s.beaconRuns = false → s.rank r = 1 → s.lmc.retireDue = none → s.lmc.migration = none → s.spareRank r = some d →
      Completes (.lmcRetire a r) s fun t => t.lmc.migration = some ⟨r, d, false⟩ ∧ t.get (LMC_RANK_STATE r) = 3 ∧
        t.get (LMC_RANK_STATE d) = 4 ∧ t.get LMC_STATUS_MIGRATING = 1 ∧ t.get LMC_MIG_PTR_BYTES = 0 ∧ SameMemory s t) ∧
    (∀ r, r < 8 → s.rank r = 1 → s.lmc.retireDue = none → s.lmc.migration = none → s.spareRank r = none →
      Completes (.lmcRetire a r) s fun t => t.get LMC_EVENTS_NO_SPARE = 1 ∧ Raised 0x29 s t ∧ SameMemory s t) ∧
    (∀ r, r < 8 → s.rank r = 2 → s.lmc.retireDue ≠ some r →
      Completes (.lmcRetire a r) s fun t => t.get LMC_EVENTS_NO_SPARE = 1 ∧ t.rank r = 2 ∧ Raised 0x29 s t ∧ SameMemory s t) ∧
    (∀ r d, r < 8 → s.beaconRuns = true → s.get LMC_CE_LIMIT_COUNT ≠ 0 →
      s.get LMC_CE_LIMIT_COUNT ≤ (s.lmc.timing.getD r RankTiming.reset).ceCount →
      (s.lmc.timing.getD r RankTiming.reset).ceHour = s.dtcNs / (3600 * 10 ^ 9) → s.rank r = 1 → s.lmc.retireDue = none →
      s.lmc.migration = none → s.spareRank r = some d → s.lmc.noSpare.contains r = false → Completes (.ceLimitReached r) s fun t => t.lmc.retireDue = some r ∧ KeepsBut [] s t) ∧
    (∀ r, r < 8 → s.flag (LMC_CH_STAT_FROZEN (r / 2)) = true → s.lmc.held = [] → (∀ e ∈ s.wqOf (r / 2), e.old.length = 64) →
      Completes (.lmcThaw a r) s fun t => t.get (LMC_CH_STAT_FROZEN (r / 2)) = 0 ∧ (∀ e ∈ t.lmc.wq, e.ch ≠ r / 2) ∧
        (∀ e, s.wqOf (r / 2) = [e] → ∀ i < 64, sget (fun _ => 0#8) t.dram (64 * e.line + i) = e.old.getD i 0) ∧
        (∀ k, (∀ e ∈ s.wqOf (r / 2), k / 64 ≠ e.line) → sget (fun _ => 0#8) t.dram k = sget (fun _ => 0#8) s.dram k) ∧
        t.hostMem = s.hostMem ∧ OnlyWords [(LMC_CH_STAT_FROZEN (r / 2)).off] s t) ∧
    (∀ r, r < 8 → s.flag (LMC_CH_STAT_FROZEN (r / 2)) = false → Completes (.lmcThaw a r) s fun t => t = s) ∧
    (∀ g, s.lmc.migration = some g → g.copied = false → s.get LMC_MIG_PTR_BYTES < s.lmc.rankBytes →
      (∀ r, r = g.src ∨ r = g.dst → s.chOn (rankCh r) = true ∧ s.chTrains (rankCh r) = false) →
      Completes (.migrationGranuleCopy .clean .clean) s fun t => t.get LMC_MIG_PTR_BYTES = (s.get LMC_MIG_PTR_BYTES + 256) % 2 ^ 64 ∧
        KeepsBut [LMC_MIG_PTR_BYTES.off, LMC_MIG_PTR_BYTES.off + 4] s t) ∧
    (∀ g, s.lmc.migration = some g → s.lmc.rankBytes ≤ s.get LMC_MIG_PTR_BYTES →
      (s.beaconRuns = true → Completes .migrationCopyDone s fun t => t.lmc.migration = some { g with copied := true } ∧ KeepsBut [] s t) ∧
      (s.beaconRuns = false → g.src < 8 → g.dst < 8 → g.src ≠ g.dst → Completes .migrationCopyDone s fun t => t.lmc.migration = none ∧
        t.get (LMC_RANK_STATE g.src) = 5 ∧ t.get (LMC_RANK_STATE g.dst) = 1 ∧ t.get LMC_EVENTS_RETIRE_DONE = 1 ∧ SameMemory s t))

/-- Output queues: entries, overflow, late records, pushes, pops and underrun. With the queues enabled and a lane's pointer copies alike: an entry for a
package queue that fits is appended; one that finds the copies different first resets the queue (R250): it is counted, sets RESET, raises 0x30, and is
then the lane's only entry; one that does not fit is counted (saturating), sets OVERFLOW and raises 0x30 with the lane kept; an engine's record of an
epoch that is no longer open raises 0x19 and stores nothing; a push of 4, 8 or 64 aligned bytes in a window is appended to the push buffer, another
size or queue is discarded and logged; PUSH_END of metadata for an epoch at most 16 ahead becomes an entry, one further off is rejected, counted and
raises 0x31; a pop gives the front entry's next word and takes the entry with its last, of an empty queue the last word again with UNDERRUN, and of a
queue software does not read 0, logged. They store at most to the queue's ring in DRAM. That the 4 KiB reserve is part of a lane is the model's
reading (log entry 16), on which the clauses on room rest. From: spec/09_queues_pools_dma.md (Output queues); spec/09_queues_pools_dma.md (Output
Queue registers). -/
def Obligations.OutputQueues : Prop :=
  ∀ (s : State) (a : Agent) (q : Nat), s.wf = true → q < 72 → (s.queue q).lanes.length = 2 → s.flag OQ_CTRL_EN = true →
    (s.lane q 0).ptr = (s.lane q 0).copy →
    (∀ epoch row column kind flags body, 64 ≤ q → (s.lane q 0).gap = none →
      (s.lane q 0).fill + (QEntry.mk epoch row column kind flags (toNats body) none).size + 4096 ≤ s.laneCap q →
      Completes (.queueEntryWrite q 0 epoch row column kind flags body false) s fun t =>
        (t.lane q 0).entries = (s.lane q 0).entries ++ [⟨epoch, row, column, kind, flags, toNats body, none⟩] ∧
        OnlyWords [] s t ∧ RingsOnly [q] s t) ∧
    (∀ epoch row column flags body, 64 ≤ q → (s.lane q 0).entries.all (fun e => !e.isTile) = true →
      (QEntry.mk epoch row column 3 flags (toNats body) none).size + 4096 ≤ s.laneCap q →
      Completes (.queueEntryWrite q 0 epoch row column 3 flags body true) s fun t =>
        (t.lane q 0).entries = [⟨epoch, row, column, 3, flags, toNats body, none⟩] ∧ t.get OQ_EVENTS_RESET = 1 ∧
        t.get (OQ_Q_STATS_RESETS q) = min (s.get (OQ_Q_STATS_RESETS q) + 1) 255 ∧ Raised 0x30 s t ∧ RingsOnly [q] s t) ∧
    (∀ epoch row column flags body, 64 ≤ q → (s.lane q 0).gap = none →
      s.laneCap q < (s.lane q 0).fill + (QEntry.mk epoch row column 3 flags (toNats body) none).size + 4096 →
      Completes (.queueEntryWrite q 0 epoch row column 3 flags body false) s fun t =>
        (t.lane q 0).entries = (s.lane q 0).entries ∧ t.get (OQ_Q_STATS_OVERFLOW q) = min (s.get (OQ_Q_STATS_OVERFLOW q) + 1) 255 ∧
        t.get OQ_EVENTS_OVERFLOW = 1 ∧ Raised 0x30 s t ∧ SameMemory s t) ∧
    (∀ epoch row column kind flags body, q < 64 → kind ≤ 2 → s.frameOf (epoch % 2 ^ 32) = none →
      Completes (.queueEntryWrite q 0 epoch row column kind flags body false) s fun t => t.get FAL_EVENTS_LATE_RECORD = 1 ∧ Raised 0x19 s t ∧
        t.queues = s.queues ∧ SameMemory s t) ∧
    (∀ off data, pushQueue q = true → data.length = 4 ∨ data.length = 8 ∨ data.length = 64 → off % data.length = 0 →
      off + data.length ≤ 4096 → Completes (.pushWindowWrite q off data) s fun t =>
        (t.queue q).push = (s.queue q).push ++ toNats data ∧ KeepsBut [] s t) ∧
    (∀ off data, pushQueue q = true → data.length ≠ 4 → data.length ≠ 8 → data.length ≠ 64 →
      Completes (.pushWindowWrite q off data) s fun t => t.queues = s.queues ∧ Logged s t) ∧
    (∀ off data, pushQueue q = false → Completes (.pushWindowWrite q off data) s fun t => t.queues = s.queues ∧ Logged s t) ∧
    (∀ l, q = 69 → (s.queue q).push = l → l ≠ [] → (rdLe l 0 4 + 2 ^ 32 - s.epoch) % 2 ^ 32 ≤ 16 → s.metaWritten (rdLe l 0 4) = false →
      (s.lane q 0).gap = none → (s.lane q 0).fill + (QEntry.mk (rdLe l 0 4) 0xFFFF 0xFF 3 0 (l.drop 4) none).size + 4096 ≤ s.laneCap q →
      Completes (.pushEnd a q) s fun t => (t.lane q 0).entries = (s.lane q 0).entries ++ [⟨rdLe l 0 4, 0xFFFF, 0xFF, 3, 0, l.drop 4, none⟩] ∧
        (t.queue q).push = [] ∧ OnlyWords [] s t ∧ RingsOnly [q] s t) ∧
    (∀ l, pushQueue q = true → (s.queue q).push = l → l ≠ [] → 16 < (rdLe l 0 4 + 2 ^ 32 - s.epoch) % 2 ^ 32 →
      Completes (.pushEnd a q) s fun t => (t.queue q).push = [] ∧ t.get (OQ_Q_STATS_TAG_REJ q) = min (s.get (OQ_Q_STATS_TAG_REJ q) + 1) 255 ∧
        (t.lane q 0).entries = (s.lane q 0).entries ∧ Raised 0x31 s t ∧ SameMemory s t) ∧
    (∀ e es, 67 ≤ q → (s.lane q 0).entries = e :: es → Completes (.oqPop a q) s fun t =>
      t.resp = .word (BitVec.ofNat 32 (rdLe e.bytes (s.lane q 0).popped 4)) ∧
      t.word (OQ_Q_LAST_DATA q).off = BitVec.ofNat 32 (rdLe e.bytes (s.lane q 0).popped 4) ∧
      ((s.lane q 0).popped + 4 < e.size → (t.lane q 0).popped = (s.lane q 0).popped + 4 ∧ (t.lane q 0).entries = e :: es) ∧
      (e.size ≤ (s.lane q 0).popped + 4 → (s.lane q 0).gap = none → (t.lane q 0).popped = 0 ∧ (t.lane q 0).entries = es) ∧
      OnlyWords [(OQ_Q_LAST_DATA q).off] s t ∧ RingsOnly [q] s t) ∧
    (q < 67 → Completes (.oqPop a q) s fun t => t.resp = .word 0#32 ∧ t.queues = s.queues ∧ Logged s t) ∧
    (67 ≤ q → (s.lane q 0).entries = [] → Completes (.oqPop a q) s fun t => t.resp = .word (s.word (OQ_Q_LAST_DATA q).off) ∧
      t.get (OQ_Q_STAT_UNDERRUN q) = 1 ∧ t.get OQ_EVENTS_UNDERRUN = 1 ∧
      KeepsBut [(OQ_Q_STAT_UNDERRUN q).off, OQ_EVENTS_UNDERRUN.off] s t)

/-- Buffer pools: initialisation, allocation, freeing and handover. For each of the 16 pools: INIT of a disabled pool sets BUSY, empties the free list and
counts 0, and of an enabled one is discarded and logged; the end of an initialisation clears BUSY and BROKEN and leaves all buffers free from the
first; without one nothing happens. For every assigned requester: an allocation from a pool in service takes the head of the free list, answers its
address with the low 12 bits zero (a register word, or the bytes to an internal block), writes the requester as the buffer's owner and nothing else in
memory, counts one less and moves the head to the link read; from an empty pool or one out of service it answers its reason and counts a failure; a
free by its owner makes the buffer the head, writes the link and owner 0, counts one more, result 0; a free or handover of an address that is no
buffer counts, gives result 3, sets its event and raises 0x32; a handover by the owner to an assigned requester writes the new owner and nothing else.
Requests of another ID do nothing. Memory premises (usable): the link and the owner byte lie in enabled DRAM that the host is not asked for (log
entries 7 and 90). From: spec/09_queues_pools_dma.md (Buffer pools); spec/09_queues_pools_dma.md (Buffer Pool Manager registers). -/
def Obligations.BufferPools : Prop :=
  ∀ (s : State) (p : Nat), s.wf = true → p < 16 → (s.pool p).opResult.length = 18 →
    (∀ a : Agent, s.flag (BPM_P_CFG_EN p) = false → Completes (.bpmInit a p) s fun t => t.get (BPM_P_INIT_BUSY p) = 1 ∧
      t.get (BPM_P_FREE_COUNT p) = 0 ∧ (t.pool p).head = none ∧ KeepsBut [(BPM_P_INIT_BUSY p).off, (BPM_P_FREE_COUNT p).off] s t) ∧
    (∀ a : Agent, s.flag (BPM_P_CFG_EN p) = true → Completes (.bpmInit a p) s fun t => t.pools = s.pools ∧ Logged s t) ∧
    (s.flag (BPM_P_INIT_BUSY p) = true → Completes (.bpmInitDone p) s fun t => t.get (BPM_P_INIT_BUSY p) = 0 ∧
      t.get (BPM_P_INIT_BROKEN p) = 0 ∧ t.get (BPM_P_FREE_COUNT p) = s.poolCount p ∧ (t.pool p).head = some (s.bufAddr p 0) ∧
      ((∀ i < s.poolCount p, s.usable (s.bufAddr p i) 16 ∧ s.usable (s.get (BPM_P_OWNER_BASE_ADDR p) + i) 1) →
        OnlyWords [(BPM_P_INIT_BUSY p).off, (BPM_P_FREE_COUNT p).off] s t)) ∧
    (s.flag (BPM_P_INIT_BUSY p) = false → Completes (.bpmInitDone p) s fun t => t = s) ∧
    (∀ r, assigned r = true → s.poolOut p = none →
      (∀ b nx i l, (s.pool p).head = some b → (s.memRead b 16).1 = some l → linkNext p l = some nx →
        s.bufAt p b = some i → nx = listEnd ∨ (s.bufAt p nx).isSome = true → s.usable b 16 →
        s.usable (s.get (BPM_P_OWNER_BASE_ADDR p) + i) 1 → 0 < s.get (BPM_P_FREE_COUNT p) →
        Completes (.bpmAlloc r p) s fun t => ((reqIx r).isSome = true → t.resp = .word (BitVec.ofNat 32 (b / 4096 * 4096))) ∧
          (reqIx r = none → t.resp = .bytes (toBytes (le 8 (b / 4096 * 4096)))) ∧
          t.get (BPM_P_FREE_COUNT p) = s.get (BPM_P_FREE_COUNT p) - 1 ∧ (t.pool p).head = (if nx = listEnd then none else some nx) ∧
          (∀ k, sget (fun _ => 0#8) t.dram k = if k = s.get (BPM_P_OWNER_BASE_ADDR p) + i then BitVec.ofNat 8 r else
            sget (fun _ => 0#8) s.dram k) ∧ t.hostMem = s.hostMem ∧ OnlyWords [(BPM_P_FREE_COUNT p).off, BPM_EVENTS_LOW.off] s t) ∧
      ((s.pool p).head = none → Completes (.bpmAlloc r p) s fun t => ((reqIx r).isSome = true → t.resp = .word 3#32) ∧
        t.get (BPM_P_STATS_FAILS p) = min (s.get (BPM_P_STATS_FAILS p) + 1) 65535 ∧ KeepsBut [(BPM_P_STATS_FAILS p).off] s t) ∧
      (∀ b i, s.bufAt p b = some i → (s.owner p i).1 = some r → s.usable b 16 → s.usable (s.get (BPM_P_OWNER_BASE_ADDR p) + i) 1 →
        s.get (BPM_P_OWNER_BASE_ADDR p) + i < b ∨ b + 16 ≤ s.get (BPM_P_OWNER_BASE_ADDR p) + i →
        Completes (.bpmFree r p b) s fun t => (t.pool p).head = some b ∧
          t.get (BPM_P_FREE_COUNT p) = (s.get (BPM_P_FREE_COUNT p) + 1) % 2 ^ 21 ∧
          (∀ ix, reqIx r = some ix → (t.pool p).opResult.getD ix 9 = 0) ∧ (reqIx r = none → t.resp = .code 0) ∧
          (∀ k, sget (fun _ => 0#8) t.dram k = if k = s.get (BPM_P_OWNER_BASE_ADDR p) + i then 0#8
            else if b ≤ k ∧ k < b + 16 then BitVec.ofNat 8 ((linkBytes ((s.pool p).head.getD listEnd) p).getD (k - b) 0)
            else sget (fun _ => 0#8) s.dram k) ∧ t.hostMem = s.hostMem ∧ OnlyWords [(BPM_P_FREE_COUNT p).off] s t) ∧
      (∀ b o, s.bufAt p b = none → ∀ c ∈ [Instr.bpmFree r p b, .bpmHandover r p b o], Completes c s fun t =>
        t.get (BPM_P_STATS_BAD_FREE p) = min (s.get (BPM_P_STATS_BAD_FREE p) + 1) 65535 ∧
          (∀ ix, reqIx r = some ix → (t.pool p).opResult.getD ix 9 = 3) ∧ bitAt (t.get BPM_EVENTS_BAD) p = 1 ∧ Raised 0x32 s t ∧
          SameMemory s t) ∧
      (∀ b i o, assigned o = true → s.bufAt p b = some i → (s.owner p i).1 = some r → s.usable (s.get (BPM_P_OWNER_BASE_ADDR p) + i) 1 →
        Completes (.bpmHandover r p b o) s fun t => (∀ ix, reqIx r = some ix → (t.pool p).opResult.getD ix 9 = 0) ∧
          (∀ k, sget (fun _ => 0#8) t.dram k = if k = s.get (BPM_P_OWNER_BASE_ADDR p) + i then BitVec.ofNat 8 o else
            sget (fun _ => 0#8) s.dram k) ∧ t.hostMem = s.hostMem ∧ OnlyWords [] s t)) ∧
    (∀ r x, assigned r = true → s.poolOut p = some x → Completes (.bpmAlloc r p) s fun t =>
      ((reqIx r).isSome = true → t.resp = .word (BitVec.ofNat 32 (1 + 2 * x))) ∧
      t.get (BPM_P_STATS_FAILS p) = min (s.get (BPM_P_STATS_FAILS p) + 1) 65535 ∧ KeepsBut [(BPM_P_STATS_FAILS p).off] s t) ∧
    (∀ r b o, assigned r = false → (Completes (.bpmAlloc r p) s fun t => t = s) ∧ (Completes (.bpmFree r p b) s fun t => t = s) ∧
      Completes (.bpmHandover r p b o) s fun t => t = s)

/-- DMA channels: enable, disable, kick, poll, resume, skip and abort. For each of the 16 channels: enabling a disabled channel takes the descriptor at
index 0 if it is READY; disabling an enabled one stops it and drops its job and its wait; enabling or disabling once more changes nothing. A kick
during the entry to a sleep is held; otherwise a kick of an idle enabled channel takes the descriptor at HEAD if READY, changes no job if not, halts
the channel with status 1 where the descriptor cannot be read, and on a channel that is disabled or not idle changes nothing; a poll whose interval
has passed takes it likewise, before that nothing. RESUME of a halted channel takes the descriptor it halted on again and SKIP the next one in the
ring; on a channel not halted neither does anything. ABORT halts the channel at its job's index with status 5, drops the job and writes exactly the
four bytes of the descriptor's control word; without a job nothing. Memory premises (usable): the descriptor lies in enabled DRAM that the host is not
asked for (log entries 7 and 90). Taken says the channel runs, HEAD passes on, the job holds the descriptor's fields, and nothing else changes. From:
spec/09_queues_pools_dma.md (DMA); spec/09_queues_pools_dma.md (DMA registers). -/
def Obligations.DmaChannels : Prop :=
  ∀ (s : State) (a : Agent) (n : Nat), s.wf = true → n < 16 →
    (∀ l, s.flag (DMA_CH_CTRL_EN n) = false → s.usable (s.descAddr n 0) 24 → (s.memRead (s.descAddr n 0) 24).1 = some l →
      rdLe l 20 4 % 2 = 1 → Completes (.dmaEnable a n true) s fun t => t.get (DMA_CH_CTRL_EN n) = 1 ∧ Taken n 0 l s t) ∧
    (s.flag (DMA_CH_CTRL_EN n) = true → Completes (.dmaEnable a n false) s fun t => t.get (DMA_CH_CTRL_EN n) = 0 ∧ t.chanState n = 0 ∧
      (t.chan n).job = none ∧ (t.chan n).wait = none ∧ KeepsBut [(DMA_CH_CTRL_EN n).off, (DMA_CH_STAT_STATE n).off] s t) ∧
    (∀ en, s.flag (DMA_CH_CTRL_EN n) = en → Completes (.dmaEnable a n en) s fun t => t = s) ∧
    (s.get KPR_STATUS_STATE = 2 → Completes (.dmaKick a n) s fun t => t.kpr.kicks = s.kpr.kicks ++ [n] ∧ t.dma = s.dma ∧ KeepsBut [] s t) ∧
    (∀ l i, s.get KPR_STATUS_STATE ≠ 2 → s.flag (DMA_CH_CTRL_EN n) = true → s.chanState n = 0 → i = s.get (DMA_CH_HEAD_INDEX n) →
      s.usable (s.descAddr n i) 24 → (s.memRead (s.descAddr n i) 24).1 = some l →
      (rdLe l 20 4 % 2 = 1 → Completes (.dmaKick a n) s (Taken n i l s)) ∧
      (rdLe l 20 4 % 2 = 0 → Completes (.dmaKick a n) s fun t => t.chanState n = 0 ∧ (t.chan n).job = (s.chan n).job ∧
        KeepsBut [(DMA_CH_STAT_STATE n).off] s t) ∧
      (rdLe l 20 4 % 2 = 1 → s.get (DMA_CH_POLL_US n) ≠ 0 → 1000 * s.get (DMA_CH_POLL_US n) ≤ s.now - (s.chan n).polled →
        Completes (.dmaPoll n) s (Taken n i l s))) ∧
    (s.get KPR_STATUS_STATE ≠ 2 → s.flag (DMA_CH_CTRL_EN n) = true → s.chanState n = 0 →
      (s.memRead (s.descAddr n (s.get (DMA_CH_HEAD_INDEX n))) 24).1 = none → Completes (.dmaKick a n) s fun t =>
        t.chanState n = 3 ∧ t.get (DMA_CH_STAT_LAST_STATUS n) = 1 ∧ t.get (DMA_CH_STAT_HALT_INDEX n) = s.get (DMA_CH_HEAD_INDEX n) % 4096 ∧
        (t.chan n).job = none) ∧
    (s.get KPR_STATUS_STATE ≠ 2 → s.flag (DMA_CH_CTRL_EN n) = false ∨ s.chanState n ≠ 0 → Completes (.dmaKick a n) s fun t => t = s) ∧
    (s.get (DMA_CH_POLL_US n) = 0 ∨ s.now - (s.chan n).polled < 1000 * s.get (DMA_CH_POLL_US n) →
      Completes (.dmaPoll n) s fun t => t = s) ∧
    (∀ l i, s.flag (DMA_CH_CTRL_EN n) = true → s.chanState n = 3 → i = s.get (DMA_CH_STAT_HALT_INDEX n) →
      s.usable (s.descAddr n i) 24 → (s.memRead (s.descAddr n i) 24).1 = some l → rdLe l 20 4 % 2 = 1 →
      Completes (.dmaResume a n) s (Taken n i l s)) ∧
    (∀ l i, s.flag (DMA_CH_CTRL_EN n) = true → s.chanState n = 3 → i = s.nextIndex n (s.get (DMA_CH_STAT_HALT_INDEX n)) → i < 4096 →
      s.usable (s.descAddr n i) 24 → (s.memRead (s.descAddr n i) 24).1 = some l → rdLe l 20 4 % 2 = 1 →
      Completes (.dmaSkip a n) s (Taken n i l s)) ∧
    (s.flag (DMA_CH_CTRL_EN n) = false ∨ s.chanState n ≠ 3 → (Completes (.dmaResume a n) s fun t => t = s) ∧
      Completes (.dmaSkip a n) s fun t => t = s) ∧
    (∀ j, (s.chan n).job = some j → s.usable (s.descAddr n j.index + 20) 4 →
      Completes (.dmaAbort a n) s fun t => t.chanState n = 3 ∧ t.get (DMA_CH_STAT_HALT_INDEX n) = j.index % 4096 ∧
        t.get (DMA_CH_STAT_LAST_STATUS n) = 5 ∧ (t.chan n).job = none ∧
        (∀ k, sget (fun _ => 0#8) t.dram k = if s.descAddr n j.index + 20 ≤ k ∧ k < s.descAddr n j.index + 24 then
          BitVec.ofNat 8 (ctrlBack j.ctrl 5 / 256 ^ (k - (s.descAddr n j.index + 20))) else sget (fun _ => 0#8) s.dram k) ∧
        t.hostMem = s.hostMem ∧ OnlyWords [(DMA_CH_STAT_STATE n).off] s t) ∧
    ((s.chan n).job = none → Completes (.dmaAbort a n) s fun t => t = s)

/-- DMA programs: every operation of a program, and a native descriptor. For a channel that runs a job: a native descriptor whose copy succeeds completes
with what the copy leaves in memory, a valid program's descriptor starts nothing by itself, and a malformed one of either kind halts the channel with
status 3. In a valid program, the operation at the program counter completes as follows: MOVE does its copy and advances by 16; LOOP goes back to its
target until its counter is used up and advances then; WAIT for a line that is pending consumes it and advances; for one that is not, the channel
waits with its timeout, or, where a channel of a higher number passed the same line in this clock, passes in its place while that one waits (log entry
91); SIGNAL sets its line, if no channel waits for it, and otherwise releases the channel that waits, and advances; END marks the program done; an
unknown operation halts the channel with status 6. Frames are stated; the copy itself is NativeCopy. From: spec/09_queues_pools_dma.md (Program mode);
spec/09_queues_pools_dma.md (DMA). -/
def Obligations.DmaPrograms : Prop :=
  ∀ (s : State) (n : Nat) (j : DmaJob), s.wf = true → n < 16 → s.running n = some j →
    (j.prog = false → (s.copy n j.native).1 = 0 → Completes (.dmaDescriptor n) s fun t =>
      (t.chan n).job = ((s.copy n j.native).2.chan n).job.map (fun j => { j with done := true }) ∧ t.dram = (s.copy n j.native).2.dram) ∧
    (j.prog = true → j.progOk = true → Completes (.dmaDescriptor n) s fun t => t = s) ∧
    (j.prog = false ∧ j.native.ok = false ∨ j.prog = true ∧ j.progOk = false → Completes (.dmaDescriptor n) s fun t =>
      t.chanState n = 3 ∧ t.get (DMA_CH_STAT_LAST_STATUS n) = 3 ∧ t.get (DMA_CH_STAT_HALT_INDEX n) = j.index % 4096 ∧ (t.chan n).job = none) ∧
    (j.prog = true → j.progOk = true → j.pc + 16 ≤ j.len → s.usable (j.src + j.pc) 16 →
      ∀ l u k, s.memRead (j.src + j.pc) 16 = (some l, u) → k = rdLe l 2 1 →
      (rdLe l 0 1 = 1 → ¬ (bitAt (rdLe l 1 1) 4 = 1 ∧ 3 < k) → (u.copy n (j.moveOf l)).1 = 0 →
        Completes (.dmaMove n) s fun t => (t.chan n).job = ((u.copy n (j.moveOf l)).2.chan n).job.map (fun j => { j with pc := j.pc + 16 }) ∧
          t.dram = (u.copy n (j.moveOf l)).2.dram) ∧
      (rdLe l 0 1 = 2 → k ≤ 3 → rdLe l 8 4 < j.pc → rdLe l 8 4 % 16 = 0 →
        Completes (.dmaLoop n) s fun t => ∃ i, (t.chan n).job = some i ∧
          (if (j.counters.getD k none).getD (rdLe l 4 4 - 1) = 0 then i.pc = j.pc + 16 else i.pc = rdLe l 8 4) ∧ KeepsBut [] s t) ∧
      (rdLe l 0 1 = 3 → 1 ≤ k → k ≤ 63 → bitAt (s.get DMA_EVT_PEND_LINES) (k - 1) = 1 →
        Completes (.dmaWait n) s fun t => t.chanState n = 1 ∧ (t.chan n).job = some { j with pc := j.pc + 16 } ∧ (t.chan n).wait = none ∧
          bitAt (t.get DMA_EVT_PEND_LINES) (k - 1) = 0 ∧ SameMemory s t) ∧
      (rdLe l 0 1 = 3 → 1 ≤ k → k ≤ 63 → bitAt (s.get DMA_EVT_PEND_LINES) (k - 1) = 0 →
        (s.passedAbove n k = none → Completes (.dmaWait n) s fun t => t.chanState n = 2 ∧ (t.chan n).wait = some (k, rdLe l 4 4) ∧
          KeepsBut [(DMA_CH_STAT_STATE n).off] s t) ∧
        (∀ m p, s.passedAbove n k = some (m, p) → Completes (.dmaWait n) s fun t => t.chanState n = 1 ∧
          (t.chan n).job = some { j with pc := j.pc + 16 } ∧ t.chanState m = 2 ∧ (t.chan m).wait = some (k, p.timeout) ∧
          KeepsBut [(DMA_CH_STAT_STATE n).off, (DMA_CH_STAT_STATE m).off] s t)) ∧
      (rdLe l 0 1 = 4 → 1 ≤ k → k ≤ 63 →
        ((∀ m < 16, ∀ w, (s.chan m).wait = some w → w.1 ≠ k) →
          Completes (.dmaSignal n) s fun t => bitAt (t.get DMA_EVT_PEND_LINES) (k - 1) = 1 ∧
            (t.chan n).job = some { j with pc := j.pc + 16 } ∧ KeepsBut [DMA_EVT_PEND_LINES.off, DMA_EVT_PEND_LINES.off + 4] s t) ∧
        (∀ m us, m < 16 → m ≠ n → (s.chan m).wait = some (k, us) → Completes (.dmaSignal n) s fun t => t.chanState m = 1 ∧
          (t.chan m).wait = none ∧ t.get DMA_EVT_PEND_LINES = s.get DMA_EVT_PEND_LINES ∧ SameMemory s t)) ∧
      (rdLe l 0 1 = 5 → Completes (.dmaEnd n) s fun t => (t.chan n).job = some { j with done := true } ∧ KeepsBut [] s t) ∧
      (rdLe l 0 1 = 0 ∨ 5 < rdLe l 0 1 → ∀ c ∈ [Instr.dmaMove n, .dmaLoop n, .dmaWait n, .dmaSignal n, .dmaEnd n], Completes c s fun t =>
        t.chanState n = 3 ∧ t.get (DMA_CH_STAT_LAST_STATUS n) = 6 ∧ (t.chan n).job = none))

/-- A DMA descriptor that completes, and a wait that times out. With the part awake: a done job with HALT in its control word and no line to signal halts
the channel at its index with status 0, counts one more done, drops the job and writes exactly the four bytes of the control word; a job that is not
done, or a channel that does not run, is left as it is; a wait with a timeout that has passed halts the channel with status 4, drops the job and the
wait and raises 0x33; before that, or without a timeout, nothing changes. Memory premise (usable): the descriptor lies in enabled DRAM that the host
is not asked for (log entries 7 and 90). From: spec/09_queues_pools_dma.md (DMA); spec/09_queues_pools_dma.md (DMA registers). -/
def Obligations.DmaCompletion : Prop :=
  ∀ (s : State) (n : Nat) (j : DmaJob), s.wf = true → n < 16 → (s.chan n).job = some j → s.usable (s.descAddr n j.index + 20) 4 →
    s.awake = true →
    (s.chanState n = 1 → j.done = true → bits j.ctrl 8 8 = 0 → bitAt j.ctrl 6 = 1 → Completes (.dmaDescriptorComplete n) s fun t =>
      t.chanState n = 3 ∧ t.get (DMA_CH_STAT_HALT_INDEX n) = j.index % 4096 ∧ t.get (DMA_CH_STAT_LAST_STATUS n) = 0 ∧
      t.get (DMA_CH_DONE_COUNT n) = (s.get (DMA_CH_DONE_COUNT n) + 1) % 2 ^ 32 ∧ (t.chan n).job = none ∧
      (∀ k, sget (fun _ => 0#8) t.dram k = if s.descAddr n j.index + 20 ≤ k ∧ k < s.descAddr n j.index + 24 then
        BitVec.ofNat 8 (ctrlBack j.ctrl 0 / 256 ^ (k - (s.descAddr n j.index + 20))) else sget (fun _ => 0#8) s.dram k) ∧
      t.hostMem = s.hostMem ∧ OnlyWords [(DMA_CH_STAT_STATE n).off, (DMA_CH_DONE_COUNT n).off] s t) ∧
    (s.chanState n ≠ 1 ∨ j.done = false → Completes (.dmaDescriptorComplete n) s fun t => t = s) ∧
    (∀ k us, (s.chan n).wait = some (k, us) → us ≠ 0 → (s.chan n).since + 1000 * us ≤ s.now → Completes (.dmaWaitTimeout n) s fun t =>
      t.chanState n = 3 ∧ t.get (DMA_CH_STAT_HALT_INDEX n) = j.index % 4096 ∧ t.get (DMA_CH_STAT_LAST_STATUS n) = 4 ∧
      (t.chan n).job = none ∧ (t.chan n).wait = none ∧ Raised 0x33 s t) ∧
    ((∀ k us, (s.chan n).wait = some (k, us) → us = 0 ∨ s.now < (s.chan n).since + 1000 * us) →
      Completes (.dmaWaitTimeout n) s fun t => t = s)

/-- A DMA copy of DRAM moves exactly its bytes. For a well-formed copy with neither address fixed, both ranges in enabled DRAM below 2^62 that no host is
asked for, no poisoned line, and a destination clear of the source (with the 64 bytes around it that a burst may read): the copy succeeds, every
destination byte holds the source byte it had before, every other byte of DRAM is as before, and no register word changes. From:
spec/09_queues_pools_dma.md (DMA). -/
def Obligations.NativeCopy : Prop :=
  ∀ (s : State) (n : Nat) (c : Copy), s.wf = true → c.ok = true → c.srcFix = false → c.dstFix = false →
    (∀ k, k < c.src + c.len + 64 → s.dramOn k = true) → (∀ k, k < c.dst + c.len → s.dramOn k = true) → s.poison = [] →
    c.src + c.len + 64 ≤ 2 ^ 62 → c.dst + c.len ≤ 2 ^ 62 →
    s.hostReach = false ∨ (c.src + c.len + 64 ≤ 2 ^ 32 ∧ c.dst + c.len ≤ 2 ^ 32) →
    c.src + c.len + 64 ≤ c.dst ∨ c.dst + c.len ≤ c.src / 64 * 64 →
    (s.copy n c).1 = 0 ∧ (∀ k, sget (fun _ => 0#8) (s.copy n c).2.dram k =
      if c.dst ≤ k ∧ k < c.dst + c.len then sget (fun _ => 0#8) s.dram (c.src + (k - c.dst)) else sget (fun _ => 0#8) s.dram k) ∧
      OnlyWords [] s (s.copy n c).2

/-- A bay from insertion to mooring, its failures, and its removal. For each bay: an inserted magazine makes it PRESENT, with AUTO_MOOR and MGH_CTRL.EN at
the first step of mooring; a removed one (not serving an open clip) resets the bay, and sets UNMOORED where an unmooring was under way (log entry 93);
presence stable for 100 ms powers it; PERST is released after 200 ms; a link up shows speed and width and enables the controller, no link fails with
code 1; a controller that is ready is identified with its commands in the queue and shows its blocks, or fails with its code; a blank magazine is
moored with role blank, an unknown version fails with code 9, a duplicate member with 8, any other is moored, its media kept while a clip is open or
READ_ONLY; each step times out after its limit with its code; a completed shutdown ends in state off with both pins low, what it held on its media,
and UNMOORED; bays to be moored afresh start again; a link lost while linking or initialising fails with 1, of another bay not moored only shows
nothing; a command timeout while initialising fails with 3, disables the controller and is counted; a completion with an error counts, one without is
an event of its interrupt source; a SMART poll asks every moored bay. Outside its step or before its time each command changes nothing. Each failure
raises 0x38. Frames are stated. From: spec/10_magazines.md (Bays and links); spec/10_magazines.md (Mooring); spec/10_magazines.md (NVMe use);
spec/10_magazines.md (Recovery on mount); spec/10_magazines.md (Registers). -/
def Obligations.MagazineBays : Prop :=
  ∀ (s : State) (b : Nat), s.wf = true → b < 4 →
    (∀ g, (s.bay b).mag = none → s.flag MGH_CTRL_EN = false ∨ s.flag MGH_CTRL_AUTO_MOOR = false →
      Completes (.magPresenceEdge b (some g)) s fun t => t.bayState b = 1 ∧ t.get (MGH_MAG_STATE_PRESENT b) = 1 ∧ (t.bay b).mag = some g ∧
        (t.bay b).step = 0 ∧ KeepsBut [(MGH_MAG_STATE_STATE b).off] s t) ∧
    (∀ g, (s.bay b).mag = none → s.flag MGH_CTRL_AUTO_MOOR = true → s.flag MGH_CTRL_EN = true →
      Completes (.magPresenceEdge b (some g)) s fun t => t.bayState b = 1 ∧ t.get (MGH_MAG_STATE_PRESENT b) = 1 ∧
        (t.bay b).mag = some g ∧ (t.bay b).step = 1 ∧ (t.bay b).since = s.now ∧ KeepsBut [(MGH_MAG_STATE_STATE b).off] s t) ∧
    ((s.bay b).mag.isSome = true → s.bayState b ≠ 4 ∨ s.mag.clip = none → Completes (.magPresenceEdge b none) s fun t =>
      t.bayState b = 0 ∧ t.get (MGH_MAG_STATE_PRESENT b) = 0 ∧ t.bay b = Bay.reset ∧
      ((s.bay b).unmoorDue = true → t.get MGH_EVENTS_UNMOORED = 1) ∧
      KeepsBut (mghSettles ++ [(MGH_MAG_FLUSH_MAX_US b).off, (MGH_MAG_BLOCKS_COUNT b).off, (MGH_MAG_BLOCKS_COUNT b).off + 4]) s t) ∧
    ((s.bay b).mag = none → Completes (.magPresenceEdge b none) s fun t => t = s) ∧
    ((s.bay b).step = 1 → (s.bay b).since + 10 ^ 8 ≤ s.now → Completes (.moorPresenceStable b) s fun t =>
      t.bay b = { s.bay b with step := 2, pwrEn := true } ∧ t.out = .bayPin b 0 true :: s.out ∧ KeepsBut [] s t) ∧
    ((s.bay b).step ≠ 1 ∨ s.now < (s.bay b).since + 10 ^ 8 → Completes (.moorPresenceStable b) s fun t => t = s) ∧
    ((s.bay b).step = 2 → (s.bay b).since + 2 * 10 ^ 8 ≤ s.now → Completes (.moorPerstRelease b) s fun t =>
      t.bay b = { s.bay b with step := 3, perst := true } ∧ t.bayState b = 2 ∧ t.out = .bayPin b 1 true :: s.out ∧
      KeepsBut [(MGH_MAG_STATE_STATE b).off] s t) ∧
    ((s.bay b).step ≠ 2 ∨ s.now < (s.bay b).since + 2 * 10 ^ 8 → Completes (.moorPerstRelease b) s fun t => t = s) ∧
    ((s.bay b).step = 3 →
      (∀ sp w, Completes (.magLinkUp b (some (sp, w))) s fun t => t.get (MGH_MAG_STATE_SPEED b) = sp % 8 ∧
        t.get (MGH_MAG_STATE_LINK_WIDTH b) = w % 4 ∧ t.bay b = { s.bay b with step := 4, enabled := true } ∧
        t.out = .nvmeCc b true 0 :: s.out ∧ KeepsBut [(MGH_MAG_STATE_STATE b).off] s t) ∧
      (Completes (.magLinkUp b none) s fun t => t.bayState b = 5 ∧ t.get (MGH_MAG_STATE_FAIL_CODE b) = 1 ∧ (t.bay b).step = 0 ∧
        t.get MGH_EVENTS_MOOR_FAIL = 1 ∧ Raised 0x38 s t ∧ SameMemory s t)) ∧
    ((s.bay b).step ≠ 3 → ∀ l, Completes (.magLinkUp b l) s fun t => t = s) ∧
    (∀ g, (s.bay b).mag = some g → (s.bay b).step = 4 →
      (∀ adminOk queuesOk, identifyCode g adminOk queuesOk = 0 → Completes (.magControllerReady b true adminOk queuesOk) s fun t =>
        t.bayState b = 3 ∧ t.get (MGH_MAG_BLOCKS_COUNT b) = g.blocks % 2 ^ 64 ∧
        t.bay b = { s.bay b with step := 5, readyAt := s.now } ∧
        (∀ c ∈ identify ++ setUp (s.queueDepth b) g.hasVwc, OutMsg.nvme b c ∈ t.out) ∧
        KeepsBut [(MGH_MAG_STATE_STATE b).off, (MGH_MAG_BLOCKS_COUNT b).off, (MGH_MAG_BLOCKS_COUNT b).off + 4] s t) ∧
      (∀ adminOk queuesOk, identifyCode g adminOk queuesOk ≠ 0 → Completes (.magControllerReady b true adminOk queuesOk) s fun t =>
        t.bayState b = 5 ∧ t.get (MGH_MAG_STATE_FAIL_CODE b) = identifyCode g adminOk queuesOk ∧ Raised 0x38 s t ∧ SameMemory s t) ∧
      (∀ adminOk queuesOk, Completes (.magControllerReady b false adminOk queuesOk) s fun t =>
        t.bayState b = 5 ∧ t.get (MGH_MAG_STATE_FAIL_CODE b) = 2 ∧ Raised 0x38 s t ∧ SameMemory s t)) ∧
    ((s.bay b).step = 5 → chosen (s.bay b).view = none → Completes (.moorComplete b) s fun t => t.bayState b = 4 ∧
      t.get (MGH_MAG_STATE_ROLE b) = 2 ∧ t.get MGH_EVENTS_MOORED = 1 ∧ (t.bay b).step = 0 ∧
      KeepsBut (mghSettles ++ [(MGH_MAG_FLUSH_MAX_US b).off]) s t) ∧
    (∀ v x c, (s.bay b).step = 5 → chosen (s.bay b).view = some (v, x, c) →
      (v ≠ 1 → Completes (.moorComplete b) s fun t =>
        t.bayState b = 5 ∧ t.get (MGH_MAG_STATE_FAIL_CODE b) = 9 ∧ Raised 0x38 s t ∧ SameMemory s t) ∧
      (v = 1 → s.duplicate b x = true → Completes (.moorComplete b) s fun t =>
        t.bayState b = 5 ∧ t.get (MGH_MAG_STATE_FAIL_CODE b) = 8 ∧ Raised 0x38 s t ∧ SameMemory s t) ∧
      (v = 1 → s.duplicate b x = false → Completes (.moorComplete b) s fun t => t.get MGH_EVENTS_MOORED = 1 ∧
        t.get (MGH_MAG_FLUSH_MAX_US b) = 0 ∧ SameMemory s t ∧ (s.mag.clip.isSome = true ∨ s.flag MGH_CTRL_READ_ONLY = true →
          t.bayState b = 4 ∧ (t.bay b).step = 0 ∧ (t.bay b).media = (s.bay b).media ∧ (t.bay b).volatile = (s.bay b).volatile))) ∧
    ((s.bay b).step ≠ 5 → Completes (.moorComplete b) s fun t => t = s) ∧
    (∀ cto, cto = ((s.bay b).mag.map (·.timeout500)).getD 0 → ∀ step code ms, (step, code, ms) ∈ [(3, 1, 400), (4, 2, 400 + 500 * cto),
        (5, 3, 460 + 500 * cto)] → (s.bay b).step = step →
      ((s.bay b).since + 10 ^ 6 * ms ≤ s.now → Completes (.moorStepTimeout b) s fun t => t.bayState b = 5 ∧
        t.get (MGH_MAG_STATE_FAIL_CODE b) = code ∧ t.get MGH_EVENTS_MOOR_FAIL = 1 ∧ Raised 0x38 s t ∧ SameMemory s t) ∧
      (s.now < (s.bay b).since + 10 ^ 6 * ms → Completes (.moorStepTimeout b) s fun t => t = s)) ∧
    ((s.bay b).step = 6 → Completes (.magShutdownComplete b) s fun t => t.bayState b = 7 ∧ (t.bay b).step = 0 ∧
      (t.bay b).media = (s.bay b).view ∧ (t.bay b).volatile = [] ∧ (t.bay b).pwrEn = false ∧ (t.bay b).perst = false ∧
      ((s.bay b).unmoorDue = true → t.get MGH_EVENTS_UNMOORED = 1) ∧ KeepsBut mghSettles s t) ∧
    ((s.bay b).step ≠ 6 → Completes (.magShutdownComplete b) s fun t => t = s) ∧
    (∀ x, s.mag.afresh = some x → x + 10 ^ 8 ≤ s.now → Completes .bayMoorAfresh s fun t => t.mag.afresh = none ∧
      ((s.bay b).mag.isSome = true → s.bayState b = 1 ∨ s.bayState b = 5 → t.bayState b = 1 ∧ (t.bay b).step = 1 ∧
        (t.bay b).since = s.now) ∧ KeepsBut mghWords s t) ∧
    ((∀ x, s.mag.afresh = some x → s.now < x + 10 ^ 8) → Completes .bayMoorAfresh s fun t => t = s) ∧
    (s.bayState b = 2 ∨ s.bayState b = 3 → Completes (.magLinkDown b) s fun t => t.bayState b = 5 ∧
      t.get (MGH_MAG_STATE_FAIL_CODE b) = 1 ∧ t.get (MGH_MAG_STATE_SPEED b) = 0 ∧ Raised 0x38 s t ∧ SameMemory s t) ∧
    (s.bayState b < 2 ∨ 4 < s.bayState b → Completes (.magLinkDown b) s fun t => t.get (MGH_MAG_STATE_SPEED b) = 0 ∧
      t.get (MGH_MAG_STATE_LINK_WIDTH b) = 0 ∧ t.mag = s.mag ∧ KeepsBut [(MGH_MAG_STATE_STATE b).off] s t) ∧
    (s.bayState b = 3 → (s.bay b).readyAt + 10 ^ 6 * max 1 (s.get MGH_TIMEOUT_MS) ≤ s.now → Completes (.nvmeCommandTimeout b) s fun t =>
      t.bayState b = 5 ∧ t.get (MGH_MAG_STATE_FAIL_CODE b) = 3 ∧ OutMsg.nvmeCc b false 0 ∈ t.out ∧
      t.get (MGH_MAG_ERR_TIMEOUTS b) = min (s.get (MGH_MAG_ERR_TIMEOUTS b) + 1) 65535 ∧ Raised 0x38 s t ∧ SameMemory s t) ∧
    (s.bayState b < 3 ∨ 4 < s.bayState b ∨ s.now < (s.bay b).readyAt + 10 ^ 6 * max 1 (s.get MGH_TIMEOUT_MS) →
      Completes (.nvmeCommandTimeout b) s fun t => t = s) ∧
    (∀ vec, vec ≤ 4 → (s.bay b).enabled = true → (Completes (.nvmeCompletion b vec true) s fun t =>
        t.get (MGH_MAG_ERR_CMD_ERR b) = min (s.get (MGH_MAG_ERR_CMD_ERR b) + 1) 65535 ∧ KeepsBut [(MGH_MAG_ERR_CMD_ERR b).off] s t) ∧
      (Completes (.nvmeCompletion b vec false) s fun t => (s.icuWf = true → (t.source (384 + 8 * b + vec)).count =
        min ((s.source (384 + 8 * b + vec)).count + 1) 255) ∧ t.mag = s.mag ∧ KeepsBut [] s t)) ∧
    (∀ vec e, (s.bay b).enabled = false → Completes (.nvmeCompletion b vec e) s fun t => t = s) ∧
    (Completes .smartLogPoll s fun t => t.mag = s.mag ∧ KeepsBut [] s t ∧
      (s.bayState b = 4 → OutMsg.nvme b ⟨0, 2, 1, 0⟩ ∈ t.out ∧ OutMsg.nvme b ⟨0, 2, 2, 0⟩ ∈ t.out))

/-- The loss of a member during a clip: degraded recording or the end of the clip. For a moored bay whose magazine serves as member m while a clip is
open: with parity, DEGRADE_OK and no member missing, its loss keeps the clip, marks the member missing and its loss to be recorded, fails the bay with
code 1, sets MEMBER_LOST and raises 0x39; without any of these it closes the clip, drops its units, sets CLIP_CLOSED and raises 0x3A. A command
timeout of such a bay fails it with code 3 and takes it from the members. No memory changes. From: spec/10_magazines.md (Losing and rebuilding a
member). -/
def Obligations.MemberLoss : Prop :=
  ∀ (s : State) (b m : Nat) (x : Superblock), s.wf = true → b < 4 → s.bayState b = 4 → s.mag.set = some x →
    s.service.find? (fun p => p.2 == b) = some (m, b) → s.mag.clip.isSome = true →
    (x.parity = true → s.flag MGH_CTRL_DEGRADE_OK = true → s.mag.missing = 0 → Completes (.magLinkDown b) s fun t =>
      t.mag.missing = 2 ^ m ∧ t.mag.lossDue = true ∧ t.mag.clip = s.mag.clip ∧ some b ∉ t.mag.members ∧ t.bayState b = 5 ∧
      t.get (MGH_MAG_STATE_FAIL_CODE b) = 1 ∧ t.get MGH_EVENTS_MEMBER_LOST = 1 ∧ Raised 0x39 s t ∧ SameMemory s t) ∧
    (x.parity = false ∨ s.flag MGH_CTRL_DEGRADE_OK = false ∨ s.mag.missing ≠ 0 → Completes (.magLinkDown b) s fun t =>
      t.mag.clip = none ∧ t.mag.units = [] ∧ t.get MGH_EVENTS_CLIP_CLOSED = 1 ∧ t.bayState b = 5 ∧ Counted 0x3A s t ∧ SameMemory s t) ∧
    ((s.bay b).readyAt + 10 ^ 6 * max 1 (s.get MGH_TIMEOUT_MS) ≤ s.now → Completes (.nvmeCommandTimeout b) s fun t =>
      t.bayState b = 5 ∧ t.get (MGH_MAG_STATE_FAIL_CODE b) = 3 ∧ some b ∉ t.mag.members ∧ SameMemory s t)

/-- Magazine Host commands: moor, unmoor, format, open, close, delete, rebuild and counts. A command of the host is discarded and logged; with MGH_CTRL.EN
0 none does anything; one while another runs gets RESULT 1. Otherwise: MOOR starts mooring in exactly the bays asked for that hold a magazine present
or failed; UNMOOR starts the shutdown of each moored bay asked for, and with a clip, a rebuild or a bay in use gets RESULT 1; FORMAT of as many moored
bays as its width writes each member's superblocks over a deallocated magazine (Formatted, log entry 17), and gets 6 with a clip open, 5 under
READ_ONLY, 1 for another number of bays; OPEN_CLIP on a complete set with room opens the next clip and shows its number, is held during the entry to a
sleep, and gets 2 on a set not complete, 5 under READ_ONLY, 6 with a clip open; CLOSE_CLIP with units outstanding keeps its reason and stays busy,
with none closes at once, without a clip gets 7, while closing or with a bad reason 1; DELETE_LAST of a closed clip deallocates its rows on every
member that can, of another RESULT 8; REBUILD of a degraded set starts with the bay found, and gets 8 without a set or one not degraded, 6 with a clip
open, 5 under READ_ONLY; its end sets REBUILD_DONE, without one nothing. CLR_COUNTS clears its counts. Frames are stated. From: spec/10_magazines.md
(The set); spec/10_magazines.md (Mooring); spec/10_magazines.md (On-media layout); spec/10_magazines.md (Format and deletion); spec/10_magazines.md
(Losing and rebuilding a member); spec/10_magazines.md (Registers). -/
def Obligations.MagazineCommands : Prop :=
  ∀ s : State, s.wf = true →
    (∀ c ∈ [Instr.openClip .host, .deleteLast .host, .rebuild .host, .mghClrCounts .host], Completes c s (Logged s)) ∧
    (∀ n, ∀ c ∈ [Instr.moor .host n, .unmoor .host n, .format .host n, .closeClip .host n], Completes c s (Logged s)) ∧
    (s.flag MGH_CTRL_EN = false → ∀ n, ∀ c ∈ [Instr.moor .mgc n, .unmoor .mgc n, .format .mgc n, .closeClip .mgc n, .deleteLast .mgc,
      .rebuild .mgc], Completes c s fun t => t = s) ∧
    (s.flag MGH_CTRL_EN = true → s.flag MGH_CMD_STAT_BUSY = true → ∀ n, ∀ p ∈ [(0, Instr.moor .mgc n), (1, .unmoor .mgc n),
      (2, .format .mgc n), (4, .closeClip .mgc n), (5, .deleteLast .mgc), (6, .rebuild .mgc)], Completes p.2 s fun t =>
      t.get MGH_CMD_STAT_LAST = p.1 ∧ t.get MGH_CMD_STAT_RESULT = 1 ∧ t.mag = s.mag ∧ KeepsBut mghWords s t) ∧
    (s.flag MGH_CTRL_EN = true → s.flag MGH_CMD_STAT_BUSY = false →
      (∀ bays, Completes (.moor .mgc bays) s fun t => t.get MGH_CMD_STAT_LAST = 0 ∧ t.get MGH_CMD_STAT_RESULT = 0 ∧
        (∀ b < 4, if bitAt bays b = 1 ∧ (s.bay b).mag.isSome = true ∧ (s.bayState b = 1 ∨ s.bayState b = 5)
          then t.bayState b = 1 ∧ t.bay b = { s.bay b with step := 1, since := s.now } ∧ t.get (MGH_MAG_STATE_FAIL_CODE b) = 0
          else t.bay b = s.bay b ∧ t.bayState b = s.bayState b) ∧ KeepsBut mghWords s t) ∧
      (∀ bays, s.mag.clip = none → s.mag.rebuild = none → (∀ b < 4, bitAt bays b = 1 → s.bayUsed b = false) →
        Completes (.unmoor .mgc bays) s fun t => t.get MGH_CMD_STAT_LAST = 1 ∧ t.get MGH_CMD_STAT_RESULT = 0 ∧
        (∀ b < 4, bitAt bays b = 1 → s.bayState b = 4 → t.bayState b = 6 ∧ t.get MGH_CMD_STAT_BUSY = 1 ∧
          t.bay b = { s.bay b with step := 6, since := s.now, unmoorDue := true } ∧ OutMsg.nvmeCc b true 1 ∈ t.out) ∧
        KeepsBut mghSettles s t) ∧
      (∀ bays, s.mag.clip.isSome = true ∨ s.mag.rebuild.isSome = true ∨
          (∃ b < 4, bitAt bays b = 1 ∧ s.bayState b = 4 ∧ s.bayUsed b = true) → Completes (.unmoor .mgc bays) s fun t =>
        t.get MGH_CMD_STAT_LAST = 1 ∧ t.get MGH_CMD_STAT_RESULT = 1 ∧ t.mag = s.mag ∧ KeepsBut mghWords s t) ∧
      (∀ bays, s.mag.clip = none → s.flag MGH_CTRL_READ_ONLY = false → 1 ≤ s.get MGH_FMT0_WIDTH → s.get MGH_FMT0_WIDTH ≤ 4 →
        2 ≤ s.get MGH_FMT0_CHUNK_LOG → s.get MGH_FMT0_CHUNK_LOG ≤ 8 → (baysOf bays).length = s.get MGH_FMT0_WIDTH →
        (∀ b ∈ baysOf bays, s.bayState b = 4) → Completes (.format .mgc bays) s fun t => t.get MGH_CMD_STAT_LAST = 2 ∧
          t.get MGH_CMD_STAT_RESULT = 0 ∧ (∀ i b g, (baysOf bays)[i]? = some b → (s.bay b).mag = some g → g.hasDsm = true →
            Formatted (s.get MGH_FMT0_WIDTH) (s.get MGH_FMT0_CHUNK_LOG) i (t.bay b)) ∧ KeepsBut mghSettles s t) ∧
      (∀ bays r, (s.mag.clip.isSome = true ∧ r = 6) ∨ (s.mag.clip = none ∧ s.flag MGH_CTRL_READ_ONLY = true ∧ r = 5) ∨
          (s.mag.clip = none ∧ s.flag MGH_CTRL_READ_ONLY = false ∧ (baysOf bays).length ≠ s.get MGH_FMT0_WIDTH ∧ r = 1) →
        Completes (.format .mgc bays) s fun t => t.get MGH_CMD_STAT_LAST = 2 ∧ t.get MGH_CMD_STAT_RESULT = r ∧ t.mag = s.mag ∧
          KeepsBut mghWords s t) ∧
      (∀ b, s.mag.set = some b → s.setComplete = true → s.mag.catalogue.length < b.catBlocks → s.flag MGH_CTRL_READ_ONLY = false →
        s.mag.clip = none → s.get KPR_STATUS_STATE ≠ 2 → Completes (.openClip .mgc) s fun t => t.get MGH_CMD_STAT_LAST = 3 ∧
          t.get MGH_CMD_STAT_RESULT = 0 ∧ t.mag.clip = some (s.openEntry b s.mag.catalogue.length) ∧
          t.get MGH_CLIP_NUMBER = s.mag.catalogue.length % 2 ^ 32 ∧ t.get MGH_COMMIT_FRAMES_COUNT = 0 ∧
          KeepsBut (mghWords ++ [MGH_CLIP_NUMBER.off, MGH_COMMIT_FRAMES_COUNT.off]) s t) ∧
      (s.get KPR_STATUS_STATE ≠ 2 → ∀ r, (s.setComplete = false ∧ r = 2) ∨ (s.setComplete = true ∧
          (∀ b, s.mag.set = some b → s.mag.catalogue.length < b.catBlocks) ∧ ((s.flag MGH_CTRL_READ_ONLY = true ∧ r = 5) ∨
            (s.flag MGH_CTRL_READ_ONLY = false ∧ s.mag.clip.isSome = true ∧ r = 6))) → Completes (.openClip .mgc) s fun t =>
          t.get MGH_CMD_STAT_LAST = 3 ∧ t.get MGH_CMD_STAT_RESULT = r ∧ t.mag = s.mag ∧ KeepsBut mghWords s t) ∧
      (∀ r, s.mag.clip.isSome = true → s.mag.closing = none → 1 ≤ r → r ≤ 6 → s.mag.units ≠ [] →
        Completes (.closeClip .mgc r) s fun t => t.get MGH_CMD_STAT_LAST = 4 ∧ t.get MGH_CMD_STAT_RESULT = 0 ∧
          t.get MGH_CMD_STAT_BUSY = 1 ∧ t.mag = { s.mag with closing := some r } ∧ KeepsBut mghWords s t) ∧
      (∀ r, s.mag.set.isSome = true → s.mag.clip.isSome = true → s.mag.closing = none → 1 ≤ r → r ≤ 6 → s.mag.units = [] →
        s.mag.durable = [] → s.mag.round = none → s.mag.lossDue = false → s.mag.powerFail = none → Completes (.closeClip .mgc r) s fun t =>
          t.get MGH_CMD_STAT_LAST = 4 ∧ t.get MGH_CMD_STAT_RESULT = 0 ∧ t.get MGH_CMD_STAT_BUSY = 0 ∧ t.mag.clip = none ∧
          t.get MGH_EVENTS_CLIP_CLOSED = 1 ∧ SameMemory s t) ∧
      (∀ r x, (s.mag.clip = none ∧ x = 7) ∨ (s.mag.clip.isSome = true ∧ (s.mag.closing.isSome = true ∨ r % 8 = 0 ∨ r % 8 = 7) ∧ x = 1) →
        Completes (.closeClip .mgc r) s fun t => t.get MGH_CMD_STAT_LAST = 4 ∧ t.get MGH_CMD_STAT_RESULT = x ∧ t.mag = s.mag ∧
          KeepsBut mghWords s t) ∧
      (∀ b e, s.mag.set = some b → s.mag.catalogue.getLast? = some (some e) → s.mag.clip = none → s.flag MGH_CTRL_READ_ONLY = false →
        s.setComplete = true → (e.state = 2 → Completes (.deleteLast .mgc) s fun t => t.get MGH_CMD_STAT_LAST = 5 ∧
            t.get MGH_CMD_STAT_RESULT = 0 ∧ (∀ p ∈ s.service, ∀ g, (s.bay p.2).mag = some g → g.hasDsm = true →
              OutMsg.nvme p.2 ⟨4, 9, b.dataLba + e.firstRow * b.chunk, e.rows * b.chunk⟩ ∈ t.out) ∧ KeepsBut mghSettles s t) ∧
          (e.state ≠ 2 → Completes (.deleteLast .mgc) s fun t => t.get MGH_CMD_STAT_RESULT = 8 ∧ t.mag = s.mag ∧ KeepsBut mghWords s t)) ∧
      (∀ b i m, s.mag.set = some b → s.mag.clip = none → s.flag MGH_CTRL_READ_ONLY = false → s.setDegraded = true →
        s.rebuildBay b = some i → s.mag.members.findIdx? (·.isNone) = some m → Completes (.rebuild .mgc) s fun t =>
          t.get MGH_CMD_STAT_LAST = 6 ∧ t.get MGH_CMD_STAT_RESULT = 0 ∧ t.get MGH_CMD_STAT_BUSY = 1 ∧ t.mag.rebuild = some i ∧
          t.mag.missing = 2 ^ m ∧ KeepsBut mghWords s t) ∧
      (∀ r, (s.mag.set = none ∧ r = 8) ∨ (s.mag.set.isSome = true ∧ s.mag.clip.isSome = true ∧ r = 6) ∨ (s.mag.set.isSome = true ∧
          s.mag.clip = none ∧ ((s.flag MGH_CTRL_READ_ONLY = true ∧ r = 5) ∨ (s.flag MGH_CTRL_READ_ONLY = false ∧ s.setDegraded = false ∧ r = 8))) →
        Completes (.rebuild .mgc) s fun t => t.get MGH_CMD_STAT_LAST = 6 ∧ t.get MGH_CMD_STAT_RESULT = r ∧ t.mag = s.mag ∧
          KeepsBut mghWords s t)) ∧
    (s.get KPR_STATUS_STATE = 2 → Completes (.openClip .mgc) s fun t => t.kpr.heldOpen = true ∧ t.mag = s.mag ∧ KeepsBut [] s t) ∧
    (∀ b i m, s.mag.set = some b → s.mag.rebuild = some i → s.mag.members.findIdx? (·.isNone) = some m → i < 4 →
      Completes .rebuildDone s fun t => t.get MGH_EVENTS_REBUILD_DONE = 1 ∧ t.get MGH_CMD_STAT_BUSY = 0 ∧ t.mag.rebuild = none ∧
        KeepsBut mghSettles s t) ∧
    (s.mag.rebuild = none → Completes .rebuildDone s fun t => t = s) ∧
    (Completes (.mghClrCounts .mgc) s fun t => t.get MGH_COUNTS_SCRUB_REPAIRED = 0 ∧ t.get MGH_COUNTS_PARITY_MISMATCH = 0 ∧
      (∀ b < 4, t.get (MGH_MAG_ERR_CMD_ERR b) = 0 ∧ t.get (MGH_MAG_ERR_TIMEOUTS b) = 0) ∧
      KeepsBut ([MGH_COUNTS_SCRUB_REPAIRED.off] ++ (List.range 4).map fun b => (MGH_MAG_ERR_CMD_ERR b).off) s t)

/-- Commit rounds: start, age and end. With a clip open on a set and no power failure: a round starts when none runs and a unit has ended, enough rows are
staged, a unit is durable or a loss is to be recorded; it journals at most 992 durable units in blocks that number on, and takes them off; while one
runs neither command does anything. A unit whose written part is one millisecond behind starts one too, before that nothing. The end of a round with
no close waiting shows the last journal number, and with entries the last journalled frame and epoch, sets COMMIT, shows the longest flush and leaves
nothing volatile in the members' bays; without a round nothing. Frames are stated. What a TYPE 2 block counts for is log entry 68. From:
spec/10_magazines.md (Recording and the commit protocol). -/
def Obligations.CommitRounds : Prop :=
  ∀ (s : State) (b : Superblock) (c : CatEntry), s.wf = true → s.mag.set = some b → s.mag.clip = some c →
    (∀ p ∈ s.service, p.2 < 4) → s.mag.powerFail = none →
    (s.mag.round = none → s.mag.units.any (·.ended) = true ∨ s.roundRows b ≤ s.stagedRows b ∨ s.mag.durable ≠ [] ∨ s.mag.lossDue = true →
      Completes .commitRoundStart s fun t => (∃ r, t.mag.round = some r ∧
        r.journal = (s.journalBlocks b c (s.mag.durable.take 992)).flatMap (·.entries) ∧
        r.last = (s.journalBlocks b c (s.mag.durable.take 992)).getLast?.map (·.jseq) ∧ r.rows ≤ s.roundRows b) ∧
      t.mag.jseq = s.mag.jseq + (s.journalBlocks b c (s.mag.durable.take 992)).length ∧ t.mag.durable = s.mag.durable.drop 992 ∧
      t.mag.lossDue = false ∧ t.mag.clip = some c ∧ KeepsBut [] s t) ∧
    (s.mag.round.isSome = true → (Completes .commitRoundStart s fun t => t = s) ∧ Completes .roundAgeTimeout s fun t => t = s) ∧
    (∀ u ∈ s.mag.units, s.mag.round = none → u.written < u.ready b → u.since + 10 ^ 6 ≤ s.now →
      Completes .roundAgeTimeout s fun t => t.mag.round.isSome = true ∧ t.mag.clip = some c ∧ KeepsBut [] s t) ∧
    ((∀ u ∈ s.mag.units, u.ready b ≤ u.written ∨ s.now < u.since + 10 ^ 6) → Completes .roundAgeTimeout s fun t => t = s) ∧
    (∀ r j us, s.mag.round = some r → r.last = some j → s.mag.closing = none → (∀ p ∈ s.service, us.getD p.2 0 < 2 ^ 32) →
      Completes (.commitRoundEnd us) s fun t => t.mag.round = none ∧ t.get MGH_COMMIT_JSEQ_JSEQ = j % 2 ^ 64 ∧
        (∀ p ∈ s.service, (t.bay p.2).volatile = [] ∧ us.getD p.2 0 ≤ t.get (MGH_MAG_FLUSH_MAX_US p.2)) ∧
        (∀ e, r.journal.getLast? = some e → t.get MGH_COMMIT_FRAMES_COUNT = (e.clipFrame + 1) % 2 ^ 32 ∧
          t.get MGH_COMMIT_EPOCH_EPOCH = e.epoch % 2 ^ 32 ∧ t.get MGH_EVENTS_COMMIT = 1) ∧
        (r.journal = [] → t.get MGH_COMMIT_FRAMES_COUNT = s.get MGH_COMMIT_FRAMES_COUNT ∧ t.mag.clip = some c) ∧
        KeepsBut (mghWords ++ [MGH_COMMIT_FRAMES_COUNT.off, MGH_COMMIT_EPOCH_EPOCH.off, MGH_COMMIT_JSEQ_JSEQ.off,
          MGH_COMMIT_JSEQ_JSEQ.off + 4, MGH_EVENTS_COMMIT.off] ++ (List.range 4).map fun b => (MGH_MAG_FLUSH_MAX_US b).off) s t) ∧
    (s.mag.round = none → ∀ us, Completes (.commitRoundEnd us) s fun t => t = s)

/-- The scrub of the set and read requests. A scrub read that the grant allows (scrubs): a good one below the append row goes on by one row; at the append
row with no bad metadata block it starts again and counts a pass; a parity mismatch counts (saturating), shows the row, sets its event and raises
0x39; one member's chunk in error is rebuilt from the others, written, counted and raises 0x38 (except under READ_ONLY, log entry 93); two or more
raise 0x39 and show the row; one bad metadata block is written from a good copy, counted and raises 0x38. One that the grant does not allow changes
nothing. A doorbell sets a bay's ring running if the Magazine Host is enabled. A ring whose next request is not READY stops; a READY one of 1 to 2048
blocks to an aligned address writes exactly the blocks as the bay reads them and its status 0, moves the head on, and sends its read command; a bay
not moored gets status 3, a bad request 2, a failed read 1, and each writes only its control word; a ring that does not run does nothing. Memory
premises (usable): DRAM that is on and that the host is not asked for (log entries 7 and 90). From: spec/10_magazines.md (Scrub); spec/10_magazines.md
(Read requests). -/
def Obligations.ScrubAndReads : Prop :=
  ∀ (s : State) (b : Superblock), s.wf = true → s.mag.set = some b →
    (∀ n, n = s.service.length * 4096 * b.chunk → s.get MGH_SCRUB_ROW_ROW < s.mag.appendRow →
      (s.scrubs n = false → ∀ f, Completes (.magScrubRead f) s fun t => t = s) ∧
      (s.scrubs n = true → Completes (.magScrubRead .good) s fun t => t.get MGH_SCRUB_ROW_ROW = (s.get MGH_SCRUB_ROW_ROW + 1) % 2 ^ 64 ∧
        t.mag = { s.mag with scrubbed := (s.epoch, s.scrubbed + n) } ∧
        (∀ p ∈ s.service, OutMsg.nvme p.2 ⟨4, 2, b.dataLba + s.get MGH_SCRUB_ROW_ROW * b.chunk, b.chunk⟩ ∈ t.out) ∧
        KeepsBut [MGH_SCRUB_ROW_ROW.off, MGH_SCRUB_ROW_ROW.off + 4] s t) ∧
      (s.scrubs n = true → Completes (.magScrubRead .parityMismatch) s fun t =>
        t.get MGH_COUNTS_PARITY_MISMATCH = min (s.get MGH_COUNTS_PARITY_MISMATCH + 1) 65535 ∧
        t.get MGH_SCRUB_BAD_ROW = s.get MGH_SCRUB_ROW_ROW ∧ t.get MGH_EVENTS_SCRUB_ERR = 1 ∧ Raised 0x39 s t ∧
        t.mag = { s.mag with scrubbed := (s.epoch, s.scrubbed + n) } ∧ SameMemory s t) ∧
      (∀ m k c, s.scrubs n = true → b.parity = true → s.setComplete = true → s.mag.members[m]? = some (some k) → k < 4 →
        b.chunkOf (s.media.filter fun p => p.1 != m) m (s.get MGH_SCRUB_ROW_ROW) = some c → s.flag MGH_CTRL_READ_ONLY = false →
        Completes (.magScrubRead (.chunkError [m])) s fun t =>
          (t.bay k).media = b.writeChunk (s.bay k).media (s.get MGH_SCRUB_ROW_ROW) c ∧
          t.get MGH_COUNTS_SCRUB_REPAIRED = min (s.get MGH_COUNTS_SCRUB_REPAIRED + 1) 65535 ∧ t.get MGH_EVENTS_SCRUB_ERR = 1 ∧
          Raised 0x38 s t ∧ SameMemory s t) ∧
      (∀ m l, s.scrubs n = true → Completes (.magScrubRead (.chunkError (m :: l))) s fun t =>
        t.get MGH_SCRUB_ROW_ROW = (s.get MGH_SCRUB_ROW_ROW + 1) % 2 ^ 64 ∧ (l ≠ [] → Raised 0x39 s t ∧
          t.get MGH_SCRUB_BAD_ROW = s.get MGH_SCRUB_ROW_ROW ∧ t.mag = { s.mag with scrubbed := (s.epoch, s.scrubbed + n) }) ∧
        SameMemory s t)) ∧
    (∀ n, n = s.service.length * 4096 * (s.metaLbas b).length → s.mag.appendRow ≤ s.get MGH_SCRUB_ROW_ROW →
      (s.scrubs n = false → ∀ f, Completes (.magScrubRead f) s fun t => t = s) ∧
      (s.scrubs n = true → s.badMeta b = [] → Completes (.magScrubRead .good) s fun t => t.get MGH_SCRUB_ROW_ROW = 0 ∧
        t.get MGH_SCRUB_PASSES_COUNT = (s.get MGH_SCRUB_PASSES_COUNT + 1) % 2 ^ 32 ∧
        t.mag = { s.mag with scrubbed := (s.epoch, s.scrubbed + n) } ∧
        KeepsBut [MGH_SCRUB_ROW_ROW.off, MGH_SCRUB_ROW_ROW.off + 4, MGH_SCRUB_PASSES_COUNT.off] s t) ∧
      (∀ m k lba l, s.scrubs n = true → s.badMeta b = [(m, lba)] → s.mag.members[m]? = some (some k) → k < 4 →
        s.flag MGH_CTRL_READ_ONLY = false → (s.media.filter fun p => p.1 != m).findSome? (fun p =>
          if b.metaOk lba (blockOn p.2 lba) then some (blockOn p.2 lba) else none) = some l → Completes (.magScrubRead .good) s fun t =>
          (t.bay k).media = writeOn (s.bay k).media lba l ∧
          t.get MGH_COUNTS_SCRUB_REPAIRED = min (s.get MGH_COUNTS_SCRUB_REPAIRED + 1) 65535 ∧ Raised 0x38 s t ∧ SameMemory s t)) ∧
    (∀ a bay, bay < 4 → Completes (.rqDoorbell a bay) s fun t => t.bay bay = { s.bay bay with rqRun := s.flag MGH_CTRL_EN } ∧ KeepsBut [] s t) ∧
    (∀ bay ok, bay < 4 → (s.bay bay).rqRun = false → Completes (.magReadRequest bay ok) s fun t => t = s) ∧
    (∀ bay a l, bay < 4 → (s.bay bay).rqRun = true → a = s.getAddr (MGH_MAG_RQ_BASE_ADDR bay) + 32 * s.get (MGH_MAG_RQ_HEAD_INDEX bay) →
      s.usable a 24 → (s.memRead a 24).1 = some l →
      (rdLe l 20 4 % 2 = 0 → ∀ ok, Completes (.magReadRequest bay ok) s fun t => t.bay bay = { s.bay bay with rqRun := false } ∧
        KeepsBut [] s t) ∧
      (∀ n dst, rdLe l 20 4 % 2 = 1 → n = rdLe l 16 4 → dst = rdLe l 8 8 →
        (s.bayState bay = 4 → 1 ≤ n → n ≤ 2048 → dst % 64 = 0 → s.usable dst (4096 * n) → Completes (.magReadRequest bay true) s fun t =>
          (∀ k, sget (fun _ => 0#8) t.dram k = if a + 20 ≤ k ∧ k < a + 24 then
              BitVec.ofNat 8 (insBits (insBits (rdLe l 20 4) 0 1 0) 8 8 0 / 256 ^ (k - (a + 20)))
            else if dst ≤ k ∧ k < dst + 4096 * n then
              BitVec.ofNat 8 ((blockOn (s.bay bay).view (rdLe l 0 8 + (k - dst) / 4096)).getD ((k - dst) % 4096) 0)
            else sget (fun _ => 0#8) s.dram k) ∧ t.hostMem = s.hostMem ∧
          t.get (MGH_MAG_RQ_HEAD_INDEX bay) = (s.get (MGH_MAG_RQ_HEAD_INDEX bay) + 1) % max 1 (s.get (MGH_MAG_RQ_SIZE_COUNT bay)) % 1024 ∧
          OutMsg.nvme bay ⟨3, 2, rdLe l 0 8, n⟩ ∈ t.out ∧ OnlyWords [(MGH_MAG_RQ_HEAD_INDEX bay).off] s t) ∧
        (∀ st ok, (s.bayState bay ≠ 4 ∧ st = 3) ∨ (s.bayState bay = 4 ∧ (n = 0 ∨ 2048 < n ∨ dst % 64 ≠ 0) ∧ st = 2) ∨
            (s.bayState bay = 4 ∧ 1 ≤ n ∧ n ≤ 2048 ∧ dst % 64 = 0 ∧ ok = false ∧ st = 1) → Completes (.magReadRequest bay ok) s fun t =>
          (∀ k, sget (fun _ => 0#8) t.dram k = if a + 20 ≤ k ∧ k < a + 24 then
              BitVec.ofNat 8 (insBits (insBits (rdLe l 20 4) 0 1 0) 8 8 st / 256 ^ (k - (a + 20)))
            else sget (fun _ => 0#8) s.dram k) ∧ t.hostMem = s.hostMem ∧ OnlyWords [(MGH_MAG_RQ_HEAD_INDEX bay).off] s t)))

/-- The CXL port: link, host, HDM accesses, bias, cache, resets and the mailbox commands. Link up at full speed and width sets LINK_UP, the mode (CXL only
where asked and the part is no follower), speed and width; at less it sets DEGRADED and raises 0x40. A host that arrives on a link is present, its
event is set, every page is host-biased and memory enabled (log entry 92); one that departs leaves an empty cache, no pending bias change and every
page device-biased, and drops the link only if it was lost; with no decode job and no held request it counts its dirty lines as lost and clears the
registers named. A link reset drops link, host and HDM, resets the function and sets the cause. An HDM commit while the host can be reached keeps the
base. Within a committed HDM a clean read that need not wait answers its bytes, with one bias miss counted on a device-biased page; a write that need
not wait stores exactly its bytes; a read of disabled DRAM answers poison and raises 0x40; any other HDM request changes nothing. A bias change starts
when none is in progress and the page exists, asking the host for the page where it goes to the device, and is refused with 0x01 otherwise; its end
changes exactly that page. A cache flush sets FLUSHING; its end empties the cache to host memory, or with the link down counts the lines as lost.
CLR_COUNTS, Viral (0x41), GET_TIMESTAMP (device time in 8 bytes), GET_SUPPORTED_LOGS and GET_LOG (an unknown log answers a code the spec leaves open)
are stated; without a host these four do nothing. Frames are given clause by clause. From: spec/11_host_cxl.md (Link and protocols);
spec/11_host_cxl.md (Host-managed device memory); spec/11_host_cxl.md (What a read sees); spec/11_host_cxl.md (The mailbox); spec/11_host_cxl.md (Host
arrival and departure); spec/11_host_cxl.md (Link-reach reset); spec/11_host_cxl.md (CXL Port registers). -/
def Obligations.CxlPort : Prop :=
  ∀ (s : State) (a : Agent), s.wf = true →
    (∀ m, Completes (.cxlLinkUp m 2 3) s fun t => t.get CXP_STATUS_LINK_UP = 1 ∧ t.get CXP_STATUS_CXL_MODE = b2n (m && s.role != 2) ∧
      t.get CXP_STATUS_SPEED = 2 ∧ t.get CXP_STATUS_WIDTH = 3 ∧ t.get CXP_STATUS_DEGRADED = 0 ∧ KeepsBut [CXP_STATUS_LINK_UP.off] s t) ∧
    (∀ m sp w, sp < 4 → w < 4 → sp ≠ 2 ∨ w ≠ 3 → Completes (.cxlLinkUp m sp w) s fun t => t.get CXP_STATUS_LINK_UP = 1 ∧
      t.get CXP_STATUS_SPEED = sp ∧ t.get CXP_STATUS_WIDTH = w ∧ t.get CXP_STATUS_DEGRADED = 1 ∧ Raised 0x40 s t ∧ SameMemory s t) ∧
    (s.flag CXP_STATUS_LINK_UP = true → s.host = false → Completes .hostArrival s fun t => t.host = true ∧ t.get CXP_EVENTS_HOST_UP = 1 ∧
      (∀ p, t.pageBias p = false) ∧ t.cxl.fn.memEnable = true ∧ t.cxl.fn.pba = 0 ∧
      KeepsBut [CXP_STATUS_HOST.off, CXP_EVENTS_HOST_UP.off] s t) ∧
    (s.flag CXP_STATUS_LINK_UP = false ∨ s.host = true → Completes .hostArrival s fun t => t = s) ∧
    (s.host = true → ∀ lost, Completes (.hostDeparture lost) s fun t => t.host = false ∧ t.get CXP_EVENTS_HOST_DOWN = 1 ∧
      t.cxl.cache = [] ∧ t.cxl.change = none ∧ t.cxl.fn.memEnable = false ∧ (∀ p, t.pageBias p = true) ∧
      t.get CXP_STATUS_LINK_UP = (if lost then 0 else s.get CXP_STATUS_LINK_UP) ∧
      (s.hpp.job = none → s.lmc.held = [] → t.get CXP_COUNTS2_HOST_DOWNS = min (s.get CXP_COUNTS2_HOST_DOWNS + 1) 65535 ∧
        t.get CXP_COUNTS_DIRTY_LOST = min (s.get CXP_COUNTS_DIRTY_LOST + s.cxl.cache.length) 65535 ∧
        t.get PXP_HOST_FREE_MAP = 0 ∧ t.get ICU_HOST_IDLE = 0 ∧ t.get ICU_HOST_SLEEP = 0 ∧ SameMemory s t)) ∧
    (s.host = false → Completes (.hostDeparture false) s fun t => t = s) ∧
    (Completes .linkReset s fun t => t.host = false ∧ t.cxl.cache = [] ∧ t.get CXP_STATUS_LINK_UP = 0 ∧ t.get CXP_STATUS_HDM_COMMITTED = 0 ∧
      t.cxl.hdmBase = none ∧ t.cxl.fn = CxlFn.reset (s.get CXP_HDM_SIZE_BYTES) ∧ t.get CXP_EVENTS_LINK_RESET = 1 ∧
      t.get RSTC_CAUSE_LINK = 1 ∧ (s.host = false → s.cxl.cache = [] →
        t.get CXP_COUNTS2_LINK_RESETS = min (s.get CXP_COUNTS2_LINK_RESETS + 1) 65535 ∧ KeepsBut [CXP_STATUS_LINK_UP.off,
          CXP_BIAS_STAT_BUSY.off, CXP_EVENTS_LINK_RESET.off, CXP_COUNTS2_LINK_RESETS.off, RSTC_CAUSE_LINK.off] s t)) ∧
    (∀ base, s.hostReach = true → Completes (.hdmDecoderCommit base) s fun t => t.get CXP_STATUS_HDM_COMMITTED = 1 ∧
      t.cxl.hdmBase = some base ∧ KeepsBut [CXP_STATUS_HDM_COMMITTED.off] s t) ∧
    (∀ base, s.hostReach = false → Completes (.hdmDecoderCommit base) s fun t => t = s) ∧
    (∀ off len w l, s.hostReach = false ∨ s.flag CXP_STATUS_HDM_COMMITTED = false ∨ s.get CXP_HDM_SIZE_BYTES < off + len →
      Completes (.cxlMemRequest off len w l) s fun t => t = s) ∧
    (∀ off len l, s.hostReach = true → s.flag CXP_STATUS_HDM_COMMITTED = true → off + len ≤ s.get CXP_HDM_SIZE_BYTES →
      (s.allOn (2 ^ 32 + off) len = true → s.reqWaits s.lmc.held ⟨0x23, 2 ^ 32 + off, len, none⟩ = false → (∀ e ∈ l, e = .clean) →
        s.poisonedIn (2 ^ 32 + off) len = false →
        (s.pageBias (off / 2 ^ 21) = false → Completes (.cxlMemRequest off len none l) s fun t =>
          t.resp = .bytes (sgetAll (fun _ => 0#8) s.dram (2 ^ 32 + off) len) ∧ KeepsBut [] s t) ∧
        (s.pageBias (off / 2 ^ 21) = true → Completes (.cxlMemRequest off len none l) s fun t =>
          t.resp = .bytes (sgetAll (fun _ => 0#8) s.dram (2 ^ 32 + off) len) ∧
          t.get CXP_COUNTS_BIAS_MISS = min (s.get CXP_COUNTS_BIAS_MISS + 1) 65535 ∧ KeepsBut [CXP_COUNTS_BIAS_MISS.off] s t)) ∧
      (∀ w, w.length = len → s.allOn (2 ^ 32 + off) len = true → s.lmc.held = [] → (∀ e ∈ l, e = .clean) →
        (∀ x ∈ linesOf (2 ^ 32 + off) len, s.dramWaits (64 * x) = false) →
        (∀ ch, (s.wqOf ch).length + (linesOf (2 ^ 32 + off) len).length ≤ 64) → Completes (.cxlMemRequest off len (some w) l) s fun t =>
          (∀ k, sget (fun _ => 0#8) t.dram k = if 2 ^ 32 + off ≤ k ∧ k < 2 ^ 32 + off + len then w.getD (k - (2 ^ 32 + off)) 0 else
            sget (fun _ => 0#8) s.dram k) ∧ t.hostMem = s.hostMem ∧ OnlyWords [CXP_COUNTS_BIAS_MISS.off] s t) ∧
      (s.allOn (2 ^ 32 + off) len = false → Completes (.cxlMemRequest off len none l) s fun t => t.resp = .poison [] ∧
        Raised 0x40 s t ∧ SameMemory s t)) ∧
    (s.flag CXP_BIAS_STAT_BUSY = false → s.get CXP_BIAS_PAGE_INDEX * 2 ^ 21 < s.get CXP_HDM_SIZE_BYTES →
      (Completes (.toHost a) s fun t => t.get CXP_BIAS_STAT_BUSY = 1 ∧ t.cxl.change = some ⟨s.get CXP_BIAS_PAGE_INDEX, false⟩ ∧
        KeepsBut [CXP_BIAS_STAT_BUSY.off] s t) ∧
      (Completes (.toDevice a) s fun t => t.get CXP_BIAS_STAT_BUSY = 1 ∧ t.cxl.change = some ⟨s.get CXP_BIAS_PAGE_INDEX, true⟩ ∧
        t.out = .ownPage (s.get CXP_BIAS_PAGE_INDEX) :: s.out ∧ KeepsBut [CXP_BIAS_STAT_BUSY.off] s t)) ∧
    (s.flag CXP_BIAS_STAT_BUSY = true ∨ s.get CXP_HDM_SIZE_BYTES ≤ s.get CXP_BIAS_PAGE_INDEX * 2 ^ 21 →
      ∀ c ∈ [Instr.toHost a, .toDevice a], Completes c s fun t => t.cxl = s.cxl ∧ Logged s t) ∧
    (∀ c, s.cxl.change = some c → swf (fun _ => s.cxl.devBase) s.cxl.pages = true → Completes .biasChangeDone s fun t =>
      t.get CXP_BIAS_STAT_BUSY = 0 ∧ t.get CXP_EVENTS_BIAS_DONE = 1 ∧ t.cxl.change = none ∧ t.pageBias c.page = c.toDevice ∧
      (∀ p, p ≠ c.page → t.pageBias p = s.pageBias p) ∧
      (s.lmc.held = [] → KeepsBut [CXP_BIAS_STAT_BUSY.off, CXP_EVENTS_BIAS_DONE.off] s t)) ∧
    (s.cxl.change = none → Completes .biasChangeDone s fun t => t = s) ∧
    (Completes (.cacheFlush a) s fun t => t.get CXP_STATUS_FLUSHING = 1 ∧ t.cxl = s.cxl ∧ KeepsBut [CXP_STATUS_FLUSHING.off] s t) ∧
    (s.flag CXP_STATUS_FLUSHING = true → s.flag CXP_STATUS_LINK_UP = true → (s.cxl.cache.map (·.1)).Nodup →
      (∀ e ∈ s.cxl.cache, e.2.length = 64) → Completes .cacheFlushDone s fun t => t.cxl.cache = [] ∧ t.get CXP_STATUS_FLUSHING = 0 ∧
        (∀ e ∈ s.cxl.cache, ∀ i < 64, sget (fun _ => none) t.hostMem (64 * e.1 + i) = some (BitVec.ofNat 8 (e.2.getD i 0))) ∧
        (∀ x, x / 64 ∉ s.cxl.cache.map (·.1) → sget (fun _ => none) t.hostMem x = sget (fun _ => none) s.hostMem x) ∧
        t.dram = s.dram ∧ OnlyWords [CXP_STATUS_FLUSHING.off] s t) ∧
    (s.flag CXP_STATUS_FLUSHING = true → s.flag CXP_STATUS_LINK_UP = false → Completes .cacheFlushDone s fun t => t.cxl.cache = [] ∧
      t.get CXP_STATUS_FLUSHING = 0 ∧ t.get CXP_COUNTS_DIRTY_LOST = min (s.get CXP_COUNTS_DIRTY_LOST + s.cxl.cache.length) 65535 ∧
      SameMemory s t) ∧
    (s.flag CXP_STATUS_FLUSHING = false → Completes .cacheFlushDone s fun t => t = s) ∧
    (Completes (.cxpClrCounts a) s fun t => t.get CXP_COUNTS_BIAS_MISS = 0 ∧ t.get CXP_COUNTS_DIRTY_LOST = 0 ∧
      t.get CXP_COUNTS2_LINK_RESETS = 0 ∧ t.get CXP_COUNTS2_HOST_DOWNS = 0 ∧
      KeepsBut [CXP_COUNTS_BIAS_MISS.off, CXP_COUNTS2_LINK_RESETS.off] s t) ∧
    (Completes .viralReceived s fun t => t.get CXP_EVENTS_VIRAL = 1 ∧ Raised 0x41 s t ∧ SameMemory s t) ∧
    (s.host = true →
      (Completes .getTimestamp s fun t => t.resp = .bytes (toBytes (le 8 s.dtcNs)) ∧ KeepsBut [] s t) ∧
      (Completes .getSupportedLogs s fun t => t.resp = .supportedLogs ∧ KeepsBut [] s t) ∧
      (Completes (.getLog true) s fun t => t.resp = .effectsLog ∧ KeepsBut [] s t) ∧
      (Completes (.getLog false) s fun t => (∃ v, v < 2 ^ 16 ∧ t.resp = .code v) ∧ KeepsBut [] s t)) ∧
    (s.host = false → ∀ c ∈ [Instr.getTimestamp, .getSupportedLogs, .getLog true, .getLog false], Completes c s fun t => t = s)

/-- Ethernet ports: reception, policing, the rings, time stamps, egress, gates and counts. For both ports, a frame given as its bytes with FCS: on a port
that is off nothing; a bad FCS is counted; longer than 1522 bytes with the FCS is counted oversize; a PAUSE frame is discarded; one that its class's
policer has no tokens for is counted; a good one is written to the buffer of the READY descriptor at the head of the receive ring and its length,
class and flags to the descriptor, and the head moves on; without a READY descriptor it is counted; a PTP event keeps a time stamp within 4 ns of port
time. TS_POP takes and shows the oldest time stamp, with none answers 0. A READY transmit descriptor, by its event or a ring kick, becomes a frame at
the end of the queue, or is returned with its status and counted where it is too long or the queue is full. A receive kick changes nothing. The frame
that may go first starts and leaves the queue, one too long is dropped and counted, and with none or one being sent nothing happens. A frame that ends
goes out and its descriptor is written back. A gate entry sets the mask. GATE_COMMIT of a good list keeps it as pending from its base, or, if that is
past, from the first whole cycle not before device time + 1000 ns; of another sets CONFIG_ERR and raises 0x01; a list whose time has come becomes the
operating one; CLR_COUNTS clears the counts named. The IEEE layouts are log entry 71. Memory premises (usable): log entries 7 and 90. Frames are
stated. From: spec/12_network_and_proxy.md (The ports); spec/12_network_and_proxy.md (Egress); spec/12_network_and_proxy.md (Ingress policing);
spec/12_network_and_proxy.md (Ethernet registers). -/
def Obligations.EthernetPorts : Prop :=
  ∀ (s : State) (a : Agent) (p : Nat), s.wf = true → p < 2 →
    (∀ (f : List Byte) (l : List Nat) (c : Nat), l = toNats f → c = s.ingressClass p l →
      (s.portOn p = false → Completes (.ethFrameReceived p f) s fun t => t = s) ∧
      (s.portOn p = true → fcsOk l = false → Completes (.ethFrameReceived p f) s fun t =>
        t.get (ETH_P_RXERR_FCS p) = min (s.get (ETH_P_RXERR_FCS p) + 1) 255 ∧ KeepsBut [(ETH_P_RXERR_FCS p).off] s t) ∧
      (s.portOn p = true → fcsOk l = true → 1522 < l.length → Completes (.ethFrameReceived p f) s fun t =>
        t.get (ETH_P_RXERR_OVERSIZE p) = min (s.get (ETH_P_RXERR_OVERSIZE p) + 1) 255 ∧ KeepsBut [(ETH_P_RXERR_OVERSIZE p).off] s t) ∧
      (s.portOn p = true → fcsOk l = true → l.length ≤ 1522 → isPause l = true → Completes (.ethFrameReceived p f) s fun t => t = s) ∧
      (s.portOn p = true → fcsOk l = true → l.length ≤ 1522 → isPause l = false → s.get (ETH_P_POL_RATE p c) ≠ 0 →
        s.policeLevel p c < 8000 * l.length → Completes (.ethFrameReceived p f) s fun t =>
          t.get (ETH_P_POL_DROP_COUNT p c) = (s.get (ETH_P_POL_DROP_COUNT p c) + 1) % 2 ^ 32 ∧
          (t.port p).rxHead = (s.port p).rxHead ∧ (t.port p).ts = (s.port p).ts ∧ KeepsBut [(ETH_P_POL_DROP_COUNT p c).off] s t) ∧
      (∀ i b d, s.portOn p = true → fcsOk l = true → l.length ≤ 1522 → isPause l = false →
        s.get (ETH_P_POL_RATE p c) = 0 ∨ 8000 * l.length ≤ s.policeLevel p c → i = (s.port p).rxHead →
        b = s.getAddr (ETH_P_RXR_BASE_ADDR p) + 16 * i → s.usable b 16 → (s.memRead b 16).1 = some d →
        (rdLe d 11 1 % 2 = 1 → s.usable (rdLe d 0 8) (l.length - 4) → Completes (.ethFrameReceived p f) s fun t =>
          (∀ k, sget (fun _ => 0#8) t.dram k = if b + 8 ≤ k ∧ k < b + 12 then
              BitVec.ofNat 8 ((le 2 (l.length - 4) ++ [c, rdLe d 11 1 / 2 * 2]).getD (k - (b + 8)) 0)
            else if rdLe d 0 8 ≤ k ∧ k < rdLe d 0 8 + (l.length - 4) then BitVec.ofNat 8 (l.getD (k - rdLe d 0 8) 0)
            else sget (fun _ => 0#8) s.dram k) ∧ t.hostMem = s.hostMem ∧
          (t.port p).rxHead = (i + 1) % max 1 (s.get (ETH_P_RXR_SIZE_COUNT p)) ∧
          (isPtpEvent l = false → (t.port p).ts = (s.port p).ts) ∧
          (isPtpEvent l = true → (s.port p).ts.length < 16 → ∃ x, (t.port p).ts = (s.port p).ts ++ [(0, (ptpHead l).1, (ptpHead l).2, x)] ∧
            (x + 4 + 2 ^ 64 - s.ethTime p) % 2 ^ 64 ≤ 8) ∧ OnlyWords [(ETH_P_RXERR_TS_LOST p).off] s t) ∧
        (rdLe d 11 1 % 2 = 0 → isPtpEvent l = false → Completes (.ethFrameReceived p f) s fun t =>
          t.get (ETH_P_RXERR_NO_DESC p) = min (s.get (ETH_P_RXERR_NO_DESC p) + 1) 255 ∧ (t.port p).rxHead = i ∧
          KeepsBut [(ETH_P_RXERR_NO_DESC p).off] s t))) ∧
    (∀ dir typ seq x rest, (s.port p).ts = (dir, typ, seq, x) :: rest → Completes (.ethTsPop a p) s fun t =>
      (t.port p).ts = rest ∧ t.get (ETH_P_TS_NS_NS p) = x % 2 ^ 64 ∧
      t.resp = .word (BitVec.ofNat 32 (1 + 2 * (dir % 2) + 4 * (typ % 16) + 65536 * (seq % 65536))) ∧
      KeepsBut [(ETH_P_TS_NS_NS p).off, (ETH_P_TS_NS_NS p).off + 4] s t) ∧
    ((s.port p).ts = [] → Completes (.ethTsPop a p) s fun t => t.resp = .word 0#32 ∧ KeepsBut [] s t) ∧
    (∀ c, c = Instr.ethTxDescriptor p ∨ c = Instr.ethRingKickTx a p →
      (s.portOn p = false ∨ (s.port p).holds (s.port p).txHead = true → Completes c s fun t => t = s) ∧
      (∀ i b d, s.portOn p = true → i = (s.port p).txHead → (s.port p).holds i = false →
        b = s.getAddr (ETH_P_TXR_BASE_ADDR p) + 16 * i → s.usable b 16 → (s.memRead b 16).1 = some d →
        (rdLe d 11 1 % 2 = 0 → Completes c s fun t => t.eth = s.eth ∧ KeepsBut [] s t) ∧
        (∀ x f, rdLe d 11 1 % 2 = 1 → s.usable (rdLe d 0 8) (rdLe d 8 2) → (s.memRead (rdLe d 0 8) (rdLe d 8 2)).1 = some x →
          f = ⟨rdLe d 10 1 % 32, s.flowClass p (rdLe d 10 1 % 32), x, rdLe d 8 2, some (i, bitAt (rdLe d 11 1) 1 == 1), none⟩ →
          (s.tooLong p f = false → ((s.port p).queue.filter fun g => g.cls == f.cls).length < 128 → Completes c s fun t =>
            t.port p = { s.port p with txHead := (i + 1) % max 1 (s.get (ETH_P_TXR_SIZE_COUNT p)), queue := (s.port p).queue ++ [f] } ∧
            KeepsBut [] s t) ∧
          (∀ st w, (s.tooLong p f = true ∧ st = 1 ∧ w = ETH_P_DROP_TOO_LONG p) ∨ (s.tooLong p f = false ∧
              128 ≤ ((s.port p).queue.filter fun g => g.cls == f.cls).length ∧ st = 2 ∧ w = ETH_P_DROP_QFULL p) → Completes c s fun t =>
            t.get w = min (s.get w + 1) 65535 ∧ (t.port p).queue = (s.port p).queue ∧
            (t.port p).txHead = (i + 1) % max 1 (s.get (ETH_P_TXR_SIZE_COUNT p)) ∧
            (∀ k, sget (fun _ => 0#8) t.dram k = if k = b + 11 then BitVec.ofNat 8 (2 * bitAt (rdLe d 11 1) 1 + 4 * st) else
              sget (fun _ => 0#8) s.dram k) ∧ t.hostMem = s.hostMem ∧ OnlyWords [w.off] s t)))) ∧
    (Completes (.ethRingKickRx a p) s fun t => t = s) ∧
    (s.portOn p = false ∨ (s.port p).sending.isSome = true → Completes (.egressFrameStart p) s fun t => t = s) ∧
    (s.portOn p = true → (s.port p).sending = none → (∀ g ∈ (s.port p).queue, s.tooLong p g = false) →
      (s.nextClass p = none → Completes (.egressFrameStart p) s fun t => t = s) ∧
      (∀ f, s.nextClass p = some f → Completes (.egressFrameStart p) s fun t => (t.port p).sending = some f ∧
        (t.port p).queue = (s.port p).queue.eraseP (fun g => g.cls == f.cls) ∧
        ((∀ i, f.desc ≠ some (i, true)) → (t.port p).ts = (s.port p).ts) ∧
        (∀ i, f.desc = some (i, true) → (s.port p).ts.length < 16 → ∃ x, (t.port p).ts = (s.port p).ts ++
          [(1, (ptpHead f.data).1, (ptpHead f.data).2, x)] ∧ (x + 4 + 2 ^ 64 - s.ethTime p) % 2 ^ 64 ≤ 8) ∧
        KeepsBut [(ETH_P_RXERR_TS_LOST p).off] s t)) ∧
    (∀ f, s.portOn p = true → (s.port p).sending = none → (s.port p).queue = [f] → f.cls < 8 → s.tooLong p f = true → f.desc = none →
      f.packet = none → Completes (.egressFrameStart p) s fun t => (t.port p).queue = [] ∧ (t.port p).sending = none ∧
        t.get (ETH_P_DROP_TOO_LONG p) = min (s.get (ETH_P_DROP_TOO_LONG p) + 1) 65535 ∧ KeepsBut [(ETH_P_DROP_TOO_LONG p).off] s t) ∧
    ((s.port p).sending = none → Completes (.egressFrameDone p) s fun t => t = s) ∧
    (∀ f, (s.port p).sending = some f → (f.desc = none → Completes (.egressFrameDone p) s fun t => (t.port p).sending = none ∧
        OutMsg.eth p f.cls (toBytes f.data) ∈ t.out ∧ KeepsBut [] s t) ∧
      (∀ i ts k, f.desc = some (i, ts) → k = s.getAddr (ETH_P_TXR_BASE_ADDR p) + 16 * i + 11 → s.usable k 1 →
        Completes (.egressFrameDone p) s fun t => (t.port p).sending = none ∧ OutMsg.eth p f.cls (toBytes f.data) ∈ t.out ∧
          (∀ x, sget (fun _ => 0#8) t.dram x = if x = k then BitVec.ofNat 8 (2 * b2n ts) else sget (fun _ => 0#8) s.dram x) ∧
          t.hostMem = s.hostMem ∧ OnlyWords [] s t)) ∧
    (∀ g, (s.port p).oper = some g → Completes (.gateEntryChange p) s fun t => t.port p = { s.port p with mask := s.maskAt g } ∧
      KeepsBut [] s t) ∧
    ((s.port p).oper = none → Completes (.gateEntryChange p) s fun t => t = s) ∧
    (∀ n cycle b, n = s.get (ETH_P_GATE_LEN_COUNT p) → cycle = s.get (ETH_P_GATE_CYCLE_NS p) → b = s.get (ETH_P_GATE_BASE_NS p) →
      (1 ≤ n → n ≤ 64 → 1000 ≤ cycle → cycle ≤ 10 ^ 9 → Completes (.gateCommit a p) s fun t => ∃ g, (t.port p).next = some g ∧
        g.cycle = cycle ∧ g.entries.length = n ∧ (∀ i < n, g.entries[i]? = some (s.get (ETH_P_GATEE_MASK p i), s.get (ETH_P_GATEE_INTERVAL p i))) ∧
        (b < s.dtcNs + 1000 → s.dtcNs + 1000 ≤ g.start ∧ g.start < s.dtcNs + 1000 + cycle ∧
          (g.start - b) % cycle = 0 ∧ t.get (ETH_P_GATE_STAT_LATE_START p) = 1) ∧ (s.dtcNs + 1000 ≤ b → g.start = b) ∧
        t.get (ETH_P_GATE_STAT_PENDING p) = 1 ∧ t.get (ETH_P_GATE_START_NS p) = g.start % 2 ^ 64 ∧
        KeepsBut [(ETH_P_GATE_STAT_PENDING p).off, (ETH_P_GATE_START_NS p).off, (ETH_P_GATE_START_NS p).off + 4] s t) ∧
      (n = 0 ∨ 64 < n ∨ cycle < 1000 ∨ 10 ^ 9 < cycle → Completes (.gateCommit a p) s fun t => t.get (ETH_P_GATE_STAT_CONFIG_ERR p) = 1 ∧
        t.port p = s.port p ∧ Raised 0x01 s t ∧ SameMemory s t)) ∧
    (∀ g, (s.port p).next = some g → g.start ≤ s.dtcNs → Completes (.gateListStart p) s fun t =>
      t.port p = { s.port p with oper := some g, next := none, mask := s.maskAt g } ∧ t.get (ETH_P_GATE_STAT_PENDING p) = 0 ∧
      KeepsBut [(ETH_P_GATE_STAT_PENDING p).off] s t) ∧
    ((∀ g, (s.port p).next = some g → s.dtcNs < g.start) → Completes (.gateListStart p) s fun t => t = s) ∧
    (Completes (.ethClrCounts a p) s fun t => t.get (ETH_P_DROP_TOO_LONG p) = 0 ∧ t.get (ETH_P_DROP_QFULL p) = 0 ∧
      t.get (ETH_P_RXERR_FCS p) = 0 ∧ t.get (ETH_P_RXERR_OVERSIZE p) = 0 ∧ t.get (ETH_P_RXERR_NO_DESC p) = 0 ∧
      t.get (ETH_P_RXERR_TS_LOST p) = 0 ∧ (∀ c < 8, t.get (ETH_P_POL_DROP_COUNT p c) = 0) ∧
      KeepsBut ([(ETH_P_DROP_QFULL p).off, (ETH_P_RXERR_FCS p).off] ++ (List.range 8).map fun c => (ETH_P_POL_DROP_COUNT p c).off) s t)

/-- ST 2110 senders and PTP. For both senders: enabling one whose share of the port's rate suffices sets it running at packet 0 with its sequence number
kept, otherwise it is refused with REFUSED and 0x01; one already enabled stays. A packet that is due by its place in the frame becomes a frame of its
flow at the end of the port's queue (its bytes by the model's senderFrame, log entry 25), and packet and sequence number count on; before that, or
after the last packet, nothing; a new proxy tick starts the sender's next frame, counting the old one late where packets were left. A PTP sync within
100 ns counts towards lock and sets the adjustment, clamped to the field's range; one above 1000 ns starts the count anew and a locked time base on
PTP goes to holdover; one above a millisecond outside a clip sets device time. An announce replaces that master's and the best one gives the port; an
announce timeout drops exactly the best master. With the firmware down PTP does nothing. Frames are stated. From: spec/12_network_and_proxy.md (ST
2110 senders); spec/12_network_and_proxy.md (PTP). -/
def Obligations.SendersAndPtp : Prop :=
  ∀ (s : State) (a : Agent) (k : Nat), s.wf = true → k < 2 →
    (∀ p, p = s.get (ETH_SND_CTRL_PORT k) → s.flag (ETH_SND_CTRL_EN k) = false →
      (10 * (((List.range 2).filter fun j => j != k && s.flag (ETH_SND_CTRL_EN j) && s.get (ETH_SND_CTRL_PORT j) == p).length + 1) *
          s.framePackets * 10288 * s.outRate.1 ≤ 9 * s.portRate p * 10 ^ 9 * s.outRate.2 → s.proxy.senders.length = 2 →
        Completes (.senderEnable a k) s fun t => t.get (ETH_SND_CTRL_EN k) = 1 ∧ t.get (ETH_SND_STAT_RUNNING k) = 1 ∧
          t.get (ETH_SND_STAT_REFUSED k) = 0 ∧ (t.proxy.senders.getD k Sender.reset).next = 0 ∧
          (t.proxy.senders.getD k Sender.reset).seq = (s.proxy.senders.getD k Sender.reset).seq ∧
          KeepsBut [(ETH_SND_CTRL_EN k).off, (ETH_SND_STAT_RUNNING k).off] s t) ∧
      (9 * s.portRate p * 10 ^ 9 * s.outRate.2 < 10 * (((List.range 2).filter fun j => j != k && s.flag (ETH_SND_CTRL_EN j) &&
          s.get (ETH_SND_CTRL_PORT j) == p).length + 1) * s.framePackets * 10288 * s.outRate.1 →
        Completes (.senderEnable a k) s fun t => t.get (ETH_SND_CTRL_EN k) = 0 ∧ t.get (ETH_SND_STAT_REFUSED k) = 1 ∧ Raised 0x01 s t ∧
          SameMemory s t)) ∧
    (s.flag (ETH_SND_CTRL_EN k) = true → Completes (.senderEnable a k) s fun t => t = s) ∧
    (s.flag (ETH_SND_CTRL_EN k) = false ∨ s.proxyOn = false → Completes (.senderPacketDue k) s fun t => t = s) ∧
    (∀ x kk tk, x = s.proxy.senders.getD k Sender.reset → s.proxy.senders.length = 2 → s.flag (ETH_SND_CTRL_EN k) = true → s.proxyOn = true →
      s.proxy.lastTick = some kk → tk = s.proxyTime kk → tk + s.get (ETH_SND_OFFSET_NS k) ≤ s.dtcNs →
      (∀ pic p, x.frame = some (kk, tk) → x.pic = some pic → x.next < s.framePackets →
        9 * x.next * 10 ^ 9 * s.outRate.2 ≤ 10 * s.framePackets * s.outRate.1 * (s.dtcNs - (tk + s.get (ETH_SND_OFFSET_NS k))) →
        p = s.get (ETH_SND_CTRL_PORT k) → s.flag (ETH_P_CTRL_GATE_EN p) = false →
        (∀ id, (s.senderFrame k x.next id x pic tk).length ≤ 1518) →
        ((s.port p).queue.filter fun f => f.cls == s.flowClass p k).length < 128 → Completes (.senderPacketDue k) s fun t =>
          (∃ f, (t.port p).queue = (s.port p).queue ++ [f] ∧ f.flow = k ∧ f.packet = some (k, kk, x.next) ∧
            ∃ id, f.data = s.senderFrame k x.next id x pic tk) ∧
          (t.proxy.senders.getD k Sender.reset).next = x.next + 1 ∧ (t.proxy.senders.getD k Sender.reset).seq = (x.seq + 1) % 2 ^ 32 ∧
          KeepsBut [] s t) ∧
      (x.frame = some (kk, tk) → s.framePackets ≤ x.next ∨ 10 * s.framePackets * s.outRate.1 * (s.dtcNs - (tk + s.get (ETH_SND_OFFSET_NS k))) <
          9 * x.next * 10 ^ 9 * s.outRate.2 → Completes (.senderPacketDue k) s fun t => t = s) ∧
      (s.proxy.sent = none → x.frame ≠ some (kk, tk) → Completes (.senderPacketDue k) s fun t =>
        (t.proxy.senders.getD k Sender.reset).frame = some (kk, tk) ∧ (t.proxy.senders.getD k Sender.reset).pic = none ∧
        t.get (ETH_SND_COUNTS_LATE k) = (if x.frame.isSome ∧ x.pic.isSome ∧ x.next < s.framePackets ∨ x.frame.isSome ∧ s.packetsOf k ≠ 0
          then min (s.get (ETH_SND_COUNTS_LATE k) + 1) 65535 else s.get (ETH_SND_COUNTS_LATE k)) ∧
        KeepsBut [(ETH_SND_COUNTS_LATE k).off] s t)) ∧
    (s.mgc.up = false → (∀ offset adj, Completes (.ptpSync offset adj) s fun t => t = s) ∧
      ∀ port id rank, Completes (.ptpAnnounce port id rank) s fun t => t = s) ∧
    (∀ offset adj, s.mgc.up = true → s.ref = 1 → offset.natAbs < 100 → Completes (.ptpSync offset adj) s fun t =>
      t.ptp.syncRun = s.ptp.syncRun + 1 ∧ t.get TB_ADJ_ADJ = unsigned 32 (max (-4294967) (min 4294967 adj)) ∧
      t.get TB_QUALITY_STATE = (if 16 ≤ s.ptp.syncRun + 1 then 2 else s.get TB_QUALITY_STATE) ∧
      KeepsBut [TB_ADJ_ADJ.off, TB_QUALITY_STATE.off] s t) ∧
    (∀ offset adj, s.mgc.up = true → 1000 < offset.natAbs → offset.natAbs ≤ 1000000 ∨ s.clipOpen = true →
      Completes (.ptpSync offset adj) s fun t => t.ptp.syncRun = 0 ∧ t.dtcNs = s.dtcNs ∧
        (s.ref = 1 → t.get TB_QUALITY_STATE = (if s.get TB_QUALITY_STATE = 2 then 3 else s.get TB_QUALITY_STATE)) ∧
        (s.ref ≠ 1 → KeepsBut [] s t) ∧ KeepsBut [TB_ADJ_ADJ.off, TB_QUALITY_STATE.off] s t) ∧
    (∀ offset adj, s.mgc.up = true → s.clipOpen = false → 1000000 < offset.natAbs → Completes (.ptpSync offset adj) s fun t =>
      t.get TB_SET_VALUE = unsigned 64 (-offset) ∧ t.dtcNs = (s.dtcNs + unsigned 64 (-offset)) % 2 ^ 64 ∧ t.ptp.syncRun = 0 ∧
      KeepsBut [TB_SET_VALUE.off, TB_SET_VALUE.off + 4, TB_ADJ_ADJ.off, TB_QUALITY_STATE.off, BU_COUNTS2_SKIPPED.off] s t) ∧
    (∀ port id rank, s.mgc.up = true → Completes (.ptpAnnounce port id rank) s fun t =>
      t.ptp.masters = (s.ptp.masters.filter fun m => !(m.1 == port % 2 && m.2.1 == id)) ++ [(port % 2, id, rank)] ∧
      t.ptp.port = (bestMaster t.ptp.masters).map (·.1) ∧ KeepsBut [] s t) ∧
    (∀ m, bestMaster s.ptp.masters = some m → Completes .announceTimeout s fun t => m ∉ t.ptp.masters ∧
      (∀ x ∈ s.ptp.masters, x ≠ m → x ∈ t.ptp.masters) ∧ t.ptp.syncRun = 0 ∧
      t.get TB_QUALITY_STATE = (if s.ref = 1 ∧ s.get TB_QUALITY_STATE = 2 then 3 else s.get TB_QUALITY_STATE) ∧
      KeepsBut [TB_QUALITY_STATE.off] s t) ∧
    (bestMaster s.ptp.masters = none → Completes .announceTimeout s fun t => t = s)

/-- The Proxy Path: review, development, the frame tick, counts and the LUT. REVIEW_GO with the proxy on and its source not the raster starts the
development of a picture of the format given, its lines read from the review buffer where memory answers, or with one developing counts a drop; a
developed picture becomes the newest, not taken (with the proxy off it is dropped); the first command of a frame time sends the newest, counting a
repeat if it was taken, and with host output and a host present puts it in a free buffer or counts a skip; a second one in the same frame time, or
with the proxy off, changes nothing; CLR_COUNTS clears its four counts; a LUT write stores its 10 bits at the index only and moves the index on.
Frames are stated. From: spec/12_network_and_proxy.md (The Proxy Path); spec/12_network_and_proxy.md (Proxy Path registers). -/
def Obligations.ProxyPath : Prop :=
  ∀ (s : State) (a : Agent), s.wf = true →
    (∀ base pitch w h, base = s.getAddr PXP_REVIEW_BASE_ADDR → pitch = s.getAddr PXP_REVIEW_PITCH_BYTES → w = s.get PXP_REVIEW_FMT0 % 65536 →
      h = s.get PXP_REVIEW_FMT0 / 65536 → s.proxyOn = true → s.get PXP_CTRL_SRC ≠ 0 → s.flag PXP_STATUS_DEVELOPING = false →
      Completes (.reviewGo a) s fun t => t.get PXP_STATUS_DEVELOPING = 1 ∧ (∃ p, t.proxy.input = some p ∧ p.width = w ∧ p.height = h ∧
        p.depth = 10 + 2 * (s.get PXP_REVIEW_FMT1 % 4) ∧ p.lines.length = p.height ∧
        (s.hostReach = false ∨ base + h * pitch + 2 * w ≤ 2 ^ 32 → ∀ y < h, ∀ l, (s.memRead (base + y * pitch) (2 * w)).1 = some l →
          p.lines[y]? = some ((List.range w).map fun x => rdLe l (2 * x) 2))) ∧
        (s.hostReach = false ∨ base + h * pitch + 2 * w ≤ 2 ^ 32 → SameMemory s t)) ∧
    (s.proxyOn = true → s.get PXP_CTRL_SRC ≠ 0 → s.flag PXP_STATUS_DEVELOPING = true → Completes (.reviewGo a) s fun t =>
      t.get PXP_COUNTS2_REVIEW_DROP = min (s.get PXP_COUNTS2_REVIEW_DROP + 1) 65535 ∧ t.proxy = s.proxy ∧
      KeepsBut [PXP_COUNTS2_REVIEW_DROP.off] s t) ∧
    (s.proxyOn = false ∨ s.get PXP_CTRL_SRC = 0 → Completes (.reviewGo a) s fun t => t = s) ∧
    (∀ p, s.proxy.input = some p → (s.proxyOn = true → Completes .proxyPictureDone s fun t => t.proxy.newest = some (s.develop p) ∧
        t.proxy.taken = false ∧ t.proxy.input = none ∧ t.get PXP_STATUS_DEVELOPING = 0 ∧ t.get PXP_STATUS8_EPOCH = p.epoch % 2 ^ 32 ∧
        KeepsBut [PXP_STATUS_DEVELOPING.off, PXP_STATUS8_EPOCH.off] s t) ∧
      (s.proxyOn = false → Completes .proxyPictureDone s fun t => t.proxy.newest = s.proxy.newest ∧ t.proxy.input = none ∧
        t.get PXP_STATUS_DEVELOPING = 0 ∧ KeepsBut [PXP_STATUS_DEVELOPING.off] s t)) ∧
    (s.proxy.input = none → Completes .proxyPictureDone s fun t => t = s) ∧
    (s.proxyOn = true → s.proxy.lastTick ≠ some s.proxyK →
      (s.proxy.newest = none → Completes .proxyFrameTick s fun t => t.proxy = { s.proxy with lastTick := some s.proxyK } ∧ KeepsBut [] s t) ∧
      (∀ p, s.proxy.newest = some p → Completes .proxyFrameTick s fun t => t.proxy.lastTick = some s.proxyK ∧ t.proxy.sent = some p ∧
        t.proxy.taken = true ∧
        t.get PXP_COUNTS_REPEATED = (if s.proxy.taken then min (s.get PXP_COUNTS_REPEATED + 1) 65535 else s.get PXP_COUNTS_REPEATED) ∧
        (s.flag PXP_CTRL_HOST_EN = false ∨ s.host = false → KeepsBut [PXP_COUNTS_REPEATED.off] s t) ∧
        (s.flag PXP_CTRL_HOST_EN = true → s.host = true →
          (s.freeBuffer = none → t.get PXP_COUNTS2_HOST_SKIP = min (s.get PXP_COUNTS2_HOST_SKIP + 1) 65535 ∧
            KeepsBut [PXP_COUNTS_REPEATED.off, PXP_COUNTS2_HOST_SKIP.off] s t) ∧
          (∀ i, s.freeBuffer = some i → bitAt (t.get PXP_HOST_FREE_MAP) i = 0)))) ∧
    (s.proxyOn = false ∨ s.proxy.lastTick = some s.proxyK → Completes .proxyFrameTick s fun t => t = s) ∧
    (Completes (.pxpClrCounts a) s fun t => t.get PXP_COUNTS_UNFUNDED = 0 ∧ t.get PXP_COUNTS_REPEATED = 0 ∧
      t.get PXP_COUNTS2_HOST_SKIP = 0 ∧ t.get PXP_COUNTS2_REVIEW_DROP = 0 ∧
      KeepsBut [PXP_COUNTS_UNFUNDED.off, PXP_COUNTS2_HOST_SKIP.off] s t) ∧
    (∀ v : Word, swf (fun i => i / 4) s.proxy.lut = true → Completes (.pxpLutWrite a v) s fun t =>
      t.lut (s.get PXP_LUT_SEL_INDEX) = v.toNat % 1024 ∧ (∀ i, i ≠ s.get PXP_LUT_SEL_INDEX → t.lut i = s.lut i) ∧
      t.get PXP_LUT_SEL_INDEX = (s.get PXP_LUT_SEL_INDEX + 1) % 4096 ∧ KeepsBut [PXP_LUT_SEL_INDEX.off] s t)

/-- HPP reads and writes of every dictionary entry, whole and in blocks. A request by the mailbox, while the part is awake with a host: on a follower
Unsupported (3), during a firmware restart 6, and one repeated gets its kept reply, each with no other effect; asleep nothing. For every request the
firmware hears and every entry: a read of a readable-writable entry answers its type and value, of a read-only one its type with a value, of a
write-only one result 3, and of a CMD the status of its last action, which stays until the next (its TYPE is log entry 53); a block read answers its
length and the part asked for; a write that is accepted stores the value, marks the configuration unsaved for an RWS entry, and answers 0, and one
that is not answers its result and stores nothing; a block write of a whole value acts as the write; the first part of a longer one opens a block
sequence; a part that continues none answers 10 and ends the sequence. An index with no entry answers 1, an unsupported operation or version 11; ROLE,
SET_STATE, LEVEL and TIME answer the part's values. A block sequence two seconds without a part ends, an image being received with it becomes invalid,
and before that nothing. Results of writes are the model's writeResult and blockResult. Frames are stated. From: spec/13_object_dictionary.md (HPP
messages); spec/13_object_dictionary.md (Dictionary layout); spec/13_object_dictionary.md (Carriers). -/
def Obligations.DictionaryAccess : Prop :=
  ∀ (s : State) (h : Hpp), s.wf = true →
    (∀ i b op version, ∀ c ∈ [Instr.hppRead h i b, .hppReadBlock h i b 0 64, .hppUnsupported h op version, .store h, .clipStart h],
      (s.awake = false → Completes c s fun t => t = s) ∧
      (s.awake = true → h.carrier = .mailbox → s.host = true →
        (s.role = 2 → Completes c s fun t => t.resp = .code 3 ∧ t.hpp = s.hpp ∧ KeepsBut [] s t) ∧
        (s.role ≠ 2 → s.addressed h = true → s.mgc.up = false → s.mgc.boot = 3 ∨ s.mgc.loader = 0 → Completes c s fun t =>
          t.resp = .code 6 ∧ t.hpp = s.hpp ∧ KeepsBut [] s t) ∧
        (∀ k, s.role ≠ 2 → s.addressed h = true → s.mgc.up = true → s.kept h = some k → Completes c s fun t =>
          t.resp = .bytes (toBytes k.reply) ∧ t.hpp = s.hpp ∧ KeepsBut [] s t))) ∧
    (s.hears h = true →
    (∀ i b e, dictEntry (256 * (i % 65536) + b % 256) = some e →
      (e.acc = .rw ∨ e.acc = .rws → (s.dictBytes e.key).length ≤ 1072 → Completes (.hppRead h i b) s fun t =>
        Answered h 1 (entryHead (i % 65536) (b % 256) 0 e.typ ++ s.dictBytes e.key) s t ∧ t.hpp.dict = s.hpp.dict ∧ KeepsBut [] s t) ∧
      (e.acc = .rw ∨ e.acc = .rws → ∀ o n, n ≤ 1024 → Completes (.hppReadBlock h i b o n) s fun t =>
        Answered h 3 (entryHead (i % 65536) (b % 256) 0 e.typ ++ le 4 (s.dictBytes e.key).length ++ ((s.dictBytes e.key).drop o).take n) s t ∧
        KeepsBut [] s t) ∧
      (e.acc = .wo → Completes (.hppRead h i b) s fun t => Answered h 1 (entryHead (i % 65536) (b % 256) 3 e.typ) s t ∧ KeepsBut [] s t) ∧
      (e.acc = .cmd → e.key ≠ 0x118001 → e.key ≠ 0x210001 → Completes (.hppRead h i b) s fun t => ∃ v,
        Answered h 1 (entryHead (i % 65536) (b % 256) 0 e.typ ++ [v]) s t ∧ aget t.hpp.cmdStatus e.key = some v ∧
        (∀ w, aget s.hpp.cmdStatus e.key = some w → v = w) ∧ KeepsBut [] s t) ∧
      (e.acc = .ro → Completes (.hppRead h i b) s fun t => (∃ r v, Answered h 1 (entryHead (i % 65536) (b % 256) r e.typ ++ v) s t) ∧
        t.hpp.dict = s.hpp.dict ∧ KeepsBut [] s t) ∧
      (∀ typ (v : List Byte), e.acc = .rw ∨ e.acc = .rws → s.writeResult e typ (toNats v) = 0 → Completes (.hppWrite h i b typ v) s fun t =>
        t.dictBytes e.key = toNats v ∧ (e.acc = .rws → t.hpp.unsavedFrom.isSome = true) ∧
        Answered h 2 (entryHead (i % 65536) (b % 256) 0 typ) s t ∧ SameMemory s t) ∧
      (∀ typ (v : List Byte), s.writeResult e typ (toNats v) ≠ 0 → Completes (.hppWrite h i b typ v) s fun t =>
        Answered h 2 (entryHead (i % 65536) (b % 256) (s.writeResult e typ (toNats v)) typ) s t ∧ t.hpp.dict = s.hpp.dict ∧ KeepsBut [] s t) ∧
      (∀ typ (v : List Byte), e.acc = .rw ∨ e.acc = .rws → blockResult e typ v.length = 0 → s.writeResult e typ (toNats v) = 0 → v.length ≤ 1024 →
        Completes (.hppWriteBlock h i b typ 0 v.length v) s fun t => t.dictBytes e.key = toNats v ∧
          Answered h 4 (entryHead (i % 65536) (b % 256) 0 typ) s t ∧ SameMemory s t) ∧
      (∀ typ total (v : List Byte), isImage e.key = false → blockResult e typ total = 0 → v.length < total → v.length ≤ 1024 →
        Completes (.hppWriteBlock h i b typ 0 total v) s fun t =>
          t.sequence h.carrier h.peer e.key = some ⟨h.carrier, h.peer, e.key, total, s.now, toNats v⟩ ∧ t.hpp.dict = s.hpp.dict ∧
          Answered h 4 (entryHead (i % 65536) (b % 256) 0 typ) s t ∧ KeepsBut [] s t) ∧
      (∀ typ o total (v : List Byte), o ≠ 0 → blockResult e typ total = 0 → s.continues h e.key o total = none → v.length ≤ 1024 →
        Completes (.hppWriteBlock h i b typ o total v) s fun t => Answered h 4 (entryHead (i % 65536) (b % 256) 10 typ) s t ∧
          t.sequence h.carrier h.peer e.key = none ∧ t.hpp.dict = s.hpp.dict ∧ KeepsBut [] s t)) ∧
    (∀ i b, dictEntry (256 * (i % 65536) + b % 256) = none → Completes (.hppRead h i b) s fun t =>
      (∃ typ, Answered h 1 (entryHead (i % 65536) (b % 256) 1 typ) s t) ∧ KeepsBut [] s t) ∧
    (∀ x v, (x, v) ∈ [((0x1000, 8), [s.role]), ((0x3000, 2), [s.get MGH_STATUS_SET_STATE]), ((0x5000, 1), [s.get FC_LEVEL_LEVEL]),
        ((0x5000, 5), le 8 s.dtcNs)] → Completes (.hppRead h x.1 x.2) s fun t => (∃ typ, Answered h 1 (entryHead x.1 x.2 0 typ ++ v) s t) ∧
        KeepsBut [] s t) ∧
    (∀ op version, Completes (.hppUnsupported h op version) s fun t => (∃ i b typ, Answered h op (entryHead i b 11 typ) s t) ∧
      t.hpp.dict = s.hpp.dict ∧ KeepsBut [] s t) ∧
    (∀ b index sub, s.sequence h.carrier h.peer (256 * index + sub) = some b → b.last + 2 * 10 ^ 9 < s.now →
      Completes (.blockSequenceTimeout h.carrier h.peer index sub) s fun t => t.sequence h.carrier h.peer (256 * index + sub) = none ∧
        (256 * index + sub = 0x501001 → t.mgc.fwStatus = 3) ∧ (256 * index + sub = 0x501101 → t.mgc.ucStatus = 3) ∧ KeepsBut [] s t) ∧
    (∀ index sub, (∀ b, s.sequence h.carrier h.peer (256 * index + sub) = some b → s.now ≤ b.last + 2 * 10 ^ 9) →
      Completes (.blockSequenceTimeout h.carrier h.peer index sub) s fun t => t = s))

/-- Clip start and stop, decode start and stop, device reset. CLIP_START with the clip idle or refused begins the check with no reply yet, and with it
checking, open or closing answers 6; CLIP_STOP of an open clip with frames still on their way is kept, the clip reads closing and the reply is 0; of
one still being checked or opened it is kept; while closing, after a stop, and with no clip it answers 6. DECODE_START with no clip open and no job
makes a job of the settings, and otherwise answers 6; DECODE_STOP ends the job, keeps its count and notifies it, and without a job answers 0.
DEVICE_RESET asks for a Warm reset one millisecond on, which an open clip refuses with 6 unless forced; it resets a die or an engine at the next
Beacon; another kind answers 4. Frames are stated. From: spec/13_object_dictionary.md (Recording settings and the clip); spec/13_object_dictionary.md
(Storage, catalogue and playback); spec/13_object_dictionary.md (Device reset by command). -/
def Obligations.ClipAndDeviceCommands : Prop :=
  ∀ (s : State) (h : Hpp), s.wf = true → s.hears h = true →
    (s.clipReads = 0 ∨ s.clipReads = 3 → Completes (.clipStart h) s fun t => t.clip = { ClipCtl.reset with step := 1, req := some h } ∧
      t.hpp.clipState = 1 ∧ t.hpp.replies = s.hpp.replies ∧ KeepsBut [] s t) ∧
    (s.clipReads = 1 ∨ s.clipReads = 2 ∨ s.clipReads = 4 → Completes (.clipStart h) s fun t =>
      Answered h 2 (entryHead 0x2100 1 6 1) s t ∧ t.clip = s.clip ∧ KeepsBut [] s t) ∧
    (s.clipReads ≠ 4 → s.clip.stopReq = false → s.mag.clip.isSome = true → s.frames ≠ [] → Completes (.clipStop h) s fun t =>
      t.clip = { s.clip with stopReq := true } ∧ t.hpp.clipState = 4 ∧ t.mag = s.mag ∧ Answered h 2 (entryHead 0x2100 2 0 1) s t ∧
      KeepsBut [] s t) ∧
    (s.clipReads ≠ 4 → s.clip.stopReq = false → s.mag.clip = none → s.clip.step ≠ 0 → Completes (.clipStop h) s fun t =>
      t.clip = { s.clip with stopReq := true } ∧ t.mag = s.mag ∧ Answered h 2 (entryHead 0x2100 2 0 1) s t ∧ KeepsBut [] s t) ∧
    (s.clipReads = 4 ∨ s.clip.stopReq = true → Completes (.clipStop h) s fun t => Answered h 2 (entryHead 0x2100 2 6 1) s t ∧
      t.clip = s.clip ∧ KeepsBut [] s t) ∧
    (s.clip.step = 0 → s.mag.clip = none → Completes (.clipStop h) s fun t => Answered h 2 (entryHead 0x2100 2 6 1) s t ∧
      t.clip = s.clip ∧ KeepsBut [] s t) ∧
    (s.clipOpen = false → s.hpp.job = none → Completes (.decodeStart h) s fun t => (∃ j, t.hpp.job = some j ∧ j.i = 0 ∧
        j.source = s.setting 0x4000 1 ∧ j.clip = s.setting 0x4000 2 ∧ j.count = s.setting 0x4000 4 ∧ j.src = s.setting 0x4000 5 ∧
        j.dst = s.setting 0x4000 6 ∧ j.report = s.setting 0x4000 9) ∧ t.hpp.done = 0 ∧ t.setting 0x4000 15 = 0 ∧
      Answered h 2 (entryHead 0x4000 12 0 1) s t ∧ KeepsBut [] s t) ∧
    (s.clipOpen = true ∨ s.hpp.job.isSome = true → Completes (.decodeStart h) s fun t => Answered h 2 (entryHead 0x4000 12 6 1) s t ∧ t.hpp.job = s.hpp.job ∧
      KeepsBut [] s t) ∧
    (∀ j, s.hpp.job = some j → Completes (.decodeStop h) s fun t => t.hpp.job = none ∧ t.hpp.done = j.i ∧
      ⟨0x0040, s.epoch, le 4 j.i⟩ ∈ t.hpp.notes ∧ Answered h 2 (entryHead 0x4000 13 0 1) s t ∧ KeepsBut [] s t) ∧
    (s.hpp.job = none → Completes (.decodeStop h) s fun t => t.hpp.job = none ∧ Answered h 2 (entryHead 0x4000 13 0 1) s t ∧ KeepsBut [] s t) ∧
    (∀ arg : Word, (arg.toNat % 16 = 1 → s.clipOpen = false → s.hpp.warmAt = none → Completes (.deviceReset h arg) s fun t =>
        t.hpp.warmAt = some (s.now + 10 ^ 6) ∧ Answered h 2 (entryHead 0x5000 2 0 3) s t ∧ KeepsBut [] s t) ∧
      (arg.toNat % 16 = 1 → s.clipOpen = true → bitAt arg.toNat 31 = 0 → Completes (.deviceReset h arg) s fun t =>
        t.hpp.warmAt = s.hpp.warmAt ∧ Answered h 2 (entryHead 0x5000 2 6 3) s t ∧ KeepsBut [] s t) ∧
      (arg.toNat % 16 = 1 → s.clipOpen = true → bitAt arg.toNat 31 = 1 → Completes (.deviceReset h arg) s fun t =>
        ∃ r, (r = 0 ∨ r = 6) ∧ Answered h 2 (entryHead 0x5000 2 r 3) s t) ∧
      (arg.toNat % 16 = 2 → s.beaconRuns = true → Completes (.deviceReset h arg) s fun t =>
        bitAt (t.get RSTC_HELD_DIE) (bitAt arg.toNat 4) = 1 ∧ Answered h 2 (entryHead 0x5000 2 0 3) s t ∧ KeepsBut [RSTC_HELD_DIE.off] s t) ∧
      (arg.toNat % 16 = 3 → s.engState (resetEngine arg.toNat) ≠ 6 → s.beaconRuns = true → Completes (.deviceReset h arg) s fun t =>
        (t.eng (resetEngine arg.toNat)).resetHeld = true ∧ Answered h 2 (entryHead 0x5000 2 0 3) s t) ∧
      (arg.toNat % 16 ≠ 1 → arg.toNat % 16 ≠ 2 → arg.toNat % 16 ≠ 3 → Completes (.deviceReset h arg) s fun t =>
        Answered h 2 (entryHead 0x5000 2 4 3) s t ∧ KeepsBut [] s t))

/-- Storage commands over HPP: moor, unmoor, format, delete last and rebuild. With the Magazine Host enabled and not busy: MOOR starts the mooring of each
bay asked for that holds a magazine present or failed; UNMOOR with no clip, no rebuild and no bay in use unmoors each moored bay asked for, and with a
clip open is refused with 1 and reply 6; FORMAT with a width of 1 to 4, a chunk of 2 to 8 and as many moored bays writes each member's superblocks
over a deallocated magazine (Formatted; log entry 17); DELETE_LAST of a closed last clip and REBUILD of a degraded set complete. Each keeps LAST,
RESULT and the reply, and no register word but those named. From: spec/13_object_dictionary.md (Storage, catalogue and playback); spec/10_magazines.md
(Mooring); spec/10_magazines.md (Format and deletion); spec/10_magazines.md (Losing and rebuilding a member). -/
def Obligations.StorageCommands : Prop :=
  ∀ (s : State) (h : Hpp), s.wf = true → s.hears h = true → s.flag MGH_CTRL_EN = true → s.flag MGH_CMD_STAT_BUSY = false →
    (∀ bays, 1 ≤ bays → bays ≤ 15 →
      (Completes (.storageMoor h bays) s fun t => t.get MGH_CMD_STAT_LAST = 0 ∧ t.get MGH_CMD_STAT_RESULT = 0 ∧ t.hpp.lastResult = 0 ∧
        (∀ b < 4, bitAt bays b = 1 → (s.bay b).mag.isSome = true → s.bayState b = 1 ∨ s.bayState b = 5 →
          t.bayState b = 1 ∧ t.bay b = { s.bay b with step := 1, since := s.now }) ∧
        Answered h 2 (entryHead 0x3000 6 0 1) s t ∧ KeepsBut mghWords s t) ∧
      (s.mag.clip = none → s.mag.rebuild = none → (∀ b < 4, bitAt bays b = 1 → s.bayUsed b = false) → Completes (.storageUnmoor h bays) s fun t =>
        t.get MGH_CMD_STAT_LAST = 1 ∧ t.get MGH_CMD_STAT_RESULT = 0 ∧ t.hpp.lastResult = 0 ∧
        (∀ b < 4, bitAt bays b = 1 → s.bayState b = 4 → t.bayState b = 6 ∧ (t.bay b).unmoorDue = true) ∧
        Answered h 2 (entryHead 0x3000 7 0 1) s t ∧ KeepsBut mghSettles s t) ∧
      (s.mag.clip.isSome = true → Completes (.storageUnmoor h bays) s fun t => t.get MGH_CMD_STAT_RESULT = 1 ∧ t.hpp.lastResult = 1 ∧
        t.mag = s.mag ∧ Answered h 2 (entryHead 0x3000 7 6 1) s t ∧ KeepsBut mghWords s t) ∧
      (s.mag.clip = none → s.flag MGH_CTRL_READ_ONLY = false → 1 ≤ s.setting 0x3000 11 → s.setting 0x3000 11 ≤ 4 →
        2 ≤ s.setting 0x3000 13 → s.setting 0x3000 13 ≤ 8 → (baysOf bays).length = s.setting 0x3000 11 →
        (∀ b ∈ baysOf bays, s.bayState b = 4) → Completes (.storageFormat h bays) s fun t => t.get MGH_CMD_STAT_LAST = 2 ∧
          t.get MGH_CMD_STAT_RESULT = 0 ∧ t.hpp.lastResult = 0 ∧ (∀ i b g, (baysOf bays)[i]? = some b → (s.bay b).mag = some g →
            g.hasDsm = true → Formatted (s.setting 0x3000 11) (s.setting 0x3000 13) i (t.bay b)) ∧
          Answered h 2 (entryHead 0x3000 8 0 1) s t ∧ KeepsBut (mghSettles ++ [MGH_FMT0_WIDTH.off, MGH_FMT1_RATED_MBPS.off]) s t)) ∧
    (∀ b e, s.mag.set = some b → s.mag.catalogue.getLast? = some (some e) → s.mag.clip = none → s.flag MGH_CTRL_READ_ONLY = false →
      s.setComplete = true → e.state = 2 → Completes (.storageDeleteLast h) s fun t => t.get MGH_CMD_STAT_LAST = 5 ∧
        t.get MGH_CMD_STAT_RESULT = 0 ∧ t.hpp.lastResult = 0 ∧ Answered h 2 (entryHead 0x3000 9 0 1) s t ∧ KeepsBut mghSettles s t) ∧
    (∀ b i m, s.mag.set = some b → s.mag.clip = none → s.flag MGH_CTRL_READ_ONLY = false → s.setDegraded = true → s.rebuildBay b = some i →
      s.mag.members.findIdx? (·.isNone) = some m →
      Completes (.storageRebuild h) s fun t => t.mag.rebuild = some i ∧ t.get MGH_CMD_STAT_BUSY = 1 ∧ t.hpp.lastResult = 0 ∧
        Answered h 2 (entryHead 0x3000 10 0 1) s t ∧ KeepsBut mghWords s t)

/-- Stored configuration: store, defaults, automatic store, and the write and its failure. STORE asks for a write, or for another after the one in
progress; DEFAULTS gives every RWS entry its default and marks the configuration unsaved; the automatic store asks for a write when its time has
passed and not before; a write starts ten seconds after the last one and after the start, with no power failure: it erases the slot the model's
firstSlot names, with its sector where it is the first slot of one, and else nothing starts; a good end counts it, leaves the slot's bytes there and
makes it the stored configuration; a first failure tries the next slot; a second ends in state 4, keeps NOR and raises 0x50. The other region is
always kept. Without a write in progress its end does nothing. Frames are stated. From: spec/13_object_dictionary.md (Stored configuration). -/
def Obligations.ConfigurationStore : Prop :=
  ∀ (s : State) (h : Hpp), s.wf = true →
    (s.hears h = true → (Completes (.store h) s fun t => (if s.hpp.storeState = 2 then t.hpp.storeAgain = true ∧ t.hpp.storeState = 2 else
        t.hpp.storeState = 1) ∧ Answered h 2 (entryHead 0x1180 1 0 1) s t ∧ KeepsBut [] s t) ∧
      (Completes (.defaults h) s fun t => (∀ e ∈ rwsEntries, t.dictBytes e.key = e.default) ∧ t.hpp.unsavedFrom.isSome = true ∧
        Answered h 2 (entryHead 0x1180 7 0 1) s t ∧ SameMemory s t)) ∧
    (∀ x, s.hpp.unsavedFrom = some x → s.mgc.up = true → s.setting 0x1180 6 ≠ 0 → x + s.setting 0x1180 6 * 10 ^ 9 ≤ s.now →
      s.hpp.storeState ≠ 2 →
      s.hpp.storeState ≠ 4 ∨ s.hpp.storeFrom.getD 0 < x + s.setting 0x1180 6 * 10 ^ 9 → Completes .autoStoreTimer s fun t =>
        t.hpp.storeState = 1 ∧ KeepsBut [] s t) ∧
    (s.hpp.unsavedFrom = none ∨ s.mgc.up = false ∨ s.setting 0x1180 6 = 0 ∨ s.hpp.storeState = 2 ∨
        (∀ x, s.hpp.unsavedFrom = some x → s.now < x + s.setting 0x1180 6 * 10 ^ 9) → Completes .autoStoreTimer s fun t => t = s) ∧
    (s.mgc.up = true → s.hpp.storeState = 1 → 10 ^ 10 ≤ s.now → s.kpr.powerFail = none →
      (∀ x, s.hpp.storeFrom = some x → x + 10 ^ 10 ≤ s.now) → ∀ r c, r = s.storeRegion → c = s.firstSlot r →
      Completes .configStoreStart s fun t => t.hpp.storeState = 2 ∧ t.hpp.storeFrom = some s.now ∧ t.hpp.storeSlot = some (r, c) ∧
        (∀ k, aget (t.nor.region r) k = if k = c.slot ∨ c.slot % 8 = 0 ∧ k / 8 = c.slot / 8 then none else aget (s.nor.region r) k) ∧
        t.nor.region (1 - r) = s.nor.region (1 - r) ∧ KeepsBut [] s t) ∧
    (s.storeMayStart = false → Completes .configStoreStart s fun t => t = s) ∧
    (∀ r c, s.hpp.storeSlot = some (r, c) → s.hpp.storeState = 2 → r ≤ 1 →
      (Completes (.configStoreDone true) s fun t => t.hpp.storeState = (if s.hpp.storeAgain then 1 else 3) ∧ t.hpp.source = r ∧
        t.hpp.seq = c.seq ∧ t.hpp.storedAt = c.storedAt ∧ t.hpp.stores = s.hpp.stores + 1 ∧ t.hpp.storeSlot = none ∧
        (∀ k, aget (t.nor.region r) k = if k = c.slot then some c.bytes else aget (s.nor.region r) k) ∧
        t.nor.region (1 - r) = s.nor.region (1 - r) ∧ KeepsBut [] s t) ∧
      (s.hpp.storeRetry = false → ∀ k, k = (c.slot + 1) % 1024 → Completes (.configStoreDone false) s fun t => t.hpp.storeRetry = true ∧
        t.hpp.storeState = 2 ∧ t.hpp.storeSlot = some (r, { c with slot := k }) ∧
        (∀ j, aget (t.nor.region r) j = if j = k ∨ k % 8 = 0 ∧ j / 8 = k / 8 then none else aget (s.nor.region r) j) ∧
        t.nor.region (1 - r) = s.nor.region (1 - r) ∧ KeepsBut [] s t) ∧
      (s.hpp.storeRetry = true → Completes (.configStoreDone false) s fun t => t.hpp.storeState = 4 ∧ t.hpp.storeSlot = none ∧
        t.nor = s.nor ∧ Raised 0x50 s t ∧ SameMemory s t)) ∧
    (s.hpp.storeSlot = none ∨ s.hpp.storeState ≠ 2 → ∀ ok, Completes (.configStoreDone ok) s fun t => t = s)

/-- Signed updates: firmware and microcode images, activation, confirmation, epochs and selection. A firmware image of at most 4 MiB received whole in
service is written to the slot that is not active and is valid or not by the model's fwValid, and the active slot stays; in a power failure it is
refused with status 4 and reply 6; the same for microcode. ACTIVATE of a valid image makes the other slot active on trial and restarts, and otherwise
answers 6; CONFIRM ends the trial, and outside one changes nothing. EPOCH_COMMIT outside a trial raises the epoch in the Daymark to that in use, where
it is greater and at most 63, and no other fused byte before the CRC; in one it answers 6. UC_SELECT of a valid microcode image swaps the slots and
reloads the 68 engines (with the memory controller not ready no other change), and without one answers 6. Frames are stated. From:
spec/18_service_life.md (Firmware images and boot records); spec/18_service_life.md (Signed updates); spec/18_service_life.md (Daymark). -/
def Obligations.Updates : Prop :=
  ∀ (s : State) (h : Hpp), s.wf = true → s.hears h = true →
    (∀ image : List Byte, image.length ≤ 4 * 2 ^ 20 → s.mgc.loader = 0 → s.kpr.powerFail = none → s.active ≤ 1 → s.nor.fw.length = 2 →
      Completes (.fwImage h image) s fun t => t.mgc.fwStatus = (if s.fwValid (toNats image) then 2 else 3) ∧
        t.fwSlot (1 - s.active) = toNats image ∧ t.fwSlot s.active = s.fwSlot s.active ∧
        Answered h 4 (entryHead 0x5010 1 0 8) s t ∧ KeepsBut [] s t) ∧
    (∀ image : List Byte, image.length ≤ 4 * 2 ^ 20 → s.mgc.loader = 0 → s.kpr.powerFail.isSome = true →
      Completes (.fwImage h image) s fun t => t.mgc.fwStatus = 4 ∧ t.nor = s.nor ∧ Answered h 4 (entryHead 0x5010 1 6 8) s t ∧ KeepsBut [] s t) ∧
    (∀ image : List Byte, image.length ≤ 4 * 2 ^ 20 → s.mgc.loader = 0 → s.kpr.powerFail = none → s.nor.ucInUse ≤ 1 → s.nor.uc.length = 2 →
      Completes (.ucImage h image) s fun t => t.mgc.ucStatus = (if s.ucImageValid (toNats image) then 2 else 3) ∧
        t.ucSlot (1 - s.nor.ucInUse) = toNats image ∧ t.ucSlot s.nor.ucInUse = s.ucSlot s.nor.ucInUse ∧
        Answered h 4 (entryHead 0x5011 1 0 8) s t ∧ KeepsBut [] s t) ∧
    (s.mgc.fwStatus = 2 → Completes (.fwActivate h) s fun t => t.mgc.restartDue = true ∧ t.active = 1 - s.active ∧ t.trial = 1 ∧
      Answered h 2 (entryHead 0x5010 3 0 1) s t ∧ KeepsBut [] s t) ∧
    (s.mgc.fwStatus ≠ 2 → Completes (.fwActivate h) s fun t => t.nor = s.nor ∧ Answered h 2 (entryHead 0x5010 3 6 1) s t ∧ KeepsBut [] s t) ∧
    (s.trial = 0 → Completes (.fwConfirm h) s fun t => t.nor = s.nor ∧ Answered h 2 (entryHead 0x5010 4 0 1) s t ∧ KeepsBut [] s t) ∧
    (s.trial ≠ 0 → ∀ which, which ≤ 1 → Completes (.epochCommit h which) s fun t => t.nor = s.nor ∧
      Answered h 2 (entryHead 0x5010 5 6 1) s t ∧ KeepsBut [] s t) ∧
    (s.trial ≠ 0 → Completes (.fwConfirm h) s fun t => t.trial = 0 ∧ t.active = s.active ∧ Answered h 2 (entryHead 0x5010 4 0 1) s t ∧
      KeepsBut [] s t) ∧
    (∀ which, which ≤ 1 → s.trial = 0 → s.nor.daymark.length = 256 → Completes (.epochCommit h which) s fun t =>
      (∀ e, e = (if which = 0 then s.mgc.secEpoch else rdLe (s.ucSlot s.nor.ucInUse) 16 4) →
        t.fused (54 + which) = if s.fused (54 + which) < e ∧ e ≤ 63 then e else s.fused (54 + which)) ∧
      (∀ i < 252, i ≠ 54 + which → t.fused i = s.fused i) ∧ Answered h 2 (entryHead 0x5010 5 0 1) s t ∧ KeepsBut [] s t) ∧
    (s.mgc.ucStatus = 2 → Completes (.ucSelect h) s fun t => t.nor.ucInUse = 1 - s.nor.ucInUse ∧
      t.mgc.ucStatus = 0 ∧ t.mgc.reload.length = 68 ∧ Answered h 2 (entryHead 0x5011 3 0 1) s t ∧
      (s.flag LMC_STATUS_READY = false → KeepsBut [] s t)) ∧
    (s.mgc.ucStatus ≠ 2 → Completes (.ucSelect h) s fun t => t.nor = s.nor ∧ Answered h 2 (entryHead 0x5011 3 6 1) s t ∧ KeepsBut [] s t)

/-- CAN controllers: frames received and sent, reassembly, ring kicks and bus-off. For both controllers: with the controller or the part off, or in
bus-off, nothing is received or sent; a received frame that is not an extended FD frame only counts RX_OTHER; one that the filter refuses changes only
STATE, which follows the error counters (free values, log entry 54); the first segment of a message accepted and served by the firmware starts its
reassembly; an accepted frame that the firmware does not serve is written to the receive ring (identifier with BRS, length, status 0, a time stamp, 64
data bytes) and the head moves on, or without a READY descriptor is counted; a reassembly timeout removes exactly the stalled parts of that source
(older than 10 ms); a frame sent well leaves the outbox, or the transmit ring with its status, and goes out; one that ends in bus-off sets STATE 2,
counts, drops it and raises 0x4C; in LISTEN nothing is sent; a ring kick changes nothing by itself; recovery from bus-off with AUTO_RECOVER clears
STATE, TEC and REC, and otherwise changes nothing. Memory premises (usable): log entries 7 and 90. Frames are stated. From:
spec/13_object_dictionary.md (CAN FD controllers); spec/13_object_dictionary.md (Carriers). -/
def Obligations.CanControllers : Prop :=
  ∀ (s : State) (c : Nat), s.wf = true → c < 2 →
    (s.awake = false ∨ s.flag (CAN_C_CTRL_EN c) = false → (∀ f, Completes (.canFrameReceived c f) s fun t => t = s) ∧
      ∀ ab, Completes (.canFrameSent c ab) s fun t => t = s) ∧
    (s.get (CAN_C_STATUS_STATE c) = 2 → (∀ f, Completes (.canFrameReceived c f) s fun t => t = s) ∧
      Completes (.canFrameSent c false) s fun t => t = s) ∧
    (∀ f : CanFrame, s.awake = true → s.flag (CAN_C_CTRL_EN c) = true → s.get (CAN_C_STATUS_STATE c) ≠ 2 →
      (f.fd = false ∨ f.ext = false → Completes (.canFrameReceived c f) s fun t =>
        t.get (CAN_C_COUNTS_RX_OTHER c) = min (s.get (CAN_C_COUNTS_RX_OTHER c) + 1) 255 ∧ t.can = s.can ∧
        KeepsBut [(CAN_C_COUNTS_RX_OTHER c).off, (CAN_C_STATUS_STATE c).off] s t) ∧
      (f.fd = true → f.ext = true → s.canAccepts c (bits f.id 18 7) = false → Completes (.canFrameReceived c f) s fun t =>
        t.can = s.can ∧ t.get (CAN_C_STATUS_STATE c) =
          (if 128 ≤ t.get (CAN_C_STATUS_TEC c) ∨ 128 ≤ t.get (CAN_C_STATUS_REC c) then 1 else 0) ∧
        KeepsBut [(CAN_C_STATUS_STATE c).off] s t) ∧
      (f.fd = true → f.ext = true → s.canAccepts c (bits f.id 18 7) = true →
        (∀ d, s.getAddr (CAN_C_RXR_BASE_ADDR c) = 0 → s.canServed c = true → toNats f.data = 128 :: d →
          aget (s.canCtl c).parts (f.id % 2 ^ 29) = none → Completes (.canFrameReceived c f) s fun t =>
            aget (t.canCtl c).parts (f.id % 2 ^ 29) = some (1, d, s.now) ∧ (t.canCtl c).outbox = (s.canCtl c).outbox ∧
            KeepsBut [(CAN_C_STATUS_STATE c).off] s t) ∧
        (∀ i b d, s.canServed c = false → i = (s.canCtl c).rxHead → b = s.getAddr (CAN_C_RXR_BASE_ADDR c) + 80 * i →
          s.getAddr (CAN_C_RXR_BASE_ADDR c) ≠ 0 → s.usable b 80 → (s.memRead b 80).1 = some d →
          (d.getD 5 0 % 2 = 1 → Completes (.canFrameReceived c f) s fun t =>
            s.canCtl c = { t.canCtl c with rxHead := i } ∧ (t.canCtl c).rxHead = (i + 1) % max 1 (s.get (CAN_C_RXR_SIZE_COUNT c)) ∧
            (∃ x, ∀ k, sget (fun _ => 0#8) t.dram k = if b ≤ k ∧ k < b + 6 then
                BitVec.ofNat 8 ((le 4 (f.id % 2 ^ 29 + 2 ^ 29 * b2n f.brs) ++ [f.data.length % 256, 0]).getD (k - b) 0)
              else if b + 8 ≤ k ∧ k < b + 80 then BitVec.ofNat 8 ((le 8 x ++ fit 64 (toNats f.data)).getD (k - (b + 8)) 0)
              else sget (fun _ => 0#8) s.dram k) ∧ t.hostMem = s.hostMem ∧ OnlyWords [(CAN_C_STATUS_STATE c).off] s t) ∧
          (d.getD 5 0 % 2 = 0 → Completes (.canFrameReceived c f) s fun t => t.can = s.can ∧
            t.get (CAN_C_COUNTS_RX_NODESC c) = min (s.get (CAN_C_COUNTS_RX_NODESC c) + 1) 255 ∧
            KeepsBut [(CAN_C_COUNTS_RX_NODESC c).off, (CAN_C_STATUS_STATE c).off] s t)))) ∧
    (∀ src, Completes (.canReassemblyTimeout c src) s fun t => (t.canCtl c).parts =
        (s.canCtl c).parts.filter (fun p => !((s.canCtl c).parts.any fun q => q.1 == p.1 && bits q.1 11 7 == src && decide (q.2.2.2 + 10 ^ 7 < s.now))) ∧
      KeepsBut [(CAN_C_COUNTS_RX_OTHER c).off] s t) ∧
    (s.flag (CAN_C_CTRL_LISTEN c) = true → ∀ ab, Completes (.canFrameSent c ab) s fun t => t = s) ∧
    (s.awake = true → s.flag (CAN_C_CTRL_EN c) = true → s.flag (CAN_C_CTRL_LISTEN c) = false →
      (∀ id d rest, s.getAddr (CAN_C_TXR_BASE_ADDR c) = 0 → (s.canCtl c).outbox = (id, d) :: rest →
        (s.get (CAN_C_STATUS_STATE c) ≠ 2 → Completes (.canFrameSent c false) s fun t => t.canCtl c = { s.canCtl c with outbox := rest } ∧
          t.out = .can c id true (toBytes d) :: s.out ∧ KeepsBut [(CAN_C_STATUS_STATE c).off] s t) ∧
        (s.get (CAN_C_STATUS_STATE c) ≠ 2 → Completes (.canFrameSent c true) s fun t => t.get (CAN_C_STATUS_STATE c) = 2 ∧
          t.get (CAN_C_COUNTS_BUS_OFF c) = min (s.get (CAN_C_COUNTS_BUS_OFF c) + 1) 65535 ∧ (t.canCtl c).outbox = rest ∧ t.out = s.out ∧
          Raised 0x4C s t ∧ SameMemory s t) ∧
        (s.get (CAN_C_STATUS_STATE c) = 2 → Completes (.canFrameSent c true) s fun t => t.canCtl c = { s.canCtl c with outbox := rest } ∧
          t.out = s.out ∧ KeepsBut [] s t)) ∧
      (∀ i b d, s.get (CAN_C_STATUS_STATE c) ≠ 2 → i = (s.canCtl c).txHead → b = s.getAddr (CAN_C_TXR_BASE_ADDR c) + 80 * i →
        s.getAddr (CAN_C_TXR_BASE_ADDR c) ≠ 0 → s.usable b 80 → (s.memRead b 80).1 = some d → d.getD 5 0 % 2 = 1 →
        Completes (.canFrameSent c false) s fun t => (t.canCtl c).txHead = (i + 1) % max 1 (s.get (CAN_C_TXR_SIZE_COUNT c)) ∧
          t.out = .can c (rdLe d 0 4 % 2 ^ 29) (bitAt (rdLe d 0 4) 29 == 1) (toBytes ((d.drop 16).take (d.getD 4 0))) :: s.out ∧
          (∃ x, ∀ k, sget (fun _ => 0#8) t.dram k = if k = b + 5 then 0#8 else if b + 8 ≤ k ∧ k < b + 16 then
              BitVec.ofNat 8 ((le 8 x).getD (k - (b + 8)) 0) else sget (fun _ => 0#8) s.dram k) ∧ t.hostMem = s.hostMem ∧
          OnlyWords [(CAN_C_STATUS_STATE c).off] s t)) ∧
    (∀ a tx rx, Completes (.canRingKick a c tx rx) s fun t => t = s) ∧
    (s.flag (CAN_C_CTRL_EN c) = true → s.flag (CAN_C_CTRL_AUTO_RECOVER c) = true → s.get (CAN_C_STATUS_STATE c) = 2 →
      Completes (.canBusOffRecovery c) s fun t => t.get (CAN_C_STATUS_STATE c) = 0 ∧ t.get (CAN_C_STATUS_TEC c) = 0 ∧
        t.get (CAN_C_STATUS_REC c) = 0 ∧ KeepsBut [(CAN_C_STATUS_STATE c).off] s t) ∧
    (s.flag (CAN_C_CTRL_EN c) = false ∨ s.flag (CAN_C_CTRL_AUTO_RECOVER c) = false ∨ s.get (CAN_C_STATUS_STATE c) ≠ 2 →
      Completes (.canBusOffRecovery c) s fun t => t = s)

/-- Heartbeat, roll call, Light List, notifications and the mailbox. With the firmware up: the heartbeat timer, once its period has passed, queues the
heartbeat on every enabled CAN controller; the roll-call timer of the roll master likewise counts its round and queues the call; before that neither
does anything. A roll call is answered with an 8-byte and a 4-byte value that the statement leaves open (the unit's own); a heartbeat heard updates
the list of that bus; a network partner unheard for 60 s goes to state 2; the commit notification is sent when its interval has passed; an answer from
the part's own node number, or from a node with another unit's identity, raises 0x4D, a first answer records the identity, and one of node 0 is given
the lowest free number from 64 by a unit that assigns them. With the firmware down or the controller off nothing. A mailbox request with a host
present that parses reaches its operation, one of a reply is answered empty, one that does not parse answers 2, and an opcode outside the four served,
or an HPP message of a follower, answers 3; without a host nothing. Frames are stated; transaction numbers are left open. From:
spec/13_object_dictionary.md (Notifications and heartbeat); spec/13_object_dictionary.md (The Light List and roll call); spec/13_object_dictionary.md
(HPP messages); spec/11_host_cxl.md (The mailbox). -/
def Obligations.MessagesOfTheFirmware : Prop :=
  ∀ s : State, s.wf = true →
    (s.mgc.up = true → s.setting 0x1100 6 ≠ 0 → (∀ x, s.hpp.beatAt = some x → x + s.setting 0x1100 6 * 10 ^ 6 ≤ s.now) →
      Completes .heartbeatTimer s fun t => t.hpp.beatAt = some s.now ∧ KeepsBut [] s t ∧ ∀ c < 2,
      s.flag (CAN_C_CTRL_EN c) = true → ∃ id tid, (t.canCtl c).outbox = (s.canCtl c).outbox ++
        (canSegments 18 0 (hppBytes 0x30 0x10 (s.ownNode (canOf c)) 127 (tid % 65536) s.heartbeatBytes)).map fun d => (id, d)) ∧
    (s.beatDue = false → Completes .heartbeatTimer s fun t => t = s) ∧
    (∀ c, s.rollDue c = false → Completes (.rollCallTimer c) s fun t => t = s) ∧
    (∀ c, c < 2 → s.mgc.up = true → s.rollMaster c = true → (∀ x, (s.canCtl c).rollAt = some x → x + s.setting 0x1100 7 * 10 ^ 6 ≤ s.now) →
      s.hpp.rounds.length = 2 → Completes (.rollCallTimer c) s fun t => (t.canCtl c).rollAt = some s.now ∧
      t.hpp.rounds.getD c 0 = (s.hpp.rounds.getD c 0 + 1) % 256 ∧ KeepsBut [] s t ∧ ∃ id tid, (t.canCtl c).outbox = (s.canCtl c).outbox ++
        (canSegments 18 0 (hppBytes 0x20 0x10 (s.ownNode (canOf c)) 127 (tid % 65536) [s.hpp.rounds.getD c 0])).map fun d => (id, d)) ∧
    (∀ c src round, c < 2 → s.mgc.up = true → s.flag (CAN_C_CTRL_EN c) = true → Completes (.rollCall c src round) s fun t =>
      KeepsBut [] s t ∧ ∃ id tid u v, (t.canCtl c).outbox = (s.canCtl c).outbox ++
        (canSegments 18 0 (hppBytes 0x21 0x10 (s.ownNode (canOf c)) 127 (tid % 65536) (le 8 u ++ le 4 v))).map fun d => (id, d)) ∧
    (∀ c src, c < 2 → s.mgc.up = true → s.flag (CAN_C_CTRL_EN c) = true → Completes (.heartbeat c src) s fun t => t = s.hear c src ∧
      KeepsBut [] s t) ∧
    (∀ c src, s.mgc.up = false ∨ s.flag (CAN_C_CTRL_EN c) = false → ∀ round uid v p n, ∀ i ∈ [Instr.rollCall c src round, .heartbeat c src,
      .answer c src uid v p n], Completes i s fun t => t = s) ∧
    (∀ peer, s.udpSilent peer = false → Completes (.udpControllerTimeout peer) s fun t => t = s) ∧
    (∀ peer x, s.mgc.up = true → s.partner 7 peer = some x → x.state = 1 → x.heard + 60 * 10 ^ 9 ≤ s.now →
      Completes (.udpControllerTimeout peer) s fun t =>
      t = s.light 7 peer 2 none ∧ KeepsBut [] s t) ∧
    (∀ d x, s.hpp.commitDue = some d → s.hpp.commitLast = some x → x + 10 ^ 6 * s.setting 0x1100 16 ≤ s.now →
      Completes .commitNotifyTimer s fun t => t.hpp.notes = s.hpp.notes ++ [⟨0x0003, s.epoch, d⟩] ∧ t.hpp.commitDue = none ∧
        t.hpp.commitLast = some s.now ∧ KeepsBut [] s t) ∧
    (s.hpp.commitDue = none → Completes .commitNotifyTimer s fun t => t = s) ∧
    (∀ c uid v p n, c < 2 → s.mgc.up = true → s.flag (CAN_C_CTRL_EN c) = true → s.ownNode (canOf c) ≠ 0 →
      (Completes (.answer c (s.ownNode (canOf c)) uid v p n) s fun t => Raised 0x4D s t ∧ t.hpp.light = s.hpp.light ∧ SameMemory s t) ∧
      (s.setting 0x1100 9 ≠ 1 → Completes (.answer c 0 uid v p n) s fun t => t = s) ∧
      (∀ m, s.setting 0x1100 9 = 1 → bitAt (s.setting 0x1100 8) c = 1 →
        ((List.range 63).map (64 + ·)).find? (fun n => (s.partner (1 + c) n).isNone) = some m → Completes (.answer c 0 uid v p n) s fun t =>
          KeepsBut [] s t ∧ ∃ id tid, (t.canCtl c).outbox = (s.canCtl c).outbox ++
            (canSegments 18 0 (hppBytes 0x22 0x10 (s.ownNode (canOf c)) 127 (tid % 65536) (le 8 (uid % 2 ^ 64) ++ [m]))).map fun d => (id, d)) ∧
      (∀ src x, src ≠ 0 → src ≠ s.ownNode (canOf c) → s.partner (1 + c) src = some x → x.identity = [] → x.state = 1 →
        Completes (.answer c src uid v p n) s fun t => t = s.light (1 + c) src 1 (some ((answerBytes uid v p (toNats n)).take 64)) ∧ KeepsBut [] s t) ∧
      (∀ src x, src ≠ 0 → src ≠ s.ownNode (canOf c) → s.partner (1 + c) src = some x → x.identity ≠ [] → rdLe x.identity 0 8 ≠ uid % 2 ^ 64 →
        x.state = 1 → Completes (.answer c src uid v p n) s fun t => Raised 0x4D s t ∧ SameMemory s t)) ∧
    (∀ (payload : List Byte) op, s.awake = false ∨ s.host = false → Completes (.hppRequest op payload) s fun t => t = s) ∧
    (∀ (payload : List Byte), s.awake = true → s.host = true →
      (∀ op, s.role = 2 ∧ op = 0xC000 ∨ op ≠ 0xC000 ∧ op ≠ 0x0300 ∧ op ≠ 0x0400 ∧ op ≠ 0x0401 → Completes (.hppRequest op payload) s fun t =>
        t.resp = .code 3 ∧ KeepsBut [] s t) ∧
      (Completes (.hppRequest 0x0300 payload) s fun t => t.resp = .bytes (toBytes (le 8 s.dtcNs)) ∧ KeepsBut [] s t) ∧
      (Completes (.hppRequest 0x0400 payload) s fun t => t.resp = .supportedLogs ∧ KeepsBut [] s t) ∧
      (Completes (.hppRequest 0x0401 payload) s fun t => t.resp = .effectsLog ∧ KeepsBut [] s t) ∧
      (s.role ≠ 2 →
        (parseMsg (toNats payload) = none → Completes (.hppRequest 0xC000 payload) s fun t => t.resp = .code 2 ∧ KeepsBut [] s t) ∧
        (∀ m op, parseMsg (toNats payload) = some m → m.request = some op →
          (m.flags % 2 = 0 → Completes (.hppRequest 0xC000 payload) s fun t => t = s.arrive (m.head .mailbox 0) op) ∧
          (m.flags % 2 = 1 → Completes (.hppRequest 0xC000 payload) s fun t => t.resp = .bytes [] ∧ KeepsBut [] s t))))

/-- A decode job takes its next unit from DRAM or from the set, or reports it missing. Without a job, or with one that is not ready, nothing happens. For
a job that is ready: from DRAM, the next unit found with nothing missing before it is decoded: one more is done, the decoder's context goes on, and
the job moves past the unit or ends with its count; if it gives no picture and no metadata, exactly its report is written; if it gives a picture, its
lines and its report are written and no other byte. With units missing before it, one is reported and the position stays at the unit; with no unit
left the job ends. From the set, the unit the clip holds at the position is decoded; at the end of the clip, or with no set, the job ends. What a unit
decodes to is the model's decodeUnit; nothing is said of the place of metadata (log entry 20). Memory premises (usable): log entries 7 and 90. From:
spec/06_bitstream_decode_conceal.md (Decoding); spec/06_bitstream_decode_conceal.md (The HL6480 as decoder); spec/06_bitstream_decode_conceal.md
(Concealment); spec/13_object_dictionary.md (Storage, catalogue and playback). -/
def Obligations.DecodeJobs : Prop :=
  ∀ s : State, s.wf = true →
    (s.hpp.job = none → Completes .decodeUnit s fun t => t = s) ∧
    (∀ j, s.hpp.job = some j →
      (s.jobReady j = false → Completes .decodeUnit s fun t => t = s) ∧
      (s.jobReady j = true →
        (j.source ≠ 0 → s.scanUnit (j.src + j.pos) (2 ^ 24) [] = none → Completes .decodeUnit s fun t => t.hpp.job = none ∧ t.hpp.done = j.i ∧
          KeepsBut [] s t) ∧
        (∀ a l u r, j.source ≠ 0 → s.scanUnit (j.src + j.pos) (2 ^ 24) [] = some (a, l) →
          (unitIndex l).map (missingBefore s.hpp.ctx) = none ∨ (unitIndex l).map (missingBefore s.hpp.ctx) = some [] →
          u = decodeUnit s.hpp.ctx j.conceal none l → r = j.report + 32 * (j.i % max 1 j.buffers) →
          (Completes .decodeUnit s fun t => t.hpp.done = j.i + 1 ∧ t.hpp.ctx = u.ctx ∧
            (j.i + 1 < j.count → ∃ k, t.hpp.job = some k ∧ k.i = j.i + 1 ∧ k.pos = a - j.src + l.length) ∧
            (j.count ≤ j.i + 1 → t.hpp.job = none)) ∧
          (u.pic = none → u.metas.flatMap (·.2) = [] → s.usable r u.report.bytes.length → Completes .decodeUnit s fun t =>
            (∀ k, sget (fun _ => 0#8) t.dram k = if r ≤ k ∧ k < r + u.report.bytes.length then BitVec.ofNat 8 (u.report.bytes.getD (k - r) 0)
              else sget (fun _ => 0#8) s.dram k) ∧ t.hostMem = s.hostMem ∧ OnlyWords [] s t) ∧
          (∀ p d, u.pic = some p → d = j.dst + j.i % max 1 j.buffers * j.pitch * p.height → (∀ x ∈ p.lines, 2 * x.length ≤ j.pitch) →
            u.metas.flatMap (·.2) = [] → s.usable d (j.pitch * p.height) → s.usable r u.report.bytes.length →
            r + u.report.bytes.length ≤ d ∨ d + j.pitch * p.height ≤ r → Completes .decodeUnit s fun t =>
              (∀ y i x, y < p.height → p.lines[y]? = some x → i < 2 * x.length →
                sget (fun _ => 0#8) t.dram (d + j.pitch * y + i) = BitVec.ofNat 8 ((x.flatMap (le 2)).getD i 0)) ∧
              (∀ k, k < d ∨ d + j.pitch * p.height ≤ k → k < r ∨ r + u.report.bytes.length ≤ k →
                sget (fun _ => 0#8) t.dram k = sget (fun _ => 0#8) s.dram k) ∧ t.hostMem = s.hostMem ∧ OnlyWords [] s t)) ∧
        (∀ a l i is, j.source ≠ 0 → s.scanUnit (j.src + j.pos) (2 ^ 24) [] = some (a, l) →
          (unitIndex l).map (missingBefore s.hpp.ctx) = some (i :: is) → j.i + 1 < j.count → Completes .decodeUnit s fun t =>
            t.hpp.done = j.i + 1 ∧ ∃ k, t.hpp.job = some k ∧ k.i = j.i + 1 ∧ k.pos = a - j.src) ∧
        (∀ v e, j.source = 0 → s.assessed = some v → v.catalogue.getD j.clip none = some e →
          (∀ f l, j.pos < (clipEnd v.head e).1 → v.unit e j.pos = some f → v.sb.readUnit v.media f = some l → j.i + 1 < j.count →
            Completes .decodeUnit s fun t => t.hpp.done = j.i + 1 ∧ t.hpp.ctx = (decodeUnit s.hpp.ctx j.conceal (some j.pos) l).ctx ∧
              ∃ k, t.hpp.job = some k ∧ k.i = j.i + 1 ∧ k.pos = j.pos + 1) ∧
          ((clipEnd v.head e).1 ≤ j.pos → Completes .decodeUnit s fun t => t.hpp.job = none ∧ t.hpp.done = j.i ∧ KeepsBut [] s t)) ∧
        (j.source = 0 → s.assessed = none → Completes .decodeUnit s fun t => t.hpp.job = none ∧ t.hpp.done = j.i ∧ KeepsBut [] s t)))

/-- Entering RETAIN and OFF: accepted, refused, aborted and completed. With no entry in progress and nothing that refuses, RETAIN and OFF start an entry
and STATE shows entering; with refusers it is refused: each code is counted, the first shown, the event set, 0x54 raised and the state kept; during an
entry neither does anything. CLR_COUNTS clears the Keeper's counts. An abort, by a request or by an enabled wake input (with no kick held and nothing
that is held open), ends the entry in RUN or IDLE, counts its cause, shows code and abort point and sets the event; a wake input that is not enabled
aborts nothing, and neither does anything outside an entry or after a late wake. A completed entry is in OFF or RETAIN with Beacon and link down, the
write queues drained and the ranks in self-refresh; after a late wake it is OFF with the wake due, or awake again with device time to be latched; with
an abort waiting it does not complete. The idle timer goes from RUN to IDLE when idleness is due, and otherwise does nothing. Frames are stated; the
abort point is the model's abortPoint (log entry 59). From: spec/14_power_and_keeper.md (Power states); spec/14_power_and_keeper.md (Entering RETAIN
and OFF); spec/14_power_and_keeper.md (Keeper registers). -/
def Obligations.SleepEntry : Prop :=
  ∀ (s : State) (a : Agent), s.wf = true →
    (s.kpr.entry = none → s.refusers = [] →
      (Completes (.retain a) s fun t => t.get KPR_STATUS_STATE = 2 ∧ t.kpr = { s.kpr with entry := some ⟨false, s.now, none, false⟩ } ∧
        KeepsBut [KPR_STATUS_STATE.off] s t) ∧
      (Completes (.off a) s fun t => t.get KPR_STATUS_STATE = 2 ∧ t.kpr = { s.kpr with entry := some ⟨true, s.now, none, false⟩ } ∧
        KeepsBut [KPR_STATUS_STATE.off] s t)) ∧
    (s.kpr.entry.isSome = true → (Completes (.retain a) s fun t => t = s) ∧ Completes (.off a) s fun t => t = s) ∧
    (∀ c l, s.kpr.entry = none → s.refusers = c :: l → ∀ i : Instr, i = .retain a ∨ i = .off a → Completes i s fun t =>
      t.kpr.entry = none ∧ t.kpr.refused = (c :: l).foldl countCode s.kpr.refused ∧ t.get KPR_REFUSE_LAST_CODE = c % 256 ∧
      t.get KPR_REFUSE_LAST_ABORT = 0 ∧ t.get KPR_EVENTS_REFUSED = 1 ∧ t.get KPR_STATUS_STATE = s.get KPR_STATUS_STATE ∧
      Raised 0x54 s t ∧ SameMemory s t) ∧
    (Completes (.kprClrCounts a) s fun t => t.get KPR_COUNTS_DEFICIT = 0 ∧ t.get KPR_COUNTS_STALE_GRANT = 0 ∧
      t.get KPR_COUNTS2_SLOT_WAITS = 0 ∧ t.get KPR_COUNTS2_HOLDUP = 0 ∧ t.kpr.refused = [] ∧ t.kpr.aborted = [] ∧
      KeepsBut [KPR_COUNTS_DEFICIT.off, KPR_COUNTS2_HOLDUP.off] s t) ∧
    (∀ e, s.kpr.entry = some e → e.late = false → s.kpr.kicks = [] → s.kpr.heldOpen = false → Completes (.entryAbort none) s fun t =>
      t.kpr.entry = none ∧ t.kpr.mode = s.kpr.mode ∧ t.get KPR_STATUS_STATE = b2n s.idleDue ∧
      t.kpr.aborted = countCode s.kpr.aborted (e.abort.getD 3) ∧ t.get KPR_REFUSE_LAST_CODE = e.abort.getD 3 % 256 ∧
      t.get KPR_REFUSE_LAST_ABORT = 1 ∧ t.get KPR_REFUSE_LAST_AP = abortPoint (s.now - e.start) ∧ t.get KPR_EVENTS_ABORTED = 1 ∧
      KeepsBut [KPR_STATUS_STATE.off, KPR_REFUSE_LAST_CODE.off, KPR_EVENTS_ABORTED.off] s t) ∧
    (∀ e b, b < 8 → s.kpr.entry = some e → e.late = false → bitAt (s.word AON_WAKE_EN_WAKE_PIN.off).toNat b = 1 → s.kpr.kicks = [] →
      s.kpr.heldOpen = false → Completes (.entryAbort (some b)) s fun t => t.kpr.entry = none ∧ t.get KPR_REFUSE_LAST_ABORT = 1 ∧
        t.get KPR_REFUSE_LAST_CODE = e.abort.getD (0x80 + b) % 256 ∧ t.kpr.aborted = countCode s.kpr.aborted (e.abort.getD (0x80 + b)) ∧
        KeepsBut [KPR_STATUS_STATE.off, KPR_REFUSE_LAST_CODE.off, KPR_EVENTS_ABORTED.off] s t) ∧
    (∀ e b, s.kpr.entry = some e → e.abort = none → bitAt (s.word AON_WAKE_EN_WAKE_PIN.off).toNat b = 0 → Completes (.entryAbort (some b)) s fun t =>
      t = s) ∧
    (∀ w, s.kpr.entry = none ∨ (∃ e, s.kpr.entry = some e ∧ e.late = true) → Completes (.entryAbort w) s fun t => t = s) ∧
    (s.kpr.entry = none ∨ (∃ e, s.kpr.entry = some e ∧ e.abort.isSome = true) → Completes .entryComplete s fun t => t = s) ∧
    (∀ e, s.kpr.entry = some e → e.abort = none → e.late = true → e.toOff = true → Completes .entryComplete s fun t =>
      t.kpr.mode = .off ∧ t.kpr.entry = none ∧ t.aon.wakeDue = true ∧ t.get BU_STATUS_RUNNING = 0 ∧ SameMemory s t) ∧
    (∀ e, s.kpr.entry = some e → e.abort = none → e.late = true → e.toOff = false → s.kpr.kicks = [] → s.kpr.heldOpen = false →
      Completes .entryComplete s fun t => t.kpr.mode = .on ∧ t.kpr.entry = none ∧ t.tb.sleepWait = true ∧ SameMemory s t) ∧
    (∀ e, s.kpr.entry = some e → e.abort = none → e.late = false → Completes .entryComplete s fun t =>
      t.kpr.entry = none ∧ t.kpr.mode = (if e.toOff then .off else .retain) ∧ t.get BU_STATUS_RUNNING = 0 ∧ t.bu.edgeDue = none ∧
      t.bu.symbolAt = none ∧ t.tb.sleepWait = true ∧ t.get CXP_STATUS_LINK_UP = 0 ∧ t.get KPR_STATUS_STATE = s.get KPR_STATUS_STATE ∧
      (∀ ch < 4, s.chOn ch = true → (s.wqOf ch).length ≤ 64 → t.wqOf ch = [] ∧ ∀ r ∈ s.ranksOf ch, r ∈ t.lmc.selfRefresh) ∧
      KeepsBut [BU_STATUS_RUNNING.off, CXP_STATUS_LINK_UP.off, CXP_BIAS_STAT_BUSY.off] s t) ∧
    (s.flag KPR_CTRL_EN = true → s.get KPR_STATUS_STATE = 0 → s.idleDue = true → Completes .idleTimer s fun t =>
      t.get KPR_STATUS_STATE = 1 ∧ KeepsBut [KPR_STATUS_STATE.off] s t) ∧
    (s.flag KPR_CTRL_EN = false ∨ s.get KPR_STATUS_STATE ≠ 0 ∨ s.idleDue = false → Completes .idleTimer s fun t => t = s)

/-- Wake events, the Always-On supply, power failure and hold-up. A wake input that is not enabled, or of a part that is on with no entry, does nothing,
and POWER does nothing outside OFF; an enabled one during an entry asks for its abort up to 400 microseconds on, and later is remembered and shown
with abort point 3; in OFF it makes a wake due; in RETAIN it wakes the part: it is on, the dies in use ask for their ramp slots, and the Beacon runs
again where RUN is 1. MAIN_PWR_EN rises for a wake or a record that is not valid, 328 ticks after its fall at the earliest. The loss of the Always-On
supply loses the record, resets exactly the Always-On registers and leaves the part OFF. PWR_FAIL_N low: in reset it clears MAIN_PWR_EN and leaves the
record as it is; in RETAIN it loses DRAM and goes to OFF with a valid record once device time has stopped; during an entry the entry goes on to OFF;
with no clip it starts an entry to OFF; with a clip hold-up: HOLDUP, its count and event, LIMITER 3, the pixel links down, no frame kept, every
engine's jobs dropped and its halt asked, no funds for proxy and scrub, DRAM kept; again while low, nothing. Its rise ends the failure, and in OFF is
the POWER wake. Hold-up whose magazines are done enters OFF. Frames are stated. From: spec/14_power_and_keeper.md (Waking);
spec/14_power_and_keeper.md (Power failure and hold-up); spec/14_power_and_keeper.md (Always-On registers). -/
def Obligations.WakeAndPower : Prop :=
  ∀ s : State, s.wf = true →
    (∀ b, b < 8 → bitAt (s.word AON_WAKE_EN_WAKE_PIN.off).toNat b = 0 → Completes (.wakeEvent b) s fun t => t = s) ∧
    (∀ b e, b < 8 → b ≠ 6 → bitAt (s.word AON_WAKE_EN_WAKE_PIN.off).toNat b = 1 → s.kpr.mode = .on → s.kpr.entry = some e →
      (s.now ≤ e.start + 400000 → Completes (.wakeEvent b) s fun t =>
        t.kpr.entry = some { e with abort := some (e.abort.getD (0x80 + b)) } ∧ KeepsBut [] s t) ∧
      (e.start + 400000 < s.now → Completes (.wakeEvent b) s fun t => t.kpr.entry = some { e with late := true } ∧
        bitAt (t.word AON_WAKE_CAUSE_WAKE_PIN.off).toNat b = 1 ∧ t.get KPR_REFUSE_LAST_CODE = 0x80 + b ∧ t.get KPR_REFUSE_LAST_AP = 3 ∧
        t.get KPR_EVENTS_ABORTED = 1 ∧ KeepsBut [AON_WAKE_CAUSE_WAKE_PIN.off, KPR_REFUSE_LAST_CODE.off, KPR_EVENTS_ABORTED.off] s t)) ∧
    (∀ b, b < 8 → bitAt (s.word AON_WAKE_EN_WAKE_PIN.off).toNat b = 1 → s.kpr.mode = .off → Completes (.wakeEvent b) s fun t =>
      t.aon.wakeDue = true ∧ t.kpr = s.kpr ∧ bitAt (t.word AON_WAKE_CAUSE_WAKE_PIN.off).toNat b = 1 ∧
      KeepsBut [AON_WAKE_CAUSE_WAKE_PIN.off] s t) ∧
    (∀ b, b < 8 → s.kpr.mode = .on → s.kpr.entry = none → Completes (.wakeEvent b) s fun t => t = s) ∧
    (s.kpr.mode = .retain ∨ (s.kpr.mode = .on ∧ s.kpr.entry.isSome = true) → Completes (.wakeEvent 6) s fun t => t = s) ∧
    (∀ b, b < 8 → b ≠ 6 → bitAt (s.word AON_WAKE_EN_WAKE_PIN.off).toNat b = 1 → s.kpr.mode = .retain → s.kpr.kicks = [] →
      s.kpr.heldOpen = false → Completes (.wakeEvent b) s fun t => t.kpr.mode = .on ∧ t.kpr.entry = none ∧
        bitAt (t.word AON_WAKE_CAUSE_WAKE_PIN.off).toNat b = 1 ∧
        (∀ d < 2, s.dieOff d = false → SlotReq.dieRestore d ∈ t.kpr.slots.map (·.1)) ∧
        (s.flag BU_CTRL_RUN = true → t.get BU_STATUS_RUNNING = 1) ∧ SameMemory s t) ∧
    (s.aon.mainPwrEn = true ∨ (s.aon.wakeDue = false ∧ s.aon.recordValid = true) ∨ (∃ x, s.aon.fellAt = some x ∧ s.slept x < 328) →
      Completes .mainPwrEnRaise s fun t => t = s) ∧
    (s.aon.mainPwrEn = false → s.aon.wakeDue = true ∨ s.aon.recordValid = false → (∀ x, s.aon.fellAt = some x → 328 ≤ s.slept x) →
      Completes .mainPwrEnRaise s fun t => t.aon.mainPwrEn = true ∧ t.aon.supply = true ∧ t.aon.fellAt = none ∧ t.aon.wakeDue = false ∧ t.out = .mainPwrEn true :: s.out ∧ KeepsBut [] s t) ∧
    (Completes .aonSupplyLost s fun t => t.aon.recordValid = false ∧ t.aon.mainPwrEn = false ∧ t.kpr.mode = .off ∧
      (∀ k, 0x540000 ≤ k → k < 0x580000 → t.word k = regReset k) ∧ (∀ k, k < 0x540000 ∨ 0x580000 ≤ k → t.word k = s.word k) ∧
      SameMemory s t) ∧
    ((s.domain 0).inReset = false → s.kpr.powerFail = none → s.kpr.mode = .on → s.kpr.entry = none → s.mag.clip = none →
      Completes .pwrFailFall s fun t => t.kpr = { s.kpr with powerFail := some s.now, entry := some ⟨true, s.now, none, false⟩ } ∧
        t.get KPR_STATUS_STATE = 2 ∧ KeepsBut [KPR_STATUS_STATE.off] s t) ∧
    (s.kpr.powerFail.isSome = true → Completes .pwrFailFall s fun t => t = s) ∧
    (s.kpr.powerFail = none → (s.domain 0).inReset = true → s.aon.mainPwrEn = true → Completes .pwrFailFall s fun t => t.kpr.powerFail = some s.now ∧
      t.aon.mainPwrEn = false ∧ t.aon.recordValid = s.aon.recordValid ∧ t.out = .mainPwrEn false :: s.out ∧ KeepsBut [] s t) ∧
    (s.kpr.powerFail = none → (s.domain 0).inReset = true → s.aon.mainPwrEn = false → Completes .pwrFailFall s fun t =>
      t.kpr.powerFail = some s.now ∧ t.aon = s.aon ∧ KeepsBut [] s t) ∧
    (s.kpr.powerFail = none → (s.domain 0).inReset = false → s.kpr.mode = .retain → Completes .pwrFailFall s fun t =>
      t.kpr.mode = .off ∧ t.dram = [] ∧ (s.tb.sleepTicks.isSome = true → t.aon.mainPwrEn = false ∧ t.aon.recordValid = true ∧
        t.aon.recordDtc = s.tb.dtc) ∧ OnlyWords [] s t) ∧
    (∀ e, s.kpr.powerFail = none → (s.domain 0).inReset = false → s.kpr.mode = .on → s.kpr.entry = some e →
      Completes .pwrFailFall s fun t => t.kpr = { s.kpr with powerFail := some s.now, entry := some { e with toOff := true } } ∧ KeepsBut [] s t) ∧
    (∀ c, (s.domain 0).inReset = false → s.kpr.powerFail = none → s.kpr.mode = .on → s.kpr.entry = none → s.mag.clip = some c →
      Completes .pwrFailFall s fun t => t.kpr.powerFail = some s.now ∧ t.kpr.entry = none ∧ t.get KPR_STATUS_HOLDUP = 1 ∧
        t.get KPR_STATUS_LIMITER = 3 ∧ t.get KPR_COUNTS2_HOLDUP = min (s.get KPR_COUNTS2_HOLDUP + 1) 65535 ∧ t.get KPR_EVENTS_HOLDUP = 1 ∧
        t.get PPR_LINK_STATUS_LINK_UP = 0 ∧ t.frames = [] ∧ (∀ g ∈ t.engines, g.jobs = [] ∧ g.haltReq = true) ∧
        t.kpr.grant.fund = 0 ∧ t.kpr.grant.scrub = 0 ∧ t.dram = s.dram) ∧
    (s.kpr.powerFail = none → Completes .pwrFailRise s fun t => t = s) ∧
    (∀ n, s.kpr.powerFail = some n → s.kpr.mode ≠ .off → Completes .pwrFailRise s fun t => t.kpr.powerFail = none ∧ KeepsBut [] s t) ∧
    (s.kpr.powerFail.isSome = true → s.kpr.mode = .off → bitAt (s.word AON_WAKE_EN_WAKE_PIN.off).toNat 6 = 1 → Completes .pwrFailRise s fun t =>
      t.kpr.powerFail = none ∧ t.aon.wakeDue = true ∧ bitAt (t.word AON_WAKE_CAUSE_WAKE_PIN.off).toNat 6 = 1 ∧
      KeepsBut [AON_WAKE_CAUSE_WAKE_PIN.off] s t) ∧
    (s.flag KPR_STATUS_HOLDUP = false ∨ s.kpr.powerFail = none ∨ s.mag.powerFail.isSome = true ∨ s.kpr.mode ≠ .on →
      Completes .holdupOffEntry s fun t => t = s) ∧
    (s.flag KPR_STATUS_HOLDUP = true → s.kpr.powerFail.isSome = true → s.mag.powerFail = none → s.kpr.mode = .on → Completes .holdupOffEntry s fun t =>
      t.kpr.mode = .off ∧ t.get BU_STATUS_RUNNING = 0 ∧ t.get CXP_STATUS_LINK_UP = 0 ∧
      KeepsBut [BU_STATUS_RUNNING.off, CXP_STATUS_LINK_UP.off, CXP_BIAS_STAT_BUSY.off] s t)

/-- Grant formation, the deficit limit, ramp slots and temperature samples. With the Keeper enabled and the Beacon running, from P - W - 200 microseconds
after the last edge on, formation makes the grant newGrant (log entry 59), shows its limiter and leaves the grant in force; before that, or without an
edge, it does nothing. The sixteenth deficit in a row raises 0x55, once. With no die to ungate waiting, a ramp slot serves the first four units of
requests in the order of rank, marks and counts those that wait for the first time, and an engine it serves ungates; a die alone in the queue takes a
whole slot and is no longer gated. A temperature sample shows the trimmed reading and validity of each of the 24 sensors. From:
spec/14_power_and_keeper.md (The frame budget); spec/14_power_and_keeper.md (Ramp slots); spec/14_power_and_keeper.md (Temperature);
spec/14_power_and_keeper.md (Keeper registers). -/
def Obligations.KeeperTimers : Prop :=
  ∀ s : State, s.wf = true →
    (∀ e, s.flag KPR_CTRL_EN = true → s.beaconRuns = true → s.bu.lastEdge = some e → s.atLeastPmW (s.now8 - e + 1600000) = true →
      Completes .grantFormation s fun t => t.get KPR_STATUS_LIMITER = s.newGrant.limiter % 4 ∧
        (t.kpr.formed = some s.newGrant ∨ t.kpr.forming = some s.newGrant) ∧ t.kpr.grant = s.kpr.grant ∧
        KeepsBut [KPR_STATUS_LIMITER.off, KPR_EVENTS_THERM.off] s t) ∧
    (s.flag KPR_CTRL_EN = false ∨ s.beaconRuns = false ∨ s.bu.lastEdge = none ∨
      (∃ e, s.bu.lastEdge = some e ∧ s.atLeastPmW (s.now8 - e + 1600000) = false) → Completes .grantFormation s fun t => t = s) ∧
    (s.kpr.deficitRun = 16 → Completes .deficitLimit s fun t => t.kpr.deficitRun = 17 ∧ Raised 0x55 s t ∧ SameMemory s t) ∧
    (s.kpr.deficitRun ≠ 16 → Completes .deficitLimit s fun t => t = s) ∧
    ((∀ x ∈ s.kpr.slots, ∀ d, x.1 ≠ .dieUngate d) → Completes .rampSlot s fun t =>
      t.kpr.slots = (takeSlots 4 (sortBy (fun x => x.1.rank) s.kpr.slots)).2.map (fun x => (x.1, true)) ∧
      t.get KPR_COUNTS2_SLOT_WAITS = min (s.get KPR_COUNTS2_SLOT_WAITS +
        (takeSlots 4 (sortBy (fun x => x.1.rank) s.kpr.slots)).2.countP fun x => !x.2) 65535 ∧
      (∀ e w, e < 68 → s.engines.length = 68 → (.engineUngate e, w) ∈ (takeSlots 4 (sortBy (fun x => x.1.rank) s.kpr.slots)).1 →
        s.engState e = 0 → (t.eng e).ungating = true) ∧
      KeepsBut [KPR_COUNTS2_SLOT_WAITS.off] s t) ∧
    (∀ d w, d < 2 → s.kpr.slots = [(.dieUngate d, w)] → Completes .rampSlot s fun t => t.kpr.gated.getD d true = false ∧ t.kpr.slots = [] ∧
      SameMemory s t) ∧
    (∀ l : List (Int × Bool), Completes (.tempSample l) s fun t => (∀ i < 24,
        t.get (KPR_TEMP_T i) = unsigned 12 (s.trimmed i (l.getD i (0, false)).1) % 4096 ∧
        t.get (KPR_TEMP_VALID i) = b2n (l.getD i (0, false)).2) ∧ SameMemory s t)

/-- Fault Collector commands and its self-fault. A self-fault clears SELF_OK, latches, pulls BELL_N low, raises 0x00 and makes the level SAFE. FC_RAISE by
the MGC with a source of 0xF0 or above raises it with the severity given; with a lower source, or with severity 3 (the model's choice, log entry 75),
or by the host, it is discarded with 0x01. FIRST_CLR clears the first fault and keeps the log. FC_PHASE written by the MGC is stored, but with a clip
open only SERVICE is, and another value is discarded with 0x01. BASIC is kept for the next Beacon, once; RESTORE from BASIC with no deficit is kept
and otherwise discarded with 0x01. CLR_COUNTS clears every source's count and LOST and keeps the log. From: spec/15_faults_and_resets.md (Fault
Collector registers); spec/15_faults_and_resets.md (The collector's own protection); spec/15_faults_and_resets.md (Service levels);
spec/15_faults_and_resets.md (BELL_N). -/
def Obligations.FaultCommands : Prop :=
  ∀ (s : State) (a : Agent), s.wf = true →
    (Completes .collectorSelfFault s fun t => t.get FC_SELF_OK = 0 ∧ t.fc.latch = true ∧ t.bellLow = true ∧ t.get FC_LEVEL_LEVEL = 3 ∧
      Raised 0x00 s t ∧ SameMemory s t) ∧
    (∀ v : Word, 0xF0 ≤ v.toNat % 256 → v.toNat / 256 % 4 ≠ 3 → Completes (.fcRaise .mgc v) s fun t =>
      t = s.raiseAs (v.toNat % 256) (v.toNat / 256 % 4) 0 (v.toNat / 65536) ∧ Raised (v.toNat % 256) s t ∧ SameMemory s t) ∧
    (∀ v : Word, v.toNat % 256 < 0xF0 ∨ v.toNat / 256 % 4 = 3 → Completes (.fcRaise .mgc v) s fun t => Raised 0x01 s t ∧ SameMemory s t) ∧
    (∀ v : Word, Completes (.fcRaise .host v) s fun t => Raised 0x01 s t ∧ SameMemory s t) ∧
    (Completes (.fcFirstClr a) s fun t => t.fc.first.valid = false ∧ t.fc.log = s.fc.log ∧ KeepsBut [] s t) ∧
    (∀ v : Word, s.clipOpen = false ∨ v.toNat % 4 = 1 → Completes (.fcPhaseWrite .mgc v) s fun t => t.get FC_PHASE_PHASE = v.toNat % 4 ∧
      KeepsBut [FC_PHASE_PHASE.off] s t) ∧
    (∀ v : Word, s.clipOpen = true → v.toNat % 4 ≠ 1 → Completes (.fcPhaseWrite .mgc v) s fun t => t.get FC_PHASE_PHASE = s.get FC_PHASE_PHASE ∧
      Raised 0x01 s t ∧ SameMemory s t) ∧
    (s.fc.basicDue = none → Completes (.basic a) s fun t => t.fc.basicDue = some (8, 0) ∧ t.get FC_LEVEL_LEVEL = s.get FC_LEVEL_LEVEL ∧
      KeepsBut [] s t) ∧
    (∀ x, s.fc.basicDue = some x → x.1 ≤ 8 → Completes (.basic a) s fun t => t = s) ∧
    (s.get FC_LEVEL_LEVEL = 2 → true ∉ s.fc.deficits → Completes (.restore a) s fun t => t.fc.restoreDue = true ∧ KeepsBut [] s t) ∧
    (s.get FC_LEVEL_LEVEL ≠ 2 ∨ true ∈ s.fc.deficits → Completes (.restore a) s fun t => t.fc.restoreDue = s.fc.restoreDue ∧ Raised 0x01 s t ∧
      SameMemory s t) ∧
    (Completes (.fcClrCounts a) s fun t => (∀ n, sget (fun _ => 0) t.fc.count n = 0) ∧ t.get FC_LOG_HEAD_LOST = 0 ∧ t.fc.log = s.fc.log ∧
      KeepsBut [FC_LOG_HEAD_LOST.off] s t)

/-- What raising a fault does, for every source and severity. For every source, given severity, unit and info (and a canonical list of last severities):
one fault is counted and one sequence number used; no memory and no register word outside the collector's block changes; the source's last severity is
kept; with room in the log a record with source, severity, phase, unit, info, epoch and device time is in it; the log head moves on by one; a severity
other than 3 sets the source's pending bit and is notified; severity 3 leaves interrupts, notifications and pending bits alone; severity 2 makes the
level SAFE. From: spec/15_faults_and_resets.md (Fault sources and classes); spec/15_faults_and_resets.md (The record and the log);
spec/15_faults_and_resets.md (Service levels). -/
def Obligations.RaisingAFault : Prop :=
  ∀ (s : State) (src given unit info : Nat), s.wf = true → src < 256 → s.severity src given < 4 →
    swf (fun _ => 0) s.fc.lastSev = true →
    Raised src s (s.raiseAs src given unit info) ∧ SameMemory s (s.raiseAs src given unit info) ∧
      (∀ k, k < 0x480000 ∨ 0x4C0000 ≤ k → (s.raiseAs src given unit info).word k = s.word k) ∧
      sget (fun _ => 0) (s.raiseAs src given unit info).fc.lastSev src = s.severity src given ∧
      (s.fc.log.length < 32 → ∃ r ∈ (s.raiseAs src given unit info).fc.log, r.source = src ∧ r.severity = s.severity src given ∧
        r.phase = s.get FC_PHASE_PHASE ∧ r.unit = unit ∧ r.info = info ∧ r.epoch = s.epoch ∧ r.dtc = s.dtcNs) ∧
      ((s.raiseAs src given unit info).get FC_LOG_HEAD_NEXT = (s.get FC_LOG_HEAD_NEXT + 1) % 32) ∧
      (s.severity src given ≠ 3 → bitAt ((s.raiseAs src given unit info).get (FC_PEND_PEND (src / 32))) (src % 32) = 1 ∧
        ⟨0x0011, s.epoch, [src, s.severity src given]⟩ ∈ (s.raiseAs src given unit info).hpp.notes) ∧
      (s.severity src given = 3 → (s.raiseAs src given unit info).icu = s.icu ∧ (s.raiseAs src given unit info).hpp = s.hpp ∧
        ∀ n, (s.raiseAs src given unit info).get (FC_PEND_PEND n) = s.get (FC_PEND_PEND n)) ∧
      (s.severity src given = 2 → (s.raiseAs src given unit info).get FC_LEVEL_LEVEL = 3)

/-- Interrupt sources: events, doorbells, software pending and counts. For every source: an event changes that source only; its input takes the level, an
unchanged level changes nothing, an edge the sensing takes counts (saturating at 255) and makes an edge-sensed source pending, another edge changes
neither. A doorbell of 384 to 511 counts and is pending, another is discarded with 0x01. PEND_SET counts each source written and makes it pending, by
the software bit where it is level-sensed; a reserved source raises 0x01. PEND_CLR clears the software bit and the pending bit of edge sources, and no
other. CLR_ONE and CLR_ALL clear counts. No register word changes. From: spec/16_interrupts.md (Sources); spec/16_interrupts.md (Sensing, events and
counts); spec/16_interrupts.md (Registers). -/
def Obligations.InterruptSources : Prop :=
  ∀ (s : State) (a : Agent), s.wf = true → s.icuWf = true →
    (∀ n l, n < 384 → sourceKnown n = true → Completes (.icuSourceEvent n l) s fun t => (t.source n).input = l ∧
      (∀ m, m ≠ n → t.source m = s.source m) ∧ (s.source n).inService = (t.source n).inService ∧
      ((s.source n).input = l → t = s) ∧
      ((s.source n).input ≠ l → (if l then s.get (ICU_SRC_SENSE n) ≠ 2 else s.get (ICU_SRC_SENSE n) = 2 ∨ s.get (ICU_SRC_SENSE n) = 3) →
        (t.source n).count = min ((s.source n).count + 1) 255 ∧ (t.source n).pend = ((s.source n).pend || s.get (ICU_SRC_SENSE n) != 0)) ∧
      (¬ (if l then s.get (ICU_SRC_SENSE n) ≠ 2 else s.get (ICU_SRC_SENSE n) = 2 ∨ s.get (ICU_SRC_SENSE n) = 3) →
        (t.source n).count = (s.source n).count ∧ (t.source n).pend = (s.source n).pend) ∧ KeepsBut [] s t) ∧
    (∀ v : Word, 384 ≤ v.toNat → v.toNat ≤ 511 → Completes (.icuDoorbell v) s fun t =>
      t.source v.toNat = { s.source v.toNat with count := min ((s.source v.toNat).count + 1) 255, pend := true } ∧
      (∀ m, m ≠ v.toNat → t.source m = s.source m) ∧ KeepsBut [] s t) ∧
    (∀ v : Word, v.toNat < 384 ∨ 511 < v.toNat → Completes (.icuDoorbell v) s fun t => Raised 0x01 s t ∧ SameMemory s t) ∧
    (∀ n (v : Word), n < 16 → (∀ b < 32, v.toNat.testBit b = true → sourceKnown (32 * n + b) = true) → Completes (.icuPendSet a n v) s fun t =>
      (∀ b < 32, v.toNat.testBit b = true → t.source (32 * n + b) = { s.source (32 * n + b) with
        count := min ((s.source (32 * n + b)).count + 1) 255,
        pend := (s.source (32 * n + b)).pend || !s.isLevel (32 * n + b),
        soft := (s.source (32 * n + b)).soft || s.isLevel (32 * n + b) }) ∧
      (∀ m, ¬ (m / 32 = n ∧ v.toNat.testBit (m % 32) = true) → t.source m = s.source m) ∧ KeepsBut [] s t) ∧
    (∀ n b, n < 16 → b < 32 → sourceKnown (32 * n + b) = false → Completes (.icuPendSet a n (BitVec.ofNat 32 (2 ^ b))) s fun t =>
      Raised 0x01 s t ∧ SameMemory s t) ∧
    (∀ n (v : Word), n < 16 → Completes (.icuPendClr a n v) s fun t =>
      (∀ b < 32, v.toNat.testBit b = true → t.source (32 * n + b) = { s.source (32 * n + b) with
        pend := (s.source (32 * n + b)).pend && s.isLevel (32 * n + b),
        soft := false }) ∧
      (∀ m, ¬ (m / 32 = n ∧ v.toNat.testBit (m % 32) = true) → t.source m = s.source m) ∧ t.icu.vectors = s.icu.vectors ∧ KeepsBut [] s t) ∧
    (∀ n, n < 512 → Completes (.clrOne a n) s fun t => t.source n = { s.source n with count := 0 } ∧
      (∀ m, m ≠ n → t.source m = s.source m) ∧ KeepsBut [] s t) ∧
    (Completes (.clrAll a) s fun t => (∀ n, t.source n = { s.source n with count := 0 }) ∧ KeepsBut [] s t)

/-- Claims and completes of the MGC context and of the host vectors, and MSI-X delivery. A read of ICU_MGC_CLAIM by the MGC returns the highest eligible
source (greatest priority, then lowest number, whatever its group) with its count, marks it in service, clears its pending bits and its count, and
changes no other source; with none eligible, or from the host, it returns 1023 with count 0 and changes no source. A complete clears the in-service
bit of a source in service for this context; one of 1023 changes nothing; one of another source, or from the host, is discarded and logged as a
configuration fault. The same of the 64 host vectors, where a spurious claim and every good complete arm the vector. A vector that is due, with a host
that has enabled MSI-X, is disarmed and sends its message, or sets its pending bit where it is masked, when it was held, moderation has passed or the
host is idle (asleep: when it may wake it); with moderation not passed nothing; with no host, MSI-X off or the host asleep it is held; one not due
sends nothing. From: R442. -/
def Obligations.InterruptClaims : Prop :=
  ∀ s : State, s.wf = true → s.icuWf = true →
    (∀ n, s.claims n 64 → Completes (.icuMgcClaim .mgc) s fun t =>
      t.resp = .word (BitVec.ofNat 32 (n + 65536 * (s.source n).count)) ∧
      t.source n = { s.source n with count := 0, pend := false, soft := false, inService := some 64 } ∧
      (∀ m, m ≠ n → t.source m = s.source m) ∧ KeepsBut [] s t) ∧
    ((∀ n, s.eligible n 64 = false) → Completes (.icuMgcClaim .mgc) s fun t => t.resp = .word 1023#32 ∧ t.icu = s.icu ∧ KeepsBut [] s t) ∧
    (Completes (.icuMgcClaim .host) s fun t => t.resp = .word 1023#32 ∧ t.icu = s.icu ∧ KeepsBut [] s t) ∧
    (∀ v : Word, v.toNat % 1024 ≠ 1023 → (s.source (v.toNat % 1024)).inService = some 64 → Completes (.icuMgcComplete .mgc v) s fun t =>
      t.source (v.toNat % 1024) = { s.source (v.toNat % 1024) with inService := none } ∧
      (∀ m, m ≠ v.toNat % 1024 → t.source m = s.source m) ∧ KeepsBut [] s t) ∧
    (∀ v : Word, v.toNat % 1024 = 1023 → Completes (.icuMgcComplete .mgc v) s fun t => t = s) ∧
    (∀ v : Word, v.toNat % 1024 ≠ 1023 → (s.source (v.toNat % 1024)).inService ≠ some 64 → Completes (.icuMgcComplete .mgc v) s fun t =>
      t = s.cfg ICU_MGC_COMPLETE_ID.off ∧ Raised 0x01 s t ∧ SameMemory s t) ∧
    (∀ v : Word, Completes (.icuMgcComplete .host v) s fun t => t = s.cfg ICU_MGC_COMPLETE_ID.off ∧ Raised 0x01 s t ∧ SameMemory s t) ∧
    (∀ k n, k < 64 → s.claims n k → Completes (.icuHvClaim k) s fun t =>
      t.resp = .word (BitVec.ofNat 32 (n + 65536 * (s.source n).count)) ∧
      t.source n = { s.source n with count := 0, pend := false, soft := false, inService := some k } ∧
      (∀ m, m ≠ n → t.source m = s.source m) ∧ t.icu.vectors = s.icu.vectors ∧ KeepsBut [] s t) ∧
    (∀ k, k < 64 → (∀ n, s.eligible n k = false) → Completes (.icuHvClaim k) s fun t => t.resp = .word 1023#32 ∧
      t.vector k = { s.vector k with disarmed := false } ∧ t.icu.sources = s.icu.sources ∧ KeepsBut [] s t) ∧
    (∀ k (v : Word), k < 64 → v.toNat % 1024 ≠ 1023 → (s.source (v.toNat % 1024)).inService = some k → Completes (.icuHvComplete k v) s fun t =>
      t.source (v.toNat % 1024) = { s.source (v.toNat % 1024) with inService := none } ∧ t.vector k = { s.vector k with disarmed := false } ∧
      (∀ m, m ≠ v.toNat % 1024 → t.source m = s.source m) ∧ KeepsBut [] s t) ∧
    (∀ k (v : Word), k < 64 → v.toNat % 1024 = 1023 → Completes (.icuHvComplete k v) s fun t => t.vector k = { s.vector k with disarmed := false } ∧
      t.icu.sources = s.icu.sources ∧ KeepsBut [] s t) ∧
    (∀ k (v : Word), k < 64 → v.toNat % 1024 ≠ 1023 → (s.source (v.toNat % 1024)).inService ≠ some k → Completes (.icuHvComplete k v) s fun t =>
      Raised 0x01 s t ∧ SameMemory s t) ∧
    (∀ k, k < 64 → s.due k = true → s.host = true → s.cxl.fn.msixEnable = true →
      (if s.flag ICU_HOST_SLEEP then s.flag (ICU_HV_MOD_WAKE k) = true
        else s.flag ICU_HOST_IDLE = true ∨ (s.vector k).held = true ∨ s.moderationPassed k = true) →
      Completes (.msixHoldoffExpiry k) s fun t => t.vector k = ⟨true, some s.now, 0, false⟩ ∧ t.icu.sources = s.icu.sources ∧
        (bitAt s.cxl.fn.masked k = 0 → t.out = .msix k :: s.out ∧ t.cxl = s.cxl) ∧
        (bitAt s.cxl.fn.masked k ≠ 0 → t.out = s.out ∧ t.cxl = { s.cxl with fn := { s.cxl.fn with pba := s.cxl.fn.pba ||| 2 ^ k } }) ∧
        KeepsBut [] s t) ∧
    (∀ k, k < 64 → s.due k = true → s.host = true → s.cxl.fn.msixEnable = true → s.flag ICU_HOST_SLEEP = false → s.flag ICU_HOST_IDLE = false →
      (s.vector k).held = false → s.moderationPassed k = false → Completes (.msixHoldoffExpiry k) s fun t => t = s) ∧
    (∀ k, k < 64 → s.due k = true → s.host = false ∨ s.cxl.fn.msixEnable = false ∨
      (s.flag ICU_HOST_SLEEP = true ∧ s.flag (ICU_HV_MOD_WAKE k) = false) →
      Completes (.msixHoldoffExpiry k) s fun t => t.out = s.out ∧ t.vector k = { s.vector k with held := true } ∧ KeepsBut [] s t) ∧
    (∀ k, k < 64 → s.due k = false → Completes (.msixHoldoffExpiry k) s fun t => t.out = s.out ∧ (t.vector k).held = false ∧
      t.icu.sources = s.icu.sources ∧ KeepsBut [] s t)

/-- Power-on release, RESET_N, PWRGD, the supply, and the release of the clock domains. POR release with the mains on and its millisecond over samples the
straps, starts the clock at 0 and releases the IOD and PHY domains to their locks (the IOD only with RESET_N high); with the mains off, already done,
or too early it does nothing. RESET_N low asserts a Warm reset, counts it, sets its cause, holds BELL_N, BEACON_OUT and the bays' pins at their levels
and drives CAN recessive; in OFF and in a Cold reset it only sets the pin (log entry 58); its rise sets the pin, and releases an IOD held for it.
PWRGD low, and with the mains on a supply below its trip, assert a Cold reset, in which the VIO outputs show their pull-ups. No domain is released
before 10240 ns or after a failed lock; one whose source still holds only has its lock counted; the release of the PHY domain and of a die's domain
ends its reset; that of the IOD starts boot and the watchdog, clears the self-fault latch with SELF_OK 1 (R422 over R429, log entry 95), puts the
bays' pins low, counts a Warm reset in the Logbook and keeps DRAM and the time base. A lock not counted 10 ms after its release sets its bit and
raises 0x05. Requests for a reset do nothing while the part is not awake. WarmHeld and ColdHeld say what each reset keeps and clears. From:
spec/15_faults_and_resets.md (Resets); spec/15_faults_and_resets.md (Straps); spec/17_electrical_and_pins.md (Pin states);
spec/17_electrical_and_pins.md (AC characteristics). -/
def Obligations.PowerOnAndPins : Prop :=
  ∀ s : State, s.wf = true →
    (∀ x b c g, s.aon.mainPwrEn = true → s.rstc.porDone = false → s.rstc.resetN = true → s.rstc.domains.head? = some x →
      x.inReset = true → x.counted = false → x.released = none → s.porHolds = false → Completes (.porRelease b c g) s fun t =>
        t.rstc.porDone = true ∧ t.get RSTC_STRAPS_BOOT_SRC = b % 4 ∧ t.get RSTC_STRAPS_CLK_MODE = c % 4 ∧ t.get RSTC_STRAPS_GANG_ID = g % 4 ∧
        t.clk = 0 ∧ t.domain 0 = { x with released := some 0, since := 0 } ∧ t.domain 3 = { s.domain 3 with released := some 0, since := 0 } ∧
        KeepsBut [RSTC_STRAPS_BOOT_SRC.off, RSTC_EXTEND_COUNT.off] s t) ∧
    (∀ b c g, s.aon.mainPwrEn = false ∨ (s.rstc.porDone = true ∧ s.kpr.mode ≠ .off) ∨ s.porHolds = true →
      Completes (.porRelease b c g) s fun t => t = s) ∧
    (∀ x b c g, s.aon.mainPwrEn = true → s.rstc.porDone = false → s.porHolds = false → s.rstc.resetN = false →
      s.rstc.domains.head? = some x → Completes (.porRelease b c g) s fun t => t.rstc.porDone = true ∧
        t.domain 0 = { x with since := 0 } ∧ KeepsBut [RSTC_STRAPS_BOOT_SRC.off] s t) ∧
    (s.rstc.resetN = false → Completes .resetNFall s fun t => t = s) ∧
    (s.rstc.resetN = true → s.kpr.mode ≠ .off → (s.domain 0).inReset = true → (s.domain 0).reach = 4 → Completes .resetNFall s fun t =>
      t = { s with rstc := { s.rstc with resetN := false } }) ∧
    (∀ x, s.rstc.resetN = true → s.kpr.mode ≠ .off → s.cxl.cache = [] → s.rstc.domains.head? = some x → x.inReset = false →
      s.lmc.held = [] → Completes .resetNFall s fun t => t.rstc.resetN = false ∧ t.get RSTC_CAUSE_RESET_N = 1 ∧
        t.get RSTC_COUNTS_WARM = min (s.get RSTC_COUNTS_WARM + 1) 65535 ∧ WarmHeld s t ∧
        (x.reach < 4 → s.aon.mainPwrEn = true → t.pin .bell = s.pin .bell ∧ t.pin .beaconOut = s.pin .beaconOut ∧
          (∀ b, t.pin (.magPwrEn b) = s.pin (.magPwrEn b) ∧ t.pin (.magPerst b) = s.pin (.magPerst b)) ∧
          (∀ c, t.pin (.canTx c) = .high) ∧ t.pin .serdesTx = .electricalIdle ∧ t.pin .magRefclk = .hold)) ∧
    (s.rstc.resetN = true → s.kpr.mode = .off → Completes .resetNFall s fun t => t.rstc.resetN = false ∧ KeepsBut [] s t) ∧
    ((s.domain 0).inReset = false → Completes .resetNRise s fun t => t = { s with rstc := { s.rstc with resetN := true } }) ∧
    (∀ x, s.rstc.domains.head? = some x → x.inReset = true → x.reach = 3 → x.counted = false → x.released = none → s.rstc.porDone = true →
      Completes .resetNRise s fun t => t.rstc.resetN = true ∧ t.domain 0 = { x with released := some s.now } ∧ KeepsBut [RSTC_EXTEND_COUNT.off] s t) ∧
    (Completes .pwrgdFall s fun t => ColdHeld 1#32 s t ∧
      (s.aon.mainPwrEn = true → (s.domain 0).reach ≤ 4 → (∀ g, (g = .bell ∨ g = .beaconOut ∨ (∃ b, g = .magPwrEn b ∨ g = .magPerst b) ∨ ∃ c, g = .canTx c) →
        t.pin g = .pullUp) ∧ t.pin .magRefclk = .low ∧ t.pin .lpddrReset = .low ∧ t.pin .vioIn = .inputPullUp) ∧
      t.pin .mainPwrEn = (if s.aon.mainPwrEn then .high else .low)) ∧
    (s.aon.mainPwrEn = true → Completes .supplyBelowTrip s fun t => ColdHeld 1#32 s t) ∧
    (s.aon.mainPwrEn = false → Completes .supplyBelowTrip s fun t => t = s) ∧
    (∀ d x, d < 4 → s.rstc.domains[d]? = some x → x.inReset = false ∨ s.now < x.since + 10240 ∨
      (1 ≤ d ∧ bitAt (s.get RSTC_STATUS_LOCK_FAIL) (d - 1) = 1) → Completes (.domainRelease d) s fun t => t = s) ∧
    (∀ d x, d < 4 → s.rstc.domains[d]? = some x → x.inReset = true → x.since + 10240 ≤ s.now → x.released = none →
      (1 ≤ d → bitAt (s.get RSTC_STATUS_LOCK_FAIL) (d - 1) = 0) → Completes (.domainRelease d) s fun t =>
        t.domain d = { x with counted := true } ∧ KeepsBut [] s t) ∧
    (∀ r c n m, s.rstc.domains[3]? = some ⟨true, r, c, some n, m⟩ → m + 10240 ≤ s.now → bitAt (s.get RSTC_STATUS_LOCK_FAIL) 2 = 0 →
      Completes (.domainRelease 3) s fun t => t.domain 3 = ⟨false, 0, true, none, m⟩ ∧ KeepsBut [] s t) ∧
    (∀ c n m, s.rstc.domains[0]? = some ⟨true, 3, c, some n, m⟩ → m + 10240 ≤ s.now → Completes (.domainRelease 0) s fun t =>
      t.domain 0 = ⟨false, 0, true, none, m⟩ ∧ t.mgc.boot = 1 ∧ t.mgc.up = false ∧ t.mgc.wdogFrom = s.now ∧ t.fc.latch = false ∧
      t.get FC_SELF_OK = 1 ∧ (∀ b ∈ t.mag.bays, b.pwrEn = false ∧ b.perst = false) ∧ t.mag.afresh = some s.now ∧
      t.log.cur.warm = s.log.cur.warm + 1 ∧ t.dram = s.dram ∧ t.tb = s.tb) ∧
    (∀ d n c m, d < 2 → s.mgc.up = false → s.rstc.domains[1 + d]? = some ⟨true, 4, c, some n, m⟩ → m + 10240 ≤ s.now →
      bitAt (s.get RSTC_STATUS_LOCK_FAIL) d = 0 → Completes (.domainRelease (1 + d)) s fun t => t.domain (1 + d) = ⟨false, 0, true, none, m⟩ ∧
        t.get (if d = 0 then RSTC_STATUS_CD0_RESET else RSTC_STATUS_CD1_RESET) = 0 ∧ KeepsBut [RSTC_STATUS_CD0_RESET.off] s t) ∧
    (∀ d n r m, 1 ≤ d → d < 4 → s.rstc.domains[d]? = some ⟨true, r, false, some n, m⟩ → n + 10 ^ 7 ≤ s.now →
      Completes (.lockFailTimeout d) s fun t => bitAt (t.get RSTC_STATUS_LOCK_FAIL) (d - 1) = 1 ∧ t.rstc = s.rstc ∧ Raised 0x05 s t ∧
        SameMemory s t) ∧
    (∀ d x, s.rstc.domains[d]? = some x → d = 0 ∨ x.inReset = false ∨ x.counted = true ∨ x.released = none ∨
      (∃ n, x.released = some n ∧ s.now < n + 10 ^ 7) → Completes (.lockFailTimeout d) s fun t => t = s) ∧
    (s.awake = false → ∀ a d e, ∀ c ∈ [Instr.rstcWarm a, .rstcCold a, .rstcLink a, .rstcDie a d, .rstcEngine a e, .watchdogExpiry, .hppWarmResetApply],
      Completes c s fun t => t = s)

/-- Resets asked for by software, the watchdog, and the reset over HPP. While awake: WARM (empty CXL cache, no held DRAM request) asserts a Warm reset,
sets SOFT, counts it and is released at once; COLD asserts a Cold reset with cause 16; a DIE reset with the Beacon running is held for the edge, at
once without it, and of a die that is off does nothing but SOFT; an ENGINE reset is held for the edge, and of a RETIRED one does nothing but SOFT (log
entry 58); LINK drops the link and counts. The watchdog that expires raises 0x04 and asserts a Warm reset, and does nothing when off or not yet due; a
kick of 0xA5 by the MGC restarts it, any other is discarded with 0x01; its configuration is stored by the MGC, unless it would turn it off outside
phase TEST. A Warm reset asked for over HPP comes when its time has passed and not before. From: spec/15_faults_and_resets.md (Resets);
spec/15_faults_and_resets.md (Reset Controller registers); spec/15_faults_and_resets.md (Service levels). -/
def Obligations.RequestedResets : Prop :=
  ∀ (s : State) (a : Agent), s.wf = true → s.awake = true →
    (s.cxl.cache = [] → s.lmc.held = [] → s.rstc.resetN = true → s.rstc.porDone = true → Completes (.rstcWarm a) s fun t => t.get RSTC_CAUSE_SOFT = 1 ∧
      t.get RSTC_COUNTS_WARM = min (s.get RSTC_COUNTS_WARM + 1) 65535 ∧ (t.domain 0).released = some s.now ∧ WarmHeld s t) ∧
    (Completes (.rstcCold a) s fun t => ColdHeld 16#32 s t) ∧
    (∀ d, d < 2 → s.beaconRuns = true → Completes (.rstcDie a d) s fun t => t.get RSTC_CAUSE_SOFT = 1 ∧ bitAt (t.get RSTC_HELD_DIE) d = 1 ∧
      KeepsBut [RSTC_CAUSE_SOFT.off, RSTC_HELD_DIE.off] s t) ∧
    (∀ d, d < 2 → s.beaconRuns = false → s.dieOff d = false → Completes (.rstcDie a d) s fun t => t.get RSTC_CAUSE_SOFT = 1 ∧
      t.get RSTC_COUNTS_DIE = min (s.get RSTC_COUNTS_DIE + 1) 65535 ∧ RingsOnly (List.range 72) s t) ∧
    (∀ d, d < 2 → s.beaconRuns = false → s.dieOff d = true → Completes (.rstcDie a d) s fun t => t.get RSTC_CAUSE_SOFT = 1 ∧
      KeepsBut [RSTC_CAUSE_SOFT.off] s t) ∧
    (∀ e : EngId, s.beaconRuns = true → s.engState (engNum e) ≠ 6 → Completes (.rstcEngine a e) s fun t => t.get RSTC_CAUSE_SOFT = 1 ∧
      (t.eng (engNum e)).resetHeld = true ∧ t.dram = s.dram) ∧
    (∀ e : EngId, s.engState (engNum e) = 6 → Completes (.rstcEngine a e) s fun t => t.get RSTC_CAUSE_SOFT = 1 ∧
      KeepsBut [RSTC_CAUSE_SOFT.off] s t) ∧
    (s.cxl.cache = [] → s.host = false → Completes (.rstcLink a) s fun t => t.get RSTC_CAUSE_SOFT = 1 ∧ t.get RSTC_CAUSE_LINK = 1 ∧
      t.get CXP_STATUS_LINK_UP = 0 ∧ t.cxl.hdmBase = none ∧ t.get CXP_COUNTS2_LINK_RESETS = min (s.get CXP_COUNTS2_LINK_RESETS + 1) 65535 ∧
      KeepsBut [RSTC_CAUSE_SOFT.off, CXP_STATUS_LINK_UP.off, CXP_BIAS_STAT_BUSY.off, CXP_EVENTS_LINK_RESET.off, CXP_COUNTS2_LINK_RESETS.off] s t) ∧
    (s.cxl.cache = [] → s.lmc.held = [] → s.rstc.resetN = true → s.rstc.porDone = true → s.flag RSTC_WDOG_EN = true →
      s.mgc.wdogFrom + max 1 (s.get RSTC_WDOG_MS) * 10 ^ 6 ≤ s.now → Completes .watchdogExpiry s fun t =>
        t.get RSTC_CAUSE_WATCHDOG = 1 ∧ Raised 0x04 s t ∧ (t.domain 0).inReset = true ∧ t.dram = s.dram ∧ t.mgc.up = false) ∧
    (s.flag RSTC_WDOG_EN = false ∨ s.now < s.mgc.wdogFrom + 10 ^ 6 → Completes .watchdogExpiry s fun t => t = s) ∧
    (∀ v : Word, v.toNat % 256 = 0xA5 → Completes (.watchdogKick .mgc v) s fun t => t.mgc = { s.mgc with wdogFrom := s.now } ∧ KeepsBut [] s t) ∧
    (∀ v : Word, v.toNat % 256 ≠ 0xA5 → Completes (.watchdogKick .mgc v) s fun t => t.mgc = s.mgc ∧ Raised 0x01 s t ∧ SameMemory s t) ∧
    (∀ v : Word, Completes (.watchdogKick .host v) s fun t => t.mgc = s.mgc ∧ Raised 0x01 s t ∧ SameMemory s t) ∧
    (∀ v : Word, bitAt v.toNat 16 = 1 ∨ s.flag RSTC_WDOG_EN = false ∨ s.get FC_PHASE_PHASE = 2 → Completes (.watchdogConfig .mgc v) s fun t =>
      t.get RSTC_WDOG_MS = v.toNat % 65536 ∧ t.get RSTC_WDOG_EN = bitAt v.toNat 16 ∧ t.mgc.wdogFrom = s.now ∧ KeepsBut [RSTC_WDOG_MS.off] s t) ∧
    (∀ v : Word, bitAt v.toNat 16 = 0 → s.flag RSTC_WDOG_EN = true → s.get FC_PHASE_PHASE ≠ 2 → Completes (.watchdogConfig .mgc v) s fun t =>
      t.get RSTC_WDOG_EN = 1 ∧ Raised 0x01 s t ∧ SameMemory s t) ∧
    (∀ n, s.cxl.cache = [] → s.lmc.held = [] → s.rstc.resetN = true → s.rstc.porDone = true → s.hpp.warmAt = some n → n ≤ s.now → Completes .hppWarmResetApply s fun t =>
      t.get RSTC_CAUSE_HPP = 1 ∧ t.get RSTC_COUNTS_WARM = min (s.get RSTC_COUNTS_WARM + 1) 65535 ∧ WarmHeld s t) ∧
    (s.hpp.warmAt = none ∨ (∃ n, s.hpp.warmAt = some n ∧ s.now < n) → Completes .hppWarmResetApply s fun t => t = s)

/-- The Logbook hour, its record bucket, and the ageing measurement. With the firmware up, an hour of device time after the last hourly header (or with
none, or after device time was set back: log entry 95), LOGBOOK_HOUR writes the Logbook header with the next sequence number to the other copy and
changes no record; before that, or with the firmware down, nothing. Ten seconds after the last, a refill gives the bucket one record, up to 360;
before that nothing. An hour of RUN after the last, an ageing measurement while the part runs in RUN keeps the twelve monitors' values, changes no
memory and no register word outside the collector's block, and marks as aged the group of every monitor whose loss against its Daymark baseline, in
hundredths of a per cent rounded down, is above 600; when it is not due it does nothing. From: spec/18_service_life.md (The Logbook);
spec/18_service_life.md (Ageing and the forty-year rating). -/
def Obligations.ServiceLife : Prop :=
  ∀ s : State, s.wf = true →
    (s.mgc.up = true → s.log.hourAt = none ∨ (∃ x, s.log.hourAt = some x ∧ (x + hourNs ≤ s.dtcNs ∨ s.dtcNs < x)) →
      Completes .logbookHour s fun t => t.log.cur = { s.log.cur with seq := (s.log.cur.seq + 1) % 2 ^ 32 } ∧
        t.log.written = some t.log.cur ∧ t.log.hourAt = some s.dtcNs ∧ t.log.copy = (if s.log.written = none then 0 else 1 - s.log.copy) ∧
        t.log.records = s.log.records ∧ KeepsBut [] s t) ∧
    (s.mgc.up = false ∨ (∃ x, s.log.hourAt = some x ∧ x ≤ s.dtcNs ∧ s.dtcNs < x + hourNs) → Completes .logbookHour s fun t => t = s) ∧
    (s.log.refillAt + 10 ^ 10 ≤ s.now → Completes .logbookBucketRefill s fun t =>
      t.log = { s.log with bucket := min 360 (s.log.bucket + 1), refillAt := s.log.refillAt + 10 ^ 10 } ∧ KeepsBut [] s t) ∧
    (s.now < s.log.refillAt + 10 ^ 10 → Completes .logbookBucketRefill s fun t => t = s) ∧
    (∀ l : List Nat, s.mgc.up = true → s.get KPR_STATUS_STATE = 0 → s.kpr.mode = .on →
      (∀ x, s.log.agedAt = some x → x + hourNs ≤ s.log.cur.runNs) → Completes (.ageingMeasure l) s fun t =>
        t.log.cur.monitors = fit 12 (l.map (· % 65536)) ∧ t.log.agedAt = some s.log.cur.runNs ∧ SameMemory s t ∧
        (∀ k, k < 0x480000 ∨ 0x4C0000 ≤ k → t.word k = s.word k) ∧
        (∀ i, i < 12 → 600 < (rdLe s.nor.daymark (56 + 2 * i) 2 - l.getD i 0 % 65536) * 10000 / rdLe s.nor.daymark (56 + 2 * i) 2 →
          i / 4 ∈ t.mgc.aged)) ∧
    (s.ageDue = false → ∀ l : List Nat, Completes (.ageingMeasure l) s fun t => t = s)
end

