-- ==== Sys2Proof/Laws/Sparse.lean ====
section
/-! SUPPORT. Laws of the sparse maps: a read after a write, and that every operation keeps the canonical form. -/

namespace Sys2Proof.Machine

variable {α : Type}

@[simp] theorem sget_nil (d : Nat → α) (k : Nat) : sget d [] k = d k := rfl

/-- The empty list is canonical. -/
@[simp] theorem swf_nil [DecidableEq α] (d : Nat → α) : swf d ([] : List (Nat × α)) = true := rfl

/-- A canonical list reads as its default below its bound. -/
theorem sget_below [DecidableEq α] (d : Nat → α) (l : List (Nat × α)) (b k : Nat) (h : swfFrom d b l = true) (hk : k < b) :
    sget d l k = d k := by
  induction l generalizing b with
  | nil => rfl
  | cons e t ih =>
    obtain ⟨k', v'⟩ := e
    simp only [swfFrom, Bool.and_eq_true, decide_eq_true_eq] at h
    have hne : k ≠ k' := by omega
    simp only [sget, hne, if_false]
    exact ih (k' + 1) h.2 (by omega)

/-- A read of the key written gives the value written, and of any other key what it gave. -/
theorem sget_sput_from [DecidableEq α] (d : Nat → α) (l : List (Nat × α)) (b k j : Nat) (v : α) (h : swfFrom d b l = true) :
    sget d (sput d l k v) j = if j = k then v else sget d l j := by
  have entry (m : List (Nat × α)) (hm : j = k → sget d m j = d j) :
      sget d (entryOf d k v ++ m) j = if j = k then v else sget d m j := by
    unfold entryOf
    by_cases hj : j = k <;> by_cases hv : v = d k <;> simp [sget, hj, hv] at hm ⊢
    · exact hm
  induction l generalizing b with
  | nil => simpa [sput] using entry [] fun _ => rfl
  | cons e rest ih =>
    simp only [swfFrom, Bool.and_eq_true, decide_eq_true_eq] at h
    by_cases below : e.1 < k
    · simp only [sput, below, if_true, sget, ih _ h.2]
      by_cases hj : j = e.1
      · simp [hj, Nat.ne_of_lt below]
      · simp [hj]
    · simp only [sput, below, if_false]
      by_cases above : k < e.1
      · rw [if_pos above, entry]
        intro hj
        exact sget_below d _ (k + 1) j (by simp [swfFrom, h, above]) (by omega)
      · rw [if_neg above, entry]
        · have hk : e.1 = k := by omega
          by_cases hj : j = k
          · simp [hj]
          · simp [hj, sget, hk]
        · intro hj
          exact sget_below d _ _ j h.2 (by omega)

/-- A canonical list is canonical from any lower bound. -/
theorem swfFrom_mono [DecidableEq α] (d : Nat → α) (l : List (Nat × α)) (b c : Nat) (hc : c ≤ b)
    (h : swfFrom d b l = true) : swfFrom d c l = true := by
  cases l with
  | nil => rfl
  | cons e t =>
    obtain ⟨k', v'⟩ := e
    simp only [swfFrom, Bool.and_eq_true, decide_eq_true_eq] at h ⊢
    exact ⟨⟨by omega, h.1.2⟩, h.2⟩

/-- A write keeps the canonical form above any bound at or below its key. -/
theorem swfFrom_sput [DecidableEq α] (d : Nat → α) (l : List (Nat × α)) (b k : Nat) (v : α) (h : swfFrom d b l = true) (hb : b ≤ k) :
    swfFrom d b (sput d l k v) = true := by
  have entry (m : List (Nat × α)) (c : Nat) (hc : c ≤ k) (hm : swfFrom d (k + 1) m = true) :
      swfFrom d c (entryOf d k v ++ m) = true := by
    unfold entryOf
    by_cases hv : v = d k
    · simpa [hv] using swfFrom_mono d m (k + 1) c (by omega) hm
    · simp [hv, swfFrom, hc, hm]
  induction l generalizing b with
  | nil => simpa [sput] using entry [] b hb rfl
  | cons e rest ih =>
    have whole := h
    simp only [swfFrom, Bool.and_eq_true, decide_eq_true_eq] at h
    by_cases below : e.1 < k
    · simp only [sput, below, if_true, swfFrom, Bool.and_eq_true, decide_eq_true_eq]
      exact ⟨h.1, ih _ h.2 below⟩
    · simp only [sput, below, if_false]
      refine entry _ b hb ?_
      by_cases above : k < e.1
      · rw [if_pos above]
        simp [swfFrom, h, above]
      · rw [if_neg above]
        exact swfFrom_mono d _ (e.1 + 1) _ (by omega) h.2

/-- A canonical list stays canonical when entries are left out. -/
theorem swfFrom_filter [DecidableEq α] (d : Nat → α) (l : List (Nat × α)) (b : Nat) (p : Nat × α → Bool)
    (h : swfFrom d b l = true) : swfFrom d b (l.filter p) = true := by
  induction l generalizing b with
  | nil => rfl
  | cons e t ih =>
    obtain ⟨k', v'⟩ := e
    simp only [swfFrom, Bool.and_eq_true, decide_eq_true_eq] at h
    have ht := ih (k' + 1) h.2
    simp only [List.filter]
    split
    · simp only [swfFrom, Bool.and_eq_true, decide_eq_true_eq]
      exact ⟨h.1, ht⟩
    · exact swfFrom_mono d _ (k' + 1) b (by omega) ht

/-- Reading what was written. -/
theorem sget_sput_same [DecidableEq α] (d : Nat → α) (l : List (Nat × α)) (k : Nat) (v : α) (h : swf d l = true) :
    sget d (sput d l k v) k = v := by
  rw [sget_sput_from d l 0 k k v h]; simp

/-- Reading what was not written. -/
theorem sget_sput_other [DecidableEq α] (d : Nat → α) (l : List (Nat × α)) (k j : Nat) (v : α) (h : swf d l = true) (hj : j ≠ k) :
    sget d (sput d l k v) j = sget d l j := by
  rw [sget_sput_from d l 0 k j v h]; simp [hj]

/-- A write keeps the canonical form. -/
theorem swf_sput [DecidableEq α] (d : Nat → α) (l : List (Nat × α)) (k : Nat) (v : α) (h : swf d l = true) :
    swf d (sput d l k v) = true := swfFrom_sput d l 0 k v h (Nat.zero_le k)

/-- Forgetting entries keeps the canonical form. -/
theorem swf_filter [DecidableEq α] (d : Nat → α) (l : List (Nat × α)) (p : Nat × α → Bool) (h : swf d l = true) :
    swf d (l.filter p) = true := swfFrom_filter d l 0 p h

/-- Forgetting entries by key keeps the canonical form. -/
theorem swf_sdrop [DecidableEq α] (d : Nat → α) (l : List (Nat × α)) (p : Nat → Bool) (h : swf d l = true) :
    swf d (sdrop p l) = true := swfFrom_filter d l 0 _ h

/-- A run of writes keeps the canonical form. -/
theorem swf_sputAll [DecidableEq α] (d : Nat → α) (l : List (Nat × α)) (k : Nat) (vs : List α) (h : swf d l = true) :
    swf d (sputAll d l k vs) = true := by
  induction vs generalizing l k with
  | nil => exact h
  | cons v t ih => exact ih (sput d l k v) (k + 1) (swf_sput d l k v h)

/-- A read after a run of writes: inside the run what was written there, outside it what was there. -/
theorem sget_sputAll [DecidableEq α] (d : Nat → α) (l : List (Nat × α)) (k j : Nat) (vs : List α) (h : swf d l = true) :
    sget d (sputAll d l k vs) j = if k ≤ j then vs.getD (j - k) (sget d l j) else sget d l j := by
  induction vs generalizing l k with
  | nil => simp [sputAll]
  | cons v t ih =>
    simp only [sputAll]
    rw [ih (sput d l k v) (k + 1) (swf_sput d l k v h)]
    by_cases h1 : k + 1 ≤ j
    · have h2 : k ≤ j := by omega
      have h3 : j - k = (j - (k + 1)) + 1 := by omega
      have h4 : j ≠ k := by omega
      simp only [h1, h2, if_true, h3, List.getD_cons_succ]
      rw [sget_sput_other d l k j v h h4]
    · simp only [h1, if_false]
      by_cases h2 : k ≤ j
      · have h3 : j = k := by omega
        subst h3
        simp [sget_sput_same d l j v h]
      · have h4 : j ≠ k := by omega
        simp only [h2, if_false]
        exact sget_sput_other d l k j v h h4

end Sys2Proof.Machine
end

