-- ==== Sys2Proof/Laws/State.lean ====
section
/-! SUPPORT. What each shared update of the state leaves alone, field by field, so that no proof unfolds a record update:
`State.putWord`, `set`, `inc`, `clear`, `setBit`, `clearBit` change `regs` only; `emit` changes `out`, `answer` changes `resp`, `notify`
changes `hpp`, `putSource`, `putVector` and the events of interrupt sources change `icu`, `putForce` changes `force`, a draw changes
`draws`; raising a fault changes `regs`, `fc`, `icu`, `log` and `hpp`. -/

namespace Sys2Proof.Machine

/-- `t` differs from `s` in the registers alone. -/
def RegsOnly (s t : State) : Prop := t = { s with regs := t.regs }

/-- `t` differs from `s` in what the raising of a fault changes alone. -/
def FaultOnly (s t : State) : Prop := t = { s with regs := t.regs, fc := t.fc, icu := t.icu, log := t.log, hpp := t.hpp }

theorem RegsOnly.refl (s : State) : RegsOnly s s := rfl

theorem RegsOnly.trans {r s t : State} (h : RegsOnly r s) (k : RegsOnly s t) : RegsOnly r t := by
  unfold RegsOnly at *; rw [k, h]

theorem RegsOnly.eq {s t : State} (h : RegsOnly s t) : t = { s with regs := t.regs } := h

theorem FaultOnly.eq {s t : State} (h : FaultOnly s t) :
    t = { s with regs := t.regs, fc := t.fc, icu := t.icu, log := t.log, hpp := t.hpp } := h

theorem RegsOnly.fault {s t : State} (h : RegsOnly s t) : FaultOnly s t := by
  unfold RegsOnly at h; unfold FaultOnly; rw [h]

theorem FaultOnly.refl (s : State) : FaultOnly s s := rfl

theorem FaultOnly.trans {r s t : State} (h : FaultOnly r s) (k : FaultOnly s t) : FaultOnly r t := by
  unfold FaultOnly at *; rw [k, h]

variable (s : State)

theorem State.putWord_regsOnly (off : Nat) (w : Word) : RegsOnly s (s.putWord off w) := rfl

theorem State.set_regsOnly (f : Fld) (v : Nat) : RegsOnly s (s.set f v) := by
  unfold State.set; split <;> rfl

theorem State.inc_regsOnly (f : Fld) : RegsOnly s (s.inc f) := by
  unfold State.inc; split
  · exact s.set_regsOnly _ _
  · rfl

theorem State.setBit_regsOnly (f : Fld) (i : Nat) : RegsOnly s (s.setBit f i) := by
  unfold State.setBit; split
  · rfl
  · exact s.set_regsOnly _ _

theorem State.clearBit_regsOnly (f : Fld) (i : Nat) : RegsOnly s (s.clearBit f i) := by
  unfold State.clearBit; split
  · exact s.set_regsOnly _ _
  · rfl

theorem State.clear_regsOnly (l : List Fld) : RegsOnly s (s.clear l) := by
  induction l generalizing s with
  | nil => rfl
  | cons f t ih => exact (s.set_regsOnly f 0).trans (ih _)

theorem State.icuEvent_faultOnly (n : Nat) : FaultOnly s (s.icuEvent n) := by
  unfold State.icuEvent; dsimp only; split <;> rfl

theorem State.icuPulse_faultOnly (n : Nat) : FaultOnly s (s.icuPulse n) := by
  unfold State.icuPulse; split
  · rfl
  · exact s.icuEvent_faultOnly n

theorem State.logbook_faultOnly (t : Nat) (d : List Nat) : FaultOnly s (s.logbook t d) := by
  unfold State.logbook; dsimp only; split <;> rfl

theorem State.setLevel_faultOnly (l k c : Nat) : FaultOnly s (s.setLevel l k c) := by
  unfold State.setLevel
  have h := ((s.set_regsOnly FC_LEVEL_LEVEL l).trans (State.set_regsOnly _ FC_LEVEL_KIND k)).trans (State.set_regsOnly _ FC_LEVEL_CAUSE c)
  exact (h.fault.trans (t := State.notify _ _ _) rfl).trans (State.logbook_faultOnly _ _ _)

theorem State.enterSafe_faultOnly (k c : Nat) : FaultOnly s (s.enterSafe k c) := by
  unfold State.enterSafe; split
  · rfl
  · exact (s.setLevel_faultOnly 3 k c).trans rfl

theorem State.recordFault_faultOnly (r : FaultRec) : FaultOnly s (s.recordFault r) := by
  unfold State.recordFault; dsimp only; split
  · exact ((s.inc_regsOnly _).trans (State.set_regsOnly _ _ _)).fault.trans rfl
  · exact (s.set_regsOnly _ _).fault.trans rfl

theorem State.wantBasic_faultOnly (k c : Nat) : FaultOnly s (s.wantBasic k c) := rfl

theorem State.raiseAs_faultOnly (a b c d : Nat) : FaultOnly s (s.raiseAs a b c d) := by
  unfold State.raiseAs
  extract_lets sev r s1 l1 l2 s2 s3 s4 s5 s6 s7
  have h1 : FaultOnly s s1 := s.recordFault_faultOnly r
  have h3 : FaultOnly s s3 := (h1.trans (t := s2) rfl).trans (State.logbook_faultOnly s2 _ _)
  have h7 : FaultOnly s s7 := by
    have h6 : FaultOnly s s6 := ((h3.trans (State.setBit_regsOnly s3 _ _).fault).trans (State.icuPulse_faultOnly s4 _)).trans (t := s6) rfl
    show FaultOnly s (if a = 0x55 then s6.wantBasic 0 0x55 else s6)
    split
    · exact h6.trans rfl
    · exact h6
  split
  · exact h3
  · split
    · exact h7.trans (State.enterSafe_faultOnly _ _ _)
    · exact h7

theorem State.raise_faultOnly (a c d : Nat) : FaultOnly s (s.raise a c d) := s.raiseAs_faultOnly a 0 c d

theorem State.cfg_faultOnly (off : Nat) : FaultOnly s (s.cfg off) := s.raise_faultOnly _ _ _

@[simp] theorem State.putWord_pending (off : Nat) (w : Word) : (s.putWord off w).pending = s.pending := rfl
@[simp] theorem State.putWord_clk (off : Nat) (w : Word) : (s.putWord off w).clk = s.clk := rfl
@[simp] theorem State.putWord_draws (off : Nat) (w : Word) : (s.putWord off w).draws = s.draws := rfl
@[simp] theorem State.putWord_force (off : Nat) (w : Word) : (s.putWord off w).force = s.force := rfl
@[simp] theorem State.putWord_latch (off : Nat) (w : Word) : (s.putWord off w).latch = s.latch := rfl
@[simp] theorem State.putWord_mgcWrites (off : Nat) (w : Word) : (s.putWord off w).mgcWrites = s.mgcWrites := rfl
@[simp] theorem State.putWord_resp (off : Nat) (w : Word) : (s.putWord off w).resp = s.resp := rfl
@[simp] theorem State.putWord_out (off : Nat) (w : Word) : (s.putWord off w).out = s.out := rfl
@[simp] theorem State.putWord_fc (off : Nat) (w : Word) : (s.putWord off w).fc = s.fc := rfl
@[simp] theorem State.putWord_icu (off : Nat) (w : Word) : (s.putWord off w).icu = s.icu := rfl
@[simp] theorem State.putWord_bu (off : Nat) (w : Word) : (s.putWord off w).bu = s.bu := rfl
@[simp] theorem State.putWord_tb (off : Nat) (w : Word) : (s.putWord off w).tb = s.tb := rfl
@[simp] theorem State.putWord_ppr (off : Nat) (w : Word) : (s.putWord off w).ppr = s.ppr := rfl
@[simp] theorem State.putWord_engines (off : Nat) (w : Word) : (s.putWord off w).engines = s.engines := rfl
@[simp] theorem State.putWord_regions (off : Nat) (w : Word) : (s.putWord off w).regions = s.regions := rfl
@[simp] theorem State.putWord_frames (off : Nat) (w : Word) : (s.putWord off w).frames = s.frames := rfl
@[simp] theorem State.putWord_refs (off : Nat) (w : Word) : (s.putWord off w).refs = s.refs := rfl
@[simp] theorem State.putWord_hist (off : Nat) (w : Word) : (s.putWord off w).hist = s.hist := rfl
@[simp] theorem State.putWord_queues (off : Nat) (w : Word) : (s.putWord off w).queues = s.queues := rfl
@[simp] theorem State.putWord_pools (off : Nat) (w : Word) : (s.putWord off w).pools = s.pools := rfl
@[simp] theorem State.putWord_dma (off : Nat) (w : Word) : (s.putWord off w).dma = s.dma := rfl
@[simp] theorem State.putWord_lmc (off : Nat) (w : Word) : (s.putWord off w).lmc = s.lmc := rfl
@[simp] theorem State.putWord_dram (off : Nat) (w : Word) : (s.putWord off w).dram = s.dram := rfl
@[simp] theorem State.putWord_poison (off : Nat) (w : Word) : (s.putWord off w).poison = s.poison := rfl
@[simp] theorem State.putWord_mag (off : Nat) (w : Word) : (s.putWord off w).mag = s.mag := rfl
@[simp] theorem State.putWord_cxl (off : Nat) (w : Word) : (s.putWord off w).cxl = s.cxl := rfl
@[simp] theorem State.putWord_hostMem (off : Nat) (w : Word) : (s.putWord off w).hostMem = s.hostMem := rfl
@[simp] theorem State.putWord_eth (off : Nat) (w : Word) : (s.putWord off w).eth = s.eth := rfl
@[simp] theorem State.putWord_proxy (off : Nat) (w : Word) : (s.putWord off w).proxy = s.proxy := rfl
@[simp] theorem State.putWord_ptp (off : Nat) (w : Word) : (s.putWord off w).ptp = s.ptp := rfl
@[simp] theorem State.putWord_hpp (off : Nat) (w : Word) : (s.putWord off w).hpp = s.hpp := rfl
@[simp] theorem State.putWord_can (off : Nat) (w : Word) : (s.putWord off w).can = s.can := rfl
@[simp] theorem State.putWord_clip (off : Nat) (w : Word) : (s.putWord off w).clip = s.clip := rfl
@[simp] theorem State.putWord_kpr (off : Nat) (w : Word) : (s.putWord off w).kpr = s.kpr := rfl
@[simp] theorem State.putWord_aon (off : Nat) (w : Word) : (s.putWord off w).aon = s.aon := rfl
@[simp] theorem State.putWord_log (off : Nat) (w : Word) : (s.putWord off w).log = s.log := rfl
@[simp] theorem State.putWord_nor (off : Nat) (w : Word) : (s.putWord off w).nor = s.nor := rfl
@[simp] theorem State.putWord_mgc (off : Nat) (w : Word) : (s.putWord off w).mgc = s.mgc := rfl
@[simp] theorem State.putWord_rstc (off : Nat) (w : Word) : (s.putWord off w).rstc = s.rstc := rfl
@[simp] theorem State.putWord_gang (off : Nat) (w : Word) : (s.putWord off w).gang = s.gang := rfl

@[simp] theorem State.set_pending (f : Fld) (v : Nat) : (s.set f v).pending = s.pending := (congrArg State.pending (s.set_regsOnly f v).eq :)
@[simp] theorem State.set_clk (f : Fld) (v : Nat) : (s.set f v).clk = s.clk := (congrArg State.clk (s.set_regsOnly f v).eq :)
@[simp] theorem State.set_draws (f : Fld) (v : Nat) : (s.set f v).draws = s.draws := (congrArg State.draws (s.set_regsOnly f v).eq :)
@[simp] theorem State.set_force (f : Fld) (v : Nat) : (s.set f v).force = s.force := (congrArg State.force (s.set_regsOnly f v).eq :)
@[simp] theorem State.set_latch (f : Fld) (v : Nat) : (s.set f v).latch = s.latch := (congrArg State.latch (s.set_regsOnly f v).eq :)
@[simp] theorem State.set_mgcWrites (f : Fld) (v : Nat) : (s.set f v).mgcWrites = s.mgcWrites := (congrArg State.mgcWrites (s.set_regsOnly f v).eq :)
@[simp] theorem State.set_resp (f : Fld) (v : Nat) : (s.set f v).resp = s.resp := (congrArg State.resp (s.set_regsOnly f v).eq :)
@[simp] theorem State.set_out (f : Fld) (v : Nat) : (s.set f v).out = s.out := (congrArg State.out (s.set_regsOnly f v).eq :)
@[simp] theorem State.set_fc (f : Fld) (v : Nat) : (s.set f v).fc = s.fc := (congrArg State.fc (s.set_regsOnly f v).eq :)
@[simp] theorem State.set_icu (f : Fld) (v : Nat) : (s.set f v).icu = s.icu := (congrArg State.icu (s.set_regsOnly f v).eq :)
@[simp] theorem State.set_bu (f : Fld) (v : Nat) : (s.set f v).bu = s.bu := (congrArg State.bu (s.set_regsOnly f v).eq :)
@[simp] theorem State.set_tb (f : Fld) (v : Nat) : (s.set f v).tb = s.tb := (congrArg State.tb (s.set_regsOnly f v).eq :)
@[simp] theorem State.set_ppr (f : Fld) (v : Nat) : (s.set f v).ppr = s.ppr := (congrArg State.ppr (s.set_regsOnly f v).eq :)
@[simp] theorem State.set_engines (f : Fld) (v : Nat) : (s.set f v).engines = s.engines := (congrArg State.engines (s.set_regsOnly f v).eq :)
@[simp] theorem State.set_regions (f : Fld) (v : Nat) : (s.set f v).regions = s.regions := (congrArg State.regions (s.set_regsOnly f v).eq :)
@[simp] theorem State.set_frames (f : Fld) (v : Nat) : (s.set f v).frames = s.frames := (congrArg State.frames (s.set_regsOnly f v).eq :)
@[simp] theorem State.set_refs (f : Fld) (v : Nat) : (s.set f v).refs = s.refs := (congrArg State.refs (s.set_regsOnly f v).eq :)
@[simp] theorem State.set_hist (f : Fld) (v : Nat) : (s.set f v).hist = s.hist := (congrArg State.hist (s.set_regsOnly f v).eq :)
@[simp] theorem State.set_queues (f : Fld) (v : Nat) : (s.set f v).queues = s.queues := (congrArg State.queues (s.set_regsOnly f v).eq :)
@[simp] theorem State.set_pools (f : Fld) (v : Nat) : (s.set f v).pools = s.pools := (congrArg State.pools (s.set_regsOnly f v).eq :)
@[simp] theorem State.set_dma (f : Fld) (v : Nat) : (s.set f v).dma = s.dma := (congrArg State.dma (s.set_regsOnly f v).eq :)
@[simp] theorem State.set_lmc (f : Fld) (v : Nat) : (s.set f v).lmc = s.lmc := (congrArg State.lmc (s.set_regsOnly f v).eq :)
@[simp] theorem State.set_dram (f : Fld) (v : Nat) : (s.set f v).dram = s.dram := (congrArg State.dram (s.set_regsOnly f v).eq :)
@[simp] theorem State.set_poison (f : Fld) (v : Nat) : (s.set f v).poison = s.poison := (congrArg State.poison (s.set_regsOnly f v).eq :)
@[simp] theorem State.set_mag (f : Fld) (v : Nat) : (s.set f v).mag = s.mag := (congrArg State.mag (s.set_regsOnly f v).eq :)
@[simp] theorem State.set_cxl (f : Fld) (v : Nat) : (s.set f v).cxl = s.cxl := (congrArg State.cxl (s.set_regsOnly f v).eq :)
@[simp] theorem State.set_hostMem (f : Fld) (v : Nat) : (s.set f v).hostMem = s.hostMem := (congrArg State.hostMem (s.set_regsOnly f v).eq :)
@[simp] theorem State.set_eth (f : Fld) (v : Nat) : (s.set f v).eth = s.eth := (congrArg State.eth (s.set_regsOnly f v).eq :)
@[simp] theorem State.set_proxy (f : Fld) (v : Nat) : (s.set f v).proxy = s.proxy := (congrArg State.proxy (s.set_regsOnly f v).eq :)
@[simp] theorem State.set_ptp (f : Fld) (v : Nat) : (s.set f v).ptp = s.ptp := (congrArg State.ptp (s.set_regsOnly f v).eq :)
@[simp] theorem State.set_hpp (f : Fld) (v : Nat) : (s.set f v).hpp = s.hpp := (congrArg State.hpp (s.set_regsOnly f v).eq :)
@[simp] theorem State.set_can (f : Fld) (v : Nat) : (s.set f v).can = s.can := (congrArg State.can (s.set_regsOnly f v).eq :)
@[simp] theorem State.set_clip (f : Fld) (v : Nat) : (s.set f v).clip = s.clip := (congrArg State.clip (s.set_regsOnly f v).eq :)
@[simp] theorem State.set_kpr (f : Fld) (v : Nat) : (s.set f v).kpr = s.kpr := (congrArg State.kpr (s.set_regsOnly f v).eq :)
@[simp] theorem State.set_aon (f : Fld) (v : Nat) : (s.set f v).aon = s.aon := (congrArg State.aon (s.set_regsOnly f v).eq :)
@[simp] theorem State.set_log (f : Fld) (v : Nat) : (s.set f v).log = s.log := (congrArg State.log (s.set_regsOnly f v).eq :)
@[simp] theorem State.set_nor (f : Fld) (v : Nat) : (s.set f v).nor = s.nor := (congrArg State.nor (s.set_regsOnly f v).eq :)
@[simp] theorem State.set_mgc (f : Fld) (v : Nat) : (s.set f v).mgc = s.mgc := (congrArg State.mgc (s.set_regsOnly f v).eq :)
@[simp] theorem State.set_rstc (f : Fld) (v : Nat) : (s.set f v).rstc = s.rstc := (congrArg State.rstc (s.set_regsOnly f v).eq :)
@[simp] theorem State.set_gang (f : Fld) (v : Nat) : (s.set f v).gang = s.gang := (congrArg State.gang (s.set_regsOnly f v).eq :)

@[simp] theorem State.inc_pending (f : Fld) : (s.inc f).pending = s.pending := (congrArg State.pending (s.inc_regsOnly f).eq :)
@[simp] theorem State.inc_clk (f : Fld) : (s.inc f).clk = s.clk := (congrArg State.clk (s.inc_regsOnly f).eq :)
@[simp] theorem State.inc_draws (f : Fld) : (s.inc f).draws = s.draws := (congrArg State.draws (s.inc_regsOnly f).eq :)
@[simp] theorem State.inc_force (f : Fld) : (s.inc f).force = s.force := (congrArg State.force (s.inc_regsOnly f).eq :)
@[simp] theorem State.inc_latch (f : Fld) : (s.inc f).latch = s.latch := (congrArg State.latch (s.inc_regsOnly f).eq :)
@[simp] theorem State.inc_mgcWrites (f : Fld) : (s.inc f).mgcWrites = s.mgcWrites := (congrArg State.mgcWrites (s.inc_regsOnly f).eq :)
@[simp] theorem State.inc_resp (f : Fld) : (s.inc f).resp = s.resp := (congrArg State.resp (s.inc_regsOnly f).eq :)
@[simp] theorem State.inc_out (f : Fld) : (s.inc f).out = s.out := (congrArg State.out (s.inc_regsOnly f).eq :)
@[simp] theorem State.inc_fc (f : Fld) : (s.inc f).fc = s.fc := (congrArg State.fc (s.inc_regsOnly f).eq :)
@[simp] theorem State.inc_icu (f : Fld) : (s.inc f).icu = s.icu := (congrArg State.icu (s.inc_regsOnly f).eq :)
@[simp] theorem State.inc_bu (f : Fld) : (s.inc f).bu = s.bu := (congrArg State.bu (s.inc_regsOnly f).eq :)
@[simp] theorem State.inc_tb (f : Fld) : (s.inc f).tb = s.tb := (congrArg State.tb (s.inc_regsOnly f).eq :)
@[simp] theorem State.inc_ppr (f : Fld) : (s.inc f).ppr = s.ppr := (congrArg State.ppr (s.inc_regsOnly f).eq :)
@[simp] theorem State.inc_engines (f : Fld) : (s.inc f).engines = s.engines := (congrArg State.engines (s.inc_regsOnly f).eq :)
@[simp] theorem State.inc_regions (f : Fld) : (s.inc f).regions = s.regions := (congrArg State.regions (s.inc_regsOnly f).eq :)
@[simp] theorem State.inc_frames (f : Fld) : (s.inc f).frames = s.frames := (congrArg State.frames (s.inc_regsOnly f).eq :)
@[simp] theorem State.inc_refs (f : Fld) : (s.inc f).refs = s.refs := (congrArg State.refs (s.inc_regsOnly f).eq :)
@[simp] theorem State.inc_hist (f : Fld) : (s.inc f).hist = s.hist := (congrArg State.hist (s.inc_regsOnly f).eq :)
@[simp] theorem State.inc_queues (f : Fld) : (s.inc f).queues = s.queues := (congrArg State.queues (s.inc_regsOnly f).eq :)
@[simp] theorem State.inc_pools (f : Fld) : (s.inc f).pools = s.pools := (congrArg State.pools (s.inc_regsOnly f).eq :)
@[simp] theorem State.inc_dma (f : Fld) : (s.inc f).dma = s.dma := (congrArg State.dma (s.inc_regsOnly f).eq :)
@[simp] theorem State.inc_lmc (f : Fld) : (s.inc f).lmc = s.lmc := (congrArg State.lmc (s.inc_regsOnly f).eq :)
@[simp] theorem State.inc_dram (f : Fld) : (s.inc f).dram = s.dram := (congrArg State.dram (s.inc_regsOnly f).eq :)
@[simp] theorem State.inc_poison (f : Fld) : (s.inc f).poison = s.poison := (congrArg State.poison (s.inc_regsOnly f).eq :)
@[simp] theorem State.inc_mag (f : Fld) : (s.inc f).mag = s.mag := (congrArg State.mag (s.inc_regsOnly f).eq :)
@[simp] theorem State.inc_cxl (f : Fld) : (s.inc f).cxl = s.cxl := (congrArg State.cxl (s.inc_regsOnly f).eq :)
@[simp] theorem State.inc_hostMem (f : Fld) : (s.inc f).hostMem = s.hostMem := (congrArg State.hostMem (s.inc_regsOnly f).eq :)
@[simp] theorem State.inc_eth (f : Fld) : (s.inc f).eth = s.eth := (congrArg State.eth (s.inc_regsOnly f).eq :)
@[simp] theorem State.inc_proxy (f : Fld) : (s.inc f).proxy = s.proxy := (congrArg State.proxy (s.inc_regsOnly f).eq :)
@[simp] theorem State.inc_ptp (f : Fld) : (s.inc f).ptp = s.ptp := (congrArg State.ptp (s.inc_regsOnly f).eq :)
@[simp] theorem State.inc_hpp (f : Fld) : (s.inc f).hpp = s.hpp := (congrArg State.hpp (s.inc_regsOnly f).eq :)
@[simp] theorem State.inc_can (f : Fld) : (s.inc f).can = s.can := (congrArg State.can (s.inc_regsOnly f).eq :)
@[simp] theorem State.inc_clip (f : Fld) : (s.inc f).clip = s.clip := (congrArg State.clip (s.inc_regsOnly f).eq :)
@[simp] theorem State.inc_kpr (f : Fld) : (s.inc f).kpr = s.kpr := (congrArg State.kpr (s.inc_regsOnly f).eq :)
@[simp] theorem State.inc_aon (f : Fld) : (s.inc f).aon = s.aon := (congrArg State.aon (s.inc_regsOnly f).eq :)
@[simp] theorem State.inc_log (f : Fld) : (s.inc f).log = s.log := (congrArg State.log (s.inc_regsOnly f).eq :)
@[simp] theorem State.inc_nor (f : Fld) : (s.inc f).nor = s.nor := (congrArg State.nor (s.inc_regsOnly f).eq :)
@[simp] theorem State.inc_mgc (f : Fld) : (s.inc f).mgc = s.mgc := (congrArg State.mgc (s.inc_regsOnly f).eq :)
@[simp] theorem State.inc_rstc (f : Fld) : (s.inc f).rstc = s.rstc := (congrArg State.rstc (s.inc_regsOnly f).eq :)
@[simp] theorem State.inc_gang (f : Fld) : (s.inc f).gang = s.gang := (congrArg State.gang (s.inc_regsOnly f).eq :)

@[simp] theorem State.setBit_pending (f : Fld) (i : Nat) : (s.setBit f i).pending = s.pending := (congrArg State.pending (s.setBit_regsOnly f i).eq :)
@[simp] theorem State.setBit_clk (f : Fld) (i : Nat) : (s.setBit f i).clk = s.clk := (congrArg State.clk (s.setBit_regsOnly f i).eq :)
@[simp] theorem State.setBit_draws (f : Fld) (i : Nat) : (s.setBit f i).draws = s.draws := (congrArg State.draws (s.setBit_regsOnly f i).eq :)
@[simp] theorem State.setBit_force (f : Fld) (i : Nat) : (s.setBit f i).force = s.force := (congrArg State.force (s.setBit_regsOnly f i).eq :)
@[simp] theorem State.setBit_latch (f : Fld) (i : Nat) : (s.setBit f i).latch = s.latch := (congrArg State.latch (s.setBit_regsOnly f i).eq :)
@[simp] theorem State.setBit_mgcWrites (f : Fld) (i : Nat) : (s.setBit f i).mgcWrites = s.mgcWrites := (congrArg State.mgcWrites (s.setBit_regsOnly f i).eq :)
@[simp] theorem State.setBit_resp (f : Fld) (i : Nat) : (s.setBit f i).resp = s.resp := (congrArg State.resp (s.setBit_regsOnly f i).eq :)
@[simp] theorem State.setBit_out (f : Fld) (i : Nat) : (s.setBit f i).out = s.out := (congrArg State.out (s.setBit_regsOnly f i).eq :)
@[simp] theorem State.setBit_fc (f : Fld) (i : Nat) : (s.setBit f i).fc = s.fc := (congrArg State.fc (s.setBit_regsOnly f i).eq :)
@[simp] theorem State.setBit_icu (f : Fld) (i : Nat) : (s.setBit f i).icu = s.icu := (congrArg State.icu (s.setBit_regsOnly f i).eq :)
@[simp] theorem State.setBit_bu (f : Fld) (i : Nat) : (s.setBit f i).bu = s.bu := (congrArg State.bu (s.setBit_regsOnly f i).eq :)
@[simp] theorem State.setBit_tb (f : Fld) (i : Nat) : (s.setBit f i).tb = s.tb := (congrArg State.tb (s.setBit_regsOnly f i).eq :)
@[simp] theorem State.setBit_ppr (f : Fld) (i : Nat) : (s.setBit f i).ppr = s.ppr := (congrArg State.ppr (s.setBit_regsOnly f i).eq :)
@[simp] theorem State.setBit_engines (f : Fld) (i : Nat) : (s.setBit f i).engines = s.engines := (congrArg State.engines (s.setBit_regsOnly f i).eq :)
@[simp] theorem State.setBit_regions (f : Fld) (i : Nat) : (s.setBit f i).regions = s.regions := (congrArg State.regions (s.setBit_regsOnly f i).eq :)
@[simp] theorem State.setBit_frames (f : Fld) (i : Nat) : (s.setBit f i).frames = s.frames := (congrArg State.frames (s.setBit_regsOnly f i).eq :)
@[simp] theorem State.setBit_refs (f : Fld) (i : Nat) : (s.setBit f i).refs = s.refs := (congrArg State.refs (s.setBit_regsOnly f i).eq :)
@[simp] theorem State.setBit_hist (f : Fld) (i : Nat) : (s.setBit f i).hist = s.hist := (congrArg State.hist (s.setBit_regsOnly f i).eq :)
@[simp] theorem State.setBit_queues (f : Fld) (i : Nat) : (s.setBit f i).queues = s.queues := (congrArg State.queues (s.setBit_regsOnly f i).eq :)
@[simp] theorem State.setBit_pools (f : Fld) (i : Nat) : (s.setBit f i).pools = s.pools := (congrArg State.pools (s.setBit_regsOnly f i).eq :)
@[simp] theorem State.setBit_dma (f : Fld) (i : Nat) : (s.setBit f i).dma = s.dma := (congrArg State.dma (s.setBit_regsOnly f i).eq :)
@[simp] theorem State.setBit_lmc (f : Fld) (i : Nat) : (s.setBit f i).lmc = s.lmc := (congrArg State.lmc (s.setBit_regsOnly f i).eq :)
@[simp] theorem State.setBit_dram (f : Fld) (i : Nat) : (s.setBit f i).dram = s.dram := (congrArg State.dram (s.setBit_regsOnly f i).eq :)
@[simp] theorem State.setBit_poison (f : Fld) (i : Nat) : (s.setBit f i).poison = s.poison := (congrArg State.poison (s.setBit_regsOnly f i).eq :)
@[simp] theorem State.setBit_mag (f : Fld) (i : Nat) : (s.setBit f i).mag = s.mag := (congrArg State.mag (s.setBit_regsOnly f i).eq :)
@[simp] theorem State.setBit_cxl (f : Fld) (i : Nat) : (s.setBit f i).cxl = s.cxl := (congrArg State.cxl (s.setBit_regsOnly f i).eq :)
@[simp] theorem State.setBit_hostMem (f : Fld) (i : Nat) : (s.setBit f i).hostMem = s.hostMem := (congrArg State.hostMem (s.setBit_regsOnly f i).eq :)
@[simp] theorem State.setBit_eth (f : Fld) (i : Nat) : (s.setBit f i).eth = s.eth := (congrArg State.eth (s.setBit_regsOnly f i).eq :)
@[simp] theorem State.setBit_proxy (f : Fld) (i : Nat) : (s.setBit f i).proxy = s.proxy := (congrArg State.proxy (s.setBit_regsOnly f i).eq :)
@[simp] theorem State.setBit_ptp (f : Fld) (i : Nat) : (s.setBit f i).ptp = s.ptp := (congrArg State.ptp (s.setBit_regsOnly f i).eq :)
@[simp] theorem State.setBit_hpp (f : Fld) (i : Nat) : (s.setBit f i).hpp = s.hpp := (congrArg State.hpp (s.setBit_regsOnly f i).eq :)
@[simp] theorem State.setBit_can (f : Fld) (i : Nat) : (s.setBit f i).can = s.can := (congrArg State.can (s.setBit_regsOnly f i).eq :)
@[simp] theorem State.setBit_clip (f : Fld) (i : Nat) : (s.setBit f i).clip = s.clip := (congrArg State.clip (s.setBit_regsOnly f i).eq :)
@[simp] theorem State.setBit_kpr (f : Fld) (i : Nat) : (s.setBit f i).kpr = s.kpr := (congrArg State.kpr (s.setBit_regsOnly f i).eq :)
@[simp] theorem State.setBit_aon (f : Fld) (i : Nat) : (s.setBit f i).aon = s.aon := (congrArg State.aon (s.setBit_regsOnly f i).eq :)
@[simp] theorem State.setBit_log (f : Fld) (i : Nat) : (s.setBit f i).log = s.log := (congrArg State.log (s.setBit_regsOnly f i).eq :)
@[simp] theorem State.setBit_nor (f : Fld) (i : Nat) : (s.setBit f i).nor = s.nor := (congrArg State.nor (s.setBit_regsOnly f i).eq :)
@[simp] theorem State.setBit_mgc (f : Fld) (i : Nat) : (s.setBit f i).mgc = s.mgc := (congrArg State.mgc (s.setBit_regsOnly f i).eq :)
@[simp] theorem State.setBit_rstc (f : Fld) (i : Nat) : (s.setBit f i).rstc = s.rstc := (congrArg State.rstc (s.setBit_regsOnly f i).eq :)
@[simp] theorem State.setBit_gang (f : Fld) (i : Nat) : (s.setBit f i).gang = s.gang := (congrArg State.gang (s.setBit_regsOnly f i).eq :)

@[simp] theorem State.clearBit_pending (f : Fld) (i : Nat) : (s.clearBit f i).pending = s.pending := (congrArg State.pending (s.clearBit_regsOnly f i).eq :)
@[simp] theorem State.clearBit_clk (f : Fld) (i : Nat) : (s.clearBit f i).clk = s.clk := (congrArg State.clk (s.clearBit_regsOnly f i).eq :)
@[simp] theorem State.clearBit_draws (f : Fld) (i : Nat) : (s.clearBit f i).draws = s.draws := (congrArg State.draws (s.clearBit_regsOnly f i).eq :)
@[simp] theorem State.clearBit_force (f : Fld) (i : Nat) : (s.clearBit f i).force = s.force := (congrArg State.force (s.clearBit_regsOnly f i).eq :)
@[simp] theorem State.clearBit_latch (f : Fld) (i : Nat) : (s.clearBit f i).latch = s.latch := (congrArg State.latch (s.clearBit_regsOnly f i).eq :)
@[simp] theorem State.clearBit_mgcWrites (f : Fld) (i : Nat) : (s.clearBit f i).mgcWrites = s.mgcWrites := (congrArg State.mgcWrites (s.clearBit_regsOnly f i).eq :)
@[simp] theorem State.clearBit_resp (f : Fld) (i : Nat) : (s.clearBit f i).resp = s.resp := (congrArg State.resp (s.clearBit_regsOnly f i).eq :)
@[simp] theorem State.clearBit_out (f : Fld) (i : Nat) : (s.clearBit f i).out = s.out := (congrArg State.out (s.clearBit_regsOnly f i).eq :)
@[simp] theorem State.clearBit_fc (f : Fld) (i : Nat) : (s.clearBit f i).fc = s.fc := (congrArg State.fc (s.clearBit_regsOnly f i).eq :)
@[simp] theorem State.clearBit_icu (f : Fld) (i : Nat) : (s.clearBit f i).icu = s.icu := (congrArg State.icu (s.clearBit_regsOnly f i).eq :)
@[simp] theorem State.clearBit_bu (f : Fld) (i : Nat) : (s.clearBit f i).bu = s.bu := (congrArg State.bu (s.clearBit_regsOnly f i).eq :)
@[simp] theorem State.clearBit_tb (f : Fld) (i : Nat) : (s.clearBit f i).tb = s.tb := (congrArg State.tb (s.clearBit_regsOnly f i).eq :)
@[simp] theorem State.clearBit_ppr (f : Fld) (i : Nat) : (s.clearBit f i).ppr = s.ppr := (congrArg State.ppr (s.clearBit_regsOnly f i).eq :)
@[simp] theorem State.clearBit_engines (f : Fld) (i : Nat) : (s.clearBit f i).engines = s.engines := (congrArg State.engines (s.clearBit_regsOnly f i).eq :)
@[simp] theorem State.clearBit_regions (f : Fld) (i : Nat) : (s.clearBit f i).regions = s.regions := (congrArg State.regions (s.clearBit_regsOnly f i).eq :)
@[simp] theorem State.clearBit_frames (f : Fld) (i : Nat) : (s.clearBit f i).frames = s.frames := (congrArg State.frames (s.clearBit_regsOnly f i).eq :)
@[simp] theorem State.clearBit_refs (f : Fld) (i : Nat) : (s.clearBit f i).refs = s.refs := (congrArg State.refs (s.clearBit_regsOnly f i).eq :)
@[simp] theorem State.clearBit_hist (f : Fld) (i : Nat) : (s.clearBit f i).hist = s.hist := (congrArg State.hist (s.clearBit_regsOnly f i).eq :)
@[simp] theorem State.clearBit_queues (f : Fld) (i : Nat) : (s.clearBit f i).queues = s.queues := (congrArg State.queues (s.clearBit_regsOnly f i).eq :)
@[simp] theorem State.clearBit_pools (f : Fld) (i : Nat) : (s.clearBit f i).pools = s.pools := (congrArg State.pools (s.clearBit_regsOnly f i).eq :)
@[simp] theorem State.clearBit_dma (f : Fld) (i : Nat) : (s.clearBit f i).dma = s.dma := (congrArg State.dma (s.clearBit_regsOnly f i).eq :)
@[simp] theorem State.clearBit_lmc (f : Fld) (i : Nat) : (s.clearBit f i).lmc = s.lmc := (congrArg State.lmc (s.clearBit_regsOnly f i).eq :)
@[simp] theorem State.clearBit_dram (f : Fld) (i : Nat) : (s.clearBit f i).dram = s.dram := (congrArg State.dram (s.clearBit_regsOnly f i).eq :)
@[simp] theorem State.clearBit_poison (f : Fld) (i : Nat) : (s.clearBit f i).poison = s.poison := (congrArg State.poison (s.clearBit_regsOnly f i).eq :)
@[simp] theorem State.clearBit_mag (f : Fld) (i : Nat) : (s.clearBit f i).mag = s.mag := (congrArg State.mag (s.clearBit_regsOnly f i).eq :)
@[simp] theorem State.clearBit_cxl (f : Fld) (i : Nat) : (s.clearBit f i).cxl = s.cxl := (congrArg State.cxl (s.clearBit_regsOnly f i).eq :)
@[simp] theorem State.clearBit_hostMem (f : Fld) (i : Nat) : (s.clearBit f i).hostMem = s.hostMem := (congrArg State.hostMem (s.clearBit_regsOnly f i).eq :)
@[simp] theorem State.clearBit_eth (f : Fld) (i : Nat) : (s.clearBit f i).eth = s.eth := (congrArg State.eth (s.clearBit_regsOnly f i).eq :)
@[simp] theorem State.clearBit_proxy (f : Fld) (i : Nat) : (s.clearBit f i).proxy = s.proxy := (congrArg State.proxy (s.clearBit_regsOnly f i).eq :)
@[simp] theorem State.clearBit_ptp (f : Fld) (i : Nat) : (s.clearBit f i).ptp = s.ptp := (congrArg State.ptp (s.clearBit_regsOnly f i).eq :)
@[simp] theorem State.clearBit_hpp (f : Fld) (i : Nat) : (s.clearBit f i).hpp = s.hpp := (congrArg State.hpp (s.clearBit_regsOnly f i).eq :)
@[simp] theorem State.clearBit_can (f : Fld) (i : Nat) : (s.clearBit f i).can = s.can := (congrArg State.can (s.clearBit_regsOnly f i).eq :)
@[simp] theorem State.clearBit_clip (f : Fld) (i : Nat) : (s.clearBit f i).clip = s.clip := (congrArg State.clip (s.clearBit_regsOnly f i).eq :)
@[simp] theorem State.clearBit_kpr (f : Fld) (i : Nat) : (s.clearBit f i).kpr = s.kpr := (congrArg State.kpr (s.clearBit_regsOnly f i).eq :)
@[simp] theorem State.clearBit_aon (f : Fld) (i : Nat) : (s.clearBit f i).aon = s.aon := (congrArg State.aon (s.clearBit_regsOnly f i).eq :)
@[simp] theorem State.clearBit_log (f : Fld) (i : Nat) : (s.clearBit f i).log = s.log := (congrArg State.log (s.clearBit_regsOnly f i).eq :)
@[simp] theorem State.clearBit_nor (f : Fld) (i : Nat) : (s.clearBit f i).nor = s.nor := (congrArg State.nor (s.clearBit_regsOnly f i).eq :)
@[simp] theorem State.clearBit_mgc (f : Fld) (i : Nat) : (s.clearBit f i).mgc = s.mgc := (congrArg State.mgc (s.clearBit_regsOnly f i).eq :)
@[simp] theorem State.clearBit_rstc (f : Fld) (i : Nat) : (s.clearBit f i).rstc = s.rstc := (congrArg State.rstc (s.clearBit_regsOnly f i).eq :)
@[simp] theorem State.clearBit_gang (f : Fld) (i : Nat) : (s.clearBit f i).gang = s.gang := (congrArg State.gang (s.clearBit_regsOnly f i).eq :)

@[simp] theorem State.clear_pending (l : List Fld) : (s.clear l).pending = s.pending := (congrArg State.pending (s.clear_regsOnly l).eq :)
@[simp] theorem State.clear_clk (l : List Fld) : (s.clear l).clk = s.clk := (congrArg State.clk (s.clear_regsOnly l).eq :)
@[simp] theorem State.clear_draws (l : List Fld) : (s.clear l).draws = s.draws := (congrArg State.draws (s.clear_regsOnly l).eq :)
@[simp] theorem State.clear_force (l : List Fld) : (s.clear l).force = s.force := (congrArg State.force (s.clear_regsOnly l).eq :)
@[simp] theorem State.clear_latch (l : List Fld) : (s.clear l).latch = s.latch := (congrArg State.latch (s.clear_regsOnly l).eq :)
@[simp] theorem State.clear_mgcWrites (l : List Fld) : (s.clear l).mgcWrites = s.mgcWrites := (congrArg State.mgcWrites (s.clear_regsOnly l).eq :)
@[simp] theorem State.clear_resp (l : List Fld) : (s.clear l).resp = s.resp := (congrArg State.resp (s.clear_regsOnly l).eq :)
@[simp] theorem State.clear_out (l : List Fld) : (s.clear l).out = s.out := (congrArg State.out (s.clear_regsOnly l).eq :)
@[simp] theorem State.clear_fc (l : List Fld) : (s.clear l).fc = s.fc := (congrArg State.fc (s.clear_regsOnly l).eq :)
@[simp] theorem State.clear_icu (l : List Fld) : (s.clear l).icu = s.icu := (congrArg State.icu (s.clear_regsOnly l).eq :)
@[simp] theorem State.clear_bu (l : List Fld) : (s.clear l).bu = s.bu := (congrArg State.bu (s.clear_regsOnly l).eq :)
@[simp] theorem State.clear_tb (l : List Fld) : (s.clear l).tb = s.tb := (congrArg State.tb (s.clear_regsOnly l).eq :)
@[simp] theorem State.clear_ppr (l : List Fld) : (s.clear l).ppr = s.ppr := (congrArg State.ppr (s.clear_regsOnly l).eq :)
@[simp] theorem State.clear_engines (l : List Fld) : (s.clear l).engines = s.engines := (congrArg State.engines (s.clear_regsOnly l).eq :)
@[simp] theorem State.clear_regions (l : List Fld) : (s.clear l).regions = s.regions := (congrArg State.regions (s.clear_regsOnly l).eq :)
@[simp] theorem State.clear_frames (l : List Fld) : (s.clear l).frames = s.frames := (congrArg State.frames (s.clear_regsOnly l).eq :)
@[simp] theorem State.clear_refs (l : List Fld) : (s.clear l).refs = s.refs := (congrArg State.refs (s.clear_regsOnly l).eq :)
@[simp] theorem State.clear_hist (l : List Fld) : (s.clear l).hist = s.hist := (congrArg State.hist (s.clear_regsOnly l).eq :)
@[simp] theorem State.clear_queues (l : List Fld) : (s.clear l).queues = s.queues := (congrArg State.queues (s.clear_regsOnly l).eq :)
@[simp] theorem State.clear_pools (l : List Fld) : (s.clear l).pools = s.pools := (congrArg State.pools (s.clear_regsOnly l).eq :)
@[simp] theorem State.clear_dma (l : List Fld) : (s.clear l).dma = s.dma := (congrArg State.dma (s.clear_regsOnly l).eq :)
@[simp] theorem State.clear_lmc (l : List Fld) : (s.clear l).lmc = s.lmc := (congrArg State.lmc (s.clear_regsOnly l).eq :)
@[simp] theorem State.clear_dram (l : List Fld) : (s.clear l).dram = s.dram := (congrArg State.dram (s.clear_regsOnly l).eq :)
@[simp] theorem State.clear_poison (l : List Fld) : (s.clear l).poison = s.poison := (congrArg State.poison (s.clear_regsOnly l).eq :)
@[simp] theorem State.clear_mag (l : List Fld) : (s.clear l).mag = s.mag := (congrArg State.mag (s.clear_regsOnly l).eq :)
@[simp] theorem State.clear_cxl (l : List Fld) : (s.clear l).cxl = s.cxl := (congrArg State.cxl (s.clear_regsOnly l).eq :)
@[simp] theorem State.clear_hostMem (l : List Fld) : (s.clear l).hostMem = s.hostMem := (congrArg State.hostMem (s.clear_regsOnly l).eq :)
@[simp] theorem State.clear_eth (l : List Fld) : (s.clear l).eth = s.eth := (congrArg State.eth (s.clear_regsOnly l).eq :)
@[simp] theorem State.clear_proxy (l : List Fld) : (s.clear l).proxy = s.proxy := (congrArg State.proxy (s.clear_regsOnly l).eq :)
@[simp] theorem State.clear_ptp (l : List Fld) : (s.clear l).ptp = s.ptp := (congrArg State.ptp (s.clear_regsOnly l).eq :)
@[simp] theorem State.clear_hpp (l : List Fld) : (s.clear l).hpp = s.hpp := (congrArg State.hpp (s.clear_regsOnly l).eq :)
@[simp] theorem State.clear_can (l : List Fld) : (s.clear l).can = s.can := (congrArg State.can (s.clear_regsOnly l).eq :)
@[simp] theorem State.clear_clip (l : List Fld) : (s.clear l).clip = s.clip := (congrArg State.clip (s.clear_regsOnly l).eq :)
@[simp] theorem State.clear_kpr (l : List Fld) : (s.clear l).kpr = s.kpr := (congrArg State.kpr (s.clear_regsOnly l).eq :)
@[simp] theorem State.clear_aon (l : List Fld) : (s.clear l).aon = s.aon := (congrArg State.aon (s.clear_regsOnly l).eq :)
@[simp] theorem State.clear_log (l : List Fld) : (s.clear l).log = s.log := (congrArg State.log (s.clear_regsOnly l).eq :)
@[simp] theorem State.clear_nor (l : List Fld) : (s.clear l).nor = s.nor := (congrArg State.nor (s.clear_regsOnly l).eq :)
@[simp] theorem State.clear_mgc (l : List Fld) : (s.clear l).mgc = s.mgc := (congrArg State.mgc (s.clear_regsOnly l).eq :)
@[simp] theorem State.clear_rstc (l : List Fld) : (s.clear l).rstc = s.rstc := (congrArg State.rstc (s.clear_regsOnly l).eq :)
@[simp] theorem State.clear_gang (l : List Fld) : (s.clear l).gang = s.gang := (congrArg State.gang (s.clear_regsOnly l).eq :)

@[simp] theorem State.putForce_pending (off : Nat) (w : Word) : (s.putForce off w).pending = s.pending := rfl
@[simp] theorem State.putForce_clk (off : Nat) (w : Word) : (s.putForce off w).clk = s.clk := rfl
@[simp] theorem State.putForce_draws (off : Nat) (w : Word) : (s.putForce off w).draws = s.draws := rfl
@[simp] theorem State.putForce_regs (off : Nat) (w : Word) : (s.putForce off w).regs = s.regs := rfl
@[simp] theorem State.putForce_latch (off : Nat) (w : Word) : (s.putForce off w).latch = s.latch := rfl
@[simp] theorem State.putForce_mgcWrites (off : Nat) (w : Word) : (s.putForce off w).mgcWrites = s.mgcWrites := rfl
@[simp] theorem State.putForce_resp (off : Nat) (w : Word) : (s.putForce off w).resp = s.resp := rfl
@[simp] theorem State.putForce_out (off : Nat) (w : Word) : (s.putForce off w).out = s.out := rfl
@[simp] theorem State.putForce_fc (off : Nat) (w : Word) : (s.putForce off w).fc = s.fc := rfl
@[simp] theorem State.putForce_icu (off : Nat) (w : Word) : (s.putForce off w).icu = s.icu := rfl
@[simp] theorem State.putForce_bu (off : Nat) (w : Word) : (s.putForce off w).bu = s.bu := rfl
@[simp] theorem State.putForce_tb (off : Nat) (w : Word) : (s.putForce off w).tb = s.tb := rfl
@[simp] theorem State.putForce_ppr (off : Nat) (w : Word) : (s.putForce off w).ppr = s.ppr := rfl
@[simp] theorem State.putForce_engines (off : Nat) (w : Word) : (s.putForce off w).engines = s.engines := rfl
@[simp] theorem State.putForce_regions (off : Nat) (w : Word) : (s.putForce off w).regions = s.regions := rfl
@[simp] theorem State.putForce_frames (off : Nat) (w : Word) : (s.putForce off w).frames = s.frames := rfl
@[simp] theorem State.putForce_refs (off : Nat) (w : Word) : (s.putForce off w).refs = s.refs := rfl
@[simp] theorem State.putForce_hist (off : Nat) (w : Word) : (s.putForce off w).hist = s.hist := rfl
@[simp] theorem State.putForce_queues (off : Nat) (w : Word) : (s.putForce off w).queues = s.queues := rfl
@[simp] theorem State.putForce_pools (off : Nat) (w : Word) : (s.putForce off w).pools = s.pools := rfl
@[simp] theorem State.putForce_dma (off : Nat) (w : Word) : (s.putForce off w).dma = s.dma := rfl
@[simp] theorem State.putForce_lmc (off : Nat) (w : Word) : (s.putForce off w).lmc = s.lmc := rfl
@[simp] theorem State.putForce_dram (off : Nat) (w : Word) : (s.putForce off w).dram = s.dram := rfl
@[simp] theorem State.putForce_poison (off : Nat) (w : Word) : (s.putForce off w).poison = s.poison := rfl
@[simp] theorem State.putForce_mag (off : Nat) (w : Word) : (s.putForce off w).mag = s.mag := rfl
@[simp] theorem State.putForce_cxl (off : Nat) (w : Word) : (s.putForce off w).cxl = s.cxl := rfl
@[simp] theorem State.putForce_hostMem (off : Nat) (w : Word) : (s.putForce off w).hostMem = s.hostMem := rfl
@[simp] theorem State.putForce_eth (off : Nat) (w : Word) : (s.putForce off w).eth = s.eth := rfl
@[simp] theorem State.putForce_proxy (off : Nat) (w : Word) : (s.putForce off w).proxy = s.proxy := rfl
@[simp] theorem State.putForce_ptp (off : Nat) (w : Word) : (s.putForce off w).ptp = s.ptp := rfl
@[simp] theorem State.putForce_hpp (off : Nat) (w : Word) : (s.putForce off w).hpp = s.hpp := rfl
@[simp] theorem State.putForce_can (off : Nat) (w : Word) : (s.putForce off w).can = s.can := rfl
@[simp] theorem State.putForce_clip (off : Nat) (w : Word) : (s.putForce off w).clip = s.clip := rfl
@[simp] theorem State.putForce_kpr (off : Nat) (w : Word) : (s.putForce off w).kpr = s.kpr := rfl
@[simp] theorem State.putForce_aon (off : Nat) (w : Word) : (s.putForce off w).aon = s.aon := rfl
@[simp] theorem State.putForce_log (off : Nat) (w : Word) : (s.putForce off w).log = s.log := rfl
@[simp] theorem State.putForce_nor (off : Nat) (w : Word) : (s.putForce off w).nor = s.nor := rfl
@[simp] theorem State.putForce_mgc (off : Nat) (w : Word) : (s.putForce off w).mgc = s.mgc := rfl
@[simp] theorem State.putForce_rstc (off : Nat) (w : Word) : (s.putForce off w).rstc = s.rstc := rfl
@[simp] theorem State.putForce_gang (off : Nat) (w : Word) : (s.putForce off w).gang = s.gang := rfl

@[simp] theorem State.emit_pending (m : OutMsg) : (s.emit m).pending = s.pending := rfl
@[simp] theorem State.emit_clk (m : OutMsg) : (s.emit m).clk = s.clk := rfl
@[simp] theorem State.emit_draws (m : OutMsg) : (s.emit m).draws = s.draws := rfl
@[simp] theorem State.emit_regs (m : OutMsg) : (s.emit m).regs = s.regs := rfl
@[simp] theorem State.emit_force (m : OutMsg) : (s.emit m).force = s.force := rfl
@[simp] theorem State.emit_latch (m : OutMsg) : (s.emit m).latch = s.latch := rfl
@[simp] theorem State.emit_mgcWrites (m : OutMsg) : (s.emit m).mgcWrites = s.mgcWrites := rfl
@[simp] theorem State.emit_resp (m : OutMsg) : (s.emit m).resp = s.resp := rfl
@[simp] theorem State.emit_fc (m : OutMsg) : (s.emit m).fc = s.fc := rfl
@[simp] theorem State.emit_icu (m : OutMsg) : (s.emit m).icu = s.icu := rfl
@[simp] theorem State.emit_bu (m : OutMsg) : (s.emit m).bu = s.bu := rfl
@[simp] theorem State.emit_tb (m : OutMsg) : (s.emit m).tb = s.tb := rfl
@[simp] theorem State.emit_ppr (m : OutMsg) : (s.emit m).ppr = s.ppr := rfl
@[simp] theorem State.emit_engines (m : OutMsg) : (s.emit m).engines = s.engines := rfl
@[simp] theorem State.emit_regions (m : OutMsg) : (s.emit m).regions = s.regions := rfl
@[simp] theorem State.emit_frames (m : OutMsg) : (s.emit m).frames = s.frames := rfl
@[simp] theorem State.emit_refs (m : OutMsg) : (s.emit m).refs = s.refs := rfl
@[simp] theorem State.emit_hist (m : OutMsg) : (s.emit m).hist = s.hist := rfl
@[simp] theorem State.emit_queues (m : OutMsg) : (s.emit m).queues = s.queues := rfl
@[simp] theorem State.emit_pools (m : OutMsg) : (s.emit m).pools = s.pools := rfl
@[simp] theorem State.emit_dma (m : OutMsg) : (s.emit m).dma = s.dma := rfl
@[simp] theorem State.emit_lmc (m : OutMsg) : (s.emit m).lmc = s.lmc := rfl
@[simp] theorem State.emit_dram (m : OutMsg) : (s.emit m).dram = s.dram := rfl
@[simp] theorem State.emit_poison (m : OutMsg) : (s.emit m).poison = s.poison := rfl
@[simp] theorem State.emit_mag (m : OutMsg) : (s.emit m).mag = s.mag := rfl
@[simp] theorem State.emit_cxl (m : OutMsg) : (s.emit m).cxl = s.cxl := rfl
@[simp] theorem State.emit_hostMem (m : OutMsg) : (s.emit m).hostMem = s.hostMem := rfl
@[simp] theorem State.emit_eth (m : OutMsg) : (s.emit m).eth = s.eth := rfl
@[simp] theorem State.emit_proxy (m : OutMsg) : (s.emit m).proxy = s.proxy := rfl
@[simp] theorem State.emit_ptp (m : OutMsg) : (s.emit m).ptp = s.ptp := rfl
@[simp] theorem State.emit_hpp (m : OutMsg) : (s.emit m).hpp = s.hpp := rfl
@[simp] theorem State.emit_can (m : OutMsg) : (s.emit m).can = s.can := rfl
@[simp] theorem State.emit_clip (m : OutMsg) : (s.emit m).clip = s.clip := rfl
@[simp] theorem State.emit_kpr (m : OutMsg) : (s.emit m).kpr = s.kpr := rfl
@[simp] theorem State.emit_aon (m : OutMsg) : (s.emit m).aon = s.aon := rfl
@[simp] theorem State.emit_log (m : OutMsg) : (s.emit m).log = s.log := rfl
@[simp] theorem State.emit_nor (m : OutMsg) : (s.emit m).nor = s.nor := rfl
@[simp] theorem State.emit_mgc (m : OutMsg) : (s.emit m).mgc = s.mgc := rfl
@[simp] theorem State.emit_rstc (m : OutMsg) : (s.emit m).rstc = s.rstc := rfl
@[simp] theorem State.emit_gang (m : OutMsg) : (s.emit m).gang = s.gang := rfl

@[simp] theorem State.answer_pending (r : Resp) : (s.answer r).pending = s.pending := rfl
@[simp] theorem State.answer_clk (r : Resp) : (s.answer r).clk = s.clk := rfl
@[simp] theorem State.answer_draws (r : Resp) : (s.answer r).draws = s.draws := rfl
@[simp] theorem State.answer_regs (r : Resp) : (s.answer r).regs = s.regs := rfl
@[simp] theorem State.answer_force (r : Resp) : (s.answer r).force = s.force := rfl
@[simp] theorem State.answer_latch (r : Resp) : (s.answer r).latch = s.latch := rfl
@[simp] theorem State.answer_mgcWrites (r : Resp) : (s.answer r).mgcWrites = s.mgcWrites := rfl
@[simp] theorem State.answer_out (r : Resp) : (s.answer r).out = s.out := rfl
@[simp] theorem State.answer_fc (r : Resp) : (s.answer r).fc = s.fc := rfl
@[simp] theorem State.answer_icu (r : Resp) : (s.answer r).icu = s.icu := rfl
@[simp] theorem State.answer_bu (r : Resp) : (s.answer r).bu = s.bu := rfl
@[simp] theorem State.answer_tb (r : Resp) : (s.answer r).tb = s.tb := rfl
@[simp] theorem State.answer_ppr (r : Resp) : (s.answer r).ppr = s.ppr := rfl
@[simp] theorem State.answer_engines (r : Resp) : (s.answer r).engines = s.engines := rfl
@[simp] theorem State.answer_regions (r : Resp) : (s.answer r).regions = s.regions := rfl
@[simp] theorem State.answer_frames (r : Resp) : (s.answer r).frames = s.frames := rfl
@[simp] theorem State.answer_refs (r : Resp) : (s.answer r).refs = s.refs := rfl
@[simp] theorem State.answer_hist (r : Resp) : (s.answer r).hist = s.hist := rfl
@[simp] theorem State.answer_queues (r : Resp) : (s.answer r).queues = s.queues := rfl
@[simp] theorem State.answer_pools (r : Resp) : (s.answer r).pools = s.pools := rfl
@[simp] theorem State.answer_dma (r : Resp) : (s.answer r).dma = s.dma := rfl
@[simp] theorem State.answer_lmc (r : Resp) : (s.answer r).lmc = s.lmc := rfl
@[simp] theorem State.answer_dram (r : Resp) : (s.answer r).dram = s.dram := rfl
@[simp] theorem State.answer_poison (r : Resp) : (s.answer r).poison = s.poison := rfl
@[simp] theorem State.answer_mag (r : Resp) : (s.answer r).mag = s.mag := rfl
@[simp] theorem State.answer_cxl (r : Resp) : (s.answer r).cxl = s.cxl := rfl
@[simp] theorem State.answer_hostMem (r : Resp) : (s.answer r).hostMem = s.hostMem := rfl
@[simp] theorem State.answer_eth (r : Resp) : (s.answer r).eth = s.eth := rfl
@[simp] theorem State.answer_proxy (r : Resp) : (s.answer r).proxy = s.proxy := rfl
@[simp] theorem State.answer_ptp (r : Resp) : (s.answer r).ptp = s.ptp := rfl
@[simp] theorem State.answer_hpp (r : Resp) : (s.answer r).hpp = s.hpp := rfl
@[simp] theorem State.answer_can (r : Resp) : (s.answer r).can = s.can := rfl
@[simp] theorem State.answer_clip (r : Resp) : (s.answer r).clip = s.clip := rfl
@[simp] theorem State.answer_kpr (r : Resp) : (s.answer r).kpr = s.kpr := rfl
@[simp] theorem State.answer_aon (r : Resp) : (s.answer r).aon = s.aon := rfl
@[simp] theorem State.answer_log (r : Resp) : (s.answer r).log = s.log := rfl
@[simp] theorem State.answer_nor (r : Resp) : (s.answer r).nor = s.nor := rfl
@[simp] theorem State.answer_mgc (r : Resp) : (s.answer r).mgc = s.mgc := rfl
@[simp] theorem State.answer_rstc (r : Resp) : (s.answer r).rstc = s.rstc := rfl
@[simp] theorem State.answer_gang (r : Resp) : (s.answer r).gang = s.gang := rfl

@[simp] theorem State.notify_pending (e : Nat) (d : List Nat) : (s.notify e d).pending = s.pending := rfl
@[simp] theorem State.notify_clk (e : Nat) (d : List Nat) : (s.notify e d).clk = s.clk := rfl
@[simp] theorem State.notify_draws (e : Nat) (d : List Nat) : (s.notify e d).draws = s.draws := rfl
@[simp] theorem State.notify_regs (e : Nat) (d : List Nat) : (s.notify e d).regs = s.regs := rfl
@[simp] theorem State.notify_force (e : Nat) (d : List Nat) : (s.notify e d).force = s.force := rfl
@[simp] theorem State.notify_latch (e : Nat) (d : List Nat) : (s.notify e d).latch = s.latch := rfl
@[simp] theorem State.notify_mgcWrites (e : Nat) (d : List Nat) : (s.notify e d).mgcWrites = s.mgcWrites := rfl
@[simp] theorem State.notify_resp (e : Nat) (d : List Nat) : (s.notify e d).resp = s.resp := rfl
@[simp] theorem State.notify_out (e : Nat) (d : List Nat) : (s.notify e d).out = s.out := rfl
@[simp] theorem State.notify_fc (e : Nat) (d : List Nat) : (s.notify e d).fc = s.fc := rfl
@[simp] theorem State.notify_icu (e : Nat) (d : List Nat) : (s.notify e d).icu = s.icu := rfl
@[simp] theorem State.notify_bu (e : Nat) (d : List Nat) : (s.notify e d).bu = s.bu := rfl
@[simp] theorem State.notify_tb (e : Nat) (d : List Nat) : (s.notify e d).tb = s.tb := rfl
@[simp] theorem State.notify_ppr (e : Nat) (d : List Nat) : (s.notify e d).ppr = s.ppr := rfl
@[simp] theorem State.notify_engines (e : Nat) (d : List Nat) : (s.notify e d).engines = s.engines := rfl
@[simp] theorem State.notify_regions (e : Nat) (d : List Nat) : (s.notify e d).regions = s.regions := rfl
@[simp] theorem State.notify_frames (e : Nat) (d : List Nat) : (s.notify e d).frames = s.frames := rfl
@[simp] theorem State.notify_refs (e : Nat) (d : List Nat) : (s.notify e d).refs = s.refs := rfl
@[simp] theorem State.notify_hist (e : Nat) (d : List Nat) : (s.notify e d).hist = s.hist := rfl
@[simp] theorem State.notify_queues (e : Nat) (d : List Nat) : (s.notify e d).queues = s.queues := rfl
@[simp] theorem State.notify_pools (e : Nat) (d : List Nat) : (s.notify e d).pools = s.pools := rfl
@[simp] theorem State.notify_dma (e : Nat) (d : List Nat) : (s.notify e d).dma = s.dma := rfl
@[simp] theorem State.notify_lmc (e : Nat) (d : List Nat) : (s.notify e d).lmc = s.lmc := rfl
@[simp] theorem State.notify_dram (e : Nat) (d : List Nat) : (s.notify e d).dram = s.dram := rfl
@[simp] theorem State.notify_poison (e : Nat) (d : List Nat) : (s.notify e d).poison = s.poison := rfl
@[simp] theorem State.notify_mag (e : Nat) (d : List Nat) : (s.notify e d).mag = s.mag := rfl
@[simp] theorem State.notify_cxl (e : Nat) (d : List Nat) : (s.notify e d).cxl = s.cxl := rfl
@[simp] theorem State.notify_hostMem (e : Nat) (d : List Nat) : (s.notify e d).hostMem = s.hostMem := rfl
@[simp] theorem State.notify_eth (e : Nat) (d : List Nat) : (s.notify e d).eth = s.eth := rfl
@[simp] theorem State.notify_proxy (e : Nat) (d : List Nat) : (s.notify e d).proxy = s.proxy := rfl
@[simp] theorem State.notify_ptp (e : Nat) (d : List Nat) : (s.notify e d).ptp = s.ptp := rfl
@[simp] theorem State.notify_can (e : Nat) (d : List Nat) : (s.notify e d).can = s.can := rfl
@[simp] theorem State.notify_clip (e : Nat) (d : List Nat) : (s.notify e d).clip = s.clip := rfl
@[simp] theorem State.notify_kpr (e : Nat) (d : List Nat) : (s.notify e d).kpr = s.kpr := rfl
@[simp] theorem State.notify_aon (e : Nat) (d : List Nat) : (s.notify e d).aon = s.aon := rfl
@[simp] theorem State.notify_log (e : Nat) (d : List Nat) : (s.notify e d).log = s.log := rfl
@[simp] theorem State.notify_nor (e : Nat) (d : List Nat) : (s.notify e d).nor = s.nor := rfl
@[simp] theorem State.notify_mgc (e : Nat) (d : List Nat) : (s.notify e d).mgc = s.mgc := rfl
@[simp] theorem State.notify_rstc (e : Nat) (d : List Nat) : (s.notify e d).rstc = s.rstc := rfl
@[simp] theorem State.notify_gang (e : Nat) (d : List Nat) : (s.notify e d).gang = s.gang := rfl

@[simp] theorem State.putSource_pending (n : Nat) (v : IcuSource) : (s.putSource n v).pending = s.pending := rfl
@[simp] theorem State.putSource_clk (n : Nat) (v : IcuSource) : (s.putSource n v).clk = s.clk := rfl
@[simp] theorem State.putSource_draws (n : Nat) (v : IcuSource) : (s.putSource n v).draws = s.draws := rfl
@[simp] theorem State.putSource_regs (n : Nat) (v : IcuSource) : (s.putSource n v).regs = s.regs := rfl
@[simp] theorem State.putSource_force (n : Nat) (v : IcuSource) : (s.putSource n v).force = s.force := rfl
@[simp] theorem State.putSource_latch (n : Nat) (v : IcuSource) : (s.putSource n v).latch = s.latch := rfl
@[simp] theorem State.putSource_mgcWrites (n : Nat) (v : IcuSource) : (s.putSource n v).mgcWrites = s.mgcWrites := rfl
@[simp] theorem State.putSource_resp (n : Nat) (v : IcuSource) : (s.putSource n v).resp = s.resp := rfl
@[simp] theorem State.putSource_out (n : Nat) (v : IcuSource) : (s.putSource n v).out = s.out := rfl
@[simp] theorem State.putSource_fc (n : Nat) (v : IcuSource) : (s.putSource n v).fc = s.fc := rfl
@[simp] theorem State.putSource_bu (n : Nat) (v : IcuSource) : (s.putSource n v).bu = s.bu := rfl
@[simp] theorem State.putSource_tb (n : Nat) (v : IcuSource) : (s.putSource n v).tb = s.tb := rfl
@[simp] theorem State.putSource_ppr (n : Nat) (v : IcuSource) : (s.putSource n v).ppr = s.ppr := rfl
@[simp] theorem State.putSource_engines (n : Nat) (v : IcuSource) : (s.putSource n v).engines = s.engines := rfl
@[simp] theorem State.putSource_regions (n : Nat) (v : IcuSource) : (s.putSource n v).regions = s.regions := rfl
@[simp] theorem State.putSource_frames (n : Nat) (v : IcuSource) : (s.putSource n v).frames = s.frames := rfl
@[simp] theorem State.putSource_refs (n : Nat) (v : IcuSource) : (s.putSource n v).refs = s.refs := rfl
@[simp] theorem State.putSource_hist (n : Nat) (v : IcuSource) : (s.putSource n v).hist = s.hist := rfl
@[simp] theorem State.putSource_queues (n : Nat) (v : IcuSource) : (s.putSource n v).queues = s.queues := rfl
@[simp] theorem State.putSource_pools (n : Nat) (v : IcuSource) : (s.putSource n v).pools = s.pools := rfl
@[simp] theorem State.putSource_dma (n : Nat) (v : IcuSource) : (s.putSource n v).dma = s.dma := rfl
@[simp] theorem State.putSource_lmc (n : Nat) (v : IcuSource) : (s.putSource n v).lmc = s.lmc := rfl
@[simp] theorem State.putSource_dram (n : Nat) (v : IcuSource) : (s.putSource n v).dram = s.dram := rfl
@[simp] theorem State.putSource_poison (n : Nat) (v : IcuSource) : (s.putSource n v).poison = s.poison := rfl
@[simp] theorem State.putSource_mag (n : Nat) (v : IcuSource) : (s.putSource n v).mag = s.mag := rfl
@[simp] theorem State.putSource_cxl (n : Nat) (v : IcuSource) : (s.putSource n v).cxl = s.cxl := rfl
@[simp] theorem State.putSource_hostMem (n : Nat) (v : IcuSource) : (s.putSource n v).hostMem = s.hostMem := rfl
@[simp] theorem State.putSource_eth (n : Nat) (v : IcuSource) : (s.putSource n v).eth = s.eth := rfl
@[simp] theorem State.putSource_proxy (n : Nat) (v : IcuSource) : (s.putSource n v).proxy = s.proxy := rfl
@[simp] theorem State.putSource_ptp (n : Nat) (v : IcuSource) : (s.putSource n v).ptp = s.ptp := rfl
@[simp] theorem State.putSource_hpp (n : Nat) (v : IcuSource) : (s.putSource n v).hpp = s.hpp := rfl
@[simp] theorem State.putSource_can (n : Nat) (v : IcuSource) : (s.putSource n v).can = s.can := rfl
@[simp] theorem State.putSource_clip (n : Nat) (v : IcuSource) : (s.putSource n v).clip = s.clip := rfl
@[simp] theorem State.putSource_kpr (n : Nat) (v : IcuSource) : (s.putSource n v).kpr = s.kpr := rfl
@[simp] theorem State.putSource_aon (n : Nat) (v : IcuSource) : (s.putSource n v).aon = s.aon := rfl
@[simp] theorem State.putSource_log (n : Nat) (v : IcuSource) : (s.putSource n v).log = s.log := rfl
@[simp] theorem State.putSource_nor (n : Nat) (v : IcuSource) : (s.putSource n v).nor = s.nor := rfl
@[simp] theorem State.putSource_mgc (n : Nat) (v : IcuSource) : (s.putSource n v).mgc = s.mgc := rfl
@[simp] theorem State.putSource_rstc (n : Nat) (v : IcuSource) : (s.putSource n v).rstc = s.rstc := rfl
@[simp] theorem State.putSource_gang (n : Nat) (v : IcuSource) : (s.putSource n v).gang = s.gang := rfl

@[simp] theorem State.putVector_pending (n : Nat) (v : IcuVector) : (s.putVector n v).pending = s.pending := rfl
@[simp] theorem State.putVector_clk (n : Nat) (v : IcuVector) : (s.putVector n v).clk = s.clk := rfl
@[simp] theorem State.putVector_draws (n : Nat) (v : IcuVector) : (s.putVector n v).draws = s.draws := rfl
@[simp] theorem State.putVector_regs (n : Nat) (v : IcuVector) : (s.putVector n v).regs = s.regs := rfl
@[simp] theorem State.putVector_force (n : Nat) (v : IcuVector) : (s.putVector n v).force = s.force := rfl
@[simp] theorem State.putVector_latch (n : Nat) (v : IcuVector) : (s.putVector n v).latch = s.latch := rfl
@[simp] theorem State.putVector_mgcWrites (n : Nat) (v : IcuVector) : (s.putVector n v).mgcWrites = s.mgcWrites := rfl
@[simp] theorem State.putVector_resp (n : Nat) (v : IcuVector) : (s.putVector n v).resp = s.resp := rfl
@[simp] theorem State.putVector_out (n : Nat) (v : IcuVector) : (s.putVector n v).out = s.out := rfl
@[simp] theorem State.putVector_fc (n : Nat) (v : IcuVector) : (s.putVector n v).fc = s.fc := rfl
@[simp] theorem State.putVector_bu (n : Nat) (v : IcuVector) : (s.putVector n v).bu = s.bu := rfl
@[simp] theorem State.putVector_tb (n : Nat) (v : IcuVector) : (s.putVector n v).tb = s.tb := rfl
@[simp] theorem State.putVector_ppr (n : Nat) (v : IcuVector) : (s.putVector n v).ppr = s.ppr := rfl
@[simp] theorem State.putVector_engines (n : Nat) (v : IcuVector) : (s.putVector n v).engines = s.engines := rfl
@[simp] theorem State.putVector_regions (n : Nat) (v : IcuVector) : (s.putVector n v).regions = s.regions := rfl
@[simp] theorem State.putVector_frames (n : Nat) (v : IcuVector) : (s.putVector n v).frames = s.frames := rfl
@[simp] theorem State.putVector_refs (n : Nat) (v : IcuVector) : (s.putVector n v).refs = s.refs := rfl
@[simp] theorem State.putVector_hist (n : Nat) (v : IcuVector) : (s.putVector n v).hist = s.hist := rfl
@[simp] theorem State.putVector_queues (n : Nat) (v : IcuVector) : (s.putVector n v).queues = s.queues := rfl
@[simp] theorem State.putVector_pools (n : Nat) (v : IcuVector) : (s.putVector n v).pools = s.pools := rfl
@[simp] theorem State.putVector_dma (n : Nat) (v : IcuVector) : (s.putVector n v).dma = s.dma := rfl
@[simp] theorem State.putVector_lmc (n : Nat) (v : IcuVector) : (s.putVector n v).lmc = s.lmc := rfl
@[simp] theorem State.putVector_dram (n : Nat) (v : IcuVector) : (s.putVector n v).dram = s.dram := rfl
@[simp] theorem State.putVector_poison (n : Nat) (v : IcuVector) : (s.putVector n v).poison = s.poison := rfl
@[simp] theorem State.putVector_mag (n : Nat) (v : IcuVector) : (s.putVector n v).mag = s.mag := rfl
@[simp] theorem State.putVector_cxl (n : Nat) (v : IcuVector) : (s.putVector n v).cxl = s.cxl := rfl
@[simp] theorem State.putVector_hostMem (n : Nat) (v : IcuVector) : (s.putVector n v).hostMem = s.hostMem := rfl
@[simp] theorem State.putVector_eth (n : Nat) (v : IcuVector) : (s.putVector n v).eth = s.eth := rfl
@[simp] theorem State.putVector_proxy (n : Nat) (v : IcuVector) : (s.putVector n v).proxy = s.proxy := rfl
@[simp] theorem State.putVector_ptp (n : Nat) (v : IcuVector) : (s.putVector n v).ptp = s.ptp := rfl
@[simp] theorem State.putVector_hpp (n : Nat) (v : IcuVector) : (s.putVector n v).hpp = s.hpp := rfl
@[simp] theorem State.putVector_can (n : Nat) (v : IcuVector) : (s.putVector n v).can = s.can := rfl
@[simp] theorem State.putVector_clip (n : Nat) (v : IcuVector) : (s.putVector n v).clip = s.clip := rfl
@[simp] theorem State.putVector_kpr (n : Nat) (v : IcuVector) : (s.putVector n v).kpr = s.kpr := rfl
@[simp] theorem State.putVector_aon (n : Nat) (v : IcuVector) : (s.putVector n v).aon = s.aon := rfl
@[simp] theorem State.putVector_log (n : Nat) (v : IcuVector) : (s.putVector n v).log = s.log := rfl
@[simp] theorem State.putVector_nor (n : Nat) (v : IcuVector) : (s.putVector n v).nor = s.nor := rfl
@[simp] theorem State.putVector_mgc (n : Nat) (v : IcuVector) : (s.putVector n v).mgc = s.mgc := rfl
@[simp] theorem State.putVector_rstc (n : Nat) (v : IcuVector) : (s.putVector n v).rstc = s.rstc := rfl
@[simp] theorem State.putVector_gang (n : Nat) (v : IcuVector) : (s.putVector n v).gang = s.gang := rfl

@[simp] theorem State.draw_pending  : (s.draw.2).pending = s.pending := rfl
@[simp] theorem State.draw_clk  : (s.draw.2).clk = s.clk := rfl
@[simp] theorem State.draw_regs  : (s.draw.2).regs = s.regs := rfl
@[simp] theorem State.draw_force  : (s.draw.2).force = s.force := rfl
@[simp] theorem State.draw_latch  : (s.draw.2).latch = s.latch := rfl
@[simp] theorem State.draw_mgcWrites  : (s.draw.2).mgcWrites = s.mgcWrites := rfl
@[simp] theorem State.draw_resp  : (s.draw.2).resp = s.resp := rfl
@[simp] theorem State.draw_out  : (s.draw.2).out = s.out := rfl
@[simp] theorem State.draw_fc  : (s.draw.2).fc = s.fc := rfl
@[simp] theorem State.draw_icu  : (s.draw.2).icu = s.icu := rfl
@[simp] theorem State.draw_bu  : (s.draw.2).bu = s.bu := rfl
@[simp] theorem State.draw_tb  : (s.draw.2).tb = s.tb := rfl
@[simp] theorem State.draw_ppr  : (s.draw.2).ppr = s.ppr := rfl
@[simp] theorem State.draw_engines  : (s.draw.2).engines = s.engines := rfl
@[simp] theorem State.draw_regions  : (s.draw.2).regions = s.regions := rfl
@[simp] theorem State.draw_frames  : (s.draw.2).frames = s.frames := rfl
@[simp] theorem State.draw_refs  : (s.draw.2).refs = s.refs := rfl
@[simp] theorem State.draw_hist  : (s.draw.2).hist = s.hist := rfl
@[simp] theorem State.draw_queues  : (s.draw.2).queues = s.queues := rfl
@[simp] theorem State.draw_pools  : (s.draw.2).pools = s.pools := rfl
@[simp] theorem State.draw_dma  : (s.draw.2).dma = s.dma := rfl
@[simp] theorem State.draw_lmc  : (s.draw.2).lmc = s.lmc := rfl
@[simp] theorem State.draw_dram  : (s.draw.2).dram = s.dram := rfl
@[simp] theorem State.draw_poison  : (s.draw.2).poison = s.poison := rfl
@[simp] theorem State.draw_mag  : (s.draw.2).mag = s.mag := rfl
@[simp] theorem State.draw_cxl  : (s.draw.2).cxl = s.cxl := rfl
@[simp] theorem State.draw_hostMem  : (s.draw.2).hostMem = s.hostMem := rfl
@[simp] theorem State.draw_eth  : (s.draw.2).eth = s.eth := rfl
@[simp] theorem State.draw_proxy  : (s.draw.2).proxy = s.proxy := rfl
@[simp] theorem State.draw_ptp  : (s.draw.2).ptp = s.ptp := rfl
@[simp] theorem State.draw_hpp  : (s.draw.2).hpp = s.hpp := rfl
@[simp] theorem State.draw_can  : (s.draw.2).can = s.can := rfl
@[simp] theorem State.draw_clip  : (s.draw.2).clip = s.clip := rfl
@[simp] theorem State.draw_kpr  : (s.draw.2).kpr = s.kpr := rfl
@[simp] theorem State.draw_aon  : (s.draw.2).aon = s.aon := rfl
@[simp] theorem State.draw_log  : (s.draw.2).log = s.log := rfl
@[simp] theorem State.draw_nor  : (s.draw.2).nor = s.nor := rfl
@[simp] theorem State.draw_mgc  : (s.draw.2).mgc = s.mgc := rfl
@[simp] theorem State.draw_rstc  : (s.draw.2).rstc = s.rstc := rfl
@[simp] theorem State.draw_gang  : (s.draw.2).gang = s.gang := rfl

@[simp] theorem State.icuEvent_pending (n : Nat) : (s.icuEvent n).pending = s.pending := (congrArg State.pending (s.icuEvent_faultOnly n).eq :)
@[simp] theorem State.icuEvent_clk (n : Nat) : (s.icuEvent n).clk = s.clk := (congrArg State.clk (s.icuEvent_faultOnly n).eq :)
@[simp] theorem State.icuEvent_draws (n : Nat) : (s.icuEvent n).draws = s.draws := (congrArg State.draws (s.icuEvent_faultOnly n).eq :)
@[simp] theorem State.icuEvent_force (n : Nat) : (s.icuEvent n).force = s.force := (congrArg State.force (s.icuEvent_faultOnly n).eq :)
@[simp] theorem State.icuEvent_latch (n : Nat) : (s.icuEvent n).latch = s.latch := (congrArg State.latch (s.icuEvent_faultOnly n).eq :)
@[simp] theorem State.icuEvent_mgcWrites (n : Nat) : (s.icuEvent n).mgcWrites = s.mgcWrites := (congrArg State.mgcWrites (s.icuEvent_faultOnly n).eq :)
@[simp] theorem State.icuEvent_resp (n : Nat) : (s.icuEvent n).resp = s.resp := (congrArg State.resp (s.icuEvent_faultOnly n).eq :)
@[simp] theorem State.icuEvent_out (n : Nat) : (s.icuEvent n).out = s.out := (congrArg State.out (s.icuEvent_faultOnly n).eq :)
@[simp] theorem State.icuEvent_bu (n : Nat) : (s.icuEvent n).bu = s.bu := (congrArg State.bu (s.icuEvent_faultOnly n).eq :)
@[simp] theorem State.icuEvent_tb (n : Nat) : (s.icuEvent n).tb = s.tb := (congrArg State.tb (s.icuEvent_faultOnly n).eq :)
@[simp] theorem State.icuEvent_ppr (n : Nat) : (s.icuEvent n).ppr = s.ppr := (congrArg State.ppr (s.icuEvent_faultOnly n).eq :)
@[simp] theorem State.icuEvent_engines (n : Nat) : (s.icuEvent n).engines = s.engines := (congrArg State.engines (s.icuEvent_faultOnly n).eq :)
@[simp] theorem State.icuEvent_regions (n : Nat) : (s.icuEvent n).regions = s.regions := (congrArg State.regions (s.icuEvent_faultOnly n).eq :)
@[simp] theorem State.icuEvent_frames (n : Nat) : (s.icuEvent n).frames = s.frames := (congrArg State.frames (s.icuEvent_faultOnly n).eq :)
@[simp] theorem State.icuEvent_refs (n : Nat) : (s.icuEvent n).refs = s.refs := (congrArg State.refs (s.icuEvent_faultOnly n).eq :)
@[simp] theorem State.icuEvent_hist (n : Nat) : (s.icuEvent n).hist = s.hist := (congrArg State.hist (s.icuEvent_faultOnly n).eq :)
@[simp] theorem State.icuEvent_queues (n : Nat) : (s.icuEvent n).queues = s.queues := (congrArg State.queues (s.icuEvent_faultOnly n).eq :)
@[simp] theorem State.icuEvent_pools (n : Nat) : (s.icuEvent n).pools = s.pools := (congrArg State.pools (s.icuEvent_faultOnly n).eq :)
@[simp] theorem State.icuEvent_dma (n : Nat) : (s.icuEvent n).dma = s.dma := (congrArg State.dma (s.icuEvent_faultOnly n).eq :)
@[simp] theorem State.icuEvent_lmc (n : Nat) : (s.icuEvent n).lmc = s.lmc := (congrArg State.lmc (s.icuEvent_faultOnly n).eq :)
@[simp] theorem State.icuEvent_dram (n : Nat) : (s.icuEvent n).dram = s.dram := (congrArg State.dram (s.icuEvent_faultOnly n).eq :)
@[simp] theorem State.icuEvent_poison (n : Nat) : (s.icuEvent n).poison = s.poison := (congrArg State.poison (s.icuEvent_faultOnly n).eq :)
@[simp] theorem State.icuEvent_mag (n : Nat) : (s.icuEvent n).mag = s.mag := (congrArg State.mag (s.icuEvent_faultOnly n).eq :)
@[simp] theorem State.icuEvent_cxl (n : Nat) : (s.icuEvent n).cxl = s.cxl := (congrArg State.cxl (s.icuEvent_faultOnly n).eq :)
@[simp] theorem State.icuEvent_hostMem (n : Nat) : (s.icuEvent n).hostMem = s.hostMem := (congrArg State.hostMem (s.icuEvent_faultOnly n).eq :)
@[simp] theorem State.icuEvent_eth (n : Nat) : (s.icuEvent n).eth = s.eth := (congrArg State.eth (s.icuEvent_faultOnly n).eq :)
@[simp] theorem State.icuEvent_proxy (n : Nat) : (s.icuEvent n).proxy = s.proxy := (congrArg State.proxy (s.icuEvent_faultOnly n).eq :)
@[simp] theorem State.icuEvent_ptp (n : Nat) : (s.icuEvent n).ptp = s.ptp := (congrArg State.ptp (s.icuEvent_faultOnly n).eq :)
@[simp] theorem State.icuEvent_can (n : Nat) : (s.icuEvent n).can = s.can := (congrArg State.can (s.icuEvent_faultOnly n).eq :)
@[simp] theorem State.icuEvent_clip (n : Nat) : (s.icuEvent n).clip = s.clip := (congrArg State.clip (s.icuEvent_faultOnly n).eq :)
@[simp] theorem State.icuEvent_kpr (n : Nat) : (s.icuEvent n).kpr = s.kpr := (congrArg State.kpr (s.icuEvent_faultOnly n).eq :)
@[simp] theorem State.icuEvent_aon (n : Nat) : (s.icuEvent n).aon = s.aon := (congrArg State.aon (s.icuEvent_faultOnly n).eq :)
@[simp] theorem State.icuEvent_nor (n : Nat) : (s.icuEvent n).nor = s.nor := (congrArg State.nor (s.icuEvent_faultOnly n).eq :)
@[simp] theorem State.icuEvent_mgc (n : Nat) : (s.icuEvent n).mgc = s.mgc := (congrArg State.mgc (s.icuEvent_faultOnly n).eq :)
@[simp] theorem State.icuEvent_rstc (n : Nat) : (s.icuEvent n).rstc = s.rstc := (congrArg State.rstc (s.icuEvent_faultOnly n).eq :)
@[simp] theorem State.icuEvent_gang (n : Nat) : (s.icuEvent n).gang = s.gang := (congrArg State.gang (s.icuEvent_faultOnly n).eq :)

@[simp] theorem State.icuPulse_pending (n : Nat) : (s.icuPulse n).pending = s.pending := (congrArg State.pending (s.icuPulse_faultOnly n).eq :)
@[simp] theorem State.icuPulse_clk (n : Nat) : (s.icuPulse n).clk = s.clk := (congrArg State.clk (s.icuPulse_faultOnly n).eq :)
@[simp] theorem State.icuPulse_draws (n : Nat) : (s.icuPulse n).draws = s.draws := (congrArg State.draws (s.icuPulse_faultOnly n).eq :)
@[simp] theorem State.icuPulse_force (n : Nat) : (s.icuPulse n).force = s.force := (congrArg State.force (s.icuPulse_faultOnly n).eq :)
@[simp] theorem State.icuPulse_latch (n : Nat) : (s.icuPulse n).latch = s.latch := (congrArg State.latch (s.icuPulse_faultOnly n).eq :)
@[simp] theorem State.icuPulse_mgcWrites (n : Nat) : (s.icuPulse n).mgcWrites = s.mgcWrites := (congrArg State.mgcWrites (s.icuPulse_faultOnly n).eq :)
@[simp] theorem State.icuPulse_resp (n : Nat) : (s.icuPulse n).resp = s.resp := (congrArg State.resp (s.icuPulse_faultOnly n).eq :)
@[simp] theorem State.icuPulse_out (n : Nat) : (s.icuPulse n).out = s.out := (congrArg State.out (s.icuPulse_faultOnly n).eq :)
@[simp] theorem State.icuPulse_bu (n : Nat) : (s.icuPulse n).bu = s.bu := (congrArg State.bu (s.icuPulse_faultOnly n).eq :)
@[simp] theorem State.icuPulse_tb (n : Nat) : (s.icuPulse n).tb = s.tb := (congrArg State.tb (s.icuPulse_faultOnly n).eq :)
@[simp] theorem State.icuPulse_ppr (n : Nat) : (s.icuPulse n).ppr = s.ppr := (congrArg State.ppr (s.icuPulse_faultOnly n).eq :)
@[simp] theorem State.icuPulse_engines (n : Nat) : (s.icuPulse n).engines = s.engines := (congrArg State.engines (s.icuPulse_faultOnly n).eq :)
@[simp] theorem State.icuPulse_regions (n : Nat) : (s.icuPulse n).regions = s.regions := (congrArg State.regions (s.icuPulse_faultOnly n).eq :)
@[simp] theorem State.icuPulse_frames (n : Nat) : (s.icuPulse n).frames = s.frames := (congrArg State.frames (s.icuPulse_faultOnly n).eq :)
@[simp] theorem State.icuPulse_refs (n : Nat) : (s.icuPulse n).refs = s.refs := (congrArg State.refs (s.icuPulse_faultOnly n).eq :)
@[simp] theorem State.icuPulse_hist (n : Nat) : (s.icuPulse n).hist = s.hist := (congrArg State.hist (s.icuPulse_faultOnly n).eq :)
@[simp] theorem State.icuPulse_queues (n : Nat) : (s.icuPulse n).queues = s.queues := (congrArg State.queues (s.icuPulse_faultOnly n).eq :)
@[simp] theorem State.icuPulse_pools (n : Nat) : (s.icuPulse n).pools = s.pools := (congrArg State.pools (s.icuPulse_faultOnly n).eq :)
@[simp] theorem State.icuPulse_dma (n : Nat) : (s.icuPulse n).dma = s.dma := (congrArg State.dma (s.icuPulse_faultOnly n).eq :)
@[simp] theorem State.icuPulse_lmc (n : Nat) : (s.icuPulse n).lmc = s.lmc := (congrArg State.lmc (s.icuPulse_faultOnly n).eq :)
@[simp] theorem State.icuPulse_dram (n : Nat) : (s.icuPulse n).dram = s.dram := (congrArg State.dram (s.icuPulse_faultOnly n).eq :)
@[simp] theorem State.icuPulse_poison (n : Nat) : (s.icuPulse n).poison = s.poison := (congrArg State.poison (s.icuPulse_faultOnly n).eq :)
@[simp] theorem State.icuPulse_mag (n : Nat) : (s.icuPulse n).mag = s.mag := (congrArg State.mag (s.icuPulse_faultOnly n).eq :)
@[simp] theorem State.icuPulse_cxl (n : Nat) : (s.icuPulse n).cxl = s.cxl := (congrArg State.cxl (s.icuPulse_faultOnly n).eq :)
@[simp] theorem State.icuPulse_hostMem (n : Nat) : (s.icuPulse n).hostMem = s.hostMem := (congrArg State.hostMem (s.icuPulse_faultOnly n).eq :)
@[simp] theorem State.icuPulse_eth (n : Nat) : (s.icuPulse n).eth = s.eth := (congrArg State.eth (s.icuPulse_faultOnly n).eq :)
@[simp] theorem State.icuPulse_proxy (n : Nat) : (s.icuPulse n).proxy = s.proxy := (congrArg State.proxy (s.icuPulse_faultOnly n).eq :)
@[simp] theorem State.icuPulse_ptp (n : Nat) : (s.icuPulse n).ptp = s.ptp := (congrArg State.ptp (s.icuPulse_faultOnly n).eq :)
@[simp] theorem State.icuPulse_can (n : Nat) : (s.icuPulse n).can = s.can := (congrArg State.can (s.icuPulse_faultOnly n).eq :)
@[simp] theorem State.icuPulse_clip (n : Nat) : (s.icuPulse n).clip = s.clip := (congrArg State.clip (s.icuPulse_faultOnly n).eq :)
@[simp] theorem State.icuPulse_kpr (n : Nat) : (s.icuPulse n).kpr = s.kpr := (congrArg State.kpr (s.icuPulse_faultOnly n).eq :)
@[simp] theorem State.icuPulse_aon (n : Nat) : (s.icuPulse n).aon = s.aon := (congrArg State.aon (s.icuPulse_faultOnly n).eq :)
@[simp] theorem State.icuPulse_nor (n : Nat) : (s.icuPulse n).nor = s.nor := (congrArg State.nor (s.icuPulse_faultOnly n).eq :)
@[simp] theorem State.icuPulse_mgc (n : Nat) : (s.icuPulse n).mgc = s.mgc := (congrArg State.mgc (s.icuPulse_faultOnly n).eq :)
@[simp] theorem State.icuPulse_rstc (n : Nat) : (s.icuPulse n).rstc = s.rstc := (congrArg State.rstc (s.icuPulse_faultOnly n).eq :)
@[simp] theorem State.icuPulse_gang (n : Nat) : (s.icuPulse n).gang = s.gang := (congrArg State.gang (s.icuPulse_faultOnly n).eq :)

@[simp] theorem State.logbook_pending (t : Nat) (d : List Nat) : (s.logbook t d).pending = s.pending := (congrArg State.pending (s.logbook_faultOnly t d).eq :)
@[simp] theorem State.logbook_clk (t : Nat) (d : List Nat) : (s.logbook t d).clk = s.clk := (congrArg State.clk (s.logbook_faultOnly t d).eq :)
@[simp] theorem State.logbook_draws (t : Nat) (d : List Nat) : (s.logbook t d).draws = s.draws := (congrArg State.draws (s.logbook_faultOnly t d).eq :)
@[simp] theorem State.logbook_force (t : Nat) (d : List Nat) : (s.logbook t d).force = s.force := (congrArg State.force (s.logbook_faultOnly t d).eq :)
@[simp] theorem State.logbook_latch (t : Nat) (d : List Nat) : (s.logbook t d).latch = s.latch := (congrArg State.latch (s.logbook_faultOnly t d).eq :)
@[simp] theorem State.logbook_mgcWrites (t : Nat) (d : List Nat) : (s.logbook t d).mgcWrites = s.mgcWrites := (congrArg State.mgcWrites (s.logbook_faultOnly t d).eq :)
@[simp] theorem State.logbook_resp (t : Nat) (d : List Nat) : (s.logbook t d).resp = s.resp := (congrArg State.resp (s.logbook_faultOnly t d).eq :)
@[simp] theorem State.logbook_out (t : Nat) (d : List Nat) : (s.logbook t d).out = s.out := (congrArg State.out (s.logbook_faultOnly t d).eq :)
@[simp] theorem State.logbook_bu (t : Nat) (d : List Nat) : (s.logbook t d).bu = s.bu := (congrArg State.bu (s.logbook_faultOnly t d).eq :)
@[simp] theorem State.logbook_tb (t : Nat) (d : List Nat) : (s.logbook t d).tb = s.tb := (congrArg State.tb (s.logbook_faultOnly t d).eq :)
@[simp] theorem State.logbook_ppr (t : Nat) (d : List Nat) : (s.logbook t d).ppr = s.ppr := (congrArg State.ppr (s.logbook_faultOnly t d).eq :)
@[simp] theorem State.logbook_engines (t : Nat) (d : List Nat) : (s.logbook t d).engines = s.engines := (congrArg State.engines (s.logbook_faultOnly t d).eq :)
@[simp] theorem State.logbook_regions (t : Nat) (d : List Nat) : (s.logbook t d).regions = s.regions := (congrArg State.regions (s.logbook_faultOnly t d).eq :)
@[simp] theorem State.logbook_frames (t : Nat) (d : List Nat) : (s.logbook t d).frames = s.frames := (congrArg State.frames (s.logbook_faultOnly t d).eq :)
@[simp] theorem State.logbook_refs (t : Nat) (d : List Nat) : (s.logbook t d).refs = s.refs := (congrArg State.refs (s.logbook_faultOnly t d).eq :)
@[simp] theorem State.logbook_hist (t : Nat) (d : List Nat) : (s.logbook t d).hist = s.hist := (congrArg State.hist (s.logbook_faultOnly t d).eq :)
@[simp] theorem State.logbook_queues (t : Nat) (d : List Nat) : (s.logbook t d).queues = s.queues := (congrArg State.queues (s.logbook_faultOnly t d).eq :)
@[simp] theorem State.logbook_pools (t : Nat) (d : List Nat) : (s.logbook t d).pools = s.pools := (congrArg State.pools (s.logbook_faultOnly t d).eq :)
@[simp] theorem State.logbook_dma (t : Nat) (d : List Nat) : (s.logbook t d).dma = s.dma := (congrArg State.dma (s.logbook_faultOnly t d).eq :)
@[simp] theorem State.logbook_lmc (t : Nat) (d : List Nat) : (s.logbook t d).lmc = s.lmc := (congrArg State.lmc (s.logbook_faultOnly t d).eq :)
@[simp] theorem State.logbook_dram (t : Nat) (d : List Nat) : (s.logbook t d).dram = s.dram := (congrArg State.dram (s.logbook_faultOnly t d).eq :)
@[simp] theorem State.logbook_poison (t : Nat) (d : List Nat) : (s.logbook t d).poison = s.poison := (congrArg State.poison (s.logbook_faultOnly t d).eq :)
@[simp] theorem State.logbook_mag (t : Nat) (d : List Nat) : (s.logbook t d).mag = s.mag := (congrArg State.mag (s.logbook_faultOnly t d).eq :)
@[simp] theorem State.logbook_cxl (t : Nat) (d : List Nat) : (s.logbook t d).cxl = s.cxl := (congrArg State.cxl (s.logbook_faultOnly t d).eq :)
@[simp] theorem State.logbook_hostMem (t : Nat) (d : List Nat) : (s.logbook t d).hostMem = s.hostMem := (congrArg State.hostMem (s.logbook_faultOnly t d).eq :)
@[simp] theorem State.logbook_eth (t : Nat) (d : List Nat) : (s.logbook t d).eth = s.eth := (congrArg State.eth (s.logbook_faultOnly t d).eq :)
@[simp] theorem State.logbook_proxy (t : Nat) (d : List Nat) : (s.logbook t d).proxy = s.proxy := (congrArg State.proxy (s.logbook_faultOnly t d).eq :)
@[simp] theorem State.logbook_ptp (t : Nat) (d : List Nat) : (s.logbook t d).ptp = s.ptp := (congrArg State.ptp (s.logbook_faultOnly t d).eq :)
@[simp] theorem State.logbook_can (t : Nat) (d : List Nat) : (s.logbook t d).can = s.can := (congrArg State.can (s.logbook_faultOnly t d).eq :)
@[simp] theorem State.logbook_clip (t : Nat) (d : List Nat) : (s.logbook t d).clip = s.clip := (congrArg State.clip (s.logbook_faultOnly t d).eq :)
@[simp] theorem State.logbook_kpr (t : Nat) (d : List Nat) : (s.logbook t d).kpr = s.kpr := (congrArg State.kpr (s.logbook_faultOnly t d).eq :)
@[simp] theorem State.logbook_aon (t : Nat) (d : List Nat) : (s.logbook t d).aon = s.aon := (congrArg State.aon (s.logbook_faultOnly t d).eq :)
@[simp] theorem State.logbook_nor (t : Nat) (d : List Nat) : (s.logbook t d).nor = s.nor := (congrArg State.nor (s.logbook_faultOnly t d).eq :)
@[simp] theorem State.logbook_mgc (t : Nat) (d : List Nat) : (s.logbook t d).mgc = s.mgc := (congrArg State.mgc (s.logbook_faultOnly t d).eq :)
@[simp] theorem State.logbook_rstc (t : Nat) (d : List Nat) : (s.logbook t d).rstc = s.rstc := (congrArg State.rstc (s.logbook_faultOnly t d).eq :)
@[simp] theorem State.logbook_gang (t : Nat) (d : List Nat) : (s.logbook t d).gang = s.gang := (congrArg State.gang (s.logbook_faultOnly t d).eq :)

@[simp] theorem State.setLevel_pending (l k c : Nat) : (s.setLevel l k c).pending = s.pending := (congrArg State.pending (s.setLevel_faultOnly l k c).eq :)
@[simp] theorem State.setLevel_clk (l k c : Nat) : (s.setLevel l k c).clk = s.clk := (congrArg State.clk (s.setLevel_faultOnly l k c).eq :)
@[simp] theorem State.setLevel_draws (l k c : Nat) : (s.setLevel l k c).draws = s.draws := (congrArg State.draws (s.setLevel_faultOnly l k c).eq :)
@[simp] theorem State.setLevel_force (l k c : Nat) : (s.setLevel l k c).force = s.force := (congrArg State.force (s.setLevel_faultOnly l k c).eq :)
@[simp] theorem State.setLevel_latch (l k c : Nat) : (s.setLevel l k c).latch = s.latch := (congrArg State.latch (s.setLevel_faultOnly l k c).eq :)
@[simp] theorem State.setLevel_mgcWrites (l k c : Nat) : (s.setLevel l k c).mgcWrites = s.mgcWrites := (congrArg State.mgcWrites (s.setLevel_faultOnly l k c).eq :)
@[simp] theorem State.setLevel_resp (l k c : Nat) : (s.setLevel l k c).resp = s.resp := (congrArg State.resp (s.setLevel_faultOnly l k c).eq :)
@[simp] theorem State.setLevel_out (l k c : Nat) : (s.setLevel l k c).out = s.out := (congrArg State.out (s.setLevel_faultOnly l k c).eq :)
@[simp] theorem State.setLevel_bu (l k c : Nat) : (s.setLevel l k c).bu = s.bu := (congrArg State.bu (s.setLevel_faultOnly l k c).eq :)
@[simp] theorem State.setLevel_tb (l k c : Nat) : (s.setLevel l k c).tb = s.tb := (congrArg State.tb (s.setLevel_faultOnly l k c).eq :)
@[simp] theorem State.setLevel_ppr (l k c : Nat) : (s.setLevel l k c).ppr = s.ppr := (congrArg State.ppr (s.setLevel_faultOnly l k c).eq :)
@[simp] theorem State.setLevel_engines (l k c : Nat) : (s.setLevel l k c).engines = s.engines := (congrArg State.engines (s.setLevel_faultOnly l k c).eq :)
@[simp] theorem State.setLevel_regions (l k c : Nat) : (s.setLevel l k c).regions = s.regions := (congrArg State.regions (s.setLevel_faultOnly l k c).eq :)
@[simp] theorem State.setLevel_frames (l k c : Nat) : (s.setLevel l k c).frames = s.frames := (congrArg State.frames (s.setLevel_faultOnly l k c).eq :)
@[simp] theorem State.setLevel_refs (l k c : Nat) : (s.setLevel l k c).refs = s.refs := (congrArg State.refs (s.setLevel_faultOnly l k c).eq :)
@[simp] theorem State.setLevel_hist (l k c : Nat) : (s.setLevel l k c).hist = s.hist := (congrArg State.hist (s.setLevel_faultOnly l k c).eq :)
@[simp] theorem State.setLevel_queues (l k c : Nat) : (s.setLevel l k c).queues = s.queues := (congrArg State.queues (s.setLevel_faultOnly l k c).eq :)
@[simp] theorem State.setLevel_pools (l k c : Nat) : (s.setLevel l k c).pools = s.pools := (congrArg State.pools (s.setLevel_faultOnly l k c).eq :)
@[simp] theorem State.setLevel_dma (l k c : Nat) : (s.setLevel l k c).dma = s.dma := (congrArg State.dma (s.setLevel_faultOnly l k c).eq :)
@[simp] theorem State.setLevel_lmc (l k c : Nat) : (s.setLevel l k c).lmc = s.lmc := (congrArg State.lmc (s.setLevel_faultOnly l k c).eq :)
@[simp] theorem State.setLevel_dram (l k c : Nat) : (s.setLevel l k c).dram = s.dram := (congrArg State.dram (s.setLevel_faultOnly l k c).eq :)
@[simp] theorem State.setLevel_poison (l k c : Nat) : (s.setLevel l k c).poison = s.poison := (congrArg State.poison (s.setLevel_faultOnly l k c).eq :)
@[simp] theorem State.setLevel_mag (l k c : Nat) : (s.setLevel l k c).mag = s.mag := (congrArg State.mag (s.setLevel_faultOnly l k c).eq :)
@[simp] theorem State.setLevel_cxl (l k c : Nat) : (s.setLevel l k c).cxl = s.cxl := (congrArg State.cxl (s.setLevel_faultOnly l k c).eq :)
@[simp] theorem State.setLevel_hostMem (l k c : Nat) : (s.setLevel l k c).hostMem = s.hostMem := (congrArg State.hostMem (s.setLevel_faultOnly l k c).eq :)
@[simp] theorem State.setLevel_eth (l k c : Nat) : (s.setLevel l k c).eth = s.eth := (congrArg State.eth (s.setLevel_faultOnly l k c).eq :)
@[simp] theorem State.setLevel_proxy (l k c : Nat) : (s.setLevel l k c).proxy = s.proxy := (congrArg State.proxy (s.setLevel_faultOnly l k c).eq :)
@[simp] theorem State.setLevel_ptp (l k c : Nat) : (s.setLevel l k c).ptp = s.ptp := (congrArg State.ptp (s.setLevel_faultOnly l k c).eq :)
@[simp] theorem State.setLevel_can (l k c : Nat) : (s.setLevel l k c).can = s.can := (congrArg State.can (s.setLevel_faultOnly l k c).eq :)
@[simp] theorem State.setLevel_clip (l k c : Nat) : (s.setLevel l k c).clip = s.clip := (congrArg State.clip (s.setLevel_faultOnly l k c).eq :)
@[simp] theorem State.setLevel_kpr (l k c : Nat) : (s.setLevel l k c).kpr = s.kpr := (congrArg State.kpr (s.setLevel_faultOnly l k c).eq :)
@[simp] theorem State.setLevel_aon (l k c : Nat) : (s.setLevel l k c).aon = s.aon := (congrArg State.aon (s.setLevel_faultOnly l k c).eq :)
@[simp] theorem State.setLevel_nor (l k c : Nat) : (s.setLevel l k c).nor = s.nor := (congrArg State.nor (s.setLevel_faultOnly l k c).eq :)
@[simp] theorem State.setLevel_mgc (l k c : Nat) : (s.setLevel l k c).mgc = s.mgc := (congrArg State.mgc (s.setLevel_faultOnly l k c).eq :)
@[simp] theorem State.setLevel_rstc (l k c : Nat) : (s.setLevel l k c).rstc = s.rstc := (congrArg State.rstc (s.setLevel_faultOnly l k c).eq :)
@[simp] theorem State.setLevel_gang (l k c : Nat) : (s.setLevel l k c).gang = s.gang := (congrArg State.gang (s.setLevel_faultOnly l k c).eq :)

@[simp] theorem State.enterSafe_pending (k c : Nat) : (s.enterSafe k c).pending = s.pending := (congrArg State.pending (s.enterSafe_faultOnly k c).eq :)
@[simp] theorem State.enterSafe_clk (k c : Nat) : (s.enterSafe k c).clk = s.clk := (congrArg State.clk (s.enterSafe_faultOnly k c).eq :)
@[simp] theorem State.enterSafe_draws (k c : Nat) : (s.enterSafe k c).draws = s.draws := (congrArg State.draws (s.enterSafe_faultOnly k c).eq :)
@[simp] theorem State.enterSafe_force (k c : Nat) : (s.enterSafe k c).force = s.force := (congrArg State.force (s.enterSafe_faultOnly k c).eq :)
@[simp] theorem State.enterSafe_latch (k c : Nat) : (s.enterSafe k c).latch = s.latch := (congrArg State.latch (s.enterSafe_faultOnly k c).eq :)
@[simp] theorem State.enterSafe_mgcWrites (k c : Nat) : (s.enterSafe k c).mgcWrites = s.mgcWrites := (congrArg State.mgcWrites (s.enterSafe_faultOnly k c).eq :)
@[simp] theorem State.enterSafe_resp (k c : Nat) : (s.enterSafe k c).resp = s.resp := (congrArg State.resp (s.enterSafe_faultOnly k c).eq :)
@[simp] theorem State.enterSafe_out (k c : Nat) : (s.enterSafe k c).out = s.out := (congrArg State.out (s.enterSafe_faultOnly k c).eq :)
@[simp] theorem State.enterSafe_bu (k c : Nat) : (s.enterSafe k c).bu = s.bu := (congrArg State.bu (s.enterSafe_faultOnly k c).eq :)
@[simp] theorem State.enterSafe_tb (k c : Nat) : (s.enterSafe k c).tb = s.tb := (congrArg State.tb (s.enterSafe_faultOnly k c).eq :)
@[simp] theorem State.enterSafe_ppr (k c : Nat) : (s.enterSafe k c).ppr = s.ppr := (congrArg State.ppr (s.enterSafe_faultOnly k c).eq :)
@[simp] theorem State.enterSafe_engines (k c : Nat) : (s.enterSafe k c).engines = s.engines := (congrArg State.engines (s.enterSafe_faultOnly k c).eq :)
@[simp] theorem State.enterSafe_regions (k c : Nat) : (s.enterSafe k c).regions = s.regions := (congrArg State.regions (s.enterSafe_faultOnly k c).eq :)
@[simp] theorem State.enterSafe_frames (k c : Nat) : (s.enterSafe k c).frames = s.frames := (congrArg State.frames (s.enterSafe_faultOnly k c).eq :)
@[simp] theorem State.enterSafe_refs (k c : Nat) : (s.enterSafe k c).refs = s.refs := (congrArg State.refs (s.enterSafe_faultOnly k c).eq :)
@[simp] theorem State.enterSafe_hist (k c : Nat) : (s.enterSafe k c).hist = s.hist := (congrArg State.hist (s.enterSafe_faultOnly k c).eq :)
@[simp] theorem State.enterSafe_queues (k c : Nat) : (s.enterSafe k c).queues = s.queues := (congrArg State.queues (s.enterSafe_faultOnly k c).eq :)
@[simp] theorem State.enterSafe_pools (k c : Nat) : (s.enterSafe k c).pools = s.pools := (congrArg State.pools (s.enterSafe_faultOnly k c).eq :)
@[simp] theorem State.enterSafe_dma (k c : Nat) : (s.enterSafe k c).dma = s.dma := (congrArg State.dma (s.enterSafe_faultOnly k c).eq :)
@[simp] theorem State.enterSafe_lmc (k c : Nat) : (s.enterSafe k c).lmc = s.lmc := (congrArg State.lmc (s.enterSafe_faultOnly k c).eq :)
@[simp] theorem State.enterSafe_dram (k c : Nat) : (s.enterSafe k c).dram = s.dram := (congrArg State.dram (s.enterSafe_faultOnly k c).eq :)
@[simp] theorem State.enterSafe_poison (k c : Nat) : (s.enterSafe k c).poison = s.poison := (congrArg State.poison (s.enterSafe_faultOnly k c).eq :)
@[simp] theorem State.enterSafe_mag (k c : Nat) : (s.enterSafe k c).mag = s.mag := (congrArg State.mag (s.enterSafe_faultOnly k c).eq :)
@[simp] theorem State.enterSafe_cxl (k c : Nat) : (s.enterSafe k c).cxl = s.cxl := (congrArg State.cxl (s.enterSafe_faultOnly k c).eq :)
@[simp] theorem State.enterSafe_hostMem (k c : Nat) : (s.enterSafe k c).hostMem = s.hostMem := (congrArg State.hostMem (s.enterSafe_faultOnly k c).eq :)
@[simp] theorem State.enterSafe_eth (k c : Nat) : (s.enterSafe k c).eth = s.eth := (congrArg State.eth (s.enterSafe_faultOnly k c).eq :)
@[simp] theorem State.enterSafe_proxy (k c : Nat) : (s.enterSafe k c).proxy = s.proxy := (congrArg State.proxy (s.enterSafe_faultOnly k c).eq :)
@[simp] theorem State.enterSafe_ptp (k c : Nat) : (s.enterSafe k c).ptp = s.ptp := (congrArg State.ptp (s.enterSafe_faultOnly k c).eq :)
@[simp] theorem State.enterSafe_can (k c : Nat) : (s.enterSafe k c).can = s.can := (congrArg State.can (s.enterSafe_faultOnly k c).eq :)
@[simp] theorem State.enterSafe_clip (k c : Nat) : (s.enterSafe k c).clip = s.clip := (congrArg State.clip (s.enterSafe_faultOnly k c).eq :)
@[simp] theorem State.enterSafe_kpr (k c : Nat) : (s.enterSafe k c).kpr = s.kpr := (congrArg State.kpr (s.enterSafe_faultOnly k c).eq :)
@[simp] theorem State.enterSafe_aon (k c : Nat) : (s.enterSafe k c).aon = s.aon := (congrArg State.aon (s.enterSafe_faultOnly k c).eq :)
@[simp] theorem State.enterSafe_nor (k c : Nat) : (s.enterSafe k c).nor = s.nor := (congrArg State.nor (s.enterSafe_faultOnly k c).eq :)
@[simp] theorem State.enterSafe_mgc (k c : Nat) : (s.enterSafe k c).mgc = s.mgc := (congrArg State.mgc (s.enterSafe_faultOnly k c).eq :)
@[simp] theorem State.enterSafe_rstc (k c : Nat) : (s.enterSafe k c).rstc = s.rstc := (congrArg State.rstc (s.enterSafe_faultOnly k c).eq :)
@[simp] theorem State.enterSafe_gang (k c : Nat) : (s.enterSafe k c).gang = s.gang := (congrArg State.gang (s.enterSafe_faultOnly k c).eq :)

@[simp] theorem State.raise_pending (a c d : Nat) : (s.raise a c d).pending = s.pending := (congrArg State.pending (s.raise_faultOnly a c d).eq :)
@[simp] theorem State.raise_clk (a c d : Nat) : (s.raise a c d).clk = s.clk := (congrArg State.clk (s.raise_faultOnly a c d).eq :)
@[simp] theorem State.raise_draws (a c d : Nat) : (s.raise a c d).draws = s.draws := (congrArg State.draws (s.raise_faultOnly a c d).eq :)
@[simp] theorem State.raise_force (a c d : Nat) : (s.raise a c d).force = s.force := (congrArg State.force (s.raise_faultOnly a c d).eq :)
@[simp] theorem State.raise_latch (a c d : Nat) : (s.raise a c d).latch = s.latch := (congrArg State.latch (s.raise_faultOnly a c d).eq :)
@[simp] theorem State.raise_mgcWrites (a c d : Nat) : (s.raise a c d).mgcWrites = s.mgcWrites := (congrArg State.mgcWrites (s.raise_faultOnly a c d).eq :)
@[simp] theorem State.raise_resp (a c d : Nat) : (s.raise a c d).resp = s.resp := (congrArg State.resp (s.raise_faultOnly a c d).eq :)
@[simp] theorem State.raise_out (a c d : Nat) : (s.raise a c d).out = s.out := (congrArg State.out (s.raise_faultOnly a c d).eq :)
@[simp] theorem State.raise_bu (a c d : Nat) : (s.raise a c d).bu = s.bu := (congrArg State.bu (s.raise_faultOnly a c d).eq :)
@[simp] theorem State.raise_tb (a c d : Nat) : (s.raise a c d).tb = s.tb := (congrArg State.tb (s.raise_faultOnly a c d).eq :)
@[simp] theorem State.raise_ppr (a c d : Nat) : (s.raise a c d).ppr = s.ppr := (congrArg State.ppr (s.raise_faultOnly a c d).eq :)
@[simp] theorem State.raise_engines (a c d : Nat) : (s.raise a c d).engines = s.engines := (congrArg State.engines (s.raise_faultOnly a c d).eq :)
@[simp] theorem State.raise_regions (a c d : Nat) : (s.raise a c d).regions = s.regions := (congrArg State.regions (s.raise_faultOnly a c d).eq :)
@[simp] theorem State.raise_frames (a c d : Nat) : (s.raise a c d).frames = s.frames := (congrArg State.frames (s.raise_faultOnly a c d).eq :)
@[simp] theorem State.raise_refs (a c d : Nat) : (s.raise a c d).refs = s.refs := (congrArg State.refs (s.raise_faultOnly a c d).eq :)
@[simp] theorem State.raise_hist (a c d : Nat) : (s.raise a c d).hist = s.hist := (congrArg State.hist (s.raise_faultOnly a c d).eq :)
@[simp] theorem State.raise_queues (a c d : Nat) : (s.raise a c d).queues = s.queues := (congrArg State.queues (s.raise_faultOnly a c d).eq :)
@[simp] theorem State.raise_pools (a c d : Nat) : (s.raise a c d).pools = s.pools := (congrArg State.pools (s.raise_faultOnly a c d).eq :)
@[simp] theorem State.raise_dma (a c d : Nat) : (s.raise a c d).dma = s.dma := (congrArg State.dma (s.raise_faultOnly a c d).eq :)
@[simp] theorem State.raise_lmc (a c d : Nat) : (s.raise a c d).lmc = s.lmc := (congrArg State.lmc (s.raise_faultOnly a c d).eq :)
@[simp] theorem State.raise_dram (a c d : Nat) : (s.raise a c d).dram = s.dram := (congrArg State.dram (s.raise_faultOnly a c d).eq :)
@[simp] theorem State.raise_poison (a c d : Nat) : (s.raise a c d).poison = s.poison := (congrArg State.poison (s.raise_faultOnly a c d).eq :)
@[simp] theorem State.raise_mag (a c d : Nat) : (s.raise a c d).mag = s.mag := (congrArg State.mag (s.raise_faultOnly a c d).eq :)
@[simp] theorem State.raise_cxl (a c d : Nat) : (s.raise a c d).cxl = s.cxl := (congrArg State.cxl (s.raise_faultOnly a c d).eq :)
@[simp] theorem State.raise_hostMem (a c d : Nat) : (s.raise a c d).hostMem = s.hostMem := (congrArg State.hostMem (s.raise_faultOnly a c d).eq :)
@[simp] theorem State.raise_eth (a c d : Nat) : (s.raise a c d).eth = s.eth := (congrArg State.eth (s.raise_faultOnly a c d).eq :)
@[simp] theorem State.raise_proxy (a c d : Nat) : (s.raise a c d).proxy = s.proxy := (congrArg State.proxy (s.raise_faultOnly a c d).eq :)
@[simp] theorem State.raise_ptp (a c d : Nat) : (s.raise a c d).ptp = s.ptp := (congrArg State.ptp (s.raise_faultOnly a c d).eq :)
@[simp] theorem State.raise_can (a c d : Nat) : (s.raise a c d).can = s.can := (congrArg State.can (s.raise_faultOnly a c d).eq :)
@[simp] theorem State.raise_clip (a c d : Nat) : (s.raise a c d).clip = s.clip := (congrArg State.clip (s.raise_faultOnly a c d).eq :)
@[simp] theorem State.raise_kpr (a c d : Nat) : (s.raise a c d).kpr = s.kpr := (congrArg State.kpr (s.raise_faultOnly a c d).eq :)
@[simp] theorem State.raise_aon (a c d : Nat) : (s.raise a c d).aon = s.aon := (congrArg State.aon (s.raise_faultOnly a c d).eq :)
@[simp] theorem State.raise_nor (a c d : Nat) : (s.raise a c d).nor = s.nor := (congrArg State.nor (s.raise_faultOnly a c d).eq :)
@[simp] theorem State.raise_mgc (a c d : Nat) : (s.raise a c d).mgc = s.mgc := (congrArg State.mgc (s.raise_faultOnly a c d).eq :)
@[simp] theorem State.raise_rstc (a c d : Nat) : (s.raise a c d).rstc = s.rstc := (congrArg State.rstc (s.raise_faultOnly a c d).eq :)
@[simp] theorem State.raise_gang (a c d : Nat) : (s.raise a c d).gang = s.gang := (congrArg State.gang (s.raise_faultOnly a c d).eq :)

@[simp] theorem State.cfg_pending (off : Nat) : (s.cfg off).pending = s.pending := (congrArg State.pending (s.cfg_faultOnly off).eq :)
@[simp] theorem State.cfg_clk (off : Nat) : (s.cfg off).clk = s.clk := (congrArg State.clk (s.cfg_faultOnly off).eq :)
@[simp] theorem State.cfg_draws (off : Nat) : (s.cfg off).draws = s.draws := (congrArg State.draws (s.cfg_faultOnly off).eq :)
@[simp] theorem State.cfg_force (off : Nat) : (s.cfg off).force = s.force := (congrArg State.force (s.cfg_faultOnly off).eq :)
@[simp] theorem State.cfg_latch (off : Nat) : (s.cfg off).latch = s.latch := (congrArg State.latch (s.cfg_faultOnly off).eq :)
@[simp] theorem State.cfg_mgcWrites (off : Nat) : (s.cfg off).mgcWrites = s.mgcWrites := (congrArg State.mgcWrites (s.cfg_faultOnly off).eq :)
@[simp] theorem State.cfg_resp (off : Nat) : (s.cfg off).resp = s.resp := (congrArg State.resp (s.cfg_faultOnly off).eq :)
@[simp] theorem State.cfg_out (off : Nat) : (s.cfg off).out = s.out := (congrArg State.out (s.cfg_faultOnly off).eq :)
@[simp] theorem State.cfg_bu (off : Nat) : (s.cfg off).bu = s.bu := (congrArg State.bu (s.cfg_faultOnly off).eq :)
@[simp] theorem State.cfg_tb (off : Nat) : (s.cfg off).tb = s.tb := (congrArg State.tb (s.cfg_faultOnly off).eq :)
@[simp] theorem State.cfg_ppr (off : Nat) : (s.cfg off).ppr = s.ppr := (congrArg State.ppr (s.cfg_faultOnly off).eq :)
@[simp] theorem State.cfg_engines (off : Nat) : (s.cfg off).engines = s.engines := (congrArg State.engines (s.cfg_faultOnly off).eq :)
@[simp] theorem State.cfg_regions (off : Nat) : (s.cfg off).regions = s.regions := (congrArg State.regions (s.cfg_faultOnly off).eq :)
@[simp] theorem State.cfg_frames (off : Nat) : (s.cfg off).frames = s.frames := (congrArg State.frames (s.cfg_faultOnly off).eq :)
@[simp] theorem State.cfg_refs (off : Nat) : (s.cfg off).refs = s.refs := (congrArg State.refs (s.cfg_faultOnly off).eq :)
@[simp] theorem State.cfg_hist (off : Nat) : (s.cfg off).hist = s.hist := (congrArg State.hist (s.cfg_faultOnly off).eq :)
@[simp] theorem State.cfg_queues (off : Nat) : (s.cfg off).queues = s.queues := (congrArg State.queues (s.cfg_faultOnly off).eq :)
@[simp] theorem State.cfg_pools (off : Nat) : (s.cfg off).pools = s.pools := (congrArg State.pools (s.cfg_faultOnly off).eq :)
@[simp] theorem State.cfg_dma (off : Nat) : (s.cfg off).dma = s.dma := (congrArg State.dma (s.cfg_faultOnly off).eq :)
@[simp] theorem State.cfg_lmc (off : Nat) : (s.cfg off).lmc = s.lmc := (congrArg State.lmc (s.cfg_faultOnly off).eq :)
@[simp] theorem State.cfg_dram (off : Nat) : (s.cfg off).dram = s.dram := (congrArg State.dram (s.cfg_faultOnly off).eq :)
@[simp] theorem State.cfg_poison (off : Nat) : (s.cfg off).poison = s.poison := (congrArg State.poison (s.cfg_faultOnly off).eq :)
@[simp] theorem State.cfg_mag (off : Nat) : (s.cfg off).mag = s.mag := (congrArg State.mag (s.cfg_faultOnly off).eq :)
@[simp] theorem State.cfg_cxl (off : Nat) : (s.cfg off).cxl = s.cxl := (congrArg State.cxl (s.cfg_faultOnly off).eq :)
@[simp] theorem State.cfg_hostMem (off : Nat) : (s.cfg off).hostMem = s.hostMem := (congrArg State.hostMem (s.cfg_faultOnly off).eq :)
@[simp] theorem State.cfg_eth (off : Nat) : (s.cfg off).eth = s.eth := (congrArg State.eth (s.cfg_faultOnly off).eq :)
@[simp] theorem State.cfg_proxy (off : Nat) : (s.cfg off).proxy = s.proxy := (congrArg State.proxy (s.cfg_faultOnly off).eq :)
@[simp] theorem State.cfg_ptp (off : Nat) : (s.cfg off).ptp = s.ptp := (congrArg State.ptp (s.cfg_faultOnly off).eq :)
@[simp] theorem State.cfg_can (off : Nat) : (s.cfg off).can = s.can := (congrArg State.can (s.cfg_faultOnly off).eq :)
@[simp] theorem State.cfg_clip (off : Nat) : (s.cfg off).clip = s.clip := (congrArg State.clip (s.cfg_faultOnly off).eq :)
@[simp] theorem State.cfg_kpr (off : Nat) : (s.cfg off).kpr = s.kpr := (congrArg State.kpr (s.cfg_faultOnly off).eq :)
@[simp] theorem State.cfg_aon (off : Nat) : (s.cfg off).aon = s.aon := (congrArg State.aon (s.cfg_faultOnly off).eq :)
@[simp] theorem State.cfg_nor (off : Nat) : (s.cfg off).nor = s.nor := (congrArg State.nor (s.cfg_faultOnly off).eq :)
@[simp] theorem State.cfg_mgc (off : Nat) : (s.cfg off).mgc = s.mgc := (congrArg State.mgc (s.cfg_faultOnly off).eq :)
@[simp] theorem State.cfg_rstc (off : Nat) : (s.cfg off).rstc = s.rstc := (congrArg State.rstc (s.cfg_faultOnly off).eq :)
@[simp] theorem State.cfg_gang (off : Nat) : (s.cfg off).gang = s.gang := (congrArg State.gang (s.cfg_faultOnly off).eq :)

end Sys2Proof.Machine
end

