-- ==== Sys2Proof/Laws/Keeps.lean ====
section
/-! SUPPORT. `Keeps` as a chain: each lemma passes it over one operation, so that a proof about a meaning cites the lemma
of each operation the meaning calls. -/

namespace Sys2Proof.Machine

theorem Keeps.refl (s : State) : Keeps s s := ⟨rfl, id, Nat.le_refl _⟩

theorem Keeps.trans {r s t : State} (h : Keeps r s) (k : Keeps s t) : Keeps r t :=
  ⟨k.pending.trans h.pending, fun w => k.wf (h.wf w), Nat.le_trans h.draws k.draws⟩

/-- What a command answers, when it answers a next state, is kept. -/
structure OutKeeps (r : State) (o : Host.Outcome State Fault Refusal) : Prop where
  keeps : ∀ t, o = .next t → Keeps r t

theorem OutKeeps.next {r s : State} (h : Keeps r s) : OutKeeps r (.next s) :=
  ⟨fun t e => by cases e; exact h⟩

/-- What an operation that may answer nothing answers is kept. -/
structure OptKeeps (r : State) (o : Option State) : Prop where
  keeps : ∀ t, o = some t → Keeps r t

theorem OptKeeps.none {r : State} : OptKeeps r none := ⟨fun t e => by cases e⟩

theorem OptKeeps.some {r s : State} (h : Keeps r s) : OptKeeps r (some s) :=
  ⟨fun t e => by cases e; exact h⟩

theorem OptKeeps.ite {r : State} {c : Prop} [Decidable c] {x y : Option State} (h : OptKeeps r x) (k : OptKeeps r y) :
    OptKeeps r (if c then x else y) := by
  split
  · exact h
  · exact k

theorem OptKeeps.getD {r s : State} {o : Option State} (ho : OptKeeps r o) (h : Keeps r s) : Keeps r (o.getD s) := by
  cases o with
  | none => exact h
  | some t => exact ho.keeps t rfl

/-- The lists whose lengths the shape fixes keep them. -/
structure SameShape (s t : State) : Prop where
  engines : s.engines.length = 68 → t.engines.length = 68
  regions : s.regions.length = 4 → t.regions.length = 4
  queues : s.queues.length = 72 → t.queues.length = 72
  pools : s.pools.length = 16 → t.pools.length = 16
  dma : s.dma.length = 16 → t.dma.length = 16
  eth : s.eth.length = 2 → t.eth.length = 2
  can : s.can.length = 2 → t.can.length = 2
  bays : s.mag.bays.length = 4 → t.mag.bays.length = 4
  domains : s.rstc.domains.length = 4 → t.rstc.domains.length = 4
  gated : s.kpr.gated.length = 2 → t.kpr.gated.length = 2
  log : s.fc.log.length ≤ 32 → t.fc.log.length ≤ 32

/-- The sparse maps stay canonical. -/
structure SameForm (s t : State) : Prop where
  regs : swf regReset s.regs = true → swf regReset t.regs = true
  force : swf regReset s.force = true → swf regReset t.force = true
  dram : swf (fun _ => 0#8) s.dram = true → swf (fun _ => 0#8) t.dram = true
  poison : swf (fun _ => false) s.poison = true → swf (fun _ => false) t.poison = true
  hostMem : swf (fun _ => none) s.hostMem = true → swf (fun _ => none) t.hostMem = true

theorem SameForm.canonical {s t : State} (h : SameForm s t) (k : s.canonical = true) : t.canonical = true := by
  simp only [State.canonical, Memory.wf, Bool.and_eq_true] at k ⊢
  exact And.imp (And.imp (And.imp (And.imp h.regs h.force) h.dram) h.poison) h.hostMem k

theorem SameShape.shaped {s t : State} (h : SameShape s t) (k : s.shaped = true) : t.shaped = true := by
  simp only [State.shaped, Bool.and_eq_true, beq_iff_eq, decide_eq_true_eq] at k ⊢
  have lists := And.imp (And.imp (And.imp (And.imp h.engines h.regions) h.queues) h.pools) h.dma
  have units := And.imp (And.imp (And.imp (And.imp lists h.eth) h.can) h.bays) h.domains
  exact And.imp (And.imp units h.gated) h.log k

/-- An operation that leaves the queue alone, draws or not, and keeps form and shape. -/
theorem Keeps.of {r s t : State} (h : Keeps r s) (hp : t.pending = s.pending) (hd : s.draws ≤ t.draws) (hf : SameForm s t)
    (hs : SameShape s t) : Keeps r t := by
  refine h.trans ⟨hp, ?_, hd⟩
  unfold State.wf
  rw [Bool.and_eq_true, Bool.and_eq_true]
  exact And.imp hf.canonical hs.shaped

/-- An update of what neither the form nor the shape speaks of. -/
theorem Keeps.lit {r s : State} {clk latch resp out fc icu bu tb ppr frames refs hist lmc mag cxl proxy ptp hpp clip kpr aon log nor
    mgc rstc gang mgcWrites} (h : Keeps r s) (hb : mag.bays = s.mag.bays) (hd : rstc.domains = s.rstc.domains)
    (hg : kpr.gated = s.kpr.gated) (hl : fc.log = s.fc.log) :
    Keeps r { pending := s.pending, clk := clk, draws := s.draws, regs := s.regs, force := s.force, latch := latch, resp := resp,
              out := out, fc := fc, icu := icu, bu := bu, tb := tb, ppr := ppr, engines := s.engines, regions := s.regions,
              frames := frames, refs := refs, hist := hist, queues := s.queues, pools := s.pools, dma := s.dma, lmc := lmc,
              dram := s.dram, poison := s.poison, mag := mag, cxl := cxl, hostMem := s.hostMem, eth := s.eth, proxy := proxy,
              ptp := ptp, hpp := hpp, can := s.can, clip := clip, kpr := kpr, aon := aon, log := log, nor := nor, mgc := mgc,
              rstc := rstc, gang := gang, mgcWrites := mgcWrites } :=
  h.of rfl (Nat.le_refl _) ⟨id, id, id, id, id⟩
    ⟨id, id, id, id, id, id, id, by simp [hb], by simp [hd], by simp [hg], by simp [hl]⟩

@[simp] theorem modAt_length {α : Type} (l : List α) (i : Nat) (f : α → α) : (modAt l i f).length = l.length := by
  simp [modAt]

@[simp] theorem setAt_length {α : Type} (l : List α) (i : Nat) (v : α) : (setAt l i v).length = l.length := by
  simp [setAt]

/-- An update that leaves the queue and the count of free values alone. -/
theorem Keeps.maps {r s : State} {clk regs force latch resp out fc icu bu tb ppr engines regions frames refs hist queues pools
    dma lmc dram poison mag cxl hostMem eth proxy ptp hpp can clip kpr aon log nor mgc rstc gang mgcWrites} (h : Keeps r s)
    (h1 : swf regReset s.regs = true → swf regReset regs = true := by first | exact id | exact swf_sput _ _ _ _ | exact swf_sdrop _ _ _)
    (h2 : swf regReset s.force = true → swf regReset force = true := by first | exact id | exact swf_sput _ _ _ _ | exact swf_sdrop _ _ _)
    (h3 : swf (fun _ => 0#8) s.dram = true → swf (fun _ => 0#8) dram = true := by first | exact id | exact swf_sput _ _ _ _ | exact fun _ => swf_nil _)
    (h4 : swf (fun _ => false) s.poison = true → swf (fun _ => false) poison = true := by first | exact id | exact swf_sput _ _ _ _ | exact fun _ => swf_nil _)
    (h5 : swf (fun _ => none) s.hostMem = true → swf (fun _ => none) hostMem = true := by first | exact id | exact swf_sput _ _ _ _ | exact fun _ => swf_nil _)
    (l1 : s.engines.length = 68 → engines.length = 68 := by first | exact id | simp) (l2 : s.regions.length = 4 → regions.length = 4 := by first | exact id | simp)
    (l3 : s.queues.length = 72 → queues.length = 72 := by first | exact id | simp) (l4 : s.pools.length = 16 → pools.length = 16 := by first | exact id | simp)
    (l5 : s.dma.length = 16 → dma.length = 16 := by first | exact id | simp) (l6 : s.eth.length = 2 → eth.length = 2 := by first | exact id | simp) (l7 : s.can.length = 2 → can.length = 2 := by first | exact id | simp)
    (l8 : s.mag.bays.length = 4 → mag.bays.length = 4 := by first | exact id | simp) (l9 : s.rstc.domains.length = 4 → rstc.domains.length = 4 := by first | exact id | simp)
    (l10 : s.kpr.gated.length = 2 → kpr.gated.length = 2 := by first | exact id | simp) (l11 : s.fc.log.length ≤ 32 → fc.log.length ≤ 32 := by first | exact id | exact fun _ => Nat.zero_le _ | simp) :
    Keeps r { pending := s.pending, clk := clk, draws := s.draws, regs := regs, force := force, latch := latch, resp := resp,
              out := out, fc := fc, icu := icu, bu := bu, tb := tb, ppr := ppr, engines := engines, regions := regions,
              frames := frames, refs := refs, hist := hist, queues := queues, pools := pools, dma := dma, lmc := lmc,
              dram := dram, poison := poison, mag := mag, cxl := cxl, hostMem := hostMem, eth := eth, proxy := proxy,
              ptp := ptp, hpp := hpp, can := can, clip := clip, kpr := kpr, aon := aon, log := log, nor := nor, mgc := mgc,
              rstc := rstc, gang := gang, mgcWrites := mgcWrites } :=
  h.of rfl (Nat.le_refl _) ⟨h1, h2, h3, h4, h5⟩ ⟨l1, l2, l3, l4, l5, l6, l7, l8, l9, l10, l11⟩

/-- The value that a `let` names is kept, and what follows keeps from it. -/
theorem Keeps.step {r s t : State} (h : Keeps r s) (k : Keeps r s → Keeps r t) : Keeps r t := k h

/-- The state of a pair that an operation answers. -/
theorem Keeps.snd {α : Type} {r t : State} {p : α × State} {a : α} (e : p = (a, t)) (h : Keeps r p.2) : Keeps r t := by
  rw [e] at h; exact h

theorem Keeps.ite_snd {α : Type} {r : State} {c : Prop} [Decidable c] {x y : α × State} (h : Keeps r x.2) (k : Keeps r y.2) :
    Keeps r (if c then x else y).2 := by
  split
  · exact h
  · exact k

theorem State.when_keeps {r s : State} {c : Bool} {f : State → State} (hf : ∀ x, Keeps r x → Keeps r (f x)) (h : Keeps r s) :
    Keeps r (s.when c f) := by
  unfold State.when; split
  · exact hf s h
  · exact h

theorem List.foldl_keeps {α : Type} {r s : State} {l : List α} {f : State → α → State} (hf : ∀ x a, Keeps r x → Keeps r (f x a))
    (h : Keeps r s) : Keeps r (l.foldl f s) := by
  induction l generalizing s with
  | nil => exact h
  | cons a t ih => exact ih (hf s a h)

theorem List.foldl_keeps_snd {α β : Type} {r : State} {x : β × State} {l : List α} {f : β × State → α → β × State}
    (hf : ∀ x a, Keeps r x.2 → Keeps r (f x a).2) (h : Keeps r x.2) : Keeps r (l.foldl f x).2 := by
  induction l generalizing x with
  | nil => exact h
  | cons a t ih => exact ih (hf x a h)

theorem State.each_keeps {α : Type} {r s : State} {l : List α} {f : State → α → State} (hf : ∀ x a, Keeps r x → Keeps r (f x a))
    (h : Keeps r s) : Keeps r (s.each l f) := List.foldl_keeps hf h

theorem State.putWord_keeps {r s : State} {off : Nat} {w : Word} (h : Keeps r s) : Keeps r (s.putWord off w) :=
  Keeps.maps h (swf_sput _ _ _ _) id id id id id id id id id id id id id id id

theorem State.putForce_keeps {r s : State} {off : Nat} {w : Word} (h : Keeps r s) : Keeps r (s.putForce off w) :=
  Keeps.maps h id (swf_sput _ _ _ _) id id id id id id id id id id id id id id

theorem State.set_keeps {r s : State} {f : Fld} {v : Nat} (h : Keeps r s) : Keeps r (s.set f v) := by
  unfold State.set; split
  · exact State.putWord_keeps h
  · exact State.putWord_keeps (State.putWord_keeps h)

theorem State.draw_keeps {r s : State} (h : Keeps r s) : Keeps r s.draw.2 :=
  h.of rfl (Nat.le_succ _) ⟨id, id, id, id, id⟩ ⟨id, id, id, id, id, id, id, id, id, id, id⟩

theorem State.dramPut_keeps {r s : State} {a : Nat} {l : List Nat} (h : Keeps r s) : Keeps r (s.dramPut a l) :=
  Keeps.maps h id id (swf_sputAll _ _ _ _) (swf_filter _ _ _) id id id id id id id id id id id id

theorem State.writeBack_keeps {r s : State} {line : Nat} {b : List Nat} (h : Keeps r s) : Keeps r (s.writeBack line b) :=
  Keeps.maps h id id id id (swf_sputAll _ _ _ _) id id id id id id id id id id id

end Sys2Proof.Machine
end

