-- ==== Sys2Proof/Laws/Fields.lean ====
section
/-! SUPPORT. Laws of the register fields: a field read after it was written gives the value written, and every other field gives what
it gave. -/

namespace Sys2Proof.Machine

/-! ## Bits -/

theorem testBit_insBits (n lo w v i : Nat) :
    (insBits n lo w v).testBit i = if lo ≤ i ∧ i < lo + w then v.testBit (i - lo) else n.testBit i := by
  have hn : n = 2 ^ lo * (2 ^ w * (n / 2 ^ lo / 2 ^ w) + n / 2 ^ lo % 2 ^ w) + n % 2 ^ lo := by
    rw [Nat.div_add_mod, Nat.div_add_mod]
  have e : insBits n lo w v = 2 ^ lo * (2 ^ w * (n / 2 ^ lo / 2 ^ w) + v % 2 ^ w) + n % 2 ^ lo := by
    unfold insBits bits
    generalize n / 2 ^ lo / 2 ^ w = c at *
    generalize n / 2 ^ lo % 2 ^ w = b at *
    generalize n % 2 ^ lo = a at *
    generalize v % 2 ^ w = u at *
    subst hn
    rw [Nat.mul_add, Nat.mul_add]
    have h1 : b * 2 ^ lo = 2 ^ lo * b := Nat.mul_comm _ _
    have h2 : u * 2 ^ lo = 2 ^ lo * u := Nat.mul_comm _ _
    omega
  rw [e, Nat.testBit_two_pow_mul_add _ (Nat.mod_lt _ (Nat.two_pow_pos _))]
  by_cases h1 : i < lo
  · have h2 : ¬ (lo ≤ i ∧ i < lo + w) := by omega
    simp only [h1, h2, if_true, if_false, Nat.testBit_mod_two_pow, decide_true, Bool.true_and]
  · simp only [h1, if_false]
    rw [Nat.testBit_two_pow_mul_add _ (Nat.mod_lt _ (Nat.two_pow_pos _))]
    by_cases h2 : i - lo < w
    · have h3 : lo ≤ i ∧ i < lo + w := by omega
      simp only [h2, h3, and_self, if_true, Nat.testBit_mod_two_pow, decide_true, Bool.true_and]
    · have h3 : ¬ (lo ≤ i ∧ i < lo + w) := by omega
      have h4 : lo + (w + (i - lo - w)) = i := by omega
      simp only [h2, h3, if_false, Nat.testBit_div_two_pow]
      congr 1
      omega

theorem testBit_bits (n lo w i : Nat) : (bits n lo w).testBit i = (decide (i < w) && n.testBit (lo + i)) := by
  simp [bits, Nat.testBit_mod_two_pow, Nat.testBit_div_two_pow, Nat.add_comm]

theorem bits_insBits_same (n lo w v : Nat) : bits (insBits n lo w v) lo w = v % 2 ^ w := by
  apply Nat.eq_of_testBit_eq
  intro i
  rw [testBit_bits, testBit_insBits, Nat.testBit_mod_two_pow]
  by_cases h : i < w
  · have h1 : lo ≤ lo + i ∧ lo + i < lo + w := by omega
    simp [h, h1]
  · simp [h]

theorem bits_insBits_apart (n lo w v lo' w' : Nat) (h : lo' + w' ≤ lo ∨ lo + w ≤ lo') :
    bits (insBits n lo w v) lo' w' = bits n lo' w' := by
  apply Nat.eq_of_testBit_eq
  intro i
  rw [testBit_bits, testBit_insBits, testBit_bits]
  by_cases h0 : i < w'
  · have h1 : ¬ (lo ≤ lo' + i ∧ lo' + i < lo + w) := by omega
    simp [h1]
  · simp [h0]

theorem insBits_lt (n lo w v k : Nat) (hn : n < 2 ^ k) (hk : lo + w ≤ k) : insBits n lo w v < 2 ^ k := by
  apply Nat.lt_pow_two_of_testBit
  intro i hi
  rw [testBit_insBits]
  have h1 : ¬ (lo ≤ i ∧ i < lo + w) := by omega
  simp only [h1, if_false]
  exact Nat.testBit_lt_two_pow (Nat.lt_of_lt_of_le hn (Nat.pow_le_pow_right (by omega) hi))

/-- The low bits of a quantity are those of its low word. -/
theorem bits_low (a b lo w : Nat) (ha : a < 2 ^ 32) (h : lo + w ≤ 32) : bits (a + 2 ^ 32 * b) lo w = bits a lo w := by
  apply Nat.eq_of_testBit_eq
  intro i
  rw [testBit_bits, testBit_bits, Nat.add_comm a, Nat.testBit_two_pow_mul_add _ ha]
  by_cases h0 : i < w
  · have h1 : lo + i < 32 := by omega
    simp [h1]
  · simp [h0]

/-! ## Words -/

variable {s : State}

theorem State.regs_swf (h : s.wf = true) : swf regReset s.regs = true := by
  simp only [State.wf, State.canonical, Bool.and_eq_true] at h
  exact h.1.1.1.1.1

theorem State.putWord_wf (h : s.wf = true) (off : Nat) (w : Word) : (s.putWord off w).wf = true :=
  (State.putWord_keeps (Keeps.refl s)).wf h

theorem State.set_wf (h : s.wf = true) (f : Fld) (v : Nat) : (s.set f v).wf = true := (State.set_keeps (Keeps.refl s)).wf h

theorem State.word_putWord (h : s.wf = true) (off k : Nat) (w : Word) :
    (s.putWord off w).word k = if k = off then w else s.word k := sget_sput_from _ _ 0 _ _ _ (State.regs_swf h)

/-- The 64 bits at `off`. -/
def State.pair (s : State) (off : Nat) : Nat := (s.word off).toNat + 2 ^ 32 * (s.word (off + 4)).toNat

theorem State.pair_lt (s : State) (off : Nat) : s.pair off < 2 ^ 64 := by
  have h1 := (s.word off).isLt
  have h2 := (s.word (off + 4)).isLt
  unfold State.pair
  omega

/-- A field is a run of bits of the 64 bits at its offset. -/
theorem State.get_pair (s : State) (f : Fld) : s.get f = bits (s.pair f.off) f.lo f.width := by
  unfold State.get fieldOf State.pair
  split
  · exact (bits_low _ _ _ _ (s.word f.off).isLt (by assumption)).symm
  · rfl

/-- Two fields that share no bit. -/
def Fld.apart (f g : Fld) : Bool :=
  if f.off = g.off then decide (g.lo + g.width ≤ f.lo ∨ f.lo + f.width ≤ g.lo)
  else decide ((f.lo + f.width ≤ 32 ∧ f.off + 4 ≤ g.off) ∨ f.off + 8 ≤ g.off ∨ (g.lo + g.width ≤ 32 ∧ g.off + 4 ≤ f.off) ∨ g.off + 8 ≤ f.off)

/-- A field that lies in one or two words. -/
def Fld.fits (f : Fld) : Bool := decide (f.lo + f.width ≤ 64)

theorem State.pair_set (h : s.wf = true) (f : Fld) (v : Nat) (hf : f.fits = true) :
    (s.set f v).pair f.off = insBits (s.pair f.off) f.lo f.width v := by
  have h64 : f.lo + f.width ≤ 64 := by simpa [Fld.fits] using hf
  have hne : f.off + 4 ≠ f.off := by omega
  have hw := (s.word f.off).isLt
  have hw4 := (s.word (f.off + 4)).isLt
  unfold State.set State.pair
  split
  · rename_i h32
    rw [State.word_putWord h, State.word_putWord h]
    simp only [if_true, hne, if_false]
    have hl := insBits_lt (s.word f.off).toNat f.lo f.width v 32 hw h32
    rw [BitVec.toNat_ofNat, Nat.mod_eq_of_lt hl]
    apply Nat.eq_of_testBit_eq
    intro i
    rw [testBit_insBits, Nat.add_comm, Nat.testBit_two_pow_mul_add _ hl, Nat.add_comm (s.word f.off).toNat,
      Nat.testBit_two_pow_mul_add _ hw, testBit_insBits]
    by_cases h1 : i < 32
    · simp [h1]
    · have h2 : ¬ (f.lo ≤ i ∧ i < f.lo + f.width) := by omega
      simp [h1, h2]
  · have hl := insBits_lt (s.pair f.off) f.lo f.width v 64 (s.pair_lt _) h64
    unfold State.pair at hl
    dsimp only
    rw [State.word_putWord (State.putWord_wf h _ _), State.word_putWord (State.putWord_wf h _ _), State.word_putWord h]
    simp only [if_true, if_false, hne.symm]
    rw [BitVec.toNat_ofNat, BitVec.toNat_ofNat]
    generalize insBits ((s.word f.off).toNat + 2 ^ 32 * (s.word (f.off + 4)).toNat) f.lo f.width v = n at *
    omega

theorem State.word_set_other (h : s.wf = true) (f : Fld) (v k : Nat) (h1 : k ≠ f.off) (h2 : f.lo + f.width ≤ 32 ∨ k ≠ f.off + 4) :
    (s.set f v).word k = s.word k := by
  unfold State.set
  split
  · rw [State.word_putWord h]; simp [h1]
  · have h3 : k ≠ f.off + 4 := by
      rcases h2 with h2 | h2
      · contradiction
      · exact h2
    dsimp only
    rw [State.word_putWord (State.putWord_wf h _ _), State.word_putWord h]; simp [h1, h3]

/-- A field reads as what was written to it, cut to its width. -/
theorem State.get_set_same (h : s.wf = true) (f : Fld) (v : Nat) (hf : f.fits = true) : (s.set f v).get f = v % 2 ^ f.width := by
  rw [State.get_pair, State.pair_set h f v hf, bits_insBits_same]

/-- A write of one field leaves a field apart from it alone. -/
theorem State.get_set_apart (h : s.wf = true) (f g : Fld) (v : Nat) (hf : f.fits = true) (ha : f.apart g = true) :
    (s.set f v).get g = s.get g := by
  unfold Fld.apart at ha
  split at ha
  · rename_i e
    have ha' : g.lo + g.width ≤ f.lo ∨ f.lo + f.width ≤ g.lo := by simpa using ha
    rw [State.get_pair, State.get_pair, ← e, State.pair_set h f v hf, bits_insBits_apart _ _ _ _ _ _ ha']
  · rename_i e
    simp only [decide_eq_true_eq] at ha
    unfold State.get fieldOf
    have hA : (s.set f v).word g.off = s.word g.off := State.word_set_other h f v _ (fun k => e k.symm) (by omega)
    split
    · rw [hA]
    · have hB : (s.set f v).word (g.off + 4) = s.word (g.off + 4) := State.word_set_other h f v _ (by omega) (by omega)
      rw [hA, hB]

end Sys2Proof.Machine
end

