-- ==== Sys2Proof/Laws/Steps.lean ====
section
/-! SUPPORT. What every operation and every meaning of the model keeps (`Keeps`): the commands that wait, the canonical forms and the
shape of the state, and the order of the free values. One lemma per operation over states: `X_keeps : Keeps r s → Keeps r (X s)`, for a
pair its second part, for an optional state `OptKeeps`, for a meaning `OutKeeps`. -/

namespace Sys2Proof.Machine

set_option linter.unusedVariables false
set_option linter.unreachableTactic false
set_option linter.tactic.unusedName false
set_option linter.unusedTactic false
set_option linter.style.nameCheck false

theorem State.notify_keeps {r : State} {s : State} {event : ℕ} {data : List ℕ} (hk : Keeps r s) : Keeps r (State.notify s event data) := by
  unfold State.notify
  repeat' first
    | with_reducible assumption
    | (fail_if_no_progress (with_reducible refine Keeps.lit ?_ rfl rfl rfl rfl))

theorem State.logbook_keeps {r : State} {s : State} {typ : ℕ} {data : List ℕ} (hk : Keeps r s) : Keeps r (State.logbook s typ data) := by
  unfold State.logbook
  repeat' first
    | with_reducible assumption
    | (extract_lets +onlyGivenNames x; first
        | (refine Keeps.step (s := x) ?_ ?_; rotate_left; ((try clear_value x); intro hx); rotate_left; subst x)
        | (refine Keeps.step (s := x.2) ?_ ?_; rotate_left; ((try clear_value x); intro hx); rotate_left; subst x)
        | (first | (have := (x : Keeper)) | (have := (x : Collector)) | (have := (x : Mag)) | (have := (x : Rstc)); subst x)
        | clear_value x | skip)
    | split
    | (fail_if_no_progress (with_reducible refine Keeps.lit ?_ rfl rfl rfl rfl))

theorem State.setLevel_keeps {r : State} {s : State} {level : ℕ} {kind : ℕ} {cause : ℕ} (hk : Keeps r s) : Keeps r (State.setLevel s level kind cause) := by
  unfold State.setLevel
  repeat' first
    | with_reducible assumption
    | with_reducible apply State.notify_keeps
    | with_reducible apply State.logbook_keeps
    | with_reducible apply State.set_keeps

theorem State.enterSafe_keeps {r s : State} {kind cause : Nat} (h : Keeps r s) : Keeps r (s.enterSafe kind cause) := by
  unfold State.enterSafe
  split
  · exact h
  · exact Keeps.lit (State.setLevel_keeps h) rfl rfl rfl rfl

theorem State.wantBasic_keeps {r : State} {s : State} {kind : ℕ} {cause : ℕ} (hk : Keeps r s) : Keeps r (State.wantBasic s kind cause) := by
  unfold State.wantBasic
  repeat' first
    | with_reducible assumption
    | (fail_if_no_progress (with_reducible refine Keeps.lit ?_ rfl rfl rfl rfl))

theorem State.putVector_keeps {r : State} {s : State} {v : ℕ} {x : IcuVector} (hk : Keeps r s) : Keeps r (State.putVector s v x) := by
  unfold State.putVector
  repeat' first
    | with_reducible assumption
    | (fail_if_no_progress (with_reducible refine Keeps.lit ?_ rfl rfl rfl rfl))

theorem State.putSource_keeps {r : State} {s : State} {n : ℕ} {v : IcuSource} (hk : Keeps r s) : Keeps r (State.putSource s n v) := by
  unfold State.putSource
  repeat' first
    | with_reducible assumption
    | (fail_if_no_progress (with_reducible refine Keeps.lit ?_ rfl rfl rfl rfl))

theorem State.icuEvent_keeps {r : State} {s : State} {n : ℕ} (hk : Keeps r s) : Keeps r (State.icuEvent s n) := by
  unfold State.icuEvent
  repeat' first
    | with_reducible assumption
    | (extract_lets +onlyGivenNames x; first
        | (refine Keeps.step (s := x) ?_ ?_; rotate_left; ((try clear_value x); intro hx); rotate_left; subst x)
        | (refine Keeps.step (s := x.2) ?_ ?_; rotate_left; ((try clear_value x); intro hx); rotate_left; subst x)
        | (first | (have := (x : Keeper)) | (have := (x : Collector)) | (have := (x : Mag)) | (have := (x : Rstc)); subst x)
        | clear_value x | skip)
    | with_reducible apply State.putVector_keeps
    | with_reducible apply State.putSource_keeps
    | split

theorem State.icuPulse_keeps {r : State} {s : State} {n : ℕ} (hk : Keeps r s) : Keeps r (State.icuPulse s n) := by
  unfold State.icuPulse
  repeat' first
    | with_reducible assumption
    | with_reducible apply State.icuEvent_keeps
    | split

theorem State.setBit_keeps {r : State} {s : State} {f : Fld} {i : ℕ} (hk : Keeps r s) : Keeps r (State.setBit s f i) := by
  unfold State.setBit
  repeat' first
    | with_reducible assumption
    | with_reducible apply State.set_keeps
    | split

theorem State.inc_keeps {r : State} {s : State} {f : Fld} (hk : Keeps r s) : Keeps r (State.inc s f) := by
  unfold State.inc
  repeat' first
    | with_reducible assumption
    | with_reducible apply State.set_keeps
    | split

theorem logFault_length {l : List FaultRec} {n : Nat} {r : FaultRec} : (logFault l n r).2.length ≤ 32 := by
  simp [logFault]

theorem State.recordFault_keeps {r s : State} {x : FaultRec} (h : Keeps r s) : Keeps r (s.recordFault x) := by
  have hl : (logFault s.fc.log s.fc.seq x).2.length ≤ 32 := logFault_length
  unfold State.recordFault
  dsimp only
  refine Keeps.maps (State.set_keeps ?_) id id id id id id id id id id id id id id id (fun _ => hl)
  split
  · exact State.inc_keeps h
  · exact h

theorem State.raiseAs_keeps {r : State} {s : State} {src : ℕ} {given : ℕ} {unit : ℕ} {info : ℕ} (hk : Keeps r s) : Keeps r (State.raiseAs s src given unit info) := by
  unfold State.raiseAs
  repeat' first
    | with_reducible assumption
    | (extract_lets +onlyGivenNames x; first
        | (refine Keeps.step (s := x) ?_ ?_; rotate_left; ((try clear_value x); intro hx); rotate_left; subst x)
        | (refine Keeps.step (s := x.2) ?_ ?_; rotate_left; ((try clear_value x); intro hx); rotate_left; subst x)
        | (first | (have := (x : Keeper)) | (have := (x : Collector)) | (have := (x : Mag)) | (have := (x : Rstc)); subst x)
        | clear_value x | skip)
    | with_reducible apply State.enterSafe_keeps
    | with_reducible apply State.wantBasic_keeps
    | with_reducible apply State.notify_keeps
    | with_reducible apply State.icuPulse_keeps
    | with_reducible apply State.setBit_keeps
    | with_reducible apply State.logbook_keeps
    | with_reducible apply State.recordFault_keeps
    | split
    | (fail_if_no_progress (with_reducible refine Keeps.lit ?_ rfl rfl rfl rfl))

theorem State.raise_keeps {r : State} {s : State} {src : ℕ} {unit : ℕ} {info : ℕ} (hk : Keeps r s) : Keeps r (State.raise s src unit info) := by
  unfold State.raise
  repeat' first
    | with_reducible assumption
    | with_reducible apply State.raiseAs_keeps

theorem State.dramOff_keeps {r : State} {s : State} (hk : Keeps r s) : Keeps r (State.dramOff s) := by
  unfold State.dramOff
  repeat' first
    | with_reducible assumption
    | with_reducible apply State.raise_keeps
    | with_reducible apply State.draw_keeps

theorem State.freeBytes_keeps {r : State} {n : Nat} {s : State} (h : Keeps r s) : Keeps r (State.freeBytes n s).2 := by
  induction n generalizing s with
  | zero => exact h
  | succ n ih => exact ih (State.draw_keeps h)

theorem State.emit_keeps {r : State} {s : State} {m : OutMsg} (hk : Keeps r s) : Keeps r (State.emit s m) := by
  unfold State.emit
  repeat' first
    | with_reducible assumption
    | (fail_if_no_progress (with_reducible refine Keeps.lit ?_ rfl rfl rfl rfl))

theorem State.snoopLine_keeps {r : State} {s : State} {line : ℕ} (hk : Keeps r s) : Keeps r (State.snoopLine s line) := by
  unfold State.snoopLine
  repeat' first
    | with_reducible assumption
    | (with_reducible refine Keeps.snd (by assumption) ?_)
    | with_reducible apply State.dramPut_keeps
    | with_reducible apply State.freeBytes_keeps
    | with_reducible apply State.emit_keeps
    | with_reducible apply State.draw_keeps
    | split

theorem State.putBank_keeps {r : State} {s : State} {k : ℕ} {b : DramBank} (hk : Keeps r s) : Keeps r (State.putBank s k b) := by
  unfold State.putBank
  repeat' first
    | with_reducible assumption
    | (fail_if_no_progress (with_reducible refine Keeps.lit ?_ rfl rfl rfl rfl))

theorem State.traceCmd_keeps {r : State} {s : State} {ch : ℕ} {cmd : ℕ} {cs : ℕ} {bank : ℕ} {rc : ℕ} (hk : Keeps r s) : Keeps r (State.traceCmd s ch cmd cs bank rc) := by
  unfold State.traceCmd
  repeat' first
    | with_reducible assumption
    | split
    | (fail_if_no_progress (with_reducible refine Keeps.lit ?_ rfl rfl rfl rfl))

theorem State.checkAccess_keeps {r : State} {s : State} {z1 : ℕ} {p : ℕ} {write : Bool} (hk : Keeps r s) : Keeps r (State.checkAccess s z1 p write) := by
  unfold State.checkAccess
  repeat' first
    | with_reducible assumption
    | (intro x)
    | (extract_lets +onlyGivenNames x; first
        | (refine Keeps.step (s := x) ?_ ?_; rotate_left; ((try clear_value x); intro hx); rotate_left; subst x)
        | (refine Keeps.step (s := x.2) ?_ ?_; rotate_left; ((try clear_value x); intro hx); rotate_left; subst x)
        | (first | (have := (x : Keeper)) | (have := (x : Collector)) | (have := (x : Mag)) | (have := (x : Rstc)); subst x)
        | clear_value x | skip)
    | with_reducible apply State.traceCmd_keeps
    | with_reducible apply State.when_keeps
    | split
    | (fail_if_no_progress (with_reducible refine Keeps.lit ?_ rfl rfl rfl rfl))

theorem State.column_keeps {r : State} {s : State} {z1 : ℕ} {p : ℕ} {write : Bool} (hk : Keeps r s) : Keeps r (State.column s z1 p write) := by
  unfold State.column
  repeat' first
    | with_reducible assumption
    | (intro x)
    | with_reducible apply State.putBank_keeps
    | with_reducible apply State.checkAccess_keeps
    | with_reducible apply State.when_keeps
    | with_reducible apply State.traceCmd_keeps
    | split

theorem State.lineRead_keeps {r : State} {s : State} {line : ℕ} (hk : Keeps r s) : Keeps r (State.lineRead s line) := by
  unfold State.lineRead
  repeat' first
    | with_reducible assumption
    | with_reducible apply State.column_keeps
    | split

theorem State.memRead_keeps {r : State} {s : State} {a : ℕ} {n : ℕ} (hk : Keeps r s) : Keeps r (State.memRead s a n).2 := by
  unfold State.memRead
  repeat' first
    | with_reducible assumption
    | (intro x)
    | with_reducible apply State.dramOff_keeps
    | with_reducible apply State.snoopLine_keeps
    | with_reducible apply State.lineRead_keeps
    | with_reducible apply State.each_keeps
    | split

theorem State.lineOf_keeps {r : State} {s : State} {a : ℕ} {len : ℕ} (hk : Keeps r s) : Keeps r (State.lineOf s a len).2 := by
  unfold State.lineOf
  repeat' first
    | with_reducible assumption
    | with_reducible apply State.memRead_keeps

theorem State.answer_keeps {r : State} {s : State} {z1 : Resp} (hk : Keeps r s) : Keeps r (State.answer s z1) := by
  unfold State.answer
  repeat' first
    | with_reducible assumption
    | (fail_if_no_progress (with_reducible refine Keeps.lit ?_ rfl rfl rfl rfl))

theorem State.readLow_keeps {r : State} {s : State} {ix : ℕ} {off : ℕ} (hk : Keeps r s) : Keeps r (State.readLow s ix off) := by
  unfold State.readLow
  repeat' first
    | with_reducible assumption
    | with_reducible apply State.answer_keeps
    | (fail_if_no_progress (with_reducible refine Keeps.lit ?_ rfl rfl rfl rfl))

theorem State.readHigh_keeps {r : State} {s : State} {ix : ℕ} {off : ℕ} (hk : Keeps r s) : Keeps r (State.readHigh s ix off) := by
  unfold State.readHigh
  repeat' first
    | with_reducible assumption
    | with_reducible apply State.answer_keeps
    | split
    | (fail_if_no_progress (with_reducible refine Keeps.lit ?_ rfl rfl rfl rfl))

theorem State.claim_keeps {r : State} {s : State} {ctx : ℕ} (hk : Keeps r s) : Keeps r (State.claim s ctx) := by
  unfold State.claim
  repeat' first
    | with_reducible assumption
    | with_reducible apply State.putSource_keeps
    | with_reducible apply State.answer_keeps
    | with_reducible apply State.putVector_keeps
    | split

theorem execIcuHvClaim_keeps {r : State} {vec : ℕ} {s : State} (hk : Keeps r s) : OutKeeps r (execIcuHvClaim vec s) := by
  unfold execIcuHvClaim
  repeat' first
    | (with_reducible apply OutKeeps.next)
    | with_reducible assumption
    | with_reducible apply State.claim_keeps

theorem execIcuMgcClaim_keeps {r : State} {a : Agent} {s : State} (hk : Keeps r s) : OutKeeps r (execIcuMgcClaim a s) := by
  unfold execIcuMgcClaim
  repeat' first
    | (with_reducible apply OutKeeps.next)
    | with_reducible assumption
    | with_reducible apply State.answer_keeps
    | with_reducible apply State.claim_keeps
    | split

theorem State.modPort_keeps {r : State} {s : State} {p : ℕ} {f : EthPort → EthPort} (hk : Keeps r s) : Keeps r (State.modPort s p f) := by
  unfold State.modPort
  repeat' first
    | with_reducible assumption
    | (fail_if_no_progress (with_reducible refine Keeps.maps ?_))

theorem execEthTsPop_keeps {r : State} {z0 : Agent} {port : ℕ} {s : State} (hk : Keeps r s) : OutKeeps r (execEthTsPop z0 port s) := by
  unfold execEthTsPop
  repeat' first
    | (with_reducible apply OutKeeps.next)
    | with_reducible assumption
    | with_reducible apply State.modPort_keeps
    | with_reducible apply State.set_keeps
    | with_reducible apply State.answer_keeps
    | split

theorem State.cacheLine_keeps {r : State} {s : State} {line : ℕ} {b : List ℕ} (hk : Keeps r s) : Keeps r (State.cacheLine s line b) := by
  unfold State.cacheLine
  repeat' first
    | with_reducible assumption
    | with_reducible apply State.writeBack_keeps
    | split
    | (fail_if_no_progress (with_reducible refine Keeps.lit ?_ rfl rfl rfl rfl))

theorem State.writeOut_keeps {r : State} {s : State} {e : WqEntry} (hk : Keeps r s) : Keeps r (State.writeOut s e) := by
  unfold State.writeOut
  repeat' first
    | with_reducible assumption
    | (intro x)
    | (extract_lets +onlyGivenNames x; first
        | (refine Keeps.step (s := x) ?_ ?_; rotate_left; ((try clear_value x); intro hx); rotate_left; subst x)
        | (refine Keeps.step (s := x.2) ?_ ?_; rotate_left; ((try clear_value x); intro hx); rotate_left; subst x)
        | (first | (have := (x : Keeper)) | (have := (x : Collector)) | (have := (x : Mag)) | (have := (x : Rstc)); subst x)
        | clear_value x | skip)
    | with_reducible apply State.column_keeps
    | with_reducible apply State.when_keeps
    | split
    | (fail_if_no_progress (with_reducible refine Keeps.lit ?_ rfl rfl rfl rfl))

theorem State.drainTo_keeps {r : State} {low ch n : Nat} {s : State} (h : Keeps r s) : Keeps r (State.drainTo low ch n s) := by
  induction n generalizing s with
  | zero => exact h
  | succ n ih =>
    unfold State.drainTo
    dsimp only
    split
    · exact h
    · split
      · exact h
      · exact ih (State.writeOut_keeps h)

theorem State.drain_keeps {r : State} {ch : ℕ} {s : State} (hk : Keeps r s) : Keeps r (State.drain ch s) := by
  unfold State.drain
  repeat' first
    | with_reducible assumption
    | with_reducible apply State.drainTo_keeps

theorem State.makeRoom_keeps {r : State} {s : State} {line : ℕ} (hk : Keeps r s) : Keeps r (State.makeRoom s line) := by
  unfold State.makeRoom
  repeat' first
    | with_reducible assumption
    | with_reducible apply State.drain_keeps
    | split

theorem State.queueLine_keeps {r : State} {s : State} {agent : ℕ} {line : ℕ} (hk : Keeps r s) : Keeps r (State.queueLine s agent line) := by
  unfold State.queueLine
  repeat' first
    | with_reducible assumption
    | split
    | (fail_if_no_progress (with_reducible refine Keeps.lit ?_ rfl rfl rfl rfl))

theorem State.lineWrite_keeps {r : State} {s : State} {agent : ℕ} {a : ℕ} {l : List ℕ} (hk : Keeps r s) : Keeps r (State.lineWrite s agent a l) := by
  unfold State.lineWrite
  repeat' first
    | with_reducible assumption
    | with_reducible apply State.queueLine_keeps
    | with_reducible apply State.dramPut_keeps

theorem State.dramWrite_keeps {r : State} {s : State} {a : ℕ} {l : List ℕ} (hk : Keeps r s) : Keeps r (State.dramWrite s a l) := by
  unfold State.dramWrite
  repeat' first
    | with_reducible assumption
    | (intro x)
    | with_reducible apply State.snoopLine_keeps
    | with_reducible apply State.makeRoom_keeps
    | with_reducible apply State.lineWrite_keeps
    | with_reducible apply State.each_keeps

theorem State.memWrite_keeps {r : State} {s : State} {a : ℕ} {l : List ℕ} (hk : Keeps r s) : Keeps r (State.memWrite s a l).2 := by
  unfold State.memWrite
  repeat' first
    | with_reducible assumption
    | (intro x)
    | with_reducible apply State.cacheLine_keeps
    | with_reducible apply State.each_keeps
    | with_reducible apply State.dramOff_keeps
    | with_reducible apply State.dramWrite_keeps
    | split

theorem State.setOwner_keeps {r : State} {s : State} {p : ℕ} {i : ℕ} {z3 : ℕ} (hk : Keeps r s) : Keeps r (State.setOwner s p i z3) := by
  unfold State.setOwner
  repeat' first
    | with_reducible assumption
    | with_reducible apply State.memWrite_keeps

theorem State.modPool_keeps {r : State} {s : State} {p : ℕ} {f : Pool → Pool} (hk : Keeps r s) : Keeps r (State.modPool s p f) := by
  unfold State.modPool
  repeat' first
    | with_reducible assumption
    | (fail_if_no_progress (with_reducible refine Keeps.maps ?_))

theorem State.poolBad_keeps {r : State} {s : State} {p : ℕ} (hk : Keeps r s) : Keeps r (State.poolBad s p) := by
  unfold State.poolBad
  repeat' first
    | with_reducible assumption
    | with_reducible apply State.setBit_keeps
    | with_reducible apply State.raise_keeps

theorem State.allocFail_keeps {r : State} {s : State} {p : ℕ} {reason : ℕ} (hk : Keeps r s) : Keeps r (State.allocFail s p reason).2 := by
  unfold State.allocFail
  repeat' first
    | with_reducible assumption
    | with_reducible apply State.inc_keeps

theorem State.allocBroken_keeps {r : State} {s : State} {p : ℕ} (hk : Keeps r s) : Keeps r (State.allocBroken s p).2 := by
  unfold State.allocBroken
  repeat' first
    | with_reducible assumption
    | with_reducible apply State.set_keeps
    | with_reducible apply State.poolBad_keeps
    | with_reducible apply State.allocFail_keeps

theorem State.alloc_keeps {r : State} {s : State} {z1 : ℕ} {p : ℕ} (hk : Keeps r s) : Keeps r (State.alloc s z1 p).2 := by
  unfold State.alloc
  repeat' first
    | with_reducible assumption
    | (intro x)
    | (with_reducible refine Keeps.snd (by assumption) ?_)
    | with_reducible apply State.setBit_keeps
    | with_reducible apply State.when_keeps
    | with_reducible apply State.set_keeps
    | with_reducible apply State.setOwner_keeps
    | with_reducible apply State.modPool_keeps
    | with_reducible apply State.allocBroken_keeps
    | with_reducible apply State.memRead_keeps
    | with_reducible apply State.allocFail_keeps
    | split

theorem State.allocTo_keeps {r : State} {s : State} {z1 : ℕ} {p : ℕ} (hk : Keeps r s) : Keeps r (State.allocTo s z1 p) := by
  unfold State.allocTo
  repeat' first
    | with_reducible assumption
    | (with_reducible refine Keeps.snd (by assumption) ?_)
    | with_reducible apply State.answer_keeps
    | with_reducible apply State.alloc_keeps
    | split
    | (fail_if_no_progress (with_reducible refine Keeps.lit ?_ rfl rfl rfl rfl))

theorem execBpmAlloc_keeps {r : State} {z0 : ReqId} {p : ℕ} {s : State} (hk : Keeps r s) : OutKeeps r (execBpmAlloc z0 p s) := by
  unfold execBpmAlloc
  repeat' first
    | (with_reducible apply OutKeeps.next)
    | with_reducible assumption
    | with_reducible apply State.allocTo_keeps
    | split

theorem State.cfg_keeps {r : State} {s : State} {off : ℕ} (hk : Keeps r s) : Keeps r (State.cfg s off) := by
  unfold State.cfg
  repeat' first
    | with_reducible assumption
    | with_reducible apply State.raise_keeps

theorem State.spill_keeps {r : State} {s : State} {q : ℕ} {l : ℕ} {before : Lane} {after : Lane} (hk : Keeps r s) : Keeps r (State.spill s q l before after) := by
  unfold State.spill
  repeat' first
    | with_reducible assumption
    | (intro x)
    | with_reducible apply State.dramWrite_keeps
    | with_reducible apply State.each_keeps

theorem State.putLane_keeps {r : State} {s : State} {q : ℕ} {l : ℕ} {v : Lane} (hk : Keeps r s) : Keeps r (State.putLane s q l v) := by
  unfold State.putLane
  repeat' first
    | with_reducible assumption
    | (fail_if_no_progress (with_reducible refine Keeps.maps ?_))

theorem State.setEntries_keeps {r : State} {s : State} {q : ℕ} {l : ℕ} {es : List QEntry} {popped : ℕ} (hk : Keeps r s) : Keeps r (State.setEntries s q l es popped) := by
  unfold State.setEntries
  repeat' first
    | with_reducible assumption
    | with_reducible apply State.spill_keeps
    | with_reducible apply State.putLane_keeps

theorem State.settleGap_keeps {r : State} {s : State} {q : ℕ} {l : ℕ} (hk : Keeps r s) : Keeps r (State.settleGap s q l) := by
  unfold State.settleGap
  repeat' first
    | with_reducible assumption
    | (extract_lets +onlyGivenNames x; first
        | (refine Keeps.step (s := x) ?_ ?_; rotate_left; ((try clear_value x); intro hx); rotate_left; subst x)
        | (refine Keeps.step (s := x.2) ?_ ?_; rotate_left; ((try clear_value x); intro hx); rotate_left; subst x)
        | (first | (have := (x : Keeper)) | (have := (x : Collector)) | (have := (x : Mag)) | (have := (x : Rstc)); subst x)
        | clear_value x | skip)
    | with_reducible apply State.putLane_keeps
    | with_reducible apply State.setEntries_keeps
    | split

theorem State.dequeue_keeps {r : State} {s : State} {q : ℕ} {l : ℕ} (hk : Keeps r s) : Keeps r (State.dequeue s q l) := by
  unfold State.dequeue
  repeat' first
    | with_reducible assumption
    | with_reducible apply State.setEntries_keeps
    | with_reducible apply State.settleGap_keeps

theorem State.dropRef_keeps {r : State} {s : State} {epoch : ℕ} {row : ℕ} {col : ℕ} (hk : Keeps r s) : Keeps r (State.dropRef s epoch row col) := by
  unfold State.dropRef
  repeat' first
    | with_reducible assumption
    | split
    | (fail_if_no_progress (with_reducible refine Keeps.lit ?_ rfl rfl rfl rfl))

theorem State.resetLane_keeps {r : State} {s : State} {q : ℕ} {l : ℕ} (hk : Keeps r s) : Keeps r (State.resetLane s q l) := by
  unfold State.resetLane
  repeat' first
    | with_reducible assumption
    | (intro x)
    | with_reducible apply State.inc_keeps
    | with_reducible apply State.set_keeps
    | with_reducible apply State.raise_keeps
    | with_reducible apply State.dropRef_keeps
    | with_reducible apply State.each_keeps
    | with_reducible apply State.putLane_keeps
    | with_reducible apply State.setEntries_keeps

theorem State.checkLane_keeps {r : State} {s : State} {q : ℕ} {l : ℕ} (hk : Keeps r s) : Keeps r (State.checkLane s q l) := by
  unfold State.checkLane
  repeat' first
    | with_reducible assumption
    | with_reducible apply State.resetLane_keeps
    | split

theorem State.popWord_keeps {r : State} {s : State} {q : ℕ} (hk : Keeps r s) : Keeps r (State.popWord s q).2 := by
  unfold State.popWord
  repeat' first
    | with_reducible assumption
    | (extract_lets +onlyGivenNames x; first
        | (refine Keeps.step (s := x) ?_ ?_; rotate_left; ((try clear_value x); intro hx); rotate_left; subst x)
        | (refine Keeps.step (s := x.2) ?_ ?_; rotate_left; ((try clear_value x); intro hx); rotate_left; subst x)
        | (first | (have := (x : Keeper)) | (have := (x : Collector)) | (have := (x : Mag)) | (have := (x : Rstc)); subst x)
        | clear_value x | skip)
    | with_reducible apply State.dequeue_keeps
    | with_reducible apply State.setEntries_keeps
    | with_reducible apply State.putWord_keeps
    | with_reducible apply State.set_keeps
    | with_reducible apply State.checkLane_keeps
    | split

theorem execOqPop_keeps {r : State} {z0 : Agent} {q : ℕ} {s : State} (hk : Keeps r s) : OutKeeps r (execOqPop z0 q s) := by
  unfold execOqPop
  repeat' first
    | (with_reducible apply OutKeeps.next)
    | with_reducible assumption
    | with_reducible apply State.cfg_keeps
    | with_reducible apply State.popWord_keeps
    | with_reducible apply State.answer_keeps
    | split

theorem did_keeps {r : State} {o : Host.Outcome State Fault Refusal} {s : State} (ho : OutKeeps r o) (h : Keeps r s) : Keeps r (did o s) := by
  unfold did; split
  · exact ho.keeps _ rfl
  · exact h

theorem State.readDoes_keeps {r : State} {s : State} {a : Agent} {ix : ℕ} {off : ℕ} (hk : Keeps r s) : OptKeeps r (State.readDoes s a ix off) := by
  unfold State.readDoes
  repeat' first
    | (with_reducible apply OptKeeps.some)
    | (with_reducible exact OptKeeps.none)
    | (with_reducible apply OptKeeps.ite)
    | with_reducible assumption
    | with_reducible apply execIcuHvClaim_keeps
    | with_reducible apply execIcuMgcClaim_keeps
    | with_reducible apply execEthTsPop_keeps
    | with_reducible apply execBpmAlloc_keeps
    | with_reducible apply execOqPop_keeps
    | with_reducible apply did_keeps

theorem State.cfgAt_keeps {r : State} {s : State} {off : ℕ} (hk : Keeps r s) : Keeps r (State.cfgAt s off) := by
  unfold State.cfgAt
  repeat' first
    | with_reducible assumption
    | with_reducible apply State.raise_keeps
    | with_reducible apply State.draw_keeps
    | with_reducible apply State.cfg_keeps
    | split

theorem State.reserved_keeps {r : State} {s : State} {off : ℕ} {w : Option Word} (hk : Keeps r s) : Keeps r (State.reserved s off w) := by
  unfold State.reserved
  repeat' first
    | with_reducible assumption
    | with_reducible apply State.cfgAt_keeps
    | with_reducible apply State.answer_keeps
    | split

theorem State.readReg_keeps {r : State} {s : State} {a : Agent} {ix : ℕ} {off : ℕ} (hk : Keeps r s) : Keeps r (State.readReg s a ix off) := by
  unfold State.readReg
  repeat' first
    | with_reducible assumption
    | with_reducible apply State.answer_keeps
    | with_reducible apply State.readLow_keeps
    | with_reducible apply State.readHigh_keeps
    | (with_reducible refine (State.readDoes_keeps ?_).keeps _ (by assumption))
    | (with_reducible apply State.readDoes_keeps)
    | with_reducible apply State.reserved_keeps
    | split

theorem State.unsupportedReq_keeps {r : State} {s : State} (hk : Keeps r s) : Keeps r (State.unsupportedReq s) := by
  unfold State.unsupportedReq
  repeat' first
    | with_reducible assumption
    | with_reducible apply State.answer_keeps
    | (fail_if_no_progress (with_reducible refine Keeps.lit ?_ rfl rfl rfl rfl))

theorem State.offAccess_keeps {r : State} {s : State} {a : Agent} {off : ℕ} {isRead : Bool} (hk : Keeps r s) : Keeps r (State.offAccess s a off isRead) := by
  unfold State.offAccess
  repeat' first
    | with_reducible assumption
    | with_reducible apply State.answer_keeps
    | with_reducible apply State.unsupportedReq_keeps
    | with_reducible apply State.raise_keeps
    | split

theorem State.gangOff_keeps {r : State} {s : State} {a : Agent} {off : ℕ} {isRead : Bool} (hk : Keeps r s) : Keeps r (State.gangOff s a off isRead) := by
  unfold State.gangOff
  repeat' first
    | with_reducible assumption
    | (with_reducible refine Keeps.snd (by assumption) ?_)
    | with_reducible apply State.answer_keeps
    | with_reducible apply State.unsupportedReq_keeps
    | with_reducible apply State.raise_keeps
    | with_reducible apply State.draw_keeps
    | split

theorem State.gangAccess_keeps {r : State} {s : State} {a : Agent} {off : ℕ} {w : Option Word} {reply : Word} (hk : Keeps r s) : Keeps r (State.gangAccess s a off w reply) := by
  unfold State.gangAccess
  repeat' first
    | with_reducible assumption
    | with_reducible apply State.gangOff_keeps
    | with_reducible apply State.answer_keeps
    | with_reducible apply State.emit_keeps
    | with_reducible apply State.reserved_keeps
    | split

theorem State.noAccess_keeps {r : State} {s : State} {a : Agent} (hk : Keeps r s) : Keeps r (State.noAccess s a) := by
  unfold State.noAccess
  repeat' first
    | with_reducible assumption
    | with_reducible apply State.unsupportedReq_keeps
    | split

theorem State.readWordAt_keeps {r : State} {s : State} {a : Agent} {ix : ℕ} {off : ℕ} (hk : Keeps r s) : Keeps r (State.readWordAt s a ix off) := by
  unfold State.readWordAt
  repeat' first
    | with_reducible assumption
    | with_reducible apply State.readReg_keeps
    | with_reducible apply State.offAccess_keeps
    | with_reducible apply State.gangAccess_keeps
    | with_reducible apply State.draw_keeps
    | with_reducible apply State.noAccess_keeps
    | split

theorem State.busRead_keeps {r : State} {s : State} {n : ℕ} {off : ℕ} {w : ℕ} (hk : Keeps r s) : Keeps r (State.busRead s n off w).2 := by
  unfold State.busRead
  repeat' first
    | with_reducible assumption
    | (with_reducible refine Keeps.snd (by assumption) ?_)
    | with_reducible apply State.draw_keeps
    | with_reducible apply State.readWordAt_keeps
    | split
    | (fail_if_no_progress (with_reducible refine Keeps.lit ?_ rfl rfl rfl rfl))

theorem State.fixRead_keeps {r : State} {s : State} {n : ℕ} {a : ℕ} {w : ℕ} (hk : Keeps r s) : Keeps r (State.fixRead s n a w).2 := by
  unfold State.fixRead
  repeat' first
    | with_reducible assumption
    | with_reducible apply State.busRead_keeps
    | with_reducible apply State.memRead_keeps
    | split

theorem Copy.readNext_keeps {r : State} {c : Copy} {n : ℕ} {p : ℕ} {s : State} (hk : Keeps r s) : Keeps r (Copy.readNext c n p s).2 := by
  unfold Copy.readNext
  repeat' first
    | with_reducible assumption
    | with_reducible apply State.lineOf_keeps
    | with_reducible apply State.fixRead_keeps
    | split

theorem Copy.fill_keeps {r : State} {n : Nat} {c : Copy} {k f p : Nat} {l : List Nat} {s : State} (h : Keeps r s) : Keeps r (Copy.fill n c k f p l s).2 := by
  induction f generalizing p l s with
  | zero => exact h
  | succ f ih =>
    unfold Copy.fill
    split
    · exact h
    · split
      · rename_i e; exact Keeps.snd e (Copy.readNext_keeps h)
      · rename_i e; exact ih (Keeps.snd e (Copy.readNext_keeps h))

theorem State.noteMgcWrite_keeps {r : State} {s : State} {off : ℕ} {v : Word} (hk : Keeps r s) : Keeps r (State.noteMgcWrite s off v) := by
  unfold State.noteMgcWrite
  repeat' first
    | with_reducible assumption
    | (fail_if_no_progress (with_reducible refine Keeps.lit ?_ rfl rfl rfl rfl))

theorem State.modCan_keeps {r : State} {s : State} {c : ℕ} {f : CanCtl → CanCtl} (hk : Keeps r s) : Keeps r (State.modCan s c f) := by
  unfold State.modCan
  repeat' first
    | with_reducible assumption
    | (fail_if_no_progress (with_reducible refine Keeps.maps ?_))

theorem State.sendCan_keeps {r : State} {s : State} {c : ℕ} {prio : ℕ} {reply : ℕ} {dst : ℕ} {tid : ℕ} {m : List ℕ} (hk : Keeps r s) : Keeps r (State.sendCan s c prio reply dst tid m) := by
  unfold State.sendCan
  repeat' first
    | with_reducible assumption
    | with_reducible apply State.modCan_keeps
    | split

theorem State.broadcast_keeps {r : State} {s : State} {c : ℕ} {op : ℕ} {prio : ℕ} {payload : List ℕ} (hk : Keeps r s) : Keeps r (State.broadcast s c op prio payload) := by
  unfold State.broadcast
  repeat' first
    | with_reducible assumption
    | with_reducible apply State.sendCan_keeps
    | with_reducible apply State.draw_keeps

theorem State.light_keeps {r : State} {s : State} {kind : ℕ} {address : ℕ} {st : ℕ} {identity : Option (List ℕ)} (hk : Keeps r s) : Keeps r (State.light s kind address st identity) := by
  unfold State.light
  repeat' first
    | with_reducible assumption
    | (extract_lets +onlyGivenNames x; first
        | (refine Keeps.step (s := x) ?_ ?_; rotate_left; ((try clear_value x); intro hx); rotate_left; subst x)
        | (refine Keeps.step (s := x.2) ?_ ?_; rotate_left; ((try clear_value x); intro hx); rotate_left; subst x)
        | (first | (have := (x : Keeper)) | (have := (x : Collector)) | (have := (x : Mag)) | (have := (x : Rstc)); subst x)
        | clear_value x | skip)
    | with_reducible apply State.notify_keeps
    | split
    | (fail_if_no_progress (with_reducible refine Keeps.lit ?_ rfl rfl rfl rfl))

theorem State.rollPasses_keeps {r : State} {s : State} {c : ℕ} (hk : Keeps r s) : Keeps r (State.rollPasses s c) := by
  unfold State.rollPasses
  repeat' first
    | with_reducible assumption
    | (intro x)
    | with_reducible apply State.light_keeps
    | with_reducible apply State.each_keeps
    | (fail_if_no_progress (with_reducible refine Keeps.lit ?_ rfl rfl rfl rfl))

theorem State.sendRollCall_keeps {r : State} {s : State} {c : ℕ} (hk : Keeps r s) : Keeps r (State.sendRollCall s c) := by
  unfold State.sendRollCall
  repeat' first
    | with_reducible assumption
    | with_reducible apply State.broadcast_keeps
    | with_reducible apply State.modCan_keeps
    | with_reducible apply State.rollPasses_keeps
    | (fail_if_no_progress (with_reducible refine Keeps.lit ?_ rfl rfl rfl rfl))

theorem State.clear_keeps {r s : State} {l : List Fld} (h : Keeps r s) : Keeps r (s.clear l) := by
  induction l generalizing s with
  | nil => exact h
  | cons f t ih => exact ih (State.set_keeps h)

theorem State.canEnable_keeps {r : State} {s : State} {c : ℕ} {en : Bool} (hk : Keeps r s) : Keeps r (State.canEnable s c en) := by
  unfold State.canEnable
  repeat' first
    | with_reducible assumption
    | (intro x)
    | with_reducible apply State.sendRollCall_keeps
    | with_reducible apply State.when_keeps
    | with_reducible apply State.set_keeps
    | with_reducible apply State.clear_keeps
    | with_reducible apply State.modCan_keeps
    | split

theorem State.stopProxy_keeps {r : State} {s : State} (hk : Keeps r s) : Keeps r (State.stopProxy s) := by
  unfold State.stopProxy
  repeat' first
    | with_reducible assumption
    | with_reducible apply State.set_keeps
    | (fail_if_no_progress (with_reducible refine Keeps.lit ?_ rfl rfl rfl rfl))

theorem State.startPort_keeps {r : State} {s : State} {p : ℕ} (hk : Keeps r s) : Keeps r (State.startPort s p) := by
  unfold State.startPort
  repeat' first
    | with_reducible assumption
    | (intro x)
    | with_reducible apply State.when_keeps
    | with_reducible apply State.set_keeps

theorem State.stopSender_keeps {r : State} {s : State} {k : ℕ} (hk : Keeps r s) : Keeps r (State.stopSender s k) := by
  unfold State.stopSender
  repeat' first
    | with_reducible assumption
    | with_reducible apply State.set_keeps
    | (fail_if_no_progress (with_reducible refine Keeps.lit ?_ rfl rfl rfl rfl))

theorem execSenderEnable_keeps {r : State} {z0 : Agent} {k : ℕ} {s : State} (hk : Keeps r s) : OutKeeps r (execSenderEnable z0 k s) := by
  unfold execSenderEnable
  repeat' first
    | (with_reducible apply OutKeeps.next)
    | with_reducible assumption
    | with_reducible apply State.set_keeps
    | with_reducible apply State.cfg_keeps
    | split
    | (fail_if_no_progress (with_reducible refine Keeps.lit ?_ rfl rfl rfl rfl))

theorem State.stopMgh_keeps {r : State} {s : State} (hk : Keeps r s) : Keeps r (State.stopMgh s) := by
  unfold State.stopMgh
  dsimp only
  repeat' first
    | with_reducible assumption
    | with_reducible apply State.set_keeps
    | (fail_if_no_progress (with_reducible refine Keeps.maps ?_))

theorem State.enableMgh_keeps {r : State} {s : State} (hk : Keeps r s) : Keeps r (State.enableMgh s) := by
  unfold State.enableMgh
  repeat' first
    | with_reducible assumption
    | (intro x)
    | with_reducible apply State.each_keeps
    | with_reducible apply State.set_keeps
    | split
    | (fail_if_no_progress (with_reducible refine Keeps.maps ?_))

theorem State.stopLmc_keeps {r : State} {s : State} (hk : Keeps r s) : Keeps r (State.stopLmc s) := by
  unfold State.stopLmc
  repeat' first
    | with_reducible assumption
    | with_reducible apply State.set_keeps
    | (fail_if_no_progress (with_reducible refine Keeps.lit ?_ rfl rfl rfl rfl))

theorem State.enableLmc_keeps {r : State} {s : State} (hk : Keeps r s) : Keeps r (State.enableLmc s) := by
  unfold State.enableLmc
  repeat' first
    | with_reducible assumption
    | with_reducible apply State.set_keeps
    | split
    | (fail_if_no_progress (with_reducible refine Keeps.lit ?_ rfl rfl rfl rfl))

theorem execLmcEnable_keeps {r : State} {z0 : Agent} {s : State} (hk : Keeps r s) : OutKeeps r (execLmcEnable z0 s) := by
  unfold execLmcEnable
  repeat' first
    | (with_reducible apply OutKeeps.next)
    | with_reducible assumption
    | with_reducible apply State.enableLmc_keeps

theorem State.modChan_keeps {r : State} {s : State} {n : ℕ} {f : DmaCh → DmaCh} (hk : Keeps r s) : Keeps r (State.modChan s n f) := by
  unfold State.modChan
  repeat' first
    | with_reducible assumption
    | (fail_if_no_progress (with_reducible refine Keeps.maps ?_))

theorem State.dmaStop_keeps {r : State} {s : State} {n : ℕ} (hk : Keeps r s) : Keeps r (State.dmaStop s n) := by
  unfold State.dmaStop
  repeat' first
    | with_reducible assumption
    | with_reducible apply State.set_keeps
    | with_reducible apply State.modChan_keeps

theorem State.haltAt_keeps {r : State} {s : State} {n : ℕ} {i : ℕ} (hk : Keeps r s) : Keeps r (State.haltAt s n i) := by
  unfold State.haltAt
  repeat' first
    | with_reducible assumption
    | with_reducible apply State.set_keeps
    | with_reducible apply State.modChan_keeps

theorem State.dmaFetch_keeps {r : State} {s : State} {n : ℕ} (hk : Keeps r s) : Keeps r (State.dmaFetch s n) := by
  unfold State.dmaFetch
  repeat' first
    | with_reducible assumption
    | (extract_lets +onlyGivenNames x; first
        | (refine Keeps.step (s := x) ?_ ?_; rotate_left; ((try clear_value x); intro hx); rotate_left; subst x)
        | (refine Keeps.step (s := x.2) ?_ ?_; rotate_left; ((try clear_value x); intro hx); rotate_left; subst x)
        | (first | (have := (x : Keeper)) | (have := (x : Collector)) | (have := (x : Mag)) | (have := (x : Rstc)); subst x)
        | clear_value x | skip)
    | (with_reducible refine Keeps.snd (by assumption) ?_)
    | with_reducible apply State.set_keeps
    | with_reducible apply State.haltAt_keeps
    | with_reducible apply State.raise_keeps
    | with_reducible apply State.memRead_keeps
    | with_reducible apply State.modChan_keeps
    | split

theorem State.dmaEn_keeps {r : State} {s : State} {n : ℕ} {en : Bool} (hk : Keeps r s) : Keeps r (State.dmaEn s n en) := by
  unfold State.dmaEn
  repeat' first
    | with_reducible assumption
    | with_reducible apply State.dmaStop_keeps
    | with_reducible apply State.set_keeps
    | with_reducible apply State.dmaFetch_keeps
    | split

theorem execDmaEnable_keeps {r : State} {z0 : Agent} {ch : ℕ} {en : Bool} {s : State} (hk : Keeps r s) : OutKeeps r (execDmaEnable z0 ch en s) := by
  unfold execDmaEnable
  repeat' first
    | (with_reducible apply OutKeeps.next)
    | with_reducible assumption
    | with_reducible apply State.dmaEn_keeps

theorem State.stopQueues_keeps {r : State} {s : State} (hk : Keeps r s) : Keeps r (State.stopQueues s) := by
  unfold State.stopQueues
  dsimp only
  repeat' first
    | with_reducible assumption
    | with_reducible apply State.set_keeps
    | (fail_if_no_progress (with_reducible refine Keeps.maps ?_))

theorem State.lanesDown_keeps {r : State} {s : State} (hk : Keeps r s) : Keeps r (State.lanesDown s) := by
  unfold State.lanesDown
  repeat' first
    | with_reducible assumption
    | with_reducible apply State.clear_keeps
    | (fail_if_no_progress (with_reducible refine Keeps.lit ?_ rfl rfl rfl rfl))

theorem State.pprStop_keeps {r : State} {s : State} (hk : Keeps r s) : Keeps r (State.pprStop s) := by
  unfold State.pprStop
  repeat' first
    | with_reducible assumption
    | with_reducible apply State.set_keeps
    | with_reducible apply State.lanesDown_keeps

theorem State.tagWrite_keeps {r : State} {s : State} {a : Agent} (hk : Keeps r s) : Keeps r (State.tagWrite s a) := by
  unfold State.tagWrite
  repeat' first
    | with_reducible assumption
    | with_reducible apply State.set_keeps
    | split
    | (fail_if_no_progress (with_reducible refine Keeps.lit ?_ rfl rfl rfl rfl))

theorem State.sendBc_keeps {r : State} {s : State} {code : ℕ} {arg : ℕ} {link : ℕ} {again : Bool} (hk : Keeps r s) : Keeps r (State.sendBc s code arg link again) := by
  unfold State.sendBc
  repeat' first
    | with_reducible assumption
    | (intro x)
    | with_reducible apply State.emit_keeps
    | with_reducible apply State.when_keeps
    | (fail_if_no_progress (with_reducible refine Keeps.lit ?_ rfl rfl rfl rfl))

theorem State.putPpl_keeps {r : State} {s : State} {n : ℕ} {l : PpLane} (hk : Keeps r s) : Keeps r (State.putPpl s n l) := by
  unfold State.putPpl
  repeat' first
    | with_reducible assumption
    | (fail_if_no_progress (with_reducible refine Keeps.lit ?_ rfl rfl rfl rfl))

theorem State.clearBit_keeps {r : State} {s : State} {f : Fld} {i : ℕ} (hk : Keeps r s) : Keeps r (State.clearBit s f i) := by
  unfold State.clearBit
  repeat' first
    | with_reducible assumption
    | with_reducible apply State.set_keeps
    | split

theorem State.train_keeps {r : State} {s : State} {k : ℕ} (hk : Keeps r s) : Keeps r (State.train s k) := by
  unfold State.train
  repeat' first
    | with_reducible assumption
    | (intro x)
    | with_reducible apply State.sendBc_keeps
    | with_reducible apply State.putPpl_keeps
    | with_reducible apply State.clearBit_keeps
    | with_reducible apply State.each_keeps
    | split
    | (fail_if_no_progress (with_reducible refine Keeps.lit ?_ rfl rfl rfl rfl))

theorem State.enablePpr_keeps {r : State} {s : State} (hk : Keeps r s) : Keeps r (State.enablePpr s) := by
  unfold State.enablePpr
  repeat' first
    | with_reducible assumption
    | with_reducible apply State.train_keeps
    | with_reducible apply State.set_keeps
    | with_reducible apply State.each_keeps
    | split

theorem execPprEnable_keeps {r : State} {a : Agent} {s : State} (hk : Keeps r s) : OutKeeps r (execPprEnable a s) := by
  unfold execPprEnable
  repeat' first
    | (with_reducible apply OutKeeps.next)
    | with_reducible assumption
    | with_reducible apply State.tagWrite_keeps
    | with_reducible apply State.enablePpr_keeps

theorem State.stopBeacon_keeps {r : State} {s : State} (hk : Keeps r s) : Keeps r (State.stopBeacon s) := by
  unfold State.stopBeacon
  repeat' first
    | with_reducible assumption
    | with_reducible apply State.set_keeps
    | (fail_if_no_progress (with_reducible refine Keeps.lit ?_ rfl rfl rfl rfl))

theorem State.leavePosition_keeps {r : State} {s : State} {e : ℕ} (hk : Keeps r s) : Keeps r (State.leavePosition s e) := by
  unfold State.leavePosition
  repeat' first
    | with_reducible assumption
    | with_reducible apply State.set_keeps
    | split

theorem State.askSlot_keeps {r : State} {s : State} {x : SlotReq} (hk : Keeps r s) : Keeps r (State.askSlot s x) := by
  unfold State.askSlot
  repeat' first
    | with_reducible assumption
    | split
    | (fail_if_no_progress (with_reducible refine Keeps.lit ?_ rfl rfl rfl rfl))

theorem State.spareStatus_keeps {r : State} {s : State} {z1 : ℕ} (hk : Keeps r s) : Keeps r (State.spareStatus s z1) := by
  unfold State.spareStatus
  repeat' first
    | with_reducible assumption
    | with_reducible apply State.set_keeps
    | split

theorem State.setEng_keeps {r : State} {s : State} {e : ℕ} {st : ℕ} (hk : Keeps r s) : Keeps r (State.setEng s e st) := by
  unfold State.setEng
  repeat' first
    | with_reducible assumption
    | with_reducible apply State.set_keeps

theorem State.modEng_keeps {r : State} {s : State} {e : ℕ} {f : Engine → Engine} (hk : Keeps r s) : Keeps r (State.modEng s e f) := by
  unfold State.modEng
  repeat' first
    | with_reducible assumption
    | (fail_if_no_progress (with_reducible refine Keeps.maps ?_))

theorem State.modFrame_keeps {r : State} {s : State} {e : ℕ} {g : Frame → Frame} (hk : Keeps r s) : Keeps r (State.modFrame s e g) := by
  unfold State.modFrame
  repeat' first
    | with_reducible assumption
    | (fail_if_no_progress (with_reducible refine Keeps.lit ?_ rfl rfl rfl rfl))

theorem State.modBank_keeps {r : State} {s : State} {f : Frame} {col : ℕ} {g : List (ℕ × ℕ) → List (ℕ × ℕ)} (hk : Keeps r s) : Keeps r (State.modBank s f col g) := by
  unfold State.modBank
  repeat' first
    | with_reducible assumption
    | with_reducible apply State.modFrame_keeps
    | split
    | (fail_if_no_progress (with_reducible refine Keeps.maps ?_))

theorem State.overflow_keeps {r : State} {s : State} {q : ℕ} (hk : Keeps r s) : Keeps r (State.overflow s q) := by
  unfold State.overflow
  repeat' first
    | with_reducible assumption
    | with_reducible apply State.inc_keeps
    | with_reducible apply State.set_keeps
    | with_reducible apply State.raise_keeps

theorem State.enqueue_keeps {r : State} {s : State} {q : ℕ} {l : ℕ} {e : QEntry} (hk : Keeps r s) : Keeps r (State.enqueue s q l e).2 := by
  unfold State.enqueue
  repeat' first
    | with_reducible assumption
    | (extract_lets +onlyGivenNames x; first
        | (refine Keeps.step (s := x) ?_ ?_; rotate_left; ((try clear_value x); intro hx); rotate_left; subst x)
        | (refine Keeps.step (s := x.2) ?_ ?_; rotate_left; ((try clear_value x); intro hx); rotate_left; subst x)
        | (first | (have := (x : Keeper)) | (have := (x : Collector)) | (have := (x : Mag)) | (have := (x : Rstc)); subst x)
        | clear_value x | skip)
    | with_reducible apply State.setEntries_keeps
    | with_reducible apply State.putLane_keeps
    | with_reducible apply State.overflow_keeps
    | with_reducible apply State.checkLane_keeps
    | with_reducible apply State.settleGap_keeps
    | split

theorem State.lateRecord_keeps {r : State} {s : State} {col : ℕ} (hk : Keeps r s) : Keeps r (State.lateRecord s col) := by
  unfold State.lateRecord
  repeat' first
    | with_reducible assumption
    | with_reducible apply State.set_keeps
    | with_reducible apply State.raise_keeps

theorem State.putRecord_keeps {r : State} {s : State} {epoch : ℕ} {row : ℕ} {col : ℕ} {flags : ℕ} {z5 : TsRec} (hk : Keeps r s) : Keeps r (State.putRecord s epoch row col flags z5) := by
  unfold State.putRecord
  repeat' first
    | with_reducible assumption
    | (extract_lets +onlyGivenNames x; first
        | (refine Keeps.step (s := x) ?_ ?_; rotate_left; ((try clear_value x); intro hx); rotate_left; subst x)
        | (refine Keeps.step (s := x.2) ?_ ?_; rotate_left; ((try clear_value x); intro hx); rotate_left; subst x)
        | (first | (have := (x : Keeper)) | (have := (x : Collector)) | (have := (x : Mag)) | (have := (x : Rstc)); subst x)
        | clear_value x | skip)
    | (with_reducible refine Keeps.snd (by assumption) ?_)
    | with_reducible apply State.modBank_keeps
    | with_reducible apply State.enqueue_keeps
    | with_reducible apply State.dropRef_keeps
    | with_reducible apply State.emit_keeps
    | with_reducible apply State.modFrame_keeps
    | with_reducible apply State.lateRecord_keeps
    | split

theorem State.flushLost_keeps {r : State} {epoch col n : Nat} {s : State} (h : Keeps r s) : Keeps r (State.flushLost epoch col n s) := by
  induction n generalizing s with
  | zero => exact h
  | succ n ih =>
    unfold State.flushLost
    split
    · exact h
    · extract_lets +onlyGivenNames x
      split
      · exact ih (State.putRecord_keeps h)
      · exact h

theorem State.loseTile_keeps {r : State} {s : State} {epoch : ℕ} {row : ℕ} {col : ℕ} (hk : Keeps r s) : Keeps r (State.loseTile s epoch row col) := by
  unfold State.loseTile
  repeat' first
    | with_reducible assumption
    | with_reducible apply State.dropRef_keeps
    | with_reducible apply State.modFrame_keeps
    | with_reducible apply State.flushLost_keeps
    | split

theorem State.loseJobs_keeps {r : State} {s : State} {e : ℕ} (hk : Keeps r s) : Keeps r (State.loseJobs s e) := by
  unfold State.loseJobs
  repeat' first
    | with_reducible assumption
    | (intro x)
    | with_reducible apply State.loseTile_keeps
    | with_reducible apply State.modEng_keeps
    | with_reducible apply State.each_keeps

theorem State.beginReset_keeps {r : State} {s : State} {e : ℕ} (hk : Keeps r s) : Keeps r (State.beginReset s e) := by
  unfold State.beginReset
  repeat' first
    | with_reducible assumption
    | (intro x)
    | with_reducible apply State.leavePosition_keeps
    | with_reducible apply State.askSlot_keeps
    | with_reducible apply State.spareStatus_keeps
    | with_reducible apply State.setEng_keeps
    | with_reducible apply State.modEng_keeps
    | with_reducible apply State.set_keeps
    | with_reducible apply State.when_keeps
    | with_reducible apply State.loseJobs_keeps

theorem State.applyReset_keeps {r : State} {s : State} {e : ℕ} (hk : Keeps r s) : Keeps r (State.applyReset s e) := by
  unfold State.applyReset
  repeat' first
    | with_reducible assumption
    | with_reducible apply State.beginReset_keeps
    | with_reducible apply State.modEng_keeps
    | split

theorem State.dieRegisters_keeps {r : State} {s : State} {d : ℕ} (hk : Keeps r s) : Keeps r (State.dieRegisters s d) := by
  unfold State.dieRegisters
  repeat' first
    | with_reducible assumption
    | (fail_if_no_progress (with_reducible refine Keeps.maps ?_))

theorem State.resetDie_keeps {r : State} {s : State} {d : ℕ} (hk : Keeps r s) : Keeps r (State.resetDie s d) := by
  unfold State.resetDie
  repeat' first
    | with_reducible assumption
    | (intro x)
    | with_reducible apply State.applyReset_keeps
    | with_reducible apply State.modEng_keeps
    | with_reducible apply State.each_keeps
    | with_reducible apply State.inc_keeps
    | with_reducible apply State.dieRegisters_keeps
    | split

theorem State.heldDie_keeps {r : State} {s : State} {d : ℕ} (hk : Keeps r s) : Keeps r (State.heldDie s d) := by
  unfold State.heldDie
  repeat' first
    | with_reducible assumption
    | with_reducible apply State.clearBit_keeps
    | with_reducible apply State.resetDie_keeps
    | split

theorem State.heldResets_keeps {r : State} {s : State} (hk : Keeps r s) : Keeps r (State.heldResets s) := by
  unfold State.heldResets
  repeat' first
    | with_reducible assumption
    | with_reducible apply State.applyReset_keeps
    | with_reducible apply State.heldDie_keeps
    | with_reducible apply State.each_keeps

theorem State.startMigration_keeps {r : State} {s : State} {z1 : ℕ} {d : ℕ} (hk : Keeps r s) : Keeps r (State.startMigration s z1 d) := by
  unfold State.startMigration
  repeat' first
    | with_reducible assumption
    | with_reducible apply State.set_keeps
    | (fail_if_no_progress (with_reducible refine Keeps.lit ?_ rfl rfl rfl rfl))

theorem State.migrationDue_keeps {r : State} {s : State} (hk : Keeps r s) : Keeps r (State.migrationDue s) := by
  unfold State.migrationDue
  repeat' first
    | with_reducible assumption
    | with_reducible apply State.startMigration_keeps
    | split

theorem State.finishMigration_keeps {r : State} {s : State} (hk : Keeps r s) : Keeps r (State.finishMigration s) := by
  unfold State.finishMigration
  repeat' first
    | with_reducible assumption
    | with_reducible apply State.set_keeps
    | split
    | (fail_if_no_progress (with_reducible refine Keeps.lit ?_ rfl rfl rfl rfl))

theorem State.prechargeAll_keeps {r : State} {s : State} {z1 : ℕ} (hk : Keeps r s) : Keeps r (State.prechargeAll s z1) := by
  unfold State.prechargeAll
  repeat' first
    | with_reducible assumption
    | (intro x)
    | (extract_lets +onlyGivenNames x; first
        | (refine Keeps.step (s := x) ?_ ?_; rotate_left; ((try clear_value x); intro hx); rotate_left; subst x)
        | (refine Keeps.step (s := x.2) ?_ ?_; rotate_left; ((try clear_value x); intro hx); rotate_left; subst x)
        | (first | (have := (x : Keeper)) | (have := (x : Collector)) | (have := (x : Mag)) | (have := (x : Rstc)); subst x)
        | clear_value x | skip)
    | with_reducible apply State.traceCmd_keeps
    | with_reducible apply State.putBank_keeps
    | with_reducible apply State.each_keeps
    | split

theorem State.startRetrain_keeps {r : State} {s : State} {z1 : ℕ} (hk : Keeps r s) : Keeps r (State.startRetrain s z1) := by
  unfold State.startRetrain
  repeat' first
    | with_reducible assumption
    | (intro x)
    | with_reducible apply State.set_keeps
    | with_reducible apply State.prechargeAll_keeps
    | with_reducible apply State.traceCmd_keeps
    | with_reducible apply State.each_keeps
    | (fail_if_no_progress (with_reducible refine Keeps.lit ?_ rfl rfl rfl rfl))

theorem State.retrainStopped_keeps {r : State} {s : State} (hk : Keeps r s) : Keeps r (State.retrainStopped s) := by
  unfold State.retrainStopped
  repeat' first
    | with_reducible assumption
    | (intro x)
    | with_reducible apply State.startRetrain_keeps
    | with_reducible apply State.each_keeps
    | split

theorem State.memoryUnheld_keeps {r : State} {s : State} (hk : Keeps r s) : Keeps r (State.memoryUnheld s) := by
  unfold State.memoryUnheld
  repeat' first
    | with_reducible assumption
    | with_reducible apply State.migrationDue_keeps
    | with_reducible apply State.finishMigration_keeps
    | with_reducible apply State.retrainStopped_keeps

theorem State.beaconOff_keeps {r : State} {s : State} (hk : Keeps r s) : Keeps r (State.beaconOff s) := by
  unfold State.beaconOff
  repeat' first
    | with_reducible assumption
    | with_reducible apply State.stopBeacon_keeps
    | with_reducible apply State.heldResets_keeps
    | with_reducible apply State.memoryUnheld_keeps

theorem execBeaconStop_keeps {r : State} {a : Agent} {s : State} (hk : Keeps r s) : OutKeeps r (execBeaconStop a s) := by
  unfold execBeaconStop
  repeat' first
    | (with_reducible apply OutKeeps.next)
    | with_reducible assumption
    | with_reducible apply State.beaconOff_keeps
    | with_reducible apply State.tagWrite_keeps
    | with_reducible apply State.cfg_keeps
    | split

theorem State.ptpRestart_keeps {r : State} {s : State} {d : ℕ} (hk : Keeps r s) : Keeps r (State.ptpRestart s d) := by
  unfold State.ptpRestart
  repeat' first
    | with_reducible assumption
    | (fail_if_no_progress (with_reducible refine Keeps.lit ?_ rfl rfl rfl rfl))

theorem State.startBeacon_keeps {r : State} {s : State} (hk : Keeps r s) : Keeps r (State.startBeacon s) := by
  unfold State.startBeacon
  repeat' first
    | with_reducible assumption
    | with_reducible apply State.ptpRestart_keeps
    | with_reducible apply State.set_keeps
    | (fail_if_no_progress (with_reducible refine Keeps.lit ?_ rfl rfl rfl rfl))

theorem execBeaconRun_keeps {r : State} {a : Agent} {s : State} (hk : Keeps r s) : OutKeeps r (execBeaconRun a s) := by
  unfold execBeaconRun
  repeat' first
    | (with_reducible apply OutKeeps.next)
    | with_reducible assumption
    | with_reducible apply State.startBeacon_keeps
    | with_reducible apply State.tagWrite_keeps
    | split

theorem State.startStop_keeps {r : State} {s : State} {a : Agent} {off : ℕ} {en : Bool} (hk : Keeps r s) : Keeps r (State.startStop s a off en) := by
  unfold State.startStop
  repeat' first
    | with_reducible assumption
    | with_reducible apply State.canEnable_keeps
    | with_reducible apply State.stopProxy_keeps
    | with_reducible apply State.startPort_keeps
    | with_reducible apply State.stopSender_keeps
    | with_reducible apply execSenderEnable_keeps
    | with_reducible apply State.stopMgh_keeps
    | with_reducible apply State.enableMgh_keeps
    | with_reducible apply State.stopLmc_keeps
    | with_reducible apply execLmcEnable_keeps
    | with_reducible apply execDmaEnable_keeps
    | with_reducible apply State.stopQueues_keeps
    | with_reducible apply State.set_keeps
    | with_reducible apply State.pprStop_keeps
    | with_reducible apply execPprEnable_keeps
    | with_reducible apply execBeaconStop_keeps
    | with_reducible apply execBeaconRun_keeps
    | with_reducible apply did_keeps
    | split

theorem State.putPolice_keeps {r : State} {s : State} {p : ℕ} {c : ℕ} {level : ℕ} (hk : Keeps r s) : Keeps r (State.putPolice s p c level) := by
  unfold State.putPolice
  repeat' first
    | with_reducible assumption
    | with_reducible apply State.modPort_keeps

theorem State.putBuckets_keeps {r : State} {s : State} {p : ℕ} {f : ℕ} {b : Buckets} (hk : Keeps r s) : Keeps r (State.putBuckets s p f b) := by
  unfold State.putBuckets
  repeat' first
    | with_reducible assumption
    | with_reducible apply State.modPort_keeps

theorem State.settleBuckets_keeps {r : State} {s : State} {off : ℕ} (hk : Keeps r s) : Keeps r (State.settleBuckets s off) := by
  unfold State.settleBuckets
  repeat' first
    | with_reducible assumption
    | (extract_lets +onlyGivenNames x; first
        | (refine Keeps.step (s := x) ?_ ?_; rotate_left; ((try clear_value x); intro hx); rotate_left; subst x)
        | (refine Keeps.step (s := x.2) ?_ ?_; rotate_left; ((try clear_value x); intro hx); rotate_left; subst x)
        | (first | (have := (x : Keeper)) | (have := (x : Collector)) | (have := (x : Mag)) | (have := (x : Rstc)); subst x)
        | clear_value x | skip)
    | with_reducible apply State.putPolice_keeps
    | with_reducible apply State.putBuckets_keeps
    | split

theorem State.takeFields_keeps {r : State} {s : State} {a : Agent} {off : ℕ} {v : Word} {z4 : RegSpec} {high : Bool} (hk : Keeps r s) : Keeps r (State.takeFields s a off v z4 high) := by
  unfold State.takeFields
  repeat' first
    | with_reducible assumption
    | (intro x)
    | with_reducible apply State.startStop_keeps
    | with_reducible apply State.when_keeps
    | with_reducible apply State.settleBuckets_keeps
    | with_reducible apply State.putWord_keeps

theorem State.mgcOnly_keeps {r s : State} {a : Agent} {off : Nat} {f : State → State} (hf : ∀ x, Keeps r x → Keeps r (f x)) (h : Keeps r s) : Keeps r (s.mgcOnly a off f) := by
  unfold State.mgcOnly; split
  · exact State.cfg_keeps h
  · exact hf s h

theorem execWatchdogKick_keeps {r : State} {a : Agent} {v : Word} {s : State} (hk : Keeps r s) : OutKeeps r (execWatchdogKick a v s) := by
  unfold execWatchdogKick
  repeat' first
    | (with_reducible apply OutKeeps.next)
    | with_reducible assumption
    | (intro x)
    | with_reducible apply State.cfg_keeps
    | with_reducible apply State.mgcOnly_keeps
    | split
    | (fail_if_no_progress (with_reducible refine Keeps.lit ?_ rfl rfl rfl rfl))

theorem execWatchdogConfig_keeps {r : State} {a : Agent} {v : Word} {s : State} (hk : Keeps r s) : OutKeeps r (execWatchdogConfig a v s) := by
  unfold execWatchdogConfig
  repeat' first
    | (with_reducible apply OutKeeps.next)
    | with_reducible assumption
    | (intro x)
    | with_reducible apply State.set_keeps
    | with_reducible apply State.cfg_keeps
    | with_reducible apply State.mgcOnly_keeps
    | split
    | (fail_if_no_progress (with_reducible refine Keeps.lit ?_ rfl rfl rfl rfl))

theorem State.serveOff_keeps {r : State} {s : State} {z1 : DramReq} (hk : Keeps r s) : Keeps r (State.serveOff s z1) := by
  unfold State.serveOff
  repeat' first
    | with_reducible assumption
    | with_reducible apply State.answer_keeps
    | with_reducible apply State.raise_keeps
    | with_reducible apply State.dramOff_keeps
    | split

theorem State.keepRank_keeps {r : State} {s : State} {z1 : ℕ} {ue : Bool} (hk : Keeps r s) : Keeps r (State.keepRank s z1 ue) := by
  unfold State.keepRank
  repeat' first
    | with_reducible assumption
    | (fail_if_no_progress (with_reducible refine Keeps.lit ?_ rfl rfl rfl rfl))

theorem State.retireRank_keeps {r : State} {s : State} {z1 : ℕ} {ue : Bool} (hk : Keeps r s) : Keeps r (State.retireRank s z1 ue) := by
  unfold State.retireRank
  repeat' first
    | with_reducible assumption
    | with_reducible apply State.set_keeps
    | with_reducible apply State.raise_keeps
    | with_reducible apply State.migrationDue_keeps
    | with_reducible apply State.when_keeps
    | with_reducible apply State.keepRank_keeps
    | split
    | (fail_if_no_progress (with_reducible refine Keeps.lit ?_ rfl rfl rfl rfl))

theorem State.selfRefresh_keeps {r : State} {s : State} {ch : ℕ} {enter : Bool} (hk : Keeps r s) : Keeps r (State.selfRefresh s ch enter) := by
  unfold State.selfRefresh
  repeat' first
    | with_reducible assumption
    | (intro x)
    | with_reducible apply State.traceCmd_keeps
    | with_reducible apply State.each_keeps
    | (fail_if_no_progress (with_reducible refine Keeps.lit ?_ rfl rfl rfl rfl))

theorem State.freeze_keeps {r : State} {s : State} {ch : ℕ} (hk : Keeps r s) : Keeps r (State.freeze s ch) := by
  unfold State.freeze
  repeat' first
    | with_reducible assumption
    | with_reducible apply State.selfRefresh_keeps
    | with_reducible apply State.set_keeps
    | with_reducible apply State.raise_keeps

theorem State.abortMigration_keeps {r : State} {s : State} {g : Migration} (hk : Keeps r s) : Keeps r (State.abortMigration s g) := by
  unfold State.abortMigration
  repeat' first
    | with_reducible assumption
    | with_reducible apply State.raise_keeps
    | with_reducible apply State.set_keeps
    | (fail_if_no_progress (with_reducible refine Keeps.lit ?_ rfl rfl rfl rfl))

theorem State.capture_keeps {r : State} {s : State} {z1 : ℕ} {line : Option ℕ} {synd : ℕ} {half : ℕ} (hk : Keeps r s) : Keeps r (State.capture s z1 line synd half) := by
  unfold State.capture
  repeat' first
    | with_reducible assumption
    | (extract_lets +onlyGivenNames x; first
        | (refine Keeps.step (s := x) ?_ ?_; rotate_left; ((try clear_value x); intro hx); rotate_left; subst x)
        | (refine Keeps.step (s := x.2) ?_ ?_; rotate_left; ((try clear_value x); intro hx); rotate_left; subst x)
        | (first | (have := (x : Keeper)) | (have := (x : Collector)) | (have := (x : Mag)) | (have := (x : Rstc)); subst x)
        | clear_value x | skip)
    | with_reducible apply State.set_keeps
    | with_reducible apply State.draw_keeps
    | split

theorem State.uncorrectable_keeps {r s : State} {k : Nat} {line : Option Nat} {synd half : Nat} (h : Keeps r s) : Keeps r (s.uncorrectable k line synd half) := by
  unfold State.uncorrectable
  extract_lets s1 frozen s2 s3
  have h1 : Keeps r s1 := State.capture_keeps (State.set_keeps (State.inc_keeps h))
  split
  · exact State.when_keeps (fun _ hx => State.freeze_keeps hx) (State.abortMigration_keeps h1)
  · have h2 : Keeps r s2 := by
      unfold s2
      split
      · exact Keeps.maps h1 id id id (swf_sput _ _ _ _) id id id id id id id id id id id id
      · exact h1
    have h3 : Keeps r s3 := State.raise_keeps h2
    split
    · exact State.freeze_keeps h3
    · split
      · exact State.retireRank_keeps h3
      · exact h3

theorem State.correctable_keeps {r : State} {s : State} {z1 : ℕ} (hk : Keeps r s) : Keeps r (State.correctable s z1) := by
  unfold State.correctable
  repeat' first
    | with_reducible assumption
    | with_reducible apply State.inc_keeps
    | with_reducible apply State.set_keeps
    | with_reducible apply State.raise_keeps
    | (fail_if_no_progress (with_reducible refine Keeps.lit ?_ rfl rfl rfl rfl))

theorem State.eccLine_keeps {r : State} {s : State} {line : ℕ} {e : EccFinding} (hk : Keeps r s) : Keeps r (State.eccLine s line e) := by
  unfold State.eccLine
  repeat' first
    | with_reducible assumption
    | with_reducible apply State.uncorrectable_keeps
    | with_reducible apply State.column_keeps
    | with_reducible apply State.correctable_keeps
    | split

theorem State.dramServe_keeps {r : State} {s : State} {z1 : DramReq} {ecc : List EccFinding} (hk : Keeps r s) : Keeps r (State.dramServe s z1 ecc) := by
  unfold State.dramServe
  repeat' first
    | with_reducible assumption
    | (intro x)
    | (extract_lets +onlyGivenNames x; first
        | (refine Keeps.step (s := x) ?_ ?_; rotate_left; ((try clear_value x); intro hx); rotate_left; subst x)
        | (refine Keeps.step (s := x.2) ?_ ?_; rotate_left; ((try clear_value x); intro hx); rotate_left; subst x)
        | (first | (have := (x : Keeper)) | (have := (x : Collector)) | (have := (x : Mag)) | (have := (x : Rstc)); subst x)
        | clear_value x | skip)
    | with_reducible apply State.answer_keeps
    | with_reducible apply State.freeBytes_keeps
    | with_reducible apply State.lineRead_keeps
    | with_reducible apply State.lineWrite_keeps
    | with_reducible apply State.eccLine_keeps
    | with_reducible apply State.snoopLine_keeps
    | with_reducible apply State.when_keeps
    | with_reducible apply State.each_keeps
    | split

theorem State.serveHeld_keeps {r : State} {n : Nat} {s : State} (h : Keeps r s) : Keeps r (State.serveHeld n s) := by
  induction n generalizing s with
  | zero => exact h
  | succ n ih =>
    unfold State.serveHeld
    split
    · exact h
    · dsimp only
      refine ih ?_
      split
      · exact State.dramServe_keeps (Keeps.lit h rfl rfl rfl rfl)
      · exact State.serveOff_keeps (Keeps.lit h rfl rfl rfl rfl)

theorem State.goOn_keeps {r : State} {s : State} (hk : Keeps r s) : Keeps r (State.goOn s) := by
  unfold State.goOn
  repeat' first
    | with_reducible assumption
    | with_reducible apply State.serveHeld_keeps

theorem State.dropChange_keeps {r : State} {s : State} (hk : Keeps r s) : Keeps r (State.dropChange s) := by
  unfold State.dropChange
  repeat' first
    | with_reducible assumption
    | with_reducible apply State.set_keeps
    | with_reducible apply State.goOn_keeps
    | (fail_if_no_progress (with_reducible refine Keeps.lit ?_ rfl rfl rfl rfl))

theorem State.dropHoldoffs_keeps {r : State} {s : State} (hk : Keeps r s) : Keeps r (State.dropHoldoffs s) := by
  unfold State.dropHoldoffs
  repeat' first
    | with_reducible assumption
    | (fail_if_no_progress (with_reducible refine Keeps.lit ?_ rfl rfl rfl rfl))

theorem State.endJob_keeps {r : State} {s : State} (hk : Keeps r s) : Keeps r (State.endJob s) := by
  unfold State.endJob
  repeat' first
    | with_reducible assumption
    | with_reducible apply State.notify_keeps
    | split
    | (fail_if_no_progress (with_reducible refine Keeps.lit ?_ rfl rfl rfl rfl))

theorem State.stopHostJob_keeps {r : State} {s : State} (hk : Keeps r s) : Keeps r (State.stopHostJob s) := by
  unfold State.stopHostJob
  repeat' first
    | with_reducible assumption
    | with_reducible apply State.endJob_keeps
    | split

theorem State.discardCache_keeps {r : State} {s : State} (hk : Keeps r s) : Keeps r (State.discardCache s) := by
  unfold State.discardCache
  repeat' first
    | with_reducible assumption
    | (intro x)
    | with_reducible apply State.inc_keeps
    | with_reducible apply State.set_keeps
    | with_reducible apply State.raise_keeps
    | (with_reducible apply List.foldl_keeps)
    | (fail_if_no_progress (with_reducible refine Keeps.lit ?_ rfl rfl rfl rfl))

theorem State.allBias_keeps {r : State} {s : State} {dev : Bool} (hk : Keeps r s) : Keeps r (State.allBias s dev) := by
  unfold State.allBias
  repeat' first
    | with_reducible assumption
    | (fail_if_no_progress (with_reducible refine Keeps.lit ?_ rfl rfl rfl rfl))

theorem State.dropMailbox_keeps {r : State} {s : State} (hk : Keeps r s) : Keeps r (State.dropMailbox s) := by
  unfold State.dropMailbox
  repeat' first
    | with_reducible assumption
    | (fail_if_no_progress (with_reducible refine Keeps.lit ?_ rfl rfl rfl rfl))

theorem State.hostDown_keeps {r : State} {s : State} (hk : Keeps r s) : Keeps r (State.hostDown s) := by
  unfold State.hostDown
  repeat' first
    | with_reducible assumption
    | with_reducible apply State.dropChange_keeps
    | with_reducible apply State.dropHoldoffs_keeps
    | with_reducible apply State.light_keeps
    | with_reducible apply State.set_keeps
    | with_reducible apply State.inc_keeps
    | with_reducible apply State.stopHostJob_keeps
    | with_reducible apply State.discardCache_keeps
    | with_reducible apply State.allBias_keeps
    | with_reducible apply State.clear_keeps
    | with_reducible apply State.dropMailbox_keeps
    | split
    | (fail_if_no_progress (with_reducible refine Keeps.lit ?_ rfl rfl rfl rfl))

theorem State.cxlLinkDown_keeps {r : State} {s : State} (hk : Keeps r s) : Keeps r (State.cxlLinkDown s) := by
  unfold State.cxlLinkDown
  repeat' first
    | with_reducible assumption
    | with_reducible apply State.clear_keeps

theorem State.flushCache_keeps {r : State} {s : State} (hk : Keeps r s) : Keeps r (State.flushCache s) := by
  unfold State.flushCache
  repeat' first
    | with_reducible assumption
    | (intro x)
    | with_reducible apply State.writeBack_keeps
    | (with_reducible apply List.foldl_keeps)
    | (fail_if_no_progress (with_reducible refine Keeps.lit ?_ rfl rfl rfl rfl))

theorem State.linkReset__keeps {r : State} {s : State} (hk : Keeps r s) : Keeps r (State.linkReset_ s) := by
  unfold State.linkReset_
  repeat' first
    | with_reducible assumption
    | with_reducible apply State.inc_keeps
    | with_reducible apply State.hostDown_keeps
    | with_reducible apply State.cxlLinkDown_keeps
    | with_reducible apply State.set_keeps
    | with_reducible apply State.allBias_keeps
    | with_reducible apply State.flushCache_keeps
    | split
    | (fail_if_no_progress (with_reducible refine Keeps.lit ?_ rfl rfl rfl rfl))

theorem execRstcLink_keeps {r : State} {z0 : Agent} {s : State} (hk : Keeps r s) : OutKeeps r (execRstcLink z0 s) := by
  unfold execRstcLink
  repeat' first
    | (with_reducible apply OutKeeps.next)
    | with_reducible assumption
    | with_reducible apply State.linkReset__keeps
    | with_reducible apply State.set_keeps
    | split

theorem State.modDomain_keeps {r : State} {s : State} {d : ℕ} {f : Domain → Domain} (hk : Keeps r s) : Keeps r (State.modDomain s d f) := by
  unfold State.modDomain
  repeat' first
    | with_reducible assumption
    | (fail_if_no_progress (with_reducible refine Keeps.maps ?_))

theorem State.fusedResets_keeps {r : State} {s : State} (hk : Keeps r s) : Keeps r (State.fusedResets s) := by
  unfold State.fusedResets
  repeat' first
    | with_reducible assumption
    | with_reducible apply State.set_keeps

theorem State.presentBays_keeps {r : State} {s : State} (hk : Keeps r s) : Keeps r (State.presentBays s) := by
  unfold State.presentBays
  repeat' first
    | with_reducible assumption
    | (intro x)
    | with_reducible apply State.set_keeps
    | with_reducible apply State.when_keeps
    | with_reducible apply State.each_keeps

theorem settleBlocks_keeps {r : State} {l m : List (Nat × List Nat)} {s : State} (h : Keeps r s) : Keeps r (settleBlocks l m s).2 := by
  induction l generalizing m s with
  | nil => exact h
  | cons e t ih => exact ih (State.draw_keeps h)

theorem settleBays_keeps {r : State} {l : List Bay} {s : State} (h : Keeps r s) : Keeps r (settleBays l s).2 := by
  induction l generalizing s with
  | nil => exact h
  | cons b t ih => exact ih (settleBlocks_keeps h)

theorem settleBlocks_bays {l m : List (Nat × List Nat)} {s : State} : (settleBlocks l m s).2.mag = s.mag := by
  induction l generalizing m s with
  | nil => rfl
  | cons e t ih => exact ih

theorem settleBays_mag {l : List Bay} {s : State} : (settleBays l s).2.mag = s.mag := by
  induction l generalizing s with
  | nil => rfl
  | cons b t ih => exact ih.trans settleBlocks_bays

theorem settleBays_length {l : List Bay} {s : State} : (settleBays l s).1.length = l.length := by
  induction l generalizing s with
  | nil => rfl
  | cons b t ih => simp [settleBays, ih]

theorem State.coldState_keeps {r s : State} (h : Keeps r s) : Keeps r s.coldState := by
  have h1 : Keeps r (settleBays s.mag.bays s).2 := settleBays_keeps h
  have h2 : (settleBays s.mag.bays s).2.mag.bays.length = 4 → (settleBays s.mag.bays s).1.length = 4 := by
    rw [settleBays_length, settleBays_mag]; exact id
  unfold State.coldState
  refine State.presentBays_keeps (State.fusedResets_keeps ?_)
  exact Keeps.maps h1 (swf_sdrop _ _ _) (fun _ => rfl) (fun _ => rfl) (fun _ => rfl) id (fun _ => rfl) (fun _ => rfl) (fun _ => rfl)
    (fun _ => rfl) (fun _ => rfl) (fun _ => rfl) (fun _ => rfl) h2 id (fun _ => rfl) (fun _ => Nat.zero_le _)

theorem State.coldReset_keeps {r : State} {s : State} {soft : Bool} (hk : Keeps r s) : Keeps r (State.coldReset s soft) := by
  unfold State.coldReset
  repeat' first
    | with_reducible assumption
    | (intro x)
    | with_reducible apply State.modDomain_keeps
    | with_reducible apply State.each_keeps
    | with_reducible apply State.putWord_keeps
    | with_reducible apply State.coldState_keeps
    | (fail_if_no_progress (with_reducible refine Keeps.lit ?_ rfl rfl rfl rfl))

theorem execRstcCold_keeps {r : State} {z0 : Agent} {s : State} (hk : Keeps r s) : OutKeeps r (execRstcCold z0 s) := by
  unfold execRstcCold
  repeat' first
    | (with_reducible apply OutKeeps.next)
    | with_reducible assumption
    | with_reducible apply State.coldReset_keeps
    | split

theorem State.wantSpare_keeps {r : State} {s : State} {z1 : ℕ} (hk : Keeps r s) : Keeps r (State.wantSpare s z1) := by
  unfold State.wantSpare
  repeat' first
    | with_reducible assumption
    | (extract_lets +onlyGivenNames x; first
        | (refine Keeps.step (s := x) ?_ ?_; rotate_left; ((try clear_value x); intro hx); rotate_left; subst x)
        | (refine Keeps.step (s := x.2) ?_ ?_; rotate_left; ((try clear_value x); intro hx); rotate_left; subst x)
        | (first | (have := (x : Keeper)) | (have := (x : Collector)) | (have := (x : Mag)) | (have := (x : Rstc)); subst x)
        | clear_value x | skip)
    | with_reducible apply State.askSlot_keeps
    | split

theorem State.requestReset_keeps {r : State} {s : State} {e : ℕ} (hk : Keeps r s) : Keeps r (State.requestReset s e) := by
  unfold State.requestReset
  repeat' first
    | with_reducible assumption
    | (intro x)
    | with_reducible apply State.applyReset_keeps
    | with_reducible apply State.wantSpare_keeps
    | with_reducible apply State.when_keeps
    | with_reducible apply State.modEng_keeps
    | split

theorem execRstcEngine_keeps {r : State} {z0 : Agent} {e : EngId} {s : State} (hk : Keeps r s) : OutKeeps r (execRstcEngine z0 e s) := by
  unfold execRstcEngine
  repeat' first
    | (with_reducible apply OutKeeps.next)
    | with_reducible assumption
    | with_reducible apply State.set_keeps
    | with_reducible apply State.requestReset_keeps
    | split

theorem State.requestDie_keeps {r : State} {s : State} {d : ℕ} (hk : Keeps r s) : Keeps r (State.requestDie s d) := by
  unfold State.requestDie
  repeat' first
    | with_reducible assumption
    | with_reducible apply State.resetDie_keeps
    | with_reducible apply State.setBit_keeps
    | split

theorem execRstcDie_keeps {r : State} {z0 : Agent} {die : ℕ} {s : State} (hk : Keeps r s) : OutKeeps r (execRstcDie z0 die s) := by
  unfold execRstcDie
  repeat' first
    | (with_reducible apply OutKeeps.next)
    | with_reducible assumption
    | with_reducible apply State.set_keeps
    | with_reducible apply State.requestDie_keeps
    | split

theorem State.warmState_keeps {r s : State} (h : Keeps r s) : Keeps r s.warmState := by
  have h1 : Keeps r (settleBays s.mag.bays s).2 := settleBays_keeps h
  have h2 : (settleBays s.mag.bays s).2.mag.bays.length = 4 → (settleBays s.mag.bays s).1.length = 4 := by
    rw [settleBays_length, settleBays_mag]; exact id
  unfold State.warmState
  refine State.presentBays_keeps (State.fusedResets_keeps (State.clear_keeps (State.cxlLinkDown_keeps (State.set_keeps (State.set_keeps ?_)))))
  refine State.each_keeps (fun x a hx => State.set_keeps hx) (State.each_keeps (fun x a hx => State.set_keeps hx) ?_)
  exact Keeps.maps h1 (swf_sdrop _ _ _) (fun _ => rfl) id id id (fun _ => rfl) (fun _ => rfl) (fun _ => rfl)
    (fun _ => rfl) (fun _ => rfl) (fun _ => rfl) (fun _ => rfl) h2 id (fun _ => rfl) id

theorem State.holdPins_keeps {r : State} {s : State} (hk : Keeps r s) : Keeps r (State.holdPins s) := by
  unfold State.holdPins
  repeat' first
    | with_reducible assumption
    | (fail_if_no_progress (with_reducible refine Keeps.lit ?_ rfl rfl rfl rfl))

theorem State.warmReset_keeps {r : State} {s : State} {cause : Fld} (hk : Keeps r s) : Keeps r (State.warmReset s cause) := by
  unfold State.warmReset
  repeat' first
    | with_reducible assumption
    | (intro x)
    | (extract_lets +onlyGivenNames x; first
        | (refine Keeps.step (s := x) ?_ ?_; rotate_left; ((try clear_value x); intro hx); rotate_left; subst x)
        | (refine Keeps.step (s := x.2) ?_ ?_; rotate_left; ((try clear_value x); intro hx); rotate_left; subst x)
        | (first | (have := (x : Keeper)) | (have := (x : Collector)) | (have := (x : Mag)) | (have := (x : Rstc)); subst x)
        | clear_value x | skip)
    | with_reducible apply State.modDomain_keeps
    | with_reducible apply State.each_keeps
    | with_reducible apply State.warmState_keeps
    | with_reducible apply State.linkReset__keeps
    | with_reducible apply State.inc_keeps
    | with_reducible apply State.set_keeps
    | with_reducible apply State.holdPins_keeps
    | with_reducible apply State.when_keeps
    | split

theorem State.extend_keeps {r : State} {s : State} {d : ℕ} (hk : Keeps r s) : Keeps r (State.extend s d) := by
  unfold State.extend
  repeat' first
    | with_reducible assumption
    | (intro x)
    | with_reducible apply State.set_keeps
    | with_reducible apply State.when_keeps

theorem State.modMag_keeps {r s : State} {f : Mag → Mag} (hf : ∀ m, m.bays.length = 4 → (f m).bays.length = 4) (h : Keeps r s) :
    Keeps r (s.modMag f) := Keeps.maps h id id id id id id id id id id id id (hf _) id id id

theorem State.modBay_keeps {r s : State} {b : Nat} {f : Bay → Bay} (h : Keeps r s) : Keeps r (s.modBay b f) :=
  State.modMag_keeps (fun m hm => by simpa using hm) h

theorem State.setPin_keeps {r : State} {s : State} {b : ℕ} {pin : ℕ} {level : Bool} (hk : Keeps r s) : Keeps r (State.setPin s b pin level) := by
  unfold State.setPin
  repeat' first
    | with_reducible assumption
    | with_reducible apply State.modBay_keeps
    | with_reducible apply State.emit_keeps

theorem State.pinsLow_keeps {r : State} {s : State} {b : ℕ} (hk : Keeps r s) : Keeps r (State.pinsLow s b) := by
  unfold State.pinsLow
  repeat' first
    | with_reducible assumption
    | with_reducible apply State.setPin_keeps

theorem State.loadRecord_keeps {r : State} {s : State} (hk : Keeps r s) : Keeps r (State.loadRecord s) := by
  unfold State.loadRecord
  repeat' first
    | with_reducible assumption
    | split
    | (fail_if_no_progress (with_reducible refine Keeps.lit ?_ rfl rfl rfl rfl))

theorem State.freeIod_keeps {r : State} {s : State} (hk : Keeps r s) : Keeps r (State.freeIod s) := by
  unfold State.freeIod
  repeat' first
    | with_reducible assumption
    | (intro x)
    | with_reducible apply State.pinsLow_keeps
    | with_reducible apply State.each_keeps
    | with_reducible apply State.when_keeps
    | with_reducible apply State.modDomain_keeps
    | with_reducible apply State.coldState_keeps
    | with_reducible apply State.loadRecord_keeps
    | with_reducible apply State.warmState_keeps
    | split
    | (fail_if_no_progress (with_reducible refine Keeps.lit ?_ rfl rfl rfl rfl))

theorem State.releaseIod_keeps {r : State} {s : State} (hk : Keeps r s) : Keeps r (State.releaseIod s) := by
  unfold State.releaseIod
  repeat' first
    | with_reducible assumption
    | (intro x)
    | (extract_lets +onlyGivenNames x; first
        | (refine Keeps.step (s := x) ?_ ?_; rotate_left; ((try clear_value x); intro hx); rotate_left; subst x)
        | (refine Keeps.step (s := x.2) ?_ ?_; rotate_left; ((try clear_value x); intro hx); rotate_left; subst x)
        | (first | (have := (x : Keeper)) | (have := (x : Collector)) | (have := (x : Mag)) | (have := (x : Rstc)); subst x)
        | clear_value x | skip)
    | with_reducible apply State.extend_keeps
    | with_reducible apply State.when_keeps
    | with_reducible apply State.modDomain_keeps
    | with_reducible apply State.freeIod_keeps
    | split

theorem State.warmPulse_keeps {r : State} {s : State} {cause : Fld} (hk : Keeps r s) : Keeps r (State.warmPulse s cause) := by
  unfold State.warmPulse
  repeat' first
    | with_reducible assumption
    | with_reducible apply State.warmReset_keeps
    | with_reducible apply State.releaseIod_keeps

theorem execRstcWarm_keeps {r : State} {z0 : Agent} {s : State} (hk : Keeps r s) : OutKeeps r (execRstcWarm z0 s) := by
  unfold execRstcWarm
  repeat' first
    | (with_reducible apply OutKeeps.next)
    | with_reducible assumption
    | with_reducible apply State.warmPulse_keeps
    | split

theorem State.resetRequest_keeps {r : State} {s : State} {a : Agent} {v : Word} (hk : Keeps r s) : Keeps r (State.resetRequest s a v) := by
  unfold State.resetRequest
  repeat' first
    | with_reducible assumption
    | (extract_lets +onlyGivenNames x; first
        | (refine Keeps.step (s := x) ?_ ?_; rotate_left; ((try clear_value x); intro hx); rotate_left; subst x)
        | (refine Keeps.step (s := x.2) ?_ ?_; rotate_left; ((try clear_value x); intro hx); rotate_left; subst x)
        | (first | (have := (x : Keeper)) | (have := (x : Collector)) | (have := (x : Mag)) | (have := (x : Rstc)); subst x)
        | clear_value x | skip)
    | with_reducible apply execRstcLink_keeps
    | with_reducible apply execRstcCold_keeps
    | with_reducible apply execRstcEngine_keeps
    | with_reducible apply execRstcDie_keeps
    | with_reducible apply execRstcWarm_keeps
    | with_reducible apply did_keeps
    | with_reducible apply State.cfg_keeps
    | split

theorem execFcRaise_keeps {r : State} {a : Agent} {v : Word} {s : State} (hk : Keeps r s) : OutKeeps r (execFcRaise a v s) := by
  unfold execFcRaise
  repeat' first
    | (with_reducible apply OutKeeps.next)
    | with_reducible assumption
    | (intro x)
    | with_reducible apply State.raiseAs_keeps
    | with_reducible apply State.cfg_keeps
    | with_reducible apply State.mgcOnly_keeps
    | split

theorem State.writeSeverity_keeps {r : State} {s : State} {v : Word} (hk : Keeps r s) : Keeps r (State.writeSeverity s v) := by
  unfold State.writeSeverity
  repeat' first
    | with_reducible assumption
    | (extract_lets +onlyGivenNames x; first
        | (refine Keeps.step (s := x) ?_ ?_; rotate_left; ((try clear_value x); intro hx); rotate_left; subst x)
        | (refine Keeps.step (s := x.2) ?_ ?_; rotate_left; ((try clear_value x); intro hx); rotate_left; subst x)
        | (first | (have := (x : Keeper)) | (have := (x : Collector)) | (have := (x : Mag)) | (have := (x : Rstc)); subst x)
        | clear_value x | skip)
    | split
    | (fail_if_no_progress (with_reducible refine Keeps.lit ?_ rfl rfl rfl rfl))

theorem execFcPhaseWrite_keeps {r : State} {a : Agent} {v : Word} {s : State} (hk : Keeps r s) : OutKeeps r (execFcPhaseWrite a v s) := by
  unfold execFcPhaseWrite
  repeat' first
    | (with_reducible apply OutKeeps.next)
    | with_reducible assumption
    | (intro x)
    | with_reducible apply State.set_keeps
    | with_reducible apply State.cfg_keeps
    | with_reducible apply State.mgcOnly_keeps
    | split

theorem State.writeOpAddr_keeps {r : State} {s : State} {ix : ℕ} {p : ℕ} {high : Bool} {v : Word} (hk : Keeps r s) : Keeps r (State.writeOpAddr s ix p high v) := by
  unfold State.writeOpAddr
  repeat' first
    | with_reducible assumption
    | with_reducible apply State.modPool_keeps

theorem State.incWrap_keeps {r : State} {s : State} {f : Fld} (hk : Keeps r s) : Keeps r (State.incWrap s f) := by
  unfold State.incWrap
  repeat' first
    | with_reducible assumption
    | with_reducible apply State.set_keeps

theorem execPxpLutWrite_keeps {r : State} {z0 : Agent} {v : Word} {s : State} (hk : Keeps r s) : OutKeeps r (execPxpLutWrite z0 v s) := by
  unfold execPxpLutWrite
  repeat' first
    | (with_reducible apply OutKeeps.next)
    | with_reducible assumption
    | with_reducible apply State.incWrap_keeps
    | (fail_if_no_progress (with_reducible refine Keeps.lit ?_ rfl rfl rfl rfl))

theorem State.lockLost_keeps {r : State} {s : State} (hk : Keeps r s) : Keeps r (State.lockLost s) := by
  unfold State.lockLost
  repeat' first
    | with_reducible assumption
    | (intro x)
    | with_reducible apply State.set_keeps
    | with_reducible apply State.when_keeps

theorem State.relock_keeps {r : State} {s : State} (hk : Keeps r s) : Keeps r (State.relock s) := by
  unfold State.relock
  repeat' first
    | with_reducible assumption
    | (fail_if_no_progress (with_reducible refine Keeps.lit ?_ rfl rfl rfl rfl))

theorem execTbRefChange_keeps {r : State} {z0 : Agent} {ref : ℕ} {s : State} (hk : Keeps r s) : OutKeeps r (execTbRefChange z0 ref s) := by
  unfold execTbRefChange
  repeat' first
    | (with_reducible apply OutKeeps.next)
    | with_reducible assumption
    | with_reducible apply State.lockLost_keeps
    | with_reducible apply State.relock_keeps
    | with_reducible apply State.set_keeps
    | with_reducible apply State.cfg_keeps
    | split

theorem execEpochPreset_keeps {r : State} {z0 : Agent} {v : Word} {s : State} (hk : Keeps r s) : OutKeeps r (execEpochPreset z0 v s) := by
  unfold execEpochPreset
  repeat' first
    | (with_reducible apply OutKeeps.next)
    | with_reducible assumption
    | (intro x)
    | with_reducible apply State.putWord_keeps
    | with_reducible apply State.set_keeps
    | with_reducible apply State.cfg_keeps
    | with_reducible apply State.when_keeps
    | split

theorem State.writeWhole_keeps {r : State} {s : State} {a : Agent} {ix : ℕ} {off : ℕ} {v : Word} (hk : Keeps r s) : OptKeeps r (State.writeWhole s a ix off v) := by
  unfold State.writeWhole
  repeat' first
    | (with_reducible apply OptKeeps.some)
    | (with_reducible exact OptKeeps.none)
    | (with_reducible apply OptKeeps.ite)
    | with_reducible assumption
    | (intro x)
    | with_reducible apply State.cfg_keeps
    | with_reducible apply execWatchdogKick_keeps
    | with_reducible apply execWatchdogConfig_keeps
    | with_reducible apply State.resetRequest_keeps
    | with_reducible apply execFcRaise_keeps
    | with_reducible apply State.writeSeverity_keeps
    | with_reducible apply State.mgcOnly_keeps
    | with_reducible apply execFcPhaseWrite_keeps
    | with_reducible apply State.writeOpAddr_keeps
    | with_reducible apply execPxpLutWrite_keeps
    | with_reducible apply execTbRefChange_keeps
    | with_reducible apply execEpochPreset_keeps
    | with_reducible apply did_keeps

theorem State.mgcLast_keeps {r : State} {s : State} {a : Agent} {off : ℕ} {z3 : RegSpec} {high : Bool} (hk : Keeps r s) : Keeps r (State.mgcLast s a off z3 high) := by
  unfold State.mgcLast
  repeat' first
    | with_reducible assumption
    | with_reducible apply State.takeFields_keeps
    | (with_reducible refine (State.writeWhole_keeps ?_).keeps _ (by assumption))
    | (with_reducible apply OptKeeps.getD)
    | (with_reducible apply State.writeWhole_keeps)
    | split

theorem State.regionWord_keeps {r : State} {s : State} {z1 : ℕ} {k : ℕ} (hk : Keeps r s) : Keeps r (State.regionWord s z1 k).2 := by
  unfold State.regionWord
  repeat' first
    | with_reducible assumption
    | (with_reducible refine Keeps.snd (by assumption) ?_)
    | with_reducible apply State.draw_keeps
    | split
    | (fail_if_no_progress (with_reducible refine Keeps.maps ?_))

theorem State.microword_keeps {r : State} {s : State} {e : ℕ} {k : ℕ} (hk : Keeps r s) : Keeps r (State.microword s e k).2 := by
  unfold State.microword
  repeat' first
    | with_reducible assumption
    | with_reducible apply State.modEng_keeps
    | with_reducible apply State.draw_keeps
    | split

theorem State.iaData_keeps {r : State} {s : State} {e : ℕ} {w : ℕ} (hk : Keeps r s) : Keeps r (State.iaData s e w) := by
  unfold State.iaData
  repeat' first
    | with_reducible assumption
    | with_reducible apply State.set_keeps

theorem State.countIsolation_keeps {r : State} {s : State} {e : ℕ} (hk : Keeps r s) : Keeps r (State.countIsolation s e) := by
  unfold State.countIsolation
  repeat' first
    | with_reducible assumption
    | (extract_lets +onlyGivenNames x; first
        | (refine Keeps.step (s := x) ?_ ?_; rotate_left; ((try clear_value x); intro hx); rotate_left; subst x)
        | (refine Keeps.step (s := x.2) ?_ ?_; rotate_left; ((try clear_value x); intro hx); rotate_left; subst x)
        | (first | (have := (x : Keeper)) | (have := (x : Collector)) | (have := (x : Mag)) | (have := (x : Rstc)); subst x)
        | clear_value x | skip)
    | with_reducible apply State.setEng_keeps
    | with_reducible apply State.set_keeps
    | with_reducible apply State.modEng_keeps
    | with_reducible apply State.inc_keeps
    | split

theorem State.isolate_keeps {r : State} {s : State} {e : ℕ} (hk : Keeps r s) : Keeps r (State.isolate s e) := by
  unfold State.isolate
  repeat' first
    | with_reducible assumption
    | (intro x)
    | with_reducible apply State.wantSpare_keeps
    | with_reducible apply State.when_keeps
    | with_reducible apply State.spareStatus_keeps
    | with_reducible apply State.leavePosition_keeps
    | with_reducible apply State.countIsolation_keeps
    | with_reducible apply State.modEng_keeps
    | with_reducible apply State.setEng_keeps
    | with_reducible apply State.loseJobs_keeps
    | split

theorem State.machineCheck_keeps {r : State} {s : State} {e : ℕ} {cause : ℕ} {ucAddr : ℕ} {quarter : ℕ} {macroOp : ℕ} (hk : Keeps r s) : Keeps r (State.machineCheck s e cause ucAddr quarter macroOp) := by
  unfold State.machineCheck
  repeat' first
    | with_reducible assumption
    | with_reducible apply State.requestReset_keeps
    | with_reducible apply State.raise_keeps
    | with_reducible apply State.isolate_keeps
    | with_reducible apply State.set_keeps

theorem State.sramFound_keeps {r : State} {s : State} {e : ℕ} {ecc : EccFinding} (hk : Keeps r s) : Keeps r (State.sramFound s e ecc) := by
  unfold State.sramFound
  repeat' first
    | with_reducible assumption
    | with_reducible apply State.machineCheck_keeps
    | with_reducible apply State.inc_keeps
    | with_reducible apply State.raise_keeps
    | split

theorem State.sramWord_keeps {r : State} {s : State} {e : ℕ} {k : ℕ} (hk : Keeps r s) : Keeps r (State.sramWord s e k).2 := by
  unfold State.sramWord
  repeat' first
    | with_reducible assumption
    | (extract_lets +onlyGivenNames x; first
        | (refine Keeps.step (s := x) ?_ ?_; rotate_left; ((try clear_value x); intro hx); rotate_left; subst x)
        | (refine Keeps.step (s := x.2) ?_ ?_; rotate_left; ((try clear_value x); intro hx); rotate_left; subst x)
        | (first | (have := (x : Keeper)) | (have := (x : Collector)) | (have := (x : Mag)) | (have := (x : Rstc)); subst x)
        | clear_value x | skip)
    | with_reducible apply State.modEng_keeps
    | with_reducible apply State.draw_keeps
    | split

theorem State.access_keeps {r s : State} {a : Agent} {off : Nat} {f : State → State} (hf : ∀ x, Keeps r x → Keeps r (f x)) (h : Keeps r s) : Keeps r (s.access a off f) := by
  unfold State.access; split
  · exact State.offAccess_keeps h
  · exact hf s h

theorem execCeIaRead_keeps {r : State} {a : Agent} {e : EngId} {ecc : EccFinding} {s : State} (hk : Keeps r s) : OutKeeps r (execCeIaRead a e ecc s) := by
  unfold execCeIaRead
  repeat' first
    | (with_reducible apply OutKeeps.next)
    | with_reducible assumption
    | (intro x)
    | (extract_lets +onlyGivenNames x; first
        | (refine Keeps.step (s := x) ?_ ?_; rotate_left; ((try clear_value x); intro hx); rotate_left; subst x)
        | (refine Keeps.step (s := x.2) ?_ ?_; rotate_left; ((try clear_value x); intro hx); rotate_left; subst x)
        | (first | (have := (x : Keeper)) | (have := (x : Collector)) | (have := (x : Mag)) | (have := (x : Rstc)); subst x)
        | clear_value x | skip)
    | with_reducible apply State.regionWord_keeps
    | with_reducible apply State.microword_keeps
    | with_reducible apply State.iaData_keeps
    | with_reducible apply State.sramFound_keeps
    | with_reducible apply State.sramWord_keeps
    | with_reducible apply State.set_keeps
    | with_reducible apply State.cfg_keeps
    | with_reducible apply State.access_keeps
    | split

theorem execCeClrCounts_keeps {r : State} {a : Agent} {e : EngId} {s : State} (hk : Keeps r s) : OutKeeps r (execCeClrCounts a e s) := by
  unfold execCeClrCounts
  repeat' first
    | (with_reducible apply OutKeeps.next)
    | with_reducible assumption
    | (intro x)
    | with_reducible apply State.clear_keeps
    | with_reducible apply State.access_keeps

theorem State.refuseCe_keeps {r : State} {s : State} {e : ℕ} (hk : Keeps r s) : Keeps r (State.refuseCe s e) := by
  unfold State.refuseCe
  repeat' first
    | with_reducible assumption
    | with_reducible apply State.cfg_keeps

theorem execCeAdmit_keeps {r : State} {a : Agent} {e : EngId} {s : State} (hk : Keeps r s) : OutKeeps r (execCeAdmit a e s) := by
  unfold execCeAdmit
  repeat' first
    | (with_reducible apply OutKeeps.next)
    | with_reducible assumption
    | (intro x)
    | with_reducible apply State.refuseCe_keeps
    | with_reducible apply State.modEng_keeps
    | with_reducible apply State.access_keeps
    | split

theorem execCeUnretire_keeps {r : State} {a : Agent} {e : EngId} {s : State} (hk : Keeps r s) : OutKeeps r (execCeUnretire a e s) := by
  unfold execCeUnretire
  repeat' first
    | (with_reducible apply OutKeeps.next)
    | with_reducible assumption
    | (intro x)
    | with_reducible apply State.refuseCe_keeps
    | with_reducible apply State.setEng_keeps
    | with_reducible apply State.set_keeps
    | with_reducible apply State.mgcOnly_keeps
    | with_reducible apply State.access_keeps
    | split

theorem execCeReset_keeps {r : State} {a : Agent} {e : EngId} {s : State} (hk : Keeps r s) : OutKeeps r (execCeReset a e s) := by
  unfold execCeReset
  repeat' first
    | (with_reducible apply OutKeeps.next)
    | with_reducible assumption
    | (intro x)
    | with_reducible apply State.requestReset_keeps
    | with_reducible apply State.refuseCe_keeps
    | with_reducible apply State.access_keeps
    | split

theorem execCeLoad_keeps {r : State} {a : Agent} {e : EngId} {s : State} (hk : Keeps r s) : OutKeeps r (execCeLoad a e s) := by
  unfold execCeLoad
  repeat' first
    | (with_reducible apply OutKeeps.next)
    | with_reducible assumption
    | (intro x)
    | (extract_lets +onlyGivenNames x; first
        | (refine Keeps.step (s := x) ?_ ?_; rotate_left; ((try clear_value x); intro hx); rotate_left; subst x)
        | (refine Keeps.step (s := x.2) ?_ ?_; rotate_left; ((try clear_value x); intro hx); rotate_left; subst x)
        | (first | (have := (x : Keeper)) | (have := (x : Collector)) | (have := (x : Mag)) | (have := (x : Rstc)); subst x)
        | clear_value x | skip)
    | with_reducible apply State.refuseCe_keeps
    | with_reducible apply State.askSlot_keeps
    | with_reducible apply State.when_keeps
    | with_reducible apply State.spareStatus_keeps
    | with_reducible apply State.setEng_keeps
    | with_reducible apply State.modEng_keeps
    | with_reducible apply State.mgcOnly_keeps
    | with_reducible apply State.access_keeps
    | split

theorem execCeResume_keeps {r : State} {a : Agent} {e : EngId} {s : State} (hk : Keeps r s) : OutKeeps r (execCeResume a e s) := by
  unfold execCeResume
  repeat' first
    | (with_reducible apply OutKeeps.next)
    | with_reducible assumption
    | (intro x)
    | with_reducible apply State.refuseCe_keeps
    | with_reducible apply State.setEng_keeps
    | with_reducible apply State.modEng_keeps
    | with_reducible apply State.spareStatus_keeps
    | with_reducible apply State.access_keeps
    | split

theorem execCeHalt_keeps {r : State} {a : Agent} {e : EngId} {s : State} (hk : Keeps r s) : OutKeeps r (execCeHalt a e s) := by
  unfold execCeHalt
  repeat' first
    | (with_reducible apply OutKeeps.next)
    | with_reducible assumption
    | (intro x)
    | with_reducible apply State.refuseCe_keeps
    | with_reducible apply State.modEng_keeps
    | with_reducible apply State.access_keeps
    | split

theorem State.bitDoes_keeps {r s : State} {v : Word} {b : Nat} {f : State → Host.Outcome State Fault Refusal} (hf : OutKeeps r (f s)) (h : Keeps r s) : Keeps r (s.bitDoes v b f) := by
  unfold State.bitDoes did
  split
  · split
    · exact hf.keeps _ (by assumption)
    · exact h
  · exact h

theorem State.ceStrobe_keeps {r : State} {s : State} {a : Agent} {off : ℕ} {v : Word} (hk : Keeps r s) : Keeps r (State.ceStrobe s a off v) := by
  unfold State.ceStrobe
  repeat' first
    | with_reducible assumption
    | with_reducible apply execCeIaRead_keeps
    | with_reducible apply State.draw_keeps
    | with_reducible apply execCeClrCounts_keeps
    | with_reducible apply execCeAdmit_keeps
    | with_reducible apply execCeUnretire_keeps
    | with_reducible apply execCeReset_keeps
    | with_reducible apply execCeLoad_keeps
    | with_reducible apply execCeResume_keeps
    | with_reducible apply execCeHalt_keeps
    | with_reducible apply State.bitDoes_keeps
    | split

theorem State.complete_keeps {r : State} {s : State} {ctx : ℕ} {id : ℕ} {off : ℕ} (hk : Keeps r s) : Keeps r (State.complete s ctx id off) := by
  unfold State.complete
  repeat' first
    | with_reducible assumption
    | with_reducible apply State.cfg_keeps
    | with_reducible apply State.putSource_keeps
    | split

theorem execIcuHvComplete_keeps {r : State} {vec : ℕ} {v : Word} {s : State} (hk : Keeps r s) : OutKeeps r (execIcuHvComplete vec v s) := by
  unfold execIcuHvComplete
  repeat' first
    | (with_reducible apply OutKeeps.next)
    | with_reducible assumption
    | with_reducible apply State.complete_keeps
    | with_reducible apply State.putVector_keeps

theorem State.clearPending_keeps {r : State} {s : State} {n : ℕ} (hk : Keeps r s) : Keeps r (State.clearPending s n) := by
  unfold State.clearPending
  repeat' first
    | with_reducible assumption
    | with_reducible apply State.putSource_keeps
    | split

theorem execIcuPendClr_keeps {r : State} {z0 : Agent} {n : ℕ} {v : Word} {s : State} (hk : Keeps r s) : OutKeeps r (execIcuPendClr z0 n v s) := by
  unfold execIcuPendClr
  repeat' first
    | (with_reducible apply OutKeeps.next)
    | with_reducible assumption
    | (intro x)
    | with_reducible apply State.clearPending_keeps
    | with_reducible apply State.each_keeps

theorem State.setPending_keeps {r : State} {s : State} {off : ℕ} {n : ℕ} (hk : Keeps r s) : Keeps r (State.setPending s off n) := by
  unfold State.setPending
  repeat' first
    | with_reducible assumption
    | (extract_lets +onlyGivenNames x; first
        | (refine Keeps.step (s := x) ?_ ?_; rotate_left; ((try clear_value x); intro hx); rotate_left; subst x)
        | (refine Keeps.step (s := x.2) ?_ ?_; rotate_left; ((try clear_value x); intro hx); rotate_left; subst x)
        | (first | (have := (x : Keeper)) | (have := (x : Collector)) | (have := (x : Mag)) | (have := (x : Rstc)); subst x)
        | clear_value x | skip)
    | with_reducible apply State.cfg_keeps
    | with_reducible apply State.putSource_keeps
    | with_reducible apply State.icuEvent_keeps
    | split

theorem execIcuPendSet_keeps {r : State} {z0 : Agent} {n : ℕ} {v : Word} {s : State} (hk : Keeps r s) : OutKeeps r (execIcuPendSet z0 n v s) := by
  unfold execIcuPendSet
  repeat' first
    | (with_reducible apply OutKeeps.next)
    | with_reducible assumption
    | (intro x)
    | with_reducible apply State.setPending_keeps
    | with_reducible apply State.each_keeps

theorem execIcuMgcComplete_keeps {r : State} {a : Agent} {v : Word} {s : State} (hk : Keeps r s) : OutKeeps r (execIcuMgcComplete a v s) := by
  unfold execIcuMgcComplete
  repeat' first
    | (with_reducible apply OutKeeps.next)
    | with_reducible assumption
    | (intro x)
    | with_reducible apply State.complete_keeps
    | with_reducible apply State.mgcOnly_keeps

theorem execIcuDoorbell_keeps {r : State} {v : Word} {s : State} (hk : Keeps r s) : OutKeeps r (execIcuDoorbell v s) := by
  unfold execIcuDoorbell
  repeat' first
    | (with_reducible apply OutKeeps.next)
    | with_reducible assumption
    | with_reducible apply State.cfg_keeps
    | with_reducible apply State.icuEvent_keeps
    | split

theorem execClrAll_keeps {r : State} {z0 : Agent} {s : State} (hk : Keeps r s) : OutKeeps r (execClrAll z0 s) := by
  unfold execClrAll
  repeat' first
    | (with_reducible apply OutKeeps.next)
    | with_reducible assumption
    | (intro x)
    | with_reducible apply State.putSource_keeps
    | with_reducible apply State.each_keeps

theorem execClrOne_keeps {r : State} {z0 : Agent} {n : ℕ} {s : State} (hk : Keeps r s) : OutKeeps r (execClrOne z0 n s) := by
  unfold execClrOne
  repeat' first
    | (with_reducible apply OutKeeps.next)
    | with_reducible assumption
    | with_reducible apply State.putSource_keeps

theorem State.icuStrobe_keeps {r : State} {s : State} {a : Agent} {off : ℕ} {v : Word} (hk : Keeps r s) : Keeps r (State.icuStrobe s a off v) := by
  unfold State.icuStrobe
  repeat' first
    | with_reducible assumption
    | with_reducible apply execIcuHvComplete_keeps
    | with_reducible apply execIcuPendClr_keeps
    | with_reducible apply execIcuPendSet_keeps
    | with_reducible apply execIcuMgcComplete_keeps
    | with_reducible apply execIcuDoorbell_keeps
    | with_reducible apply did_keeps
    | with_reducible apply execClrAll_keeps
    | with_reducible apply execClrOne_keeps
    | with_reducible apply State.bitDoes_keeps
    | split

theorem execFcClrCounts_keeps {r : State} {z0 : Agent} {s : State} (hk : Keeps r s) : OutKeeps r (execFcClrCounts z0 s) := by
  unfold execFcClrCounts
  dsimp only
  repeat' first
    | (with_reducible apply OutKeeps.next)
    | with_reducible assumption
    | with_reducible apply State.set_keeps
    | (fail_if_no_progress (with_reducible refine Keeps.lit ?_ rfl rfl rfl rfl))

theorem execFcFirstClr_keeps {r : State} {z0 : Agent} {s : State} (hk : Keeps r s) : OutKeeps r (execFcFirstClr z0 s) := by
  unfold execFcFirstClr
  repeat' first
    | (with_reducible apply OutKeeps.next)
    | with_reducible assumption
    | (fail_if_no_progress (with_reducible refine Keeps.lit ?_ rfl rfl rfl rfl))

theorem execRestore_keeps {r : State} {z0 : Agent} {s : State} (hk : Keeps r s) : OutKeeps r (execRestore z0 s) := by
  unfold execRestore
  repeat' first
    | (with_reducible apply OutKeeps.next)
    | with_reducible assumption
    | with_reducible apply State.cfg_keeps
    | split
    | (fail_if_no_progress (with_reducible refine Keeps.lit ?_ rfl rfl rfl rfl))

theorem execBasic_keeps {r : State} {z0 : Agent} {s : State} (hk : Keeps r s) : OutKeeps r (execBasic z0 s) := by
  unfold execBasic
  repeat' first
    | (with_reducible apply OutKeeps.next)
    | with_reducible assumption
    | with_reducible apply State.wantBasic_keeps

theorem execKprClrCounts_keeps {r : State} {z0 : Agent} {s : State} (hk : Keeps r s) : OutKeeps r (execKprClrCounts z0 s) := by
  unfold execKprClrCounts
  dsimp only
  repeat' first
    | (with_reducible apply OutKeeps.next)
    | with_reducible assumption
    | with_reducible apply State.clear_keeps
    | (fail_if_no_progress (with_reducible refine Keeps.lit ?_ rfl rfl rfl rfl))

theorem State.requestEntry_keeps {r : State} {s : State} {toOff : Bool} (hk : Keeps r s) : Keeps r (State.requestEntry s toOff) := by
  unfold State.requestEntry
  dsimp only
  repeat' first
    | with_reducible assumption
    | with_reducible apply State.raise_keeps
    | with_reducible apply State.set_keeps
    | split
    | (fail_if_no_progress (with_reducible refine Keeps.lit ?_ rfl rfl rfl rfl))

theorem execOff_keeps {r : State} {z0 : Agent} {s : State} (hk : Keeps r s) : OutKeeps r (execOff z0 s) := by
  unfold execOff
  repeat' first
    | (with_reducible apply OutKeeps.next)
    | with_reducible assumption
    | with_reducible apply State.requestEntry_keeps

theorem execRetain_keeps {r : State} {z0 : Agent} {s : State} (hk : Keeps r s) : OutKeeps r (execRetain z0 s) := by
  unfold execRetain
  repeat' first
    | (with_reducible apply OutKeeps.next)
    | with_reducible assumption
    | with_reducible apply State.requestEntry_keeps

theorem execCanRingKick_keeps {r : State} {z0 : Agent} {z1 : ℕ} {z2 : Bool} {z3 : Bool} {s : State} (hk : Keeps r s) : OutKeeps r (execCanRingKick z0 z1 z2 z3 s) := by
  unfold execCanRingKick
  repeat' first
    | (with_reducible apply OutKeeps.next)
    | with_reducible assumption

theorem execPxpClrCounts_keeps {r : State} {z0 : Agent} {s : State} (hk : Keeps r s) : OutKeeps r (execPxpClrCounts z0 s) := by
  unfold execPxpClrCounts
  repeat' first
    | (with_reducible apply OutKeeps.next)
    | with_reducible assumption
    | with_reducible apply State.clear_keeps

theorem State.drawList_keeps {r : State} {n : Nat} {s : State} (h : Keeps r s) : Keeps r (State.drawList n s).2 := by
  induction n generalizing s with
  | zero => exact h
  | succ n ih => exact ih (State.draw_keeps h)

theorem State.reviewStart_keeps {r : State} {s : State} (hk : Keeps r s) : Keeps r (State.reviewStart s) := by
  unfold State.reviewStart
  repeat' first
    | with_reducible assumption
    | (intro x)
    | (with_reducible refine Keeps.snd (by assumption) ?_)
    | with_reducible apply State.set_keeps
    | with_reducible apply State.draw_keeps
    | with_reducible apply State.drawList_keeps
    | with_reducible apply State.memRead_keeps
    | with_reducible apply State.inc_keeps
    | (with_reducible apply List.foldl_keeps_snd)
    | split
    | (fail_if_no_progress (with_reducible refine Keeps.lit ?_ rfl rfl rfl rfl))

theorem execReviewGo_keeps {r : State} {z0 : Agent} {s : State} (hk : Keeps r s) : OutKeeps r (execReviewGo z0 s) := by
  unfold execReviewGo
  repeat' first
    | (with_reducible apply OutKeeps.next)
    | with_reducible assumption
    | with_reducible apply State.reviewStart_keeps

theorem execEthClrCounts_keeps {r : State} {z0 : Agent} {port : ℕ} {s : State} (hk : Keeps r s) : OutKeeps r (execEthClrCounts z0 port s) := by
  unfold execEthClrCounts
  repeat' first
    | (with_reducible apply OutKeeps.next)
    | with_reducible assumption
    | with_reducible apply State.clear_keeps

theorem execGateCommit_keeps {r : State} {z0 : Agent} {port : ℕ} {s : State} (hk : Keeps r s) : OutKeeps r (execGateCommit z0 port s) := by
  unfold execGateCommit
  repeat' first
    | (with_reducible apply OutKeeps.next)
    | with_reducible assumption
    | (intro x)
    | with_reducible apply State.modPort_keeps
    | with_reducible apply State.when_keeps
    | with_reducible apply State.set_keeps
    | with_reducible apply State.cfg_keeps
    | split

theorem execEthRingKickRx_keeps {r : State} {z0 : Agent} {z1 : ℕ} {s : State} (hk : Keeps r s) : OutKeeps r (execEthRingKickRx z0 z1 s) := by
  unfold execEthRingKickRx
  repeat' first
    | (with_reducible apply OutKeeps.next)
    | with_reducible assumption

theorem State.txBack_keeps {r : State} {s : State} {p : ℕ} {i : ℕ} {status : ℕ} {ts : Bool} (hk : Keeps r s) : Keeps r (State.txBack s p i status ts) := by
  unfold State.txBack
  repeat' first
    | with_reducible assumption
    | with_reducible apply State.memWrite_keeps
    | with_reducible apply State.icuPulse_keeps

theorem State.dropFrame_keeps {r : State} {s : State} {p : ℕ} {f : EgressFrame} {status : ℕ} (hk : Keeps r s) : Keeps r (State.dropFrame s p f status) := by
  unfold State.dropFrame
  repeat' first
    | with_reducible assumption
    | with_reducible apply State.inc_keeps
    | with_reducible apply State.txBack_keeps
    | split

theorem State.dropLong_keeps {r : State} {s : State} {p : ℕ} {f : EgressFrame} (hk : Keeps r s) : Keeps r (State.dropLong s p f) := by
  unfold State.dropLong
  repeat' first
    | with_reducible assumption
    | with_reducible apply State.inc_keeps
    | with_reducible apply State.dropFrame_keeps

theorem State.enqueueFrame_keeps {r : State} {s : State} {p : ℕ} {f : EgressFrame} (hk : Keeps r s) : Keeps r (State.enqueueFrame s p f) := by
  unfold State.enqueueFrame
  repeat' first
    | with_reducible assumption
    | with_reducible apply State.modPort_keeps
    | with_reducible apply State.inc_keeps
    | with_reducible apply State.dropFrame_keeps
    | with_reducible apply State.dropLong_keeps
    | split

theorem State.takeTx_keeps {r : State} {s : State} {p : ℕ} (hk : Keeps r s) : Keeps r (State.takeTx s p) := by
  unfold State.takeTx
  repeat' first
    | with_reducible assumption
    | (extract_lets +onlyGivenNames x; first
        | (refine Keeps.step (s := x) ?_ ?_; rotate_left; ((try clear_value x); intro hx); rotate_left; subst x)
        | (refine Keeps.step (s := x.2) ?_ ?_; rotate_left; ((try clear_value x); intro hx); rotate_left; subst x)
        | (first | (have := (x : Keeper)) | (have := (x : Collector)) | (have := (x : Mag)) | (have := (x : Rstc)); subst x)
        | clear_value x | skip)
    | (with_reducible refine Keeps.snd (by assumption) ?_)
    | with_reducible apply State.enqueueFrame_keeps
    | with_reducible apply State.modPort_keeps
    | with_reducible apply State.memRead_keeps
    | split

theorem execEthRingKickTx_keeps {r : State} {z0 : Agent} {port : ℕ} {s : State} (hk : Keeps r s) : OutKeeps r (execEthRingKickTx z0 port s) := by
  unfold execEthRingKickTx
  repeat' first
    | (with_reducible apply OutKeeps.next)
    | with_reducible assumption
    | with_reducible apply State.takeTx_keeps

theorem State.ethStrobe_keeps {r : State} {s : State} {a : Agent} {off : ℕ} {v : Word} (hk : Keeps r s) : Keeps r (State.ethStrobe s a off v) := by
  unfold State.ethStrobe
  repeat' first
    | with_reducible assumption
    | (extract_lets +onlyGivenNames x; first
        | (refine Keeps.step (s := x) ?_ ?_; rotate_left; ((try clear_value x); intro hx); rotate_left; subst x)
        | (refine Keeps.step (s := x.2) ?_ ?_; rotate_left; ((try clear_value x); intro hx); rotate_left; subst x)
        | (first | (have := (x : Keeper)) | (have := (x : Collector)) | (have := (x : Mag)) | (have := (x : Rstc)); subst x)
        | clear_value x | skip)
    | with_reducible apply execEthClrCounts_keeps
    | with_reducible apply execGateCommit_keeps
    | with_reducible apply execEthRingKickRx_keeps
    | with_reducible apply execEthRingKickTx_keeps
    | with_reducible apply State.bitDoes_keeps
    | split

theorem execCacheFlush_keeps {r : State} {z0 : Agent} {s : State} (hk : Keeps r s) : OutKeeps r (execCacheFlush z0 s) := by
  unfold execCacheFlush
  repeat' first
    | (with_reducible apply OutKeeps.next)
    | with_reducible assumption
    | with_reducible apply State.set_keeps

theorem execCxpClrCounts_keeps {r : State} {z0 : Agent} {s : State} (hk : Keeps r s) : OutKeeps r (execCxpClrCounts z0 s) := by
  unfold execCxpClrCounts
  repeat' first
    | (with_reducible apply OutKeeps.next)
    | with_reducible assumption
    | with_reducible apply State.clear_keeps

theorem State.biasCmd_keeps {r : State} {s : State} {toDevice : Bool} (hk : Keeps r s) : Keeps r (State.biasCmd s toDevice) := by
  unfold State.biasCmd
  repeat' first
    | with_reducible assumption
    | (intro x)
    | (extract_lets +onlyGivenNames x; first
        | (refine Keeps.step (s := x) ?_ ?_; rotate_left; ((try clear_value x); intro hx); rotate_left; subst x)
        | (refine Keeps.step (s := x.2) ?_ ?_; rotate_left; ((try clear_value x); intro hx); rotate_left; subst x)
        | (first | (have := (x : Keeper)) | (have := (x : Collector)) | (have := (x : Mag)) | (have := (x : Rstc)); subst x)
        | clear_value x | skip)
    | with_reducible apply State.emit_keeps
    | with_reducible apply State.when_keeps
    | with_reducible apply State.set_keeps
    | with_reducible apply State.cfg_keeps
    | split
    | (fail_if_no_progress (with_reducible refine Keeps.lit ?_ rfl rfl rfl rfl))

theorem execToDevice_keeps {r : State} {z0 : Agent} {s : State} (hk : Keeps r s) : OutKeeps r (execToDevice z0 s) := by
  unfold execToDevice
  repeat' first
    | (with_reducible apply OutKeeps.next)
    | with_reducible assumption
    | with_reducible apply State.biasCmd_keeps

theorem execToHost_keeps {r : State} {z0 : Agent} {s : State} (hk : Keeps r s) : OutKeeps r (execToHost z0 s) := by
  unfold execToHost
  repeat' first
    | (with_reducible apply OutKeeps.next)
    | with_reducible assumption
    | with_reducible apply State.biasCmd_keeps

theorem State.rqRing_keeps {r : State} {s : State} {b : ℕ} (hk : Keeps r s) : Keeps r (State.rqRing s b) := by
  unfold State.rqRing
  repeat' first
    | with_reducible assumption
    | with_reducible apply State.modBay_keeps

theorem execRqDoorbell_keeps {r : State} {z0 : Agent} {bay : ℕ} {s : State} (hk : Keeps r s) : OutKeeps r (execRqDoorbell z0 bay s) := by
  unfold execRqDoorbell
  repeat' first
    | (with_reducible apply OutKeeps.next)
    | with_reducible assumption
    | with_reducible apply State.rqRing_keeps

theorem execMghClrCounts_keeps {r : State} {a : Agent} {s : State} (hk : Keeps r s) : OutKeeps r (execMghClrCounts a s) := by
  unfold execMghClrCounts
  repeat' first
    | (with_reducible apply OutKeeps.next)
    | with_reducible assumption
    | (intro x)
    | with_reducible apply State.clear_keeps
    | with_reducible apply State.each_keeps
    | with_reducible apply State.mgcOnly_keeps

theorem State.putBlocks_keeps {r : State} {s : State} {b : ℕ} {l : List (ℕ × List ℕ)} (hk : Keeps r s) : Keeps r (State.putBlocks s b l) := by
  unfold State.putBlocks
  repeat' first
    | with_reducible assumption
    | with_reducible apply State.modBay_keeps

theorem State.nvme_keeps {r : State} {s : State} {b : ℕ} {l : List NvmeCmd} (hk : Keeps r s) : Keeps r (State.nvme s b l) := by
  unfold State.nvme
  repeat' first
    | with_reducible assumption
    | (intro x)
    | with_reducible apply State.emit_keeps
    | with_reducible apply State.each_keeps

theorem State.writeBay_keeps {r : State} {s : State} {b : ℕ} {l : List (ℕ × List ℕ)} (hk : Keeps r s) : Keeps r (State.writeBay s b l) := by
  unfold State.writeBay
  repeat' first
    | with_reducible assumption
    | with_reducible apply State.putBlocks_keeps
    | with_reducible apply State.nvme_keeps

theorem State.writeSuper_keeps {r : State} {s : State} {b : ℕ} {member : ℕ} {mount : Bool} (hk : Keeps r s) : Keeps r (State.writeSuper s b member mount) := by
  unfold State.writeSuper
  repeat' first
    | with_reducible assumption
    | with_reducible apply State.writeBay_keeps
    | with_reducible apply State.modBay_keeps
    | split

theorem State.flushBay_keeps {r : State} {s : State} {b : ℕ} (hk : Keeps r s) : Keeps r (State.flushBay s b) := by
  unfold State.flushBay
  repeat' first
    | with_reducible assumption
    | with_reducible apply State.modBay_keeps
    | with_reducible apply State.nvme_keeps

theorem State.flushAll_keeps {r : State} {s : State} (hk : Keeps r s) : Keeps r (State.flushAll s) := by
  unfold State.flushAll
  repeat' first
    | with_reducible assumption
    | (intro x)
    | with_reducible apply State.flushBay_keeps
    | with_reducible apply State.each_keeps

theorem State.writeSupers_keeps {r : State} {s : State} {mount : Bool} (hk : Keeps r s) : Keeps r (State.writeSupers s mount) := by
  unfold State.writeSupers
  repeat' first
    | with_reducible assumption
    | (intro x)
    | with_reducible apply State.writeSuper_keeps
    | with_reducible apply State.each_keeps
    | with_reducible apply State.flushAll_keeps

theorem State.setRoles_keeps {r : State} {s : State} (hk : Keeps r s) : Keeps r (State.setRoles s) := by
  unfold State.setRoles
  repeat' first
    | with_reducible assumption
    | (intro x)
    | with_reducible apply State.set_keeps
    | with_reducible apply State.each_keeps

theorem State.rebuildStart_keeps {r : State} {s : State} {b : Superblock} {i : ℕ} (hk : Keeps r s) : Keeps r (State.rebuildStart s b i) := by
  unfold State.rebuildStart
  repeat' first
    | with_reducible assumption
    | (with_reducible refine State.modMag_keeps (fun _ => id) ?_)
    | with_reducible apply State.writeBay_keeps
    | with_reducible apply State.writeSuper_keeps
    | with_reducible apply State.flushBay_keeps
    | with_reducible apply State.writeSupers_keeps
    | with_reducible apply State.setRoles_keeps
    | split

theorem State.rebuildCmd_keeps {r : State} {s : State} (hk : Keeps r s) : Keeps r (State.rebuildCmd s).2 := by
  unfold State.rebuildCmd
  repeat' first
    | with_reducible assumption
    | with_reducible apply State.rebuildStart_keeps
    | with_reducible apply State.set_keeps
    | split

theorem State.mghStatus_keeps {r : State} {s : State} (hk : Keeps r s) : Keeps r (State.mghStatus s) := by
  unfold State.mghStatus
  repeat' first
    | with_reducible assumption
    | with_reducible apply State.set_keeps

theorem State.mghResult_keeps {r : State} {s : State} {last : ℕ} {res : ℕ} (hk : Keeps r s) : Keeps r (State.mghResult s last res) := by
  unfold State.mghResult
  repeat' first
    | with_reducible assumption
    | with_reducible apply State.set_keeps
    | with_reducible apply State.mghStatus_keeps

theorem State.mghCmd_keeps {r s : State} {a : Agent} {last : Nat} {f : State → Nat × State} (hf : ∀ x, Keeps r x → Keeps r (f x).2) (h : Keeps r s) : Keeps r (s.mghCmd a last f) := by
  unfold State.mghCmd
  refine State.mgcOnly_keeps (fun x hx => ?_) h
  split
  · exact hx
  · split
    · exact State.mghResult_keeps hx
    · exact State.mghResult_keeps (hf x hx)

theorem execRebuild_keeps {r : State} {a : Agent} {s : State} (hk : Keeps r s) : OutKeeps r (execRebuild a s) := by
  unfold execRebuild
  repeat' first
    | (with_reducible apply OutKeeps.next)
    | with_reducible assumption
    | with_reducible apply State.rebuildCmd_keeps
    | with_reducible apply State.mghCmd_keeps

theorem State.bayLinkDown_keeps {r : State} {s : State} {b : ℕ} (hk : Keeps r s) : Keeps r (State.bayLinkDown s b) := by
  unfold State.bayLinkDown
  repeat' first
    | with_reducible assumption
    | with_reducible apply State.clear_keeps

theorem State.setBay_keeps {r : State} {s : State} {b : ℕ} {st : ℕ} (hk : Keeps r s) : Keeps r (State.setBay s b st) := by
  unfold State.setBay
  repeat' first
    | with_reducible assumption
    | (extract_lets +onlyGivenNames x; first
        | (refine Keeps.step (s := x) ?_ ?_; rotate_left; ((try clear_value x); intro hx); rotate_left; subst x)
        | (refine Keeps.step (s := x.2) ?_ ?_; rotate_left; ((try clear_value x); intro hx); rotate_left; subst x)
        | (first | (have := (x : Keeper)) | (have := (x : Collector)) | (have := (x : Mag)) | (have := (x : Rstc)); subst x)
        | clear_value x | skip)
    | with_reducible apply State.light_keeps
    | with_reducible apply State.set_keeps
    | with_reducible apply State.notify_keeps
    | split

theorem State.bayFail_keeps {r : State} {s : State} {b : ℕ} {code : ℕ} (hk : Keeps r s) : Keeps r (State.bayFail s b code) := by
  unfold State.bayFail
  repeat' first
    | with_reducible assumption
    | with_reducible apply State.raise_keeps
    | with_reducible apply State.modBay_keeps
    | with_reducible apply State.bayLinkDown_keeps
    | with_reducible apply State.setPin_keeps
    | with_reducible apply State.setBay_keeps
    | with_reducible apply State.set_keeps

theorem State.failDuplicates_keeps {r : State} {s : State} (hk : Keeps r s) : Keeps r (State.failDuplicates s) := by
  unfold State.failDuplicates
  repeat' first
    | with_reducible assumption
    | (intro x)
    | with_reducible apply State.bayFail_keeps
    | with_reducible apply State.when_keeps
    | with_reducible apply State.each_keeps

theorem State.settleSet_keeps {r : State} {s : State} (hk : Keeps r s) : Keeps r (State.settleSet s) := by
  unfold State.settleSet
  repeat' first
    | with_reducible assumption
    | (extract_lets +onlyGivenNames x; first
        | (refine Keeps.step (s := x) ?_ ?_; rotate_left; ((try clear_value x); intro hx); rotate_left; subst x)
        | (refine Keeps.step (s := x.2) ?_ ?_; rotate_left; ((try clear_value x); intro hx); rotate_left; subst x)
        | (first | (have := (x : Keeper)) | (have := (x : Collector)) | (have := (x : Mag)) | (have := (x : Rstc)); subst x)
        | clear_value x | skip)
    | (with_reducible refine State.modMag_keeps (fun _ => id) ?_)
    | with_reducible apply State.failDuplicates_keeps
    | with_reducible apply State.setRoles_keeps
    | with_reducible apply State.mghStatus_keeps
    | split

theorem State.writeAll_keeps {r : State} {s : State} {l : List (ℕ × List ℕ)} (hk : Keeps r s) : Keeps r (State.writeAll s l) := by
  unfold State.writeAll
  repeat' first
    | with_reducible assumption
    | (intro x)
    | with_reducible apply State.writeBay_keeps
    | with_reducible apply State.each_keeps

theorem State.deleteCmd_keeps {r : State} {s : State} (hk : Keeps r s) : Keeps r (State.deleteCmd s).2 := by
  unfold State.deleteCmd
  repeat' first
    | with_reducible assumption
    | (intro x)
    | (with_reducible refine State.modMag_keeps (fun _ => id) ?_)
    | with_reducible apply State.settleSet_keeps
    | with_reducible apply State.modBay_keeps
    | with_reducible apply State.nvme_keeps
    | with_reducible apply State.each_keeps
    | with_reducible apply State.writeSupers_keeps
    | with_reducible apply State.writeAll_keeps
    | with_reducible apply State.flushAll_keeps
    | split

theorem execDeleteLast_keeps {r : State} {a : Agent} {s : State} (hk : Keeps r s) : OutKeeps r (execDeleteLast a s) := by
  unfold execDeleteLast
  repeat' first
    | (with_reducible apply OutKeeps.next)
    | with_reducible assumption
    | with_reducible apply State.deleteCmd_keeps
    | with_reducible apply State.mghCmd_keeps

theorem State.beginClose_keeps {r : State} {s : State} {reason : ℕ} (hk : Keeps r s) : Keeps r (State.beginClose s reason) := by
  unfold State.beginClose
  repeat' first
    | with_reducible assumption
    | (with_reducible refine State.modMag_keeps (fun _ => id) ?_)
    | with_reducible apply State.mghStatus_keeps
    | split

theorem State.finishClose_keeps {r : State} {s : State} {b : Superblock} {c : CatEntry} {reason : ℕ} (hk : Keeps r s) : Keeps r (State.finishClose s b c reason) := by
  unfold State.finishClose
  repeat' first
    | with_reducible assumption
    | (with_reducible refine State.modMag_keeps (fun _ => id) ?_)
    | with_reducible apply State.notify_keeps
    | with_reducible apply State.settleSet_keeps
    | with_reducible apply State.writeSupers_keeps
    | with_reducible apply State.set_keeps
    | with_reducible apply State.writeAll_keeps
    | with_reducible apply State.flushAll_keeps
    | (fail_if_no_progress (with_reducible refine Keeps.lit ?_ rfl rfl rfl rfl))

theorem State.tryClose_keeps {r : State} {s : State} (hk : Keeps r s) : Keeps r (State.tryClose s) := by
  unfold State.tryClose
  repeat' first
    | with_reducible assumption
    | with_reducible apply State.finishClose_keeps
    | split

theorem State.closeCmd_keeps {r : State} {s : State} {reason : ℕ} (hk : Keeps r s) : Keeps r (State.closeCmd s reason).2 := by
  unfold State.closeCmd
  repeat' first
    | with_reducible assumption
    | with_reducible apply State.set_keeps
    | with_reducible apply State.beginClose_keeps
    | with_reducible apply State.tryClose_keeps
    | split

theorem execCloseClip_keeps {r : State} {a : Agent} {reason : ℕ} {s : State} (hk : Keeps r s) : OutKeeps r (execCloseClip a reason s) := by
  unfold execCloseClip
  repeat' first
    | (with_reducible apply OutKeeps.next)
    | with_reducible assumption
    | (intro x)
    | with_reducible apply State.closeCmd_keeps
    | with_reducible apply State.mghCmd_keeps

theorem State.openCmd_keeps {r : State} {s : State} (hk : Keeps r s) : Keeps r (State.openCmd s).2 := by
  unfold State.openCmd
  repeat' first
    | with_reducible assumption
    | (extract_lets +onlyGivenNames x; first
        | (refine Keeps.step (s := x) ?_ ?_; rotate_left; ((try clear_value x); intro hx); rotate_left; subst x)
        | (refine Keeps.step (s := x.2) ?_ ?_; rotate_left; ((try clear_value x); intro hx); rotate_left; subst x)
        | (first | (have := (x : Keeper)) | (have := (x : Collector)) | (have := (x : Mag)) | (have := (x : Rstc)); subst x)
        | clear_value x | skip)
    | (with_reducible refine State.modMag_keeps (fun _ => id) ?_)
    | with_reducible apply State.set_keeps
    | with_reducible apply State.writeAll_keeps
    | with_reducible apply State.flushAll_keeps
    | split

theorem execOpenClip_keeps {r : State} {a : Agent} {s : State} (hk : Keeps r s) : OutKeeps r (execOpenClip a s) := by
  unfold execOpenClip
  repeat' first
    | (with_reducible apply OutKeeps.next)
    | with_reducible assumption
    | with_reducible apply State.openCmd_keeps
    | with_reducible apply State.mghCmd_keeps
    | split
    | (fail_if_no_progress (with_reducible refine Keeps.lit ?_ rfl rfl rfl rfl))

theorem State.zeroBlocks_keeps {r : State} {s : State} {b : ℕ} {lba : ℕ} {n : ℕ} (hk : Keeps r s) : Keeps r (State.zeroBlocks s b lba n) := by
  unfold State.zeroBlocks
  repeat' first
    | with_reducible assumption
    | with_reducible apply State.modBay_keeps
    | with_reducible apply State.nvme_keeps

theorem State.formatBay_keeps {r : State} {s : State} {x : Superblock} {b : ℕ} {member : ℕ} (hk : Keeps r s) : Keeps r (State.formatBay s x b member) := by
  unfold State.formatBay
  repeat' first
    | with_reducible assumption
    | with_reducible apply State.writeBay_keeps
    | with_reducible apply State.flushBay_keeps
    | with_reducible apply State.zeroBlocks_keeps
    | with_reducible apply State.modBay_keeps
    | with_reducible apply State.nvme_keeps
    | split

theorem State.formatCmd_keeps {r : State} {s : State} {mask : ℕ} (hk : Keeps r s) : Keeps r (State.formatCmd s mask).2 := by
  unfold State.formatCmd
  repeat' first
    | with_reducible assumption
    | (intro x)
    | (extract_lets +onlyGivenNames x; first
        | (refine Keeps.step (s := x) ?_ ?_; rotate_left; ((try clear_value x); intro hx); rotate_left; subst x)
        | (refine Keeps.step (s := x.2) ?_ ?_; rotate_left; ((try clear_value x); intro hx); rotate_left; subst x)
        | (first | (have := (x : Keeper)) | (have := (x : Collector)) | (have := (x : Mag)) | (have := (x : Rstc)); subst x)
        | clear_value x | skip)
    | with_reducible apply State.settleSet_keeps
    | with_reducible apply State.formatBay_keeps
    | with_reducible apply State.modBay_keeps
    | with_reducible apply State.each_keeps
    | with_reducible apply State.draw_keeps
    | split

theorem execFormat_keeps {r : State} {a : Agent} {bays : ℕ} {s : State} (hk : Keeps r s) : OutKeeps r (execFormat a bays s) := by
  unfold execFormat
  repeat' first
    | (with_reducible apply OutKeeps.next)
    | with_reducible assumption
    | (intro x)
    | with_reducible apply State.formatCmd_keeps
    | with_reducible apply State.mghCmd_keeps

theorem State.shutdownBay_keeps {r : State} {s : State} {b : ℕ} {command : Bool} (hk : Keeps r s) : Keeps r (State.shutdownBay s b command) := by
  unfold State.shutdownBay
  repeat' first
    | with_reducible assumption
    | with_reducible apply State.setBay_keeps
    | with_reducible apply State.modBay_keeps
    | with_reducible apply State.emit_keeps

theorem State.unmoorCmd_keeps {r : State} {s : State} {mask : ℕ} (hk : Keeps r s) : Keeps r (State.unmoorCmd s mask).2 := by
  unfold State.unmoorCmd
  repeat' first
    | with_reducible assumption
    | (intro x)
    | (extract_lets +onlyGivenNames x; first
        | (refine Keeps.step (s := x) ?_ ?_; rotate_left; ((try clear_value x); intro hx); rotate_left; subst x)
        | (refine Keeps.step (s := x.2) ?_ ?_; rotate_left; ((try clear_value x); intro hx); rotate_left; subst x)
        | (first | (have := (x : Keeper)) | (have := (x : Collector)) | (have := (x : Mag)) | (have := (x : Rstc)); subst x)
        | clear_value x | skip)
    | with_reducible apply State.set_keeps
    | with_reducible apply State.when_keeps
    | with_reducible apply State.settleSet_keeps
    | with_reducible apply State.nvme_keeps
    | with_reducible apply State.shutdownBay_keeps
    | with_reducible apply State.each_keeps
    | split

theorem execUnmoor_keeps {r : State} {a : Agent} {bays : ℕ} {s : State} (hk : Keeps r s) : OutKeeps r (execUnmoor a bays s) := by
  unfold execUnmoor
  repeat' first
    | (with_reducible apply OutKeeps.next)
    | with_reducible assumption
    | (intro x)
    | with_reducible apply State.unmoorCmd_keeps
    | with_reducible apply State.mghCmd_keeps

theorem State.startMoor_keeps {r : State} {s : State} {b : ℕ} (hk : Keeps r s) : Keeps r (State.startMoor s b) := by
  unfold State.startMoor
  repeat' first
    | with_reducible assumption
    | with_reducible apply State.setBay_keeps
    | with_reducible apply State.set_keeps
    | with_reducible apply State.modBay_keeps
    | split

theorem State.moorCmd_keeps {r : State} {s : State} {mask : ℕ} (hk : Keeps r s) : Keeps r (State.moorCmd s mask).2 := by
  unfold State.moorCmd
  repeat' first
    | with_reducible assumption
    | with_reducible apply State.startMoor_keeps
    | with_reducible apply State.each_keeps

theorem execMoor_keeps {r : State} {a : Agent} {bays : ℕ} {s : State} (hk : Keeps r s) : OutKeeps r (execMoor a bays s) := by
  unfold execMoor
  repeat' first
    | (with_reducible apply OutKeeps.next)
    | with_reducible assumption
    | (intro x)
    | with_reducible apply State.moorCmd_keeps
    | with_reducible apply State.mghCmd_keeps

theorem State.mghStrobe_keeps {r : State} {s : State} {a : Agent} {off : ℕ} {v : Word} (hk : Keeps r s) : Keeps r (State.mghStrobe s a off v) := by
  unfold State.mghStrobe
  repeat' first
    | with_reducible assumption
    | with_reducible apply execRqDoorbell_keeps
    | with_reducible apply execMghClrCounts_keeps
    | with_reducible apply execRebuild_keeps
    | with_reducible apply execDeleteLast_keeps
    | with_reducible apply execCloseClip_keeps
    | with_reducible apply execOpenClip_keeps
    | with_reducible apply execFormat_keeps
    | with_reducible apply execUnmoor_keeps
    | with_reducible apply execMoor_keeps
    | with_reducible apply State.bitDoes_keeps
    | split

theorem execClrCapture_keeps {r : State} {z0 : Agent} {ch : ℕ} {s : State} (hk : Keeps r s) : OutKeeps r (execClrCapture z0 ch s) := by
  unfold execClrCapture
  repeat' first
    | (with_reducible apply OutKeeps.next)
    | with_reducible assumption
    | with_reducible apply State.clear_keeps

theorem execLmcClrCounts_keeps {r : State} {z0 : Agent} {s : State} (hk : Keeps r s) : OutKeeps r (execLmcClrCounts z0 s) := by
  unfold execLmcClrCounts
  repeat' first
    | (with_reducible apply OutKeeps.next)
    | with_reducible assumption
    | (intro x)
    | with_reducible apply State.clear_keeps
    | with_reducible apply State.each_keeps

theorem State.takeBack_keeps {r s : State} {e : WqEntry} (h : Keeps r s) : Keeps r (s.takeBack e) :=
  Keeps.maps h id id (swf_sputAll _ _ _ _) (swf_sput _ _ _ _) id id id id id id id id id id id id

theorem State.clearQueues_keeps {r : State} {s : State} {ch : ℕ} (hk : Keeps r s) : Keeps r (State.clearQueues s ch) := by
  unfold State.clearQueues
  repeat' first
    | with_reducible assumption
    | with_reducible apply State.takeBack_keeps
    | with_reducible apply State.each_keeps
    | (fail_if_no_progress (with_reducible refine Keeps.lit ?_ rfl rfl rfl rfl))

theorem execLmcThaw_keeps {r : State} {z0 : Agent} {pos : ℕ} {s : State} (hk : Keeps r s) : OutKeeps r (execLmcThaw z0 pos s) := by
  unfold execLmcThaw
  repeat' first
    | (with_reducible apply OutKeeps.next)
    | with_reducible assumption
    | with_reducible apply State.set_keeps
    | with_reducible apply State.selfRefresh_keeps
    | with_reducible apply State.clearQueues_keeps
    | with_reducible apply State.goOn_keeps
    | split

theorem execLmcRetire_keeps {r : State} {z0 : Agent} {pos : ℕ} {s : State} (hk : Keeps r s) : OutKeeps r (execLmcRetire z0 pos s) := by
  unfold execLmcRetire
  repeat' first
    | (with_reducible apply OutKeeps.next)
    | with_reducible assumption
    | with_reducible apply State.retireRank_keeps

theorem State.retrainWanted_keeps {r : State} {s : State} {z1 : ℕ} (hk : Keeps r s) : Keeps r (State.retrainWanted s z1) := by
  unfold State.retrainWanted
  repeat' first
    | with_reducible assumption
    | with_reducible apply State.retrainStopped_keeps
    | split
    | (fail_if_no_progress (with_reducible refine Keeps.lit ?_ rfl rfl rfl rfl))

theorem execLmcRetrain_keeps {r : State} {z0 : Agent} {pos : ℕ} {s : State} (hk : Keeps r s) : OutKeeps r (execLmcRetrain z0 pos s) := by
  unfold execLmcRetrain
  repeat' first
    | (with_reducible apply OutKeeps.next)
    | with_reducible assumption
    | with_reducible apply State.retrainWanted_keeps

theorem State.lmcStrobe_keeps {r : State} {s : State} {a : Agent} {off : ℕ} {v : Word} (hk : Keeps r s) : Keeps r (State.lmcStrobe s a off v) := by
  unfold State.lmcStrobe
  repeat' first
    | with_reducible assumption
    | with_reducible apply execClrCapture_keeps
    | with_reducible apply execLmcClrCounts_keeps
    | with_reducible apply execLmcThaw_keeps
    | with_reducible apply execLmcRetire_keeps
    | with_reducible apply execLmcRetrain_keeps
    | with_reducible apply State.bitDoes_keeps
    | split

theorem State.putDesc_keeps {r : State} {s : State} {n : ℕ} {j : DmaJob} {status : ℕ} (hk : Keeps r s) : Keeps r (State.putDesc s n j status).2 := by
  unfold State.putDesc
  repeat' first
    | with_reducible assumption
    | with_reducible apply State.set_keeps
    | with_reducible apply State.memWrite_keeps

theorem State.writeBackDesc_keeps {r : State} {s : State} {n : ℕ} {j : DmaJob} {status : ℕ} (hk : Keeps r s) : Keeps r (State.writeBackDesc s n j status) := by
  unfold State.writeBackDesc
  repeat' first
    | with_reducible assumption
    | with_reducible apply State.putDesc_keeps

theorem State.dmaAbort_keeps {r : State} {s : State} {n : ℕ} (hk : Keeps r s) : Keeps r (State.dmaAbort s n) := by
  unfold State.dmaAbort
  repeat' first
    | with_reducible assumption
    | with_reducible apply State.writeBackDesc_keeps
    | with_reducible apply State.haltAt_keeps
    | split

theorem execDmaAbort_keeps {r : State} {z0 : Agent} {ch : ℕ} {s : State} (hk : Keeps r s) : OutKeeps r (execDmaAbort z0 ch s) := by
  unfold execDmaAbort
  repeat' first
    | (with_reducible apply OutKeeps.next)
    | with_reducible assumption
    | with_reducible apply State.dmaAbort_keeps

theorem State.dmaRestart_keeps {r : State} {s : State} {n : ℕ} {i : ℕ} (hk : Keeps r s) : Keeps r (State.dmaRestart s n i) := by
  unfold State.dmaRestart
  repeat' first
    | with_reducible assumption
    | with_reducible apply State.set_keeps
    | with_reducible apply State.dmaFetch_keeps
    | split

theorem execDmaSkip_keeps {r : State} {z0 : Agent} {ch : ℕ} {s : State} (hk : Keeps r s) : OutKeeps r (execDmaSkip z0 ch s) := by
  unfold execDmaSkip
  repeat' first
    | (with_reducible apply OutKeeps.next)
    | with_reducible assumption
    | with_reducible apply State.dmaRestart_keeps

theorem execDmaResume_keeps {r : State} {z0 : Agent} {ch : ℕ} {s : State} (hk : Keeps r s) : OutKeeps r (execDmaResume z0 ch s) := by
  unfold execDmaResume
  repeat' first
    | (with_reducible apply OutKeeps.next)
    | with_reducible assumption
    | with_reducible apply State.dmaRestart_keeps

theorem State.dmaKick_keeps {r : State} {s : State} {n : ℕ} (hk : Keeps r s) : Keeps r (State.dmaKick s n) := by
  unfold State.dmaKick
  repeat' first
    | with_reducible assumption
    | with_reducible apply State.dmaFetch_keeps
    | split
    | (fail_if_no_progress (with_reducible refine Keeps.lit ?_ rfl rfl rfl rfl))

theorem execDmaKick_keeps {r : State} {z0 : Agent} {ch : ℕ} {s : State} (hk : Keeps r s) : OutKeeps r (execDmaKick z0 ch s) := by
  unfold execDmaKick
  repeat' first
    | (with_reducible apply OutKeeps.next)
    | with_reducible assumption
    | with_reducible apply State.dmaKick_keeps

theorem State.dmaStrobe_keeps {r : State} {s : State} {a : Agent} {off : ℕ} {v : Word} (hk : Keeps r s) : Keeps r (State.dmaStrobe s a off v) := by
  unfold State.dmaStrobe
  repeat' first
    | with_reducible assumption
    | with_reducible apply execDmaAbort_keeps
    | with_reducible apply execDmaSkip_keeps
    | with_reducible apply execDmaResume_keeps
    | with_reducible apply execDmaKick_keeps
    | with_reducible apply State.bitDoes_keeps
    | split

theorem State.bpmStart_keeps {r : State} {s : State} {p : ℕ} (hk : Keeps r s) : Keeps r (State.bpmStart s p) := by
  unfold State.bpmStart
  repeat' first
    | with_reducible assumption
    | with_reducible apply State.set_keeps
    | with_reducible apply State.modPool_keeps
    | with_reducible apply State.cfg_keeps
    | split

theorem execBpmInit_keeps {r : State} {z0 : Agent} {p : ℕ} {s : State} (hk : Keeps r s) : OutKeeps r (execBpmInit z0 p s) := by
  unfold execBpmInit
  repeat' first
    | (with_reducible apply OutKeeps.next)
    | with_reducible assumption
    | with_reducible apply State.bpmStart_keeps

theorem State.opOutcome_keeps {r : State} {s : State} {z1 : ℕ} {p : ℕ} {code : ℕ} (hk : Keeps r s) : Keeps r (State.opOutcome s z1 p code) := by
  unfold State.opOutcome
  repeat' first
    | with_reducible assumption
    | with_reducible apply State.answer_keeps
    | with_reducible apply State.modPool_keeps
    | split

theorem State.opRejected_keeps {r : State} {s : State} {z1 : ℕ} {p : ℕ} {code : ℕ} (hk : Keeps r s) : Keeps r (State.opRejected s z1 p code) := by
  unfold State.opRejected
  repeat' first
    | with_reducible assumption
    | with_reducible apply State.inc_keeps
    | with_reducible apply State.poolBad_keeps
    | with_reducible apply State.opOutcome_keeps

theorem State.owner_keeps {r : State} {s : State} {p : ℕ} {i : ℕ} (hk : Keeps r s) : Keeps r (State.owner s p i).2 := by
  unfold State.owner
  repeat' first
    | with_reducible assumption
    | with_reducible apply State.memRead_keeps

theorem State.opJudge_keeps {r : State} {s : State} {z1 : ℕ} {p : ℕ} {a : ℕ} (hk : Keeps r s) : Keeps r (State.opJudge s z1 p a).2 := by
  unfold State.opJudge
  repeat' first
    | with_reducible assumption
    | (with_reducible refine Keeps.snd (by assumption) ?_)
    | with_reducible apply State.owner_keeps
    | split

theorem State.handover_keeps {r : State} {s : State} {z1 : ℕ} {p : ℕ} {a : ℕ} {o : ℕ} (hk : Keeps r s) : Keeps r (State.handover s z1 p a o) := by
  unfold State.handover
  repeat' first
    | with_reducible assumption
    | (with_reducible refine Keeps.snd (by assumption) ?_)
    | with_reducible apply State.setOwner_keeps
    | with_reducible apply State.opOutcome_keeps
    | with_reducible apply State.opRejected_keeps
    | with_reducible apply State.opJudge_keeps
    | split

theorem execBpmHandover_keeps {r : State} {z0 : ReqId} {p : ℕ} {addr : ℕ} {newOwner : ℕ} {s : State} (hk : Keeps r s) : OutKeeps r (execBpmHandover z0 p addr newOwner s) := by
  unfold execBpmHandover
  repeat' first
    | (with_reducible apply OutKeeps.next)
    | with_reducible assumption
    | with_reducible apply State.handover_keeps
    | split

theorem State.free_keeps {r : State} {s : State} {z1 : ℕ} {p : ℕ} {a : ℕ} (hk : Keeps r s) : Keeps r (State.free s z1 p a) := by
  unfold State.free
  repeat' first
    | with_reducible assumption
    | (with_reducible refine Keeps.snd (by assumption) ?_)
    | with_reducible apply State.modPool_keeps
    | with_reducible apply State.set_keeps
    | with_reducible apply State.opOutcome_keeps
    | with_reducible apply State.memWrite_keeps
    | with_reducible apply State.setOwner_keeps
    | with_reducible apply State.opRejected_keeps
    | with_reducible apply State.opJudge_keeps
    | split

theorem execBpmFree_keeps {r : State} {z0 : ReqId} {p : ℕ} {addr : ℕ} {s : State} (hk : Keeps r s) : OutKeeps r (execBpmFree z0 p addr s) := by
  unfold execBpmFree
  repeat' first
    | (with_reducible apply OutKeeps.next)
    | with_reducible assumption
    | with_reducible apply State.free_keeps
    | split

theorem State.bpmStrobe_keeps {r : State} {s : State} {a : Agent} {ix : ℕ} {off : ℕ} {v : Word} (hk : Keeps r s) : Keeps r (State.bpmStrobe s a ix off v) := by
  unfold State.bpmStrobe
  repeat' first
    | with_reducible assumption
    | (extract_lets +onlyGivenNames x; first
        | (refine Keeps.step (s := x) ?_ ?_; rotate_left; ((try clear_value x); intro hx); rotate_left; subst x)
        | (refine Keeps.step (s := x.2) ?_ ?_; rotate_left; ((try clear_value x); intro hx); rotate_left; subst x)
        | (first | (have := (x : Keeper)) | (have := (x : Collector)) | (have := (x : Mag)) | (have := (x : Rstc)); subst x)
        | clear_value x | skip)
    | with_reducible apply execBpmInit_keeps
    | with_reducible apply execBpmHandover_keeps
    | with_reducible apply execBpmFree_keeps
    | with_reducible apply State.bitDoes_keeps
    | split

theorem State.incBy_keeps {r : State} {s : State} {f : Fld} {n : ℕ} (hk : Keeps r s) : Keeps r (State.incBy s f n) := by
  unfold State.incBy
  repeat' first
    | with_reducible assumption
    | with_reducible apply State.set_keeps

theorem State.closePush_keeps {r : State} {s : State} {q : ℕ} (hk : Keeps r s) : Keeps r (State.closePush s q) := by
  unfold State.closePush
  repeat' first
    | with_reducible assumption
    | (intro x)
    | (extract_lets +onlyGivenNames x; first
        | (refine Keeps.step (s := x) ?_ ?_; rotate_left; ((try clear_value x); intro hx); rotate_left; subst x)
        | (refine Keeps.step (s := x.2) ?_ ?_; rotate_left; ((try clear_value x); intro hx); rotate_left; subst x)
        | (first | (have := (x : Keeper)) | (have := (x : Collector)) | (have := (x : Mag)) | (have := (x : Rstc)); subst x)
        | clear_value x | skip)
    | with_reducible apply State.enqueue_keeps
    | with_reducible apply State.incBy_keeps
    | with_reducible apply State.when_keeps
    | with_reducible apply State.inc_keeps
    | with_reducible apply State.raise_keeps
    | split
    | (fail_if_no_progress (with_reducible refine Keeps.maps ?_))

theorem execPushEnd_keeps {r : State} {z0 : Agent} {q : ℕ} {s : State} (hk : Keeps r s) : OutKeeps r (execPushEnd z0 q s) := by
  unfold execPushEnd
  repeat' first
    | (with_reducible apply OutKeeps.next)
    | with_reducible assumption
    | with_reducible apply State.closePush_keeps

theorem execPkrClrCounts_keeps {r : State} {z0 : Agent} {s : State} (hk : Keeps r s) : OutKeeps r (execPkrClrCounts z0 s) := by
  unfold execPkrClrCounts
  repeat' first
    | (with_reducible apply OutKeeps.next)
    | with_reducible assumption
    | with_reducible apply State.clear_keeps

theorem execFalClrCounts_keeps {r : State} {z0 : Agent} {s : State} (hk : Keeps r s) : OutKeeps r (execFalClrCounts z0 s) := by
  unfold execFalClrCounts
  repeat' first
    | (with_reducible apply OutKeeps.next)
    | with_reducible assumption
    | with_reducible apply State.clear_keeps

theorem execPprRetrain_keeps {r : State} {z0 : Agent} {s : State} (hk : Keeps r s) : OutKeeps r (execPprRetrain z0 s) := by
  unfold execPprRetrain
  repeat' first
    | (with_reducible apply OutKeeps.next)
    | with_reducible assumption
    | with_reducible apply State.train_keeps
    | with_reducible apply State.each_keeps

theorem execPprClrCounts_keeps {r : State} {z0 : Agent} {s : State} (hk : Keeps r s) : OutKeeps r (execPprClrCounts z0 s) := by
  unfold execPprClrCounts
  repeat' first
    | (with_reducible apply OutKeeps.next)
    | with_reducible assumption
    | with_reducible apply State.clear_keeps

theorem State.startSubst_keeps {r : State} {s : State} {k : ℕ} {undo : Bool} (hk : Keeps r s) : Keeps r (State.startSubst s k undo) := by
  unfold State.startSubst
  repeat' first
    | with_reducible assumption
    | with_reducible apply State.set_keeps
    | with_reducible apply State.sendBc_keeps
    | (fail_if_no_progress (with_reducible refine Keeps.lit ?_ rfl rfl rfl rfl))

theorem execSubstUndo_keeps {r : State} {z0 : Agent} {s : State} (hk : Keeps r s) : OutKeeps r (execSubstUndo z0 s) := by
  unfold execSubstUndo
  repeat' first
    | (with_reducible apply OutKeeps.next)
    | with_reducible assumption
    | with_reducible apply State.set_keeps
    | with_reducible apply State.startSubst_keeps
    | split

theorem State.requestSubst_keeps {r : State} {s : State} {k : ℕ} (hk : Keeps r s) : Keeps r (State.requestSubst s k) := by
  unfold State.requestSubst
  repeat' first
    | with_reducible assumption
    | with_reducible apply State.set_keeps
    | with_reducible apply State.startSubst_keeps
    | split

theorem execSubstGo_keeps {r : State} {z0 : Agent} {s : State} (hk : Keeps r s) : OutKeeps r (execSubstGo z0 s) := by
  unfold execSubstGo
  repeat' first
    | (with_reducible apply OutKeeps.next)
    | with_reducible assumption
    | with_reducible apply State.requestSubst_keeps

theorem State.genNext_keeps {r : State} {s : State} (hk : Keeps r s) : Keeps r (State.genNext s) := by
  unfold State.genNext
  repeat' first
    | with_reducible assumption
    | (fail_if_no_progress (with_reducible refine Keeps.lit ?_ rfl rfl rfl rfl))

theorem State.genChange_keeps {r : State} {s : State} (hk : Keeps r s) : Keeps r (State.genChange s) := by
  unfold State.genChange
  repeat' first
    | with_reducible assumption
    | with_reducible apply State.genNext_keeps
    | (fail_if_no_progress (with_reducible refine Keeps.lit ?_ rfl rfl rfl rfl))

theorem execLtcLoad_keeps {r : State} {z0 : Agent} {s : State} (hk : Keeps r s) : OutKeeps r (execLtcLoad z0 s) := by
  unfold execLtcLoad
  repeat' first
    | (with_reducible apply OutKeeps.next)
    | with_reducible assumption
    | (fail_if_no_progress (with_reducible refine Keeps.lit ?_ rfl rfl rfl rfl))

theorem execTbUnlock_keeps {r : State} {z0 : Agent} {s : State} (hk : Keeps r s) : OutKeeps r (execTbUnlock z0 s) := by
  unfold execTbUnlock
  repeat' first
    | (with_reducible apply OutKeeps.next)
    | with_reducible assumption
    | with_reducible apply State.cfg_keeps
    | with_reducible apply State.lockLost_keeps
    | split

theorem State.lockGained_keeps {r : State} {s : State} (hk : Keeps r s) : Keeps r (State.lockGained s) := by
  unfold State.lockGained
  repeat' first
    | with_reducible assumption
    | with_reducible apply State.set_keeps

theorem execTbLock_keeps {r : State} {z0 : Agent} {s : State} (hk : Keeps r s) : OutKeeps r (execTbLock z0 s) := by
  unfold execTbLock
  repeat' first
    | (with_reducible apply OutKeeps.next)
    | with_reducible assumption
    | with_reducible apply State.cfg_keeps
    | with_reducible apply State.lockGained_keeps
    | split

theorem State.ptpFollow_keeps {r : State} {s : State} (hk : Keeps r s) : Keeps r (State.ptpFollow s) := by
  unfold State.ptpFollow
  repeat' first
    | with_reducible assumption
    | with_reducible apply State.incBy_keeps
    | with_reducible apply State.ptpRestart_keeps
    | split

theorem State.timeChanged_keeps {r : State} {s : State} (hk : Keeps r s) : Keeps r (State.timeChanged s) := by
  unfold State.timeChanged
  repeat' first
    | with_reducible assumption
    | with_reducible apply State.relock_keeps
    | with_reducible apply State.set_keeps
    | split

theorem State.stepTime_keeps {r : State} {s : State} {v : ℕ} (hk : Keeps r s) : Keeps r (State.stepTime s v) := by
  unfold State.stepTime
  repeat' first
    | with_reducible assumption
    | with_reducible apply State.ptpFollow_keeps
    | with_reducible apply State.genNext_keeps
    | with_reducible apply State.timeChanged_keeps
    | (fail_if_no_progress (with_reducible refine Keeps.lit ?_ rfl rfl rfl rfl))

theorem execTbStep_keeps {r : State} {z0 : Agent} {s : State} (hk : Keeps r s) : OutKeeps r (execTbStep z0 s) := by
  unfold execTbStep
  repeat' first
    | (with_reducible apply OutKeeps.next)
    | with_reducible assumption
    | with_reducible apply State.stepTime_keeps

theorem execTbSet_keeps {r : State} {z0 : Agent} {s : State} (hk : Keeps r s) : OutKeeps r (execTbSet z0 s) := by
  unfold execTbSet
  repeat' first
    | (with_reducible apply OutKeeps.next)
    | with_reducible assumption
    | with_reducible apply State.ptpFollow_keeps
    | with_reducible apply State.genNext_keeps
    | with_reducible apply State.timeChanged_keeps
    | (fail_if_no_progress (with_reducible refine Keeps.lit ?_ rfl rfl rfl rfl))

theorem execBuClrCounts_keeps {r : State} {z0 : Agent} {s : State} (hk : Keeps r s) : OutKeeps r (execBuClrCounts z0 s) := by
  unfold execBuClrCounts
  repeat' first
    | (with_reducible apply OutKeeps.next)
    | with_reducible assumption
    | with_reducible apply State.clear_keeps

theorem State.commitWords_keeps {r : State} {s : State} {l : List ℕ} (hk : Keeps r s) : Keeps r (State.commitWords s l) := by
  unfold State.commitWords
  repeat' first
    | with_reducible assumption
    | (intro x)
    | with_reducible apply State.putForce_keeps
    | with_reducible apply State.each_keeps

theorem State.commitRate_keeps {r : State} {s : State} (hk : Keeps r s) : Keeps r (State.commitRate s) := by
  unfold State.commitRate
  repeat' first
    | with_reducible assumption
    | (extract_lets +onlyGivenNames x; first
        | (refine Keeps.step (s := x) ?_ ?_; rotate_left; ((try clear_value x); intro hx); rotate_left; subst x)
        | (refine Keeps.step (s := x.2) ?_ ?_; rotate_left; ((try clear_value x); intro hx); rotate_left; subst x)
        | (first | (have := (x : Keeper)) | (have := (x : Collector)) | (have := (x : Mag)) | (have := (x : Rstc)); subst x)
        | clear_value x | skip)
    | with_reducible apply State.cfg_keeps
    | with_reducible apply State.commitWords_keeps
    | split

theorem State.commitFormat_keeps {r : State} {s : State} (hk : Keeps r s) : Keeps r (State.commitFormat s) := by
  unfold State.commitFormat
  repeat' first
    | with_reducible assumption
    | with_reducible apply State.cfg_keeps
    | with_reducible apply State.commitWords_keeps
    | split

theorem State.commitSettings_keeps {r : State} {s : State} (hk : Keeps r s) : Keeps r (State.commitSettings s) := by
  unfold State.commitSettings
  repeat' first
    | with_reducible assumption
    | with_reducible apply State.commitWords_keeps
    | with_reducible apply State.commitRate_keeps
    | with_reducible apply State.commitFormat_keeps

theorem State.commitTarget_keeps {r : State} {s : State} (hk : Keeps r s) : Keeps r (State.commitTarget s) := by
  unfold State.commitTarget
  repeat' first
    | with_reducible assumption
    | (extract_lets +onlyGivenNames x; first
        | (refine Keeps.step (s := x) ?_ ?_; rotate_left; ((try clear_value x); intro hx); rotate_left; subst x)
        | (refine Keeps.step (s := x.2) ?_ ?_; rotate_left; ((try clear_value x); intro hx); rotate_left; subst x)
        | (first | (have := (x : Keeper)) | (have := (x : Collector)) | (have := (x : Mag)) | (have := (x : Rstc)); subst x)
        | clear_value x | skip)
    | with_reducible apply State.commitWords_keeps
    | with_reducible apply State.set_keeps
    | with_reducible apply State.cfg_keeps
    | split

theorem execForceCommit_keeps {r : State} {z0 : Agent} {s : State} (hk : Keeps r s) : OutKeeps r (execForceCommit z0 s) := by
  unfold execForceCommit
  repeat' first
    | (with_reducible apply OutKeeps.next)
    | with_reducible assumption
    | with_reducible apply State.commitSettings_keeps
    | with_reducible apply State.commitTarget_keeps
    | with_reducible apply State.cfg_keeps
    | split
    | (fail_if_no_progress (with_reducible refine Keeps.lit ?_ rfl rfl rfl rfl))

theorem State.strobe_keeps {r : State} {s : State} {a : Agent} {ix : ℕ} {off : ℕ} {v : Word} (hk : Keeps r s) : Keeps r (State.strobe s a ix off v) := by
  unfold State.strobe
  repeat' first
    | with_reducible assumption
    | with_reducible apply State.ceStrobe_keeps
    | with_reducible apply State.icuStrobe_keeps
    | with_reducible apply execFcClrCounts_keeps
    | with_reducible apply execFcFirstClr_keeps
    | with_reducible apply execRestore_keeps
    | with_reducible apply execBasic_keeps
    | with_reducible apply execKprClrCounts_keeps
    | with_reducible apply execOff_keeps
    | with_reducible apply execRetain_keeps
    | with_reducible apply execCanRingKick_keeps
    | with_reducible apply did_keeps
    | with_reducible apply State.set_keeps
    | with_reducible apply execPxpClrCounts_keeps
    | with_reducible apply execReviewGo_keeps
    | with_reducible apply State.ethStrobe_keeps
    | with_reducible apply execCacheFlush_keeps
    | with_reducible apply execCxpClrCounts_keeps
    | with_reducible apply execToDevice_keeps
    | with_reducible apply execToHost_keeps
    | with_reducible apply State.mghStrobe_keeps
    | with_reducible apply State.lmcStrobe_keeps
    | with_reducible apply State.dmaStrobe_keeps
    | with_reducible apply State.bpmStrobe_keeps
    | with_reducible apply execPushEnd_keeps
    | with_reducible apply execPkrClrCounts_keeps
    | with_reducible apply execFalClrCounts_keeps
    | with_reducible apply execPprRetrain_keeps
    | with_reducible apply execPprClrCounts_keeps
    | with_reducible apply execSubstUndo_keeps
    | with_reducible apply execSubstGo_keeps
    | with_reducible apply State.genChange_keeps
    | with_reducible apply execLtcLoad_keeps
    | with_reducible apply execTbUnlock_keeps
    | with_reducible apply execTbLock_keeps
    | with_reducible apply execTbStep_keeps
    | with_reducible apply execTbSet_keeps
    | with_reducible apply execBuClrCounts_keeps
    | with_reducible apply execForceCommit_keeps
    | with_reducible apply State.bitDoes_keeps
    | split

theorem State.tagReg_keeps {r : State} {s : State} {a : Agent} {z2 : RegSpec} {high : Bool} (hk : Keeps r s) : Keeps r (State.tagReg s a z2 high) := by
  unfold State.tagReg
  repeat' first
    | with_reducible assumption
    | (intro x)
    | with_reducible apply State.tagWrite_keeps
    | with_reducible apply State.when_keeps

theorem State.writeFields_keeps {r : State} {s : State} {a : Agent} {ix : ℕ} {off : ℕ} {v : Word} {z5 : RegSpec} {high : Bool} (hk : Keeps r s) : Keeps r (State.writeFields s a ix off v z5 high) := by
  unfold State.writeFields
  repeat' first
    | with_reducible assumption
    | (intro x)
    | with_reducible apply State.strobe_keeps
    | with_reducible apply State.cfg_keeps
    | with_reducible apply State.tagReg_keeps
    | with_reducible apply State.takeFields_keeps
    | with_reducible apply State.when_keeps
    | split

theorem State.writeReg_keeps {r : State} {s : State} {a : Agent} {ix : ℕ} {off : ℕ} {v : Word} (hk : Keeps r s) : Keeps r (State.writeReg s a ix off v) := by
  unfold State.writeReg
  repeat' first
    | with_reducible assumption
    | (intro x)
    | with_reducible apply State.noteMgcWrite_keeps
    | with_reducible apply State.mgcLast_keeps
    | with_reducible apply State.when_keeps
    | with_reducible apply State.writeFields_keeps
    | (with_reducible refine (State.writeWhole_keeps ?_).keeps _ (by assumption))
    | (with_reducible apply State.writeWhole_keeps)
    | with_reducible apply State.reserved_keeps
    | split

theorem State.push_keeps {r : State} {s : State} {q : ℕ} {off : ℕ} {l : List ℕ} (hk : Keeps r s) : Keeps r (State.push s q off l) := by
  unfold State.push
  repeat' first
    | with_reducible assumption
    | with_reducible apply State.cfg_keeps
    | split
    | (fail_if_no_progress (with_reducible refine Keeps.maps ?_))

theorem State.writeWordAt_keeps {r : State} {s : State} {a : Agent} {ix : ℕ} {off : ℕ} {v : Word} (hk : Keeps r s) : Keeps r (State.writeWordAt s a ix off v) := by
  unfold State.writeWordAt
  repeat' first
    | with_reducible assumption
    | with_reducible apply State.cfgAt_keeps
    | with_reducible apply State.writeReg_keeps
    | with_reducible apply State.push_keeps
    | with_reducible apply State.offAccess_keeps
    | with_reducible apply State.gangAccess_keeps
    | with_reducible apply State.noAccess_keeps
    | split

theorem State.writeWord_keeps {r : State} {s : State} {a : Agent} {off : ℕ} {v : Word} (hk : Keeps r s) : Keeps r (State.writeWord s a off v) := by
  unfold State.writeWord
  repeat' first
    | with_reducible assumption
    | with_reducible apply State.writeWordAt_keeps

theorem State.readWord_keeps {r : State} {s : State} {a : Agent} {off : ℕ} (hk : Keeps r s) : Keeps r (State.readWord s a off) := by
  unfold State.readWord
  repeat' first
    | with_reducible assumption
    | with_reducible apply State.readWordAt_keeps

theorem State.oddAccess_keeps {r : State} {s : State} {a : Agent} {off : ℕ} {size : ℕ} {w : Option Word} (hk : Keeps r s) : Keeps r (State.oddAccess s a off size w) := by
  unfold State.oddAccess
  repeat' first
    | with_reducible assumption
    | with_reducible apply State.cfgAt_keeps
    | with_reducible apply State.offAccess_keeps
    | with_reducible apply State.gangAccess_keeps
    | with_reducible apply State.noAccess_keeps
    | with_reducible apply State.writeWord_keeps
    | with_reducible apply State.readWord_keeps
    | split

theorem State.busWrite_keeps {r : State} {s : State} {n : ℕ} {off : ℕ} {l : List ℕ} (hk : Keeps r s) : Keeps r (State.busWrite s n off l).2 := by
  unfold State.busWrite
  repeat' first
    | with_reducible assumption
    | with_reducible apply State.oddAccess_keeps
    | with_reducible apply State.push_keeps
    | with_reducible apply State.writeWordAt_keeps
    | split
    | (fail_if_no_progress (with_reducible refine Keeps.lit ?_ rfl rfl rfl rfl))

theorem State.fixWrite_keeps {r : State} {s : State} {n : ℕ} {a : ℕ} {l : List ℕ} (hk : Keeps r s) : Keeps r (State.fixWrite s n a l).2 := by
  unfold State.fixWrite
  repeat' first
    | with_reducible assumption
    | with_reducible apply State.busWrite_keeps
    | with_reducible apply State.memWrite_keeps
    | split

theorem Copy.move_keeps {r : State} {n : Nat} {c : Copy} {ks : List Nat} {o p : Nat} {l : List Nat} {s : State} (h : Keeps r s) : Keeps r (Copy.move n c ks o p l s).2 := by
  induction ks generalizing o p l s with
  | nil => exact h
  | cons k t ih =>
    unfold Copy.move
    split
    · rename_i e; exact Keeps.snd e (Copy.fill_keeps h)
    · rename_i e1
      have h1 := Keeps.snd e1 (Copy.fill_keeps h)
      split
      · rename_i e2; exact Keeps.snd e2 (Keeps.ite_snd (State.fixWrite_keeps h1) (State.memWrite_keeps h1))
      · rename_i e2; exact ih (Keeps.snd e2 (Keeps.ite_snd (State.fixWrite_keeps h1) (State.memWrite_keeps h1)))

theorem Picture.write_keeps {r : State} {p : Picture} {pitch : ℕ} {a : ℕ} {s : State} (hk : Keeps r s) : Keeps r (Picture.write p pitch a s) := by
  unfold Picture.write
  repeat' first
    | with_reducible assumption
    | (intro x)
    | with_reducible apply State.memWrite_keeps
    | with_reducible apply State.each_keeps

theorem State.countAbort_keeps {r : State} {s : State} {code : ℕ} {ap : ℕ} (hk : Keeps r s) : Keeps r (State.countAbort s code ap) := by
  unfold State.countAbort
  repeat' first
    | with_reducible assumption
    | with_reducible apply State.set_keeps
    | (fail_if_no_progress (with_reducible refine Keeps.lit ?_ rfl rfl rfl rfl))

theorem State.resume_keeps {r : State} {s : State} (hk : Keeps r s) : Keeps r (State.resume s) := by
  unfold State.resume
  repeat' first
    | with_reducible assumption
    | (intro x)
    | with_reducible apply State.openCmd_keeps
    | with_reducible apply State.mghCmd_keeps
    | with_reducible apply State.when_keeps
    | with_reducible apply State.dmaKick_keeps
    | with_reducible apply State.each_keeps
    | with_reducible apply State.set_keeps
    | (fail_if_no_progress (with_reducible refine Keeps.lit ?_ rfl rfl rfl rfl))

theorem State.abortEntry_keeps {r : State} {s : State} {code : ℕ} (hk : Keeps r s) : Keeps r (State.abortEntry s code) := by
  unfold State.abortEntry
  repeat' first
    | with_reducible assumption
    | with_reducible apply State.countAbort_keeps
    | with_reducible apply State.resume_keeps
    | split

theorem State.lockEdge_keeps {r s : State} (h : Keeps r s) : Keeps r s.lockEdge := by
  have ht : ∀ (n l : Nat), Keeps r { s with tb := { s.tb with lockRun := n, lockLast := some l } } := fun n l => Keeps.lit h rfl rfl rfl rfl
  unfold State.lockEdge
  split
  dsimp only
  generalize hx : ({ s with tb := _ } : State) = t
  have ht : Keeps r t := by rw [← hx]; exact ht _ _
  split
  · exact State.when_keeps (fun _ hx => State.lockGained_keeps hx) (State.set_keeps (State.draw_keeps ht))
  · exact ht

theorem State.sendSymbol_keeps {r : State} {s : State} (hk : Keeps r s) : Keeps r (State.sendSymbol s) := by
  unfold State.sendSymbol
  repeat' first
    | with_reducible assumption
    | (intro x)
    | with_reducible apply State.emit_keeps
    | with_reducible apply State.when_keeps
    | split
    | (fail_if_no_progress (with_reducible refine Keeps.lit ?_ rfl rfl rfl rfl))

theorem State.edge_keeps {r : State} {s : State} {k : EdgeKind} {w : ℕ} (hk : Keeps r s) : Keeps r (State.edge s k w) := by
  unfold State.edge
  repeat' first
    | with_reducible assumption
    | with_reducible apply State.sendSymbol_keeps
    | (fail_if_no_progress (with_reducible refine Keeps.lit ?_ rfl rfl rfl rfl))

theorem State.acceptEdge_keeps {r : State} {s : State} {w : ℕ} (hk : Keeps r s) : Keeps r (State.acceptEdge s w) := by
  unfold State.acceptEdge
  repeat' first
    | with_reducible assumption
    | with_reducible apply State.lockEdge_keeps
    | with_reducible apply State.edge_keeps
    | with_reducible apply State.set_keeps
    | (fail_if_no_progress (with_reducible refine Keeps.lit ?_ rfl rfl rfl rfl))

theorem State.proxyEnd_keeps {r : State} {s : State} (hk : Keeps r s) : Keeps r (State.proxyEnd s) := by
  unfold State.proxyEnd
  repeat' first
    | with_reducible assumption
    | with_reducible apply State.set_keeps
    | with_reducible apply State.inc_keeps
    | split
    | (fail_if_no_progress (with_reducible refine Keeps.lit ?_ rfl rfl rfl rfl))

theorem State.lmcReadoutEnd_keeps {r : State} {s : State} (hk : Keeps r s) : Keeps r (State.lmcReadoutEnd s) := by
  unfold State.lmcReadoutEnd
  repeat' first
    | with_reducible assumption
    | (intro x)
    | (extract_lets +onlyGivenNames x; first
        | (refine Keeps.step (s := x) ?_ ?_; rotate_left; ((try clear_value x); intro hx); rotate_left; subst x)
        | (refine Keeps.step (s := x.2) ?_ ?_; rotate_left; ((try clear_value x); intro hx); rotate_left; subst x)
        | (first | (have := (x : Keeper)) | (have := (x : Collector)) | (have := (x : Mag)) | (have := (x : Rstc)); subst x)
        | clear_value x | skip)
    | with_reducible apply State.set_keeps
    | with_reducible apply State.when_keeps
    | with_reducible apply State.startRetrain_keeps
    | split
    | (fail_if_no_progress (with_reducible refine Keeps.lit ?_ rfl rfl rfl rfl))

theorem State.substEnd_keeps {r : State} {s : State} (hk : Keeps r s) : Keeps r (State.substEnd s) := by
  unfold State.substEnd
  repeat' first
    | with_reducible assumption
    | with_reducible apply State.requestSubst_keeps
    | with_reducible apply State.each_keeps
    | (fail_if_no_progress (with_reducible refine Keeps.lit ?_ rfl rfl rfl rfl))

theorem State.finishReadout_keeps {r : State} {s : State} (hk : Keeps r s) : Keeps r (State.finishReadout s) := by
  unfold State.finishReadout
  repeat' first
    | with_reducible assumption
    | (intro x)
    | with_reducible apply State.proxyEnd_keeps
    | with_reducible apply State.lmcReadoutEnd_keeps
    | with_reducible apply State.substEnd_keeps
    | with_reducible apply State.emit_keeps
    | with_reducible apply State.when_keeps
    | with_reducible apply State.modFrame_keeps
    | (fail_if_no_progress (with_reducible refine Keeps.lit ?_ rfl rfl rfl rfl))

theorem State.postTile_keeps {r : State} {s : State} {f : Frame} {j : ℕ} {lines : Option (List (List ℕ))} {patched : Bool} {c : ℕ} (hk : Keeps r s) : Keeps r (State.postTile s f j lines patched c) := by
  unfold State.postTile
  repeat' first
    | with_reducible assumption
    | (extract_lets +onlyGivenNames x; first
        | (refine Keeps.step (s := x) ?_ ?_; rotate_left; ((try clear_value x); intro hx); rotate_left; subst x)
        | (refine Keeps.step (s := x.2) ?_ ?_; rotate_left; ((try clear_value x); intro hx); rotate_left; subst x)
        | (first | (have := (x : Keeper)) | (have := (x : Collector)) | (have := (x : Mag)) | (have := (x : Rstc)); subst x)
        | clear_value x | skip)
    | with_reducible apply State.inc_keeps
    | with_reducible apply State.loseTile_keeps
    | split
    | (fail_if_no_progress (with_reducible refine Keeps.maps ?_))

theorem State.proxyRow_keeps {r : State} {s : State} {l : Option (List (List ℕ))} (hk : Keeps r s) : Keeps r (State.proxyRow s l) := by
  unfold State.proxyRow
  repeat' first
    | with_reducible assumption
    | split
    | (fail_if_no_progress (with_reducible refine Keeps.lit ?_ rfl rfl rfl rfl))

theorem State.resolveRow_keeps {r : State} {s : State} {j : ℕ} (hk : Keeps r s) : Keeps r (State.resolveRow s j) := by
  unfold State.resolveRow
  repeat' first
    | with_reducible assumption
    | (intro x)
    | (extract_lets +onlyGivenNames x; first
        | (refine Keeps.step (s := x) ?_ ?_; rotate_left; ((try clear_value x); intro hx); rotate_left; subst x)
        | (refine Keeps.step (s := x.2) ?_ ?_; rotate_left; ((try clear_value x); intro hx); rotate_left; subst x)
        | (first | (have := (x : Keeper)) | (have := (x : Collector)) | (have := (x : Mag)) | (have := (x : Rstc)); subst x)
        | clear_value x | skip)
    | with_reducible apply State.postTile_keeps
    | with_reducible apply State.modFrame_keeps
    | with_reducible apply State.proxyRow_keeps
    | with_reducible apply State.raise_keeps
    | with_reducible apply State.each_keeps
    | with_reducible apply State.incBy_keeps
    | with_reducible apply State.set_keeps
    | with_reducible apply State.when_keeps
    | split
    | (fail_if_no_progress (with_reducible refine Keeps.lit ?_ rfl rfl rfl rfl))

theorem State.resolveBelow_keeps {r : State} {s : State} {k : ℕ} (hk : Keeps r s) : Keeps r (State.resolveBelow s k) := by
  unfold State.resolveBelow
  repeat' first
    | with_reducible assumption
    | with_reducible apply State.finishReadout_keeps
    | with_reducible apply State.when_keeps
    | with_reducible apply State.resolveRow_keeps
    | with_reducible apply State.each_keeps

theorem State.takeLine_keeps {r : State} {s : State} {p : Packet} (hk : Keeps r s) : Keeps r (State.takeLine s p) := by
  unfold State.takeLine
  repeat' first
    | with_reducible assumption
    | with_reducible apply State.resolveBelow_keeps
    | (fail_if_no_progress (with_reducible refine Keeps.lit ?_ rfl rfl rfl rfl))

theorem State.drainLines_keeps {r : State} {n : Nat} {s : State} (h : Keeps r s) : Keeps r (State.drainLines n s) := by
  induction n generalizing s with
  | zero => exact h
  | succ n ih =>
    unfold State.drainLines
    split
    · exact ih (State.takeLine_keeps (Keeps.lit h rfl rfl rfl rfl))
    · split
      · exact h
      · exact ih (Keeps.lit h rfl rfl rfl rfl)

theorem State.takeCount_keeps {r : State} {s : State} {p : Packet} (hk : Keeps r s) : Keeps r (State.takeCount s p) := by
  unfold State.takeCount
  repeat' first
    | with_reducible assumption
    | (fail_if_no_progress (with_reducible refine Keeps.lit ?_ rfl rfl rfl rfl))

theorem State.lmcFirstLine_keeps {r : State} {s : State} (hk : Keeps r s) : Keeps r (State.lmcFirstLine s) := by
  unfold State.lmcFirstLine
  repeat' first
    | with_reducible assumption
    | split
    | (fail_if_no_progress (with_reducible refine Keeps.lit ?_ rfl rfl rfl rfl))

theorem State.acceptLine_keeps {r : State} {s : State} {link : ℕ} {p : Packet} (hk : Keeps r s) : Keeps r (State.acceptLine s link p) := by
  unfold State.acceptLine
  repeat' first
    | with_reducible assumption
    | (extract_lets +onlyGivenNames x; first
        | (refine Keeps.step (s := x) ?_ ?_; rotate_left; ((try clear_value x); intro hx); rotate_left; subst x)
        | (refine Keeps.step (s := x.2) ?_ ?_; rotate_left; ((try clear_value x); intro hx); rotate_left; subst x)
        | (first | (have := (x : Keeper)) | (have := (x : Collector)) | (have := (x : Mag)) | (have := (x : Rstc)); subst x)
        | clear_value x | skip)
    | with_reducible apply State.drainLines_keeps
    | with_reducible apply State.takeLine_keeps
    | with_reducible apply State.takeCount_keeps
    | with_reducible apply State.lmcFirstLine_keeps
    | with_reducible apply State.when_keeps
    | with_reducible apply State.inc_keeps
    | split
    | (fail_if_no_progress (with_reducible refine Keeps.lit ?_ rfl rfl rfl rfl))

theorem State.acceptMeta_keeps {r : State} {s : State} {p : Packet} (hk : Keeps r s) : Keeps r (State.acceptMeta s p) := by
  unfold State.acceptMeta
  repeat' first
    | with_reducible assumption
    | (extract_lets +onlyGivenNames x; first
        | (refine Keeps.step (s := x) ?_ ?_; rotate_left; ((try clear_value x); intro hx); rotate_left; subst x)
        | (refine Keeps.step (s := x.2) ?_ ?_; rotate_left; ((try clear_value x); intro hx); rotate_left; subst x)
        | (first | (have := (x : Keeper)) | (have := (x : Collector)) | (have := (x : Mag)) | (have := (x : Rstc)); subst x)
        | clear_value x | skip)
    | with_reducible apply State.enqueue_keeps
    | with_reducible apply State.takeCount_keeps
    | with_reducible apply State.inc_keeps
    | split
    | (fail_if_no_progress (with_reducible refine Keeps.lit ?_ rfl rfl rfl rfl))

theorem State.acceptPacket_keeps {r : State} {s : State} {link : ℕ} {p : Packet} (hk : Keeps r s) : Keeps r (State.acceptPacket s link p) := by
  unfold State.acceptPacket
  repeat' first
    | with_reducible assumption
    | with_reducible apply State.inc_keeps
    | with_reducible apply State.acceptMeta_keeps
    | with_reducible apply State.acceptLine_keeps
    | split

theorem State.markUnsaved_keeps {r : State} {s : State} (hk : Keeps r s) : Keeps r (State.markUnsaved s) := by
  unfold State.markUnsaved
  repeat' first
    | with_reducible assumption
    | (fail_if_no_progress (with_reducible refine Keeps.lit ?_ rfl rfl rfl rfl))

theorem State.putDict_keeps {r : State} {s : State} {key : ℕ} {v : List ℕ} (hk : Keeps r s) : Keeps r (State.putDict s key v) := by
  unfold State.putDict
  repeat' first
    | with_reducible assumption
    | (fail_if_no_progress (with_reducible refine Keeps.lit ?_ rfl rfl rfl rfl))

theorem State.mgcSet_keeps {r : State} {s : State} {f : Fld} {v : ℕ} (hk : Keeps r s) : Keeps r (State.mgcSet s f v) := by
  unfold State.mgcSet
  repeat' first
    | with_reducible assumption
    | with_reducible apply State.set_keeps
    | with_reducible apply State.tagWrite_keeps

theorem State.openFloor_keeps {r : State} {s : State} (hk : Keeps r s) : Keeps r (State.openFloor s) := by
  unfold State.openFloor
  repeat' first
    | with_reducible assumption
    | with_reducible apply State.mgcSet_keeps
    | split

theorem State.openTarget_keeps {r : State} {s : State} (hk : Keeps r s) : Keeps r (State.openTarget s) := by
  unfold State.openTarget
  repeat' first
    | with_reducible assumption
    | with_reducible apply State.mgcSet_keeps
    | split

theorem State.followCanEn_keeps {r : State} {s : State} (hk : Keeps r s) : Keeps r (State.followCanEn s) := by
  unfold State.followCanEn
  repeat' first
    | with_reducible assumption
    | (intro x)
    | with_reducible apply State.canEnable_keeps
    | with_reducible apply State.set_keeps
    | with_reducible apply State.each_keeps
    | split

theorem State.settingEffect_keeps {r : State} {s : State} {key : ℕ} (hk : Keeps r s) : Keeps r (State.settingEffect s key) := by
  unfold State.settingEffect
  repeat' first
    | with_reducible assumption
    | with_reducible apply State.openFloor_keeps
    | with_reducible apply State.openTarget_keeps
    | with_reducible apply State.followCanEn_keeps
    | with_reducible apply State.set_keeps
    | split

theorem State.applySetting_keeps {r : State} {s : State} {e : DictEntry} {v : List ℕ} (hk : Keeps r s) : Keeps r (State.applySetting s e v) := by
  unfold State.applySetting
  repeat' first
    | with_reducible assumption
    | with_reducible apply State.markUnsaved_keeps
    | with_reducible apply State.when_keeps
    | with_reducible apply State.putDict_keeps
    | with_reducible apply State.settingEffect_keeps

theorem State.placeUc_keeps {r : State} {s : State} (hk : Keeps r s) : Keeps r (State.placeUc s) := by
  unfold State.placeUc
  repeat' first
    | with_reducible assumption
    | (intro x)
    | with_reducible apply State.set_keeps
    | with_reducible apply State.each_keeps
    | with_reducible apply State.dramWrite_keeps
    | with_reducible apply State.draw_keeps

theorem State.logUpdate_keeps {r : State} {s : State} {what : ℕ} {slot : ℕ} (hk : Keeps r s) : Keeps r (State.logUpdate s what slot) := by
  unfold State.logUpdate
  repeat' first
    | with_reducible assumption
    | with_reducible apply State.logbook_keeps

theorem State.selectUc_keeps {r : State} {s : State} (hk : Keeps r s) : Keeps r (State.selectUc s).2 := by
  unfold State.selectUc
  repeat' first
    | with_reducible assumption
    | with_reducible apply State.placeUc_keeps
    | with_reducible apply State.when_keeps
    | with_reducible apply State.logUpdate_keeps
    | split
    | (fail_if_no_progress (with_reducible refine Keeps.lit ?_ rfl rfl rfl rfl))

theorem State.fuse_keeps {r : State} {s : State} {i : ℕ} {v : ℕ} (hk : Keeps r s) : Keeps r (State.fuse s i v) := by
  unfold State.fuse
  repeat' first
    | with_reducible assumption
    | (fail_if_no_progress (with_reducible refine Keeps.lit ?_ rfl rfl rfl rfl))

theorem State.commitEpoch_keeps {r : State} {s : State} {which : ℕ} (hk : Keeps r s) : Keeps r (State.commitEpoch s which).2 := by
  unfold State.commitEpoch
  repeat' first
    | with_reducible assumption
    | with_reducible apply State.logbook_keeps
    | with_reducible apply State.fuse_keeps
    | split

theorem State.writeBoot_keeps {r : State} {s : State} {active : ℕ} {trial : ℕ} (hk : Keeps r s) : Keeps r (State.writeBoot s active trial) := by
  unfold State.writeBoot
  repeat' first
    | with_reducible assumption
    | (with_reducible refine Keeps.snd (by assumption) ?_)
    | with_reducible apply State.draw_keeps
    | split
    | (fail_if_no_progress (with_reducible refine Keeps.lit ?_ rfl rfl rfl rfl))

theorem State.confirm_keeps {r : State} {s : State} (hk : Keeps r s) : Keeps r (State.confirm s).2 := by
  unfold State.confirm
  repeat' first
    | with_reducible assumption
    | with_reducible apply State.writeBoot_keeps
    | split
    | (fail_if_no_progress (with_reducible refine Keeps.lit ?_ rfl rfl rfl rfl))

theorem State.activate_keeps {r : State} {s : State} (hk : Keeps r s) : Keeps r (State.activate s).2 := by
  unfold State.activate
  repeat' first
    | with_reducible assumption
    | with_reducible apply State.writeBoot_keeps
    | with_reducible apply State.logUpdate_keeps
    | split
    | (fail_if_no_progress (with_reducible refine Keeps.lit ?_ rfl rfl rfl rfl))

theorem State.stopJob_keeps {r : State} {s : State} (hk : Keeps r s) : Keeps r (State.stopJob s).2 := by
  unfold State.stopJob
  repeat' first
    | with_reducible assumption
    | with_reducible apply State.endJob_keeps

theorem State.startJob_keeps {r : State} {s : State} (hk : Keeps r s) : Keeps r (State.startJob s).2 := by
  unfold State.startJob
  repeat' first
    | with_reducible assumption
    | with_reducible apply State.putDict_keeps
    | split
    | (fail_if_no_progress (with_reducible refine Keeps.lit ?_ rfl rfl rfl rfl))

theorem State.formatSettings_keeps {r : State} {s : State} (hk : Keeps r s) : Keeps r (State.formatSettings s) := by
  unfold State.formatSettings
  repeat' first
    | with_reducible assumption
    | with_reducible apply State.settingEffect_keeps
    | with_reducible apply State.each_keeps

theorem State.storageCmd_keeps {r s : State} {last : Nat} {f : State → Nat × State} (hf : ∀ x, Keeps r x → Keeps r (f x).2) (h : Keeps r s) : Keeps r (s.storageCmd last f).2 :=
  Keeps.lit (State.mghCmd_keeps hf h) rfl rfl rfl rfl

theorem State.closeStopped_keeps {r : State} {s : State} (hk : Keeps r s) : Keeps r (State.closeStopped s) := by
  unfold State.closeStopped
  repeat' first
    | with_reducible assumption
    | (intro x)
    | with_reducible apply State.closeCmd_keeps
    | with_reducible apply State.mghCmd_keeps
    | split

theorem State.stopClip_keeps {r : State} {s : State} (hk : Keeps r s) : Keeps r (State.stopClip s).2 := by
  unfold State.stopClip
  repeat' first
    | with_reducible assumption
    | (extract_lets +onlyGivenNames x; first
        | (refine Keeps.step (s := x) ?_ ?_; rotate_left; ((try clear_value x); intro hx); rotate_left; subst x)
        | (refine Keeps.step (s := x.2) ?_ ?_; rotate_left; ((try clear_value x); intro hx); rotate_left; subst x)
        | (first | (have := (x : Keeper)) | (have := (x : Collector)) | (have := (x : Mag)) | (have := (x : Rstc)); subst x)
        | clear_value x | skip)
    | with_reducible apply State.closeStopped_keeps
    | split
    | (fail_if_no_progress (with_reducible refine Keeps.lit ?_ rfl rfl rfl rfl))

theorem State.startClip_keeps {r : State} {s : State} {h : Hpp} (hk : Keeps r s) : Keeps r (State.startClip s h).2 := by
  unfold State.startClip
  repeat' first
    | with_reducible assumption
    | split
    | (fail_if_no_progress (with_reducible refine Keeps.lit ?_ rfl rfl rfl rfl))

theorem State.setDefaults_keeps {r : State} {s : State} (hk : Keeps r s) : Keeps r (State.setDefaults s) := by
  unfold State.setDefaults
  repeat' first
    | with_reducible assumption
    | (intro x)
    | with_reducible apply State.applySetting_keeps
    | with_reducible apply State.each_keeps
    | with_reducible apply State.markUnsaved_keeps

theorem State.requestStore_keeps {r : State} {s : State} (hk : Keeps r s) : Keeps r (State.requestStore s) := by
  unfold State.requestStore
  repeat' first
    | with_reducible assumption
    | (fail_if_no_progress (with_reducible refine Keeps.lit ?_ rfl rfl rfl rfl))

theorem State.command_keeps {r : State} {s : State} {h : Hpp} {key : ℕ} {arg : ℕ} (hk : Keeps r s) : Keeps r (State.command s h key arg).2 := by
  unfold State.command
  dsimp only
  repeat' first
    | with_reducible assumption
    | (intro x)
    | with_reducible apply State.selectUc_keeps
    | with_reducible apply State.commitEpoch_keeps
    | with_reducible apply State.confirm_keeps
    | with_reducible apply State.activate_keeps
    | with_reducible apply State.stopJob_keeps
    | with_reducible apply State.startJob_keeps
    | with_reducible apply State.rebuildCmd_keeps
    | with_reducible apply State.deleteCmd_keeps
    | with_reducible apply State.formatCmd_keeps
    | with_reducible apply State.formatSettings_keeps
    | with_reducible apply State.unmoorCmd_keeps
    | with_reducible apply State.moorCmd_keeps
    | with_reducible apply State.storageCmd_keeps
    | with_reducible apply State.stopClip_keeps
    | with_reducible apply State.startClip_keeps
    | with_reducible apply State.setDefaults_keeps
    | with_reducible apply State.requestStore_keeps
    | split

theorem State.warmByCommand_keeps {r : State} {s : State} {force : Bool} (hk : Keeps r s) : Keeps r (State.warmByCommand s force).2 := by
  unfold State.warmByCommand
  repeat' first
    | with_reducible assumption
    | with_reducible apply State.stopClip_keeps
    | split
    | (fail_if_no_progress (with_reducible refine Keeps.lit ?_ rfl rfl rfl rfl))

theorem State.deviceReset_keeps {r : State} {s : State} {arg : ℕ} (hk : Keeps r s) : Keeps r (State.deviceReset s arg).2 := by
  unfold State.deviceReset
  repeat' first
    | with_reducible assumption
    | with_reducible apply State.requestReset_keeps
    | with_reducible apply State.requestDie_keeps
    | with_reducible apply State.warmByCommand_keeps
    | split

theorem State.takeUc_keeps {r : State} {s : State} {l : List ℕ} (hk : Keeps r s) : Keeps r (State.takeUc s l) := by
  unfold State.takeUc
  repeat' first
    | with_reducible assumption
    | with_reducible apply State.logUpdate_keeps
    | (fail_if_no_progress (with_reducible refine Keeps.lit ?_ rfl rfl rfl rfl))

theorem State.takeFw_keeps {r : State} {s : State} {l : List ℕ} (hk : Keeps r s) : Keeps r (State.takeFw s l) := by
  unfold State.takeFw
  repeat' first
    | with_reducible assumption
    | with_reducible apply State.logUpdate_keeps
    | (fail_if_no_progress (with_reducible refine Keeps.lit ?_ rfl rfl rfl rfl))

theorem State.runImage_keeps {r : State} {s : State} {slot : ℕ} {l : List ℕ} (hk : Keeps r s) : Keeps r (State.runImage s slot l) := by
  unfold State.runImage
  repeat' first
    | with_reducible assumption
    | (fail_if_no_progress (with_reducible refine Keeps.lit ?_ rfl rfl rfl rfl))

theorem State.bootImage_keeps {r : State} {s : State} {l : List ℕ} (hk : Keeps r s) : Keeps r (State.bootImage s l) := by
  unfold State.bootImage
  repeat' first
    | with_reducible assumption
    | with_reducible apply State.runImage_keeps
    | split
    | (fail_if_no_progress (with_reducible refine Keeps.lit ?_ rfl rfl rfl rfl))

theorem State.takeImage_keeps {r : State} {s : State} {key : ℕ} {l : List ℕ} (hk : Keeps r s) : Keeps r (State.takeImage s key l).2 := by
  unfold State.takeImage
  repeat' first
    | with_reducible assumption
    | with_reducible apply State.takeUc_keeps
    | with_reducible apply State.takeFw_keeps
    | with_reducible apply State.bootImage_keeps
    | split
    | (fail_if_no_progress (with_reducible refine Keeps.lit ?_ rfl rfl rfl rfl))

theorem State.act_keeps {r : State} {s : State} {h : Hpp} {e : DictEntry} {v : List ℕ} (hk : Keeps r s) : Keeps r (State.act s h e v).2 := by
  unfold State.act
  repeat' first
    | with_reducible assumption
    | with_reducible apply State.applySetting_keeps
    | with_reducible apply State.command_keeps
    | with_reducible apply State.deviceReset_keeps
    | with_reducible apply State.takeImage_keeps
    | split

theorem State.activationDue_keeps {r : State} {s : State} (hk : Keeps r s) : Keeps r (State.activationDue s) := by
  unfold State.activationDue
  repeat' first
    | with_reducible assumption
    | split
    | (fail_if_no_progress (with_reducible refine Keeps.lit ?_ rfl rfl rfl rfl))

theorem State.mailboxDone_keeps {r : State} {s : State} {z1 : Resp} (hk : Keeps r s) : Keeps r (State.mailboxDone s z1) := by
  unfold State.mailboxDone
  repeat' first
    | with_reducible assumption
    | with_reducible apply State.answer_keeps
    | with_reducible apply State.icuPulse_keeps

theorem State.sendReply_keeps {r : State} {s : State} {h : Hpp} {m : List ℕ} (hk : Keeps r s) : Keeps r (State.sendReply s h m) := by
  unfold State.sendReply
  repeat' first
    | with_reducible assumption
    | (intro x)
    | with_reducible apply State.sendCan_keeps
    | with_reducible apply State.emit_keeps
    | with_reducible apply State.mailboxDone_keeps
    | with_reducible apply State.when_keeps
    | split

theorem State.reply_keeps {r : State} {s : State} {h : Hpp} {op : ℕ} {payload : List ℕ} (hk : Keeps r s) : Keeps r (State.reply s h op payload) := by
  unfold State.reply
  repeat' first
    | with_reducible assumption
    | with_reducible apply State.sendReply_keeps
    | with_reducible apply State.mailboxDone_keeps
    | split
    | (fail_if_no_progress (with_reducible refine Keeps.lit ?_ rfl rfl rfl rfl))

theorem State.writeImage_keeps {r : State} {s : State} {key : ℕ} {l : List ℕ} (hk : Keeps r s) : Keeps r (State.writeImage s key l) := by
  unfold State.writeImage
  repeat' first
    | with_reducible assumption
    | split
    | (fail_if_no_progress (with_reducible refine Keeps.lit ?_ rfl rfl rfl rfl))

theorem State.effect_keeps {r : State} {s : State} {h : Hpp} {e : DictEntry} {v : List ℕ} (hk : Keeps r s) : Keeps r (State.effect s h e v).2 := by
  unfold State.effect
  repeat' first
    | with_reducible assumption
    | (intro x)
    | with_reducible apply State.when_keeps
    | with_reducible apply State.act_keeps
    | (fail_if_no_progress (with_reducible refine Keeps.lit ?_ rfl rfl rfl rfl))

theorem State.loseImage_keeps {r : State} {s : State} {key : ℕ} {st : ℕ} (hk : Keeps r s) : Keeps r (State.loseImage s key st) := by
  unfold State.loseImage
  repeat' first
    | with_reducible assumption
    | split
    | (fail_if_no_progress (with_reducible refine Keeps.lit ?_ rfl rfl rfl rfl))

theorem State.dropSequence_keeps {r : State} {s : State} {c : Carrier} {peer : ℕ} {key : ℕ} (hk : Keeps r s) : Keeps r (State.dropSequence s c peer key) := by
  unfold State.dropSequence
  repeat' first
    | with_reducible assumption
    | (fail_if_no_progress (with_reducible refine Keeps.lit ?_ rfl rfl rfl rfl))

theorem State.discardSequence_keeps {r : State} {s : State} {c : Carrier} {peer : ℕ} {key : ℕ} (hk : Keeps r s) : Keeps r (State.discardSequence s c peer key) := by
  unfold State.discardSequence
  repeat' first
    | with_reducible assumption
    | (intro x)
    | with_reducible apply State.loseImage_keeps
    | with_reducible apply State.when_keeps
    | with_reducible apply State.dropSequence_keeps
    | split

theorem State.takeBlock_keeps {r : State} {s : State} {h : Hpp} {e : DictEntry} {typ : ℕ} {offset : ℕ} {total : ℕ} {data : List ℕ} (hk : Keeps r s) : Keeps r (State.takeBlock s h e typ offset total data).2 := by
  unfold State.takeBlock
  repeat' first
    | with_reducible assumption
    | (intro x)
    | (extract_lets +onlyGivenNames x; first
        | (refine Keeps.step (s := x) ?_ ?_; rotate_left; ((try clear_value x); intro hx); rotate_left; subst x)
        | (refine Keeps.step (s := x.2) ?_ ?_; rotate_left; ((try clear_value x); intro hx); rotate_left; subst x)
        | (first | (have := (x : Keeper)) | (have := (x : Collector)) | (have := (x : Mag)) | (have := (x : Rstc)); subst x)
        | clear_value x | skip)
    | with_reducible apply State.writeImage_keeps
    | with_reducible apply State.effect_keeps
    | with_reducible apply State.loseImage_keeps
    | with_reducible apply State.when_keeps
    | with_reducible apply State.dropSequence_keeps
    | with_reducible apply State.discardSequence_keeps
    | split
    | (fail_if_no_progress (with_reducible refine Keeps.lit ?_ rfl rfl rfl rfl))

theorem State.doWriteBlock_keeps {r : State} {s : State} {h : Hpp} {index : ℕ} {sub : ℕ} {typ : ℕ} {offset : ℕ} {total : ℕ} {data : List ℕ} (hk : Keeps r s) : Keeps r (State.doWriteBlock s h index sub typ offset total data).2 := by
  unfold State.doWriteBlock
  repeat' first
    | with_reducible assumption
    | with_reducible apply State.takeBlock_keeps
    | split

theorem State.doWrite_keeps {r : State} {s : State} {h : Hpp} {index : ℕ} {sub : ℕ} {typ : ℕ} {v : List ℕ} (hk : Keeps r s) : Keeps r (State.doWrite s h index sub typ v).2 := by
  unfold State.doWrite
  repeat' first
    | with_reducible assumption
    | with_reducible apply State.effect_keeps
    | split

theorem State.readIdentity_keeps {r : State} {s : State} {sub : ℕ} (hk : Keeps r s) : Keeps r (State.readIdentity s sub).2 := by
  unfold State.readIdentity
  repeat' first
    | with_reducible assumption
    | with_reducible apply State.draw_keeps
    | split

theorem State.cmdStatus_keeps {r : State} {s : State} {key : ℕ} (hk : Keeps r s) : Keeps r (State.cmdStatus s key).2 := by
  unfold State.cmdStatus
  repeat' first
    | with_reducible assumption
    | (with_reducible refine Keeps.snd (by assumption) ?_)
    | with_reducible apply State.draw_keeps
    | split
    | (fail_if_no_progress (with_reducible refine Keeps.lit ?_ rfl rfl rfl rfl))

theorem State.readEntry_keeps {r : State} {s : State} {e : DictEntry} (hk : Keeps r s) : Keeps r (State.readEntry s e).2 := by
  unfold State.readEntry
  dsimp only
  repeat' first
    | with_reducible assumption
    | with_reducible apply State.readIdentity_keeps
    | with_reducible apply State.cmdStatus_keeps
    | (with_reducible apply Keeps.ite_snd)

theorem State.doReadBlock_keeps {r : State} {s : State} {index : ℕ} {sub : ℕ} {offset : ℕ} {count : ℕ} (hk : Keeps r s) : Keeps r (State.doReadBlock s index sub offset count).2 := by
  unfold State.doReadBlock
  repeat' first
    | with_reducible assumption
    | (with_reducible refine Keeps.snd (by assumption) ?_)
    | with_reducible apply State.readEntry_keeps
    | with_reducible apply State.draw_keeps
    | split

theorem State.doRead_keeps {r : State} {s : State} {index : ℕ} {sub : ℕ} (hk : Keeps r s) : Keeps r (State.doRead s index sub).2 := by
  unfold State.doRead
  repeat' first
    | with_reducible assumption
    | (with_reducible refine Keeps.snd (by assumption) ?_)
    | with_reducible apply State.readEntry_keeps
    | with_reducible apply State.draw_keeps
    | split

theorem State.execute_keeps {r : State} {s : State} {h : Hpp} {op : HppOp} (hk : Keeps r s) : Keeps r (State.execute s h op).2 := by
  unfold State.execute
  repeat' first
    | with_reducible assumption
    | with_reducible apply State.draw_keeps
    | with_reducible apply State.doWriteBlock_keeps
    | with_reducible apply State.doWrite_keeps
    | with_reducible apply State.doReadBlock_keeps
    | with_reducible apply State.doRead_keeps
    | split

theorem State.serve_keeps {r : State} {s : State} {h : Hpp} {op : HppOp} (hk : Keeps r s) : Keeps r (State.serve s h op) := by
  unfold State.serve
  repeat' first
    | with_reducible assumption
    | (extract_lets +onlyGivenNames x; first
        | (refine Keeps.step (s := x) ?_ ?_; rotate_left; ((try clear_value x); intro hx); rotate_left; subst x)
        | (refine Keeps.step (s := x.2) ?_ ?_; rotate_left; ((try clear_value x); intro hx); rotate_left; subst x)
        | (first | (have := (x : Keeper)) | (have := (x : Collector)) | (have := (x : Mag)) | (have := (x : Rstc)); subst x)
        | clear_value x | skip)
    | (with_reducible refine Keeps.snd (by assumption) ?_)
    | with_reducible apply State.reply_keeps
    | with_reducible apply State.execute_keeps
    | split
    | (fail_if_no_progress (with_reducible refine Keeps.lit ?_ rfl rfl rfl rfl))

theorem State.admitRequest_keeps {r : State} {s : State} {h : Hpp} {op : HppOp} (hk : Keeps r s) : Keeps r (State.admitRequest s h op) := by
  unfold State.admitRequest
  repeat' first
    | with_reducible assumption
    | with_reducible apply State.serve_keeps
    | with_reducible apply State.sendReply_keeps
    | split

theorem State.advanceDtc_keeps {r : State} {s : State} {n : ℕ} (hk : Keeps r s) : Keeps r (State.advanceDtc s n) := by
  unfold State.advanceDtc
  repeat' first
    | with_reducible assumption
    | with_reducible apply State.ptpRestart_keeps
    | with_reducible apply State.genNext_keeps
    | with_reducible apply State.set_keeps
    | (fail_if_no_progress (with_reducible refine Keeps.lit ?_ rfl rfl rfl rfl))

theorem State.joinCan0_keeps {r : State} {s : State} (hk : Keeps r s) : Keeps r (State.joinCan0 s) := by
  unfold State.joinCan0
  repeat' first
    | with_reducible assumption
    | with_reducible apply State.set_keeps
    | with_reducible apply State.canEnable_keeps

theorem State.afterChoice_keeps {r : State} {s : State} (hk : Keeps r s) : Keeps r (State.afterChoice s) := by
  unfold State.afterChoice
  repeat' first
    | with_reducible assumption
    | with_reducible apply State.joinCan0_keeps
    | split
    | (fail_if_no_progress (with_reducible refine Keeps.lit ?_ rfl rfl rfl rfl))

theorem State.answerRoll_keeps {r : State} {s : State} {c : ℕ} (hk : Keeps r s) : Keeps r (State.answerRoll s c) := by
  unfold State.answerRoll
  repeat' first
    | with_reducible assumption
    | with_reducible apply State.sendCan_keeps
    | with_reducible apply State.draw_keeps

theorem State.wake_keeps {r : State} {s : State} (hk : Keeps r s) : Keeps r (State.wake s) := by
  unfold State.wake
  repeat' first
    | with_reducible assumption
    | (intro x)
    | with_reducible apply State.startBeacon_keeps
    | with_reducible apply State.when_keeps
    | with_reducible apply State.resume_keeps
    | with_reducible apply State.askSlot_keeps
    | with_reducible apply State.startRetrain_keeps
    | with_reducible apply State.selfRefresh_keeps
    | with_reducible apply State.clear_keeps
    | with_reducible apply State.each_keeps
    | split
    | (fail_if_no_progress (with_reducible refine Keeps.lit ?_ rfl rfl rfl rfl))

theorem State.wakeEvent_keeps {r : State} {s : State} {b : ℕ} (hk : Keeps r s) : Keeps r (State.wakeEvent s b) := by
  unfold State.wakeEvent
  repeat' first
    | with_reducible assumption
    | with_reducible apply State.wake_keeps
    | with_reducible apply State.countAbort_keeps
    | with_reducible apply State.setBit_keeps
    | split
    | (fail_if_no_progress (with_reducible refine Keeps.lit ?_ rfl rfl rfl rfl))

theorem State.latchDtc_keeps {r : State} {s : State} (hk : Keeps r s) : Keeps r (State.latchDtc s) := by
  unfold State.latchDtc
  repeat' first
    | with_reducible assumption
    | (extract_lets +onlyGivenNames x; first
        | (refine Keeps.step (s := x) ?_ ?_; rotate_left; ((try clear_value x); intro hx); rotate_left; subst x)
        | (refine Keeps.step (s := x.2) ?_ ?_; rotate_left; ((try clear_value x); intro hx); rotate_left; subst x)
        | (first | (have := (x : Keeper)) | (have := (x : Collector)) | (have := (x : Mag)) | (have := (x : Rstc)); subst x)
        | clear_value x | skip)
    | with_reducible apply State.emit_keeps
    | split
    | (fail_if_no_progress (with_reducible refine Keeps.lit ?_ rfl rfl rfl rfl))

theorem State.aonEdge_keeps {r : State} {s : State} (hk : Keeps r s) : Keeps r (State.aonEdge s) := by
  unfold State.aonEdge
  repeat' first
    | with_reducible assumption
    | (extract_lets +onlyGivenNames x; first
        | (refine Keeps.step (s := x) ?_ ?_; rotate_left; ((try clear_value x); intro hx); rotate_left; subst x)
        | (refine Keeps.step (s := x.2) ?_ ?_; rotate_left; ((try clear_value x); intro hx); rotate_left; subst x)
        | (first | (have := (x : Keeper)) | (have := (x : Collector)) | (have := (x : Mag)) | (have := (x : Rstc)); subst x)
        | clear_value x | skip)
    | with_reducible apply State.advanceDtc_keeps
    | with_reducible apply State.latchDtc_keeps
    | with_reducible apply State.when_keeps
    | split

theorem State.aonClock_keeps {r : State} {s : State} (hk : Keeps r s) : Keeps r (State.aonClock s) := by
  unfold State.aonClock
  repeat' first
    | with_reducible assumption
    | (intro x)
    | with_reducible apply State.wakeEvent_keeps
    | with_reducible apply State.aonEdge_keeps
    | with_reducible apply State.when_keeps
    | with_reducible apply State.incWrap_keeps
    | split
    | (fail_if_no_progress (with_reducible refine Keeps.lit ?_ rfl rfl rfl rfl))

theorem State.applyConfig_keeps {r : State} {s : State} (hk : Keeps r s) : Keeps r (State.applyConfig s) := by
  unfold State.applyConfig
  repeat' first
    | with_reducible assumption
    | with_reducible apply State.set_keeps
    | with_reducible apply State.followCanEn_keeps
    | with_reducible apply State.settingEffect_keeps
    | with_reducible apply State.each_keeps

theorem State.storedFault_keeps {r : State} {s : State} (hk : Keeps r s) : Keeps r (State.storedFault s) := by
  unfold State.storedFault
  repeat' first
    | with_reducible assumption
    | with_reducible apply State.raise_keeps
    | with_reducible apply State.draw_keeps

theorem State.applyRecord_keeps {r : State} {s : State} {c : ConfigSlot} {e : DictEntry} (hk : Keeps r s) : Keeps r (State.applyRecord s c e) := by
  unfold State.applyRecord
  repeat' first
    | with_reducible assumption
    | with_reducible apply State.storedFault_keeps
    | with_reducible apply State.putDict_keeps
    | split

theorem State.hear_keeps {r : State} {s : State} {c : ℕ} {src : ℕ} (hk : Keeps r s) : Keeps r (State.hear s c src) := by
  unfold State.hear
  repeat' first
    | with_reducible assumption
    | with_reducible apply State.light_keeps
    | split

theorem State.hearUdp_keeps {r : State} {s : State} {peer : ℕ} (hk : Keeps r s) : Keeps r (State.hearUdp s peer) := by
  unfold State.hearUdp
  repeat' first
    | with_reducible assumption
    | with_reducible apply State.light_keeps

theorem State.loaderServe_keeps {r : State} {s : State} {h : Hpp} {op : HppOp} (hk : Keeps r s) : Keeps r (State.loaderServe s h op) := by
  unfold State.loaderServe
  dsimp only
  repeat' first
    | with_reducible assumption
    | with_reducible apply State.serve_keeps
    | with_reducible apply State.sendReply_keeps
    | split

theorem State.takeRequest_keeps {r : State} {s : State} {h : Hpp} {op : HppOp} (hk : Keeps r s) : Keeps r (State.takeRequest s h op) := by
  unfold State.takeRequest
  repeat' first
    | with_reducible assumption
    | with_reducible apply State.loaderServe_keeps
    | with_reducible apply State.mailboxDone_keeps
    | with_reducible apply State.admitRequest_keeps
    | split
    | (fail_if_no_progress (with_reducible refine Keeps.lit ?_ rfl rfl rfl rfl))

theorem State.arrive_keeps {r : State} {s : State} {h : Hpp} {op : HppOp} (hk : Keeps r s) : Keeps r (State.arrive s h op) := by
  unfold State.arrive
  repeat' first
    | with_reducible assumption
    | (intro x)
    | with_reducible apply State.hear_keeps
    | with_reducible apply State.inc_keeps
    | with_reducible apply State.hearUdp_keeps
    | with_reducible apply State.emit_keeps
    | with_reducible apply State.takeRequest_keeps
    | with_reducible apply State.mailboxDone_keeps
    | with_reducible apply State.when_keeps
    | split

theorem State.askFor_keeps {r : State} {s : State} {g : Grant} (hk : Keeps r s) : Keeps r (State.askFor s g) := by
  unfold State.askFor
  repeat' first
    | with_reducible assumption
    | (intro x)
    | with_reducible apply State.when_keeps
    | with_reducible apply State.askSlot_keeps
    | with_reducible apply State.modEng_keeps
    | with_reducible apply State.each_keeps

theorem State.assign_keeps {r : State} {s : State} {c : ℕ} {uid : ℕ} (hk : Keeps r s) : Keeps r (State.assign s c uid) := by
  unfold State.assign
  repeat' first
    | with_reducible assumption
    | with_reducible apply State.raise_keeps
    | with_reducible apply State.broadcast_keeps
    | split

theorem State.dmaHalt_keeps {r : State} {s : State} {n : ℕ} {status : ℕ} (hk : Keeps r s) : Keeps r (State.dmaHalt s n status) := by
  unfold State.dmaHalt
  repeat' first
    | with_reducible assumption
    | with_reducible apply State.writeBackDesc_keeps
    | with_reducible apply State.haltAt_keeps
    | with_reducible apply State.raise_keeps
    | split

theorem State.atOp_keeps {r s : State} {n op : Nat} {f : DmaJob → List Nat → State → State} (hf : ∀ j l x, Keeps r x → Keeps r (f j l x)) (h : Keeps r s) : Keeps r (s.atOp n op f) := by
  unfold State.atOp
  repeat' first
    | with_reducible assumption
    | (with_reducible refine Keeps.snd (by assumption) ?_)
    | with_reducible apply State.dmaHalt_keeps
    | with_reducible apply State.memRead_keeps
    | with_reducible apply hf
    | (extract_lets +onlyGivenNames x; clear_value x)
    | split

theorem State.dropMember_keeps {r : State} {s : State} {b : ℕ} (hk : Keeps r s) : Keeps r (State.dropMember s b) := by
  unfold State.dropMember
  repeat' first
    | with_reducible assumption
    | (with_reducible refine State.modMag_keeps (fun _ => id) ?_)

theorem State.rebuildLost_keeps {r : State} {s : State} {b : ℕ} (hk : Keeps r s) : Keeps r (State.rebuildLost s b) := by
  unfold State.rebuildLost
  repeat' first
    | with_reducible assumption
    | (intro x)
    | (with_reducible refine State.modMag_keeps (fun _ => id) ?_)
    | with_reducible apply State.set_keeps
    | with_reducible apply State.when_keeps

theorem State.loseMember_keeps {r : State} {s : State} {b : ℕ} (hk : Keeps r s) : Keeps r (State.loseMember s b) := by
  unfold State.loseMember
  repeat' first
    | with_reducible assumption
    | (extract_lets +onlyGivenNames x; first
        | (refine Keeps.step (s := x) ?_ ?_; rotate_left; ((try clear_value x); intro hx); rotate_left; subst x)
        | (refine Keeps.step (s := x.2) ?_ ?_; rotate_left; ((try clear_value x); intro hx); rotate_left; subst x)
        | (first | (have := (x : Keeper)) | (have := (x : Collector)) | (have := (x : Mag)) | (have := (x : Rstc)); subst x)
        | clear_value x | skip)
    | (with_reducible refine State.modMag_keeps (fun _ => id) ?_)
    | with_reducible apply State.tryClose_keeps
    | with_reducible apply State.raise_keeps
    | with_reducible apply State.mghStatus_keeps
    | with_reducible apply State.set_keeps
    | with_reducible apply State.dropMember_keeps
    | split

theorem State.bayLost_keeps {r : State} {s : State} {b : ℕ} {code : ℕ} (hk : Keeps r s) : Keeps r (State.bayLost s b code) := by
  unfold State.bayLost
  repeat' first
    | with_reducible assumption
    | with_reducible apply State.bayFail_keeps
    | with_reducible apply State.modBay_keeps
    | with_reducible apply State.dropMember_keeps
    | with_reducible apply State.settleSet_keeps
    | with_reducible apply State.rebuildLost_keeps
    | with_reducible apply State.loseMember_keeps
    | with_reducible apply State.setBay_keeps
    | with_reducible apply State.set_keeps
    | split

theorem State.raiseOut_keeps {r : State} {s : State} (hk : Keeps r s) : Keeps r (State.raiseOut s) := by
  unfold State.raiseOut
  repeat' first
    | with_reducible assumption
    | with_reducible apply State.emit_keeps
    | split
    | (fail_if_no_progress (with_reducible refine Keeps.lit ?_ rfl rfl rfl rfl))

theorem State.holdupEnds_keeps {r : State} {s : State} (hk : Keeps r s) : Keeps r (State.holdupEnds s) := by
  unfold State.holdupEnds
  repeat' first
    | with_reducible assumption
    | (intro x)
    | with_reducible apply State.train_keeps
    | with_reducible apply State.set_keeps
    | with_reducible apply State.each_keeps
    | with_reducible apply State.when_keeps

theorem State.loseFollower_keeps {r : State} {s : State} {f : Frame} (hk : Keeps r s) : Keeps r (State.loseFollower s f) := by
  unfold State.loseFollower
  repeat' first
    | with_reducible assumption
    | (intro x)
    | with_reducible apply State.loseTile_keeps
    | with_reducible apply State.each_keeps
    | with_reducible apply State.modFrame_keeps
    | split

theorem State.openBanks_keeps {r : State} {s : State} {e : ℕ} (hk : Keeps r s) : Keeps r (State.openBanks s e) := by
  unfold State.openBanks
  repeat' first
    | with_reducible assumption
    | (fail_if_no_progress (with_reducible refine Keeps.maps ?_))

theorem State.headerCols_keeps {r : State} {s : State} {ganged : Bool} (hk : Keeps r s) : Keeps r (State.headerCols s ganged).2 := by
  unfold State.headerCols
  repeat' first
    | with_reducible assumption
    | with_reducible apply State.drawList_keeps
    | split

theorem State.frameInfo_keeps {r : State} {s : State} {fund : ℕ} (hk : Keeps r s) : Keeps r (State.frameInfo s fund).2 := by
  unfold State.frameInfo
  repeat' first
    | with_reducible assumption
    | with_reducible apply State.headerCols_keeps
    | with_reducible apply State.draw_keeps
    | split

theorem State.firstFrame_keeps {r : State} {s : State} (hk : Keeps r s) : Keeps r (State.firstFrame s) := by
  unfold State.firstFrame
  repeat' first
    | with_reducible assumption
    | (extract_lets +onlyGivenNames x; first
        | (refine Keeps.step (s := x) ?_ ?_; rotate_left; ((try clear_value x); intro hx); rotate_left; subst x)
        | (refine Keeps.step (s := x.2) ?_ ?_; rotate_left; ((try clear_value x); intro hx); rotate_left; subst x)
        | (first | (have := (x : Keeper)) | (have := (x : Collector)) | (have := (x : Mag)) | (have := (x : Rstc)); subst x)
        | clear_value x | skip)
    | with_reducible apply State.notify_keeps
    | split
    | (fail_if_no_progress (with_reducible refine Keeps.lit ?_ rfl rfl rfl rfl))

theorem State.openFrame_keeps {r : State} {s : State} {sameFormat : Bool} (hk : Keeps r s) : Keeps r (State.openFrame s sameFormat) := by
  unfold State.openFrame
  repeat' first
    | with_reducible assumption
    | (intro x)
    | with_reducible apply State.loseFollower_keeps
    | with_reducible apply State.openBanks_keeps
    | with_reducible apply State.inc_keeps
    | with_reducible apply State.set_keeps
    | with_reducible apply State.when_keeps
    | with_reducible apply State.frameInfo_keeps
    | with_reducible apply State.firstFrame_keeps
    | (fail_if_no_progress (with_reducible refine Keeps.lit ?_ rfl rfl rfl rfl))

theorem State.releaseHeld_keeps {r : State} {s : State} {held : List (ℕ × Packet)} (hk : Keeps r s) : Keeps r (State.releaseHeld s held) := by
  unfold State.releaseHeld
  repeat' first
    | with_reducible assumption
    | (intro x)
    | with_reducible apply State.acceptPacket_keeps
    | with_reducible apply State.each_keeps
    | split

theorem State.turnFrame_keeps {r : State} {s : State} (hk : Keeps r s) : Keeps r (State.turnFrame s) := by
  unfold State.turnFrame
  repeat' first
    | with_reducible assumption
    | (fail_if_no_progress (with_reducible refine Keeps.lit ?_ rfl rfl rfl rfl))

theorem State.watchLinks_keeps {r : State} {s : State} (hk : Keeps r s) : Keeps r (State.watchLinks s) := by
  unfold State.watchLinks
  repeat' first
    | with_reducible assumption
    | (intro x)
    | with_reducible apply State.enterSafe_keeps
    | with_reducible apply State.when_keeps
    | (fail_if_no_progress (with_reducible refine Keeps.lit ?_ rfl rfl rfl rfl))

theorem State.takeLevel_keeps {r : State} {s : State} {iso : List ℕ} (hk : Keeps r s) : Keeps r (State.takeLevel s iso) := by
  unfold State.takeLevel
  repeat' first
    | with_reducible assumption
    | (extract_lets +onlyGivenNames x; first
        | (refine Keeps.step (s := x) ?_ ?_; rotate_left; ((try clear_value x); intro hx); rotate_left; subst x)
        | (refine Keeps.step (s := x.2) ?_ ?_; rotate_left; ((try clear_value x); intro hx); rotate_left; subst x)
        | (first | (have := (x : Keeper)) | (have := (x : Collector)) | (have := (x : Mag)) | (have := (x : Rstc)); subst x)
        | clear_value x | skip)
    | with_reducible apply State.setLevel_keeps
    | with_reducible apply State.watchLinks_keeps
    | split
    | (fail_if_no_progress (with_reducible refine Keeps.lit ?_ rfl rfl rfl rfl))

theorem State.takeOver_keeps {r : State} {s : State} {z1 : ℕ} (hk : Keeps r s) : Keeps r (State.takeOver s z1) := by
  unfold State.takeOver
  repeat' first
    | with_reducible assumption
    | (extract_lets +onlyGivenNames x; first
        | (refine Keeps.step (s := x) ?_ ?_; rotate_left; ((try clear_value x); intro hx); rotate_left; subst x)
        | (refine Keeps.step (s := x.2) ?_ ?_; rotate_left; ((try clear_value x); intro hx); rotate_left; subst x)
        | (first | (have := (x : Keeper)) | (have := (x : Collector)) | (have := (x : Mag)) | (have := (x : Rstc)); subst x)
        | clear_value x | skip)
    | with_reducible apply State.modEng_keeps
    | with_reducible apply State.set_keeps
    | split

theorem State.spareOut_keeps {r : State} {s : State} {z1 : ℕ} (hk : Keeps r s) : Keeps r (State.spareOut s z1) := by
  unfold State.spareOut
  repeat' first
    | with_reducible assumption
    | with_reducible apply State.spareStatus_keeps
    | with_reducible apply State.modEng_keeps
    | with_reducible apply State.set_keeps
    | split

theorem State.returnSpare_keeps {r : State} {s : State} {z1 : ℕ} (hk : Keeps r s) : Keeps r (State.returnSpare s z1) := by
  unfold State.returnSpare
  repeat' first
    | with_reducible assumption
    | (intro x)
    | with_reducible apply State.spareOut_keeps
    | with_reducible apply State.when_keeps
    | with_reducible apply State.modEng_keeps
    | with_reducible apply State.each_keeps

theorem State.takeEngines_keeps {r : State} {s : State} (hk : Keeps r s) : Keeps r (State.takeEngines s) := by
  unfold State.takeEngines
  repeat' first
    | with_reducible assumption
    | with_reducible apply State.applyReset_keeps
    | with_reducible apply State.takeOver_keeps
    | with_reducible apply State.returnSpare_keeps
    | with_reducible apply State.heldDie_keeps
    | with_reducible apply State.each_keeps

theorem State.bindRegs_keeps {r : State} {s : State} {b : List (ℕ × Bool × ℕ × ℕ)} (hk : Keeps r s) : Keeps r (State.bindRegs s b) := by
  unfold State.bindRegs
  repeat' first
    | with_reducible assumption
    | (intro x)
    | with_reducible apply State.putWord_keeps
    | with_reducible apply State.each_keeps
    | with_reducible apply State.set_keeps
    | (fail_if_no_progress (with_reducible refine Keeps.lit ?_ rfl rfl rfl rfl))

theorem State.keepBinding_keeps {r : State} {s : State} {fmt : Word × Word} (hk : Keeps r s) : Keeps r (State.keepBinding s fmt) := by
  unfold State.keepBinding
  repeat' first
    | with_reducible assumption
    | (extract_lets +onlyGivenNames x; first
        | (refine Keeps.step (s := x) ?_ ?_; rotate_left; ((try clear_value x); intro hx); rotate_left; subst x)
        | (refine Keeps.step (s := x.2) ?_ ?_; rotate_left; ((try clear_value x); intro hx); rotate_left; subst x)
        | (first | (have := (x : Keeper)) | (have := (x : Collector)) | (have := (x : Mag)) | (have := (x : Rstc)); subst x)
        | clear_value x | skip)
    | with_reducible apply State.putForce_keeps
    | with_reducible apply State.cfg_keeps
    | with_reducible apply State.bindRegs_keeps
    | with_reducible apply State.inc_keeps
    | with_reducible apply State.raise_keeps
    | split

theorem State.bindColumns_keeps {r : State} {s : State} {fmt : Word × Word} (hk : Keeps r s) : Keeps r (State.bindColumns s fmt) := by
  unfold State.bindColumns
  repeat' first
    | with_reducible assumption
    | (intro x)
    | (extract_lets +onlyGivenNames x; first
        | (refine Keeps.step (s := x) ?_ ?_; rotate_left; ((try clear_value x); intro hx); rotate_left; subst x)
        | (refine Keeps.step (s := x.2) ?_ ?_; rotate_left; ((try clear_value x); intro hx); rotate_left; subst x)
        | (first | (have := (x : Keeper)) | (have := (x : Collector)) | (have := (x : Mag)) | (have := (x : Rstc)); subst x)
        | clear_value x | skip)
    | with_reducible apply State.keepBinding_keeps
    | with_reducible apply State.bindRegs_keeps
    | with_reducible apply State.set_keeps
    | with_reducible apply State.each_keeps
    | split

theorem State.settle_keeps {r : State} {s : State} {e : ℕ} (hk : Keeps r s) : Keeps r (State.settle s e) := by
  unfold State.settle
  repeat' first
    | with_reducible assumption
    | (intro x)
    | with_reducible apply State.set_keeps
    | with_reducible apply State.when_keeps
    | with_reducible apply State.setEng_keeps
    | with_reducible apply State.modEng_keeps
    | split

theorem State.gateEngine_keeps {r : State} {s : State} {e : ℕ} (hk : Keeps r s) : Keeps r (State.gateEngine s e) := by
  unfold State.gateEngine
  repeat' first
    | with_reducible assumption
    | with_reducible apply State.setEng_keeps
    | with_reducible apply State.modEng_keeps
    | with_reducible apply State.spareStatus_keeps

theorem State.takeEvents_keeps {r : State} {s : State} {e : ℕ} (hk : Keeps r s) : Keeps r (State.takeEvents s e) := by
  unfold State.takeEvents
  repeat' first
    | with_reducible assumption
    | (extract_lets +onlyGivenNames x; first
        | (refine Keeps.step (s := x) ?_ ?_; rotate_left; ((try clear_value x); intro hx); rotate_left; subst x)
        | (refine Keeps.step (s := x.2) ?_ ?_; rotate_left; ((try clear_value x); intro hx); rotate_left; subst x)
        | (first | (have := (x : Keeper)) | (have := (x : Collector)) | (have := (x : Mag)) | (have := (x : Rstc)); subst x)
        | clear_value x | skip)
    | with_reducible apply State.setEng_keeps
    | with_reducible apply State.modEng_keeps
    | with_reducible apply State.gateEngine_keeps
    | split

theorem State.bindEngine_keeps {r : State} {s : State} {e : ℕ} (hk : Keeps r s) : Keeps r (State.bindEngine s e) := by
  unfold State.bindEngine
  repeat' first
    | with_reducible assumption
    | with_reducible apply State.setEng_keeps
    | with_reducible apply State.takeEvents_keeps
    | split

theorem State.bindEngines_keeps {r : State} {s : State} (hk : Keeps r s) : Keeps r (State.bindEngines s) := by
  unfold State.bindEngines
  repeat' first
    | with_reducible assumption
    | (intro x)
    | with_reducible apply State.modEng_keeps
    | with_reducible apply State.settle_keeps
    | with_reducible apply State.bindEngine_keeps
    | with_reducible apply State.each_keeps

theorem State.followSource_keeps {r : State} {s : State} {src : ℕ} {rate : Word × Word} {phase : Word} (hk : Keeps r s) : Keeps r (State.followSource s src rate phase) := by
  unfold State.followSource
  repeat' first
    | with_reducible assumption
    | (extract_lets +onlyGivenNames x; first
        | (refine Keeps.step (s := x) ?_ ?_; rotate_left; ((try clear_value x); intro hx); rotate_left; subst x)
        | (refine Keeps.step (s := x.2) ?_ ?_; rotate_left; ((try clear_value x); intro hx); rotate_left; subst x)
        | (first | (have := (x : Keeper)) | (have := (x : Collector)) | (have := (x : Mag)) | (have := (x : Rstc)); subst x)
        | clear_value x | skip)
    | with_reducible apply State.ptpRestart_keeps
    | split
    | (fail_if_no_progress (with_reducible refine Keeps.lit ?_ rfl rfl rfl rfl))

theorem State.grantRegs_keeps {r : State} {s : State} {g : Grant} {stale : Bool} (hk : Keeps r s) : Keeps r (State.grantRegs s g stale) := by
  unfold State.grantRegs
  repeat' first
    | with_reducible assumption
    | with_reducible apply State.set_keeps

theorem State.noteDeficit_keeps {r : State} {s : State} {g : Grant} (hk : Keeps r s) : Keeps r (State.noteDeficit s g) := by
  unfold State.noteDeficit
  repeat' first
    | with_reducible assumption
    | (intro x)
    | with_reducible apply State.inc_keeps
    | with_reducible apply State.raise_keeps
    | with_reducible apply State.when_keeps
    | with_reducible apply State.set_keeps
    | (fail_if_no_progress (with_reducible refine Keeps.lit ?_ rfl rfl rfl rfl))

theorem State.takeGrant_keeps {r : State} {s : State} {running : Bool} {columns : Option ℕ} (hk : Keeps r s) : Keeps r (State.takeGrant s running columns) := by
  unfold State.takeGrant
  repeat' first
    | with_reducible assumption
    | (intro x)
    | with_reducible apply State.enterSafe_keeps
    | with_reducible apply State.grantRegs_keeps
    | with_reducible apply State.noteDeficit_keeps
    | with_reducible apply State.set_keeps
    | with_reducible apply State.inc_keeps
    | with_reducible apply State.when_keeps
    | (fail_if_no_progress (with_reducible refine Keeps.lit ?_ rfl rfl rfl rfl))

theorem State.grantFund_keeps {r s t : State} {g : Grant} (h : Keeps r t) (e : t.kpr = s.kpr) :
    Keeps r { t with kpr := { s.kpr with grant := g } } :=
  Keeps.maps h id id id id id id id id id id id id id id (by rw [e]; exact id) id

theorem State.commitAll_keeps {r s : State} {running : Bool} {columns : Option Nat} (h : Keeps r s) : Keeps r (s.commitAll running columns) := by
  unfold State.commitAll
  extract_lets src rate phase fmt held s1 s2 iso s3 s4 s5 g t1 k1 g1 s7 held_ s8 same
  have h1 : Keeps r s1 := by
    unfold s1
    split
    · exact State.inc_keeps h
    · exact State.commitSettings_keeps h
  have h3 : Keeps r s3 := State.bindEngines_keeps (State.bindColumns_keeps (State.takeEngines_keeps (State.takeGrant_keeps
    (State.followSource_keeps h1))))
  have h4 : Keeps r s4 := by
    unfold s4
    split
    · exact h3
    · exact State.commitTarget_keeps h3
  have h6 : Keeps r s7 := State.grantFund_keeps (s := s5) (State.set_keeps (State.takeLevel_keeps h4)) (by simp [t1])
  exact State.releaseHeld_keeps (State.when_keeps (fun _ hx => State.openFrame_keeps hx) (State.turnFrame_keeps h6))

theorem State.pruneRefs_keeps {r : State} {s : State} (hk : Keeps r s) : Keeps r (State.pruneRefs s) := by
  unfold State.pruneRefs
  repeat' first
    | with_reducible assumption
    | (fail_if_no_progress (with_reducible refine Keeps.lit ?_ rfl rfl rfl rfl))

theorem State.flushLines_keeps {r : State} {s : State} (hk : Keeps r s) : Keeps r (State.flushLines s) := by
  unfold State.flushLines
  repeat' first
    | with_reducible assumption
    | (intro x)
    | with_reducible apply State.takeLine_keeps
    | with_reducible apply State.each_keeps
    | (fail_if_no_progress (with_reducible refine Keeps.lit ?_ rfl rfl rfl rfl))

theorem State.endFrame_keeps {r : State} {s : State} (hk : Keeps r s) : Keeps r (State.endFrame s) := by
  unfold State.endFrame
  repeat' first
    | with_reducible assumption
    | with_reducible apply State.flushLines_keeps
    | with_reducible apply State.resolveBelow_keeps
    | with_reducible apply State.substEnd_keeps
    | split

theorem State.latchTimecode_keeps {r : State} {s : State} (hk : Keeps r s) : Keeps r (State.latchTimecode s) := by
  unfold State.latchTimecode
  repeat' first
    | with_reducible assumption
    | with_reducible apply State.putWord_keeps
    | with_reducible apply State.set_keeps
    | (fail_if_no_progress (with_reducible refine Keeps.lit ?_ rfl rfl rfl rfl))

theorem State.leadTime_keeps {r : State} {s : State} {k : EdgeKind} (hk : Keeps r s) : Keeps r (State.leadTime s k) := by
  unfold State.leadTime
  repeat' first
    | with_reducible assumption
    | split
    | (fail_if_no_progress (with_reducible refine Keeps.lit ?_ rfl rfl rfl rfl))

theorem State.openEpoch_keeps {r : State} {s : State} {k : EdgeKind} {at8 : ℕ} (hk : Keeps r s) : Keeps r (State.openEpoch s k at8) := by
  unfold State.openEpoch
  repeat' first
    | with_reducible assumption
    | with_reducible apply State.latchTimecode_keeps
    | with_reducible apply State.set_keeps
    | with_reducible apply State.leadTime_keeps
    | (fail_if_no_progress (with_reducible refine Keeps.lit ?_ rfl rfl rfl rfl))

theorem State.rejoin_keeps {r : State} {s : State} (hk : Keeps r s) : Keeps r (State.rejoin s) := by
  unfold State.rejoin
  repeat' first
    | with_reducible assumption
    | (with_reducible refine Keeps.snd (by assumption) ?_)
    | with_reducible apply State.draw_keeps
    | split
    | (fail_if_no_progress (with_reducible refine Keeps.lit ?_ rfl rfl rfl rfl))

theorem State.beacon_keeps {r : State} {s : State} {k : EdgeKind} {at8 : ℕ} (hk : Keeps r s) : Keeps r (State.beacon s k at8) := by
  unfold State.beacon
  repeat' first
    | with_reducible assumption
    | with_reducible apply State.raiseOut_keeps
    | with_reducible apply State.icuPulse_keeps
    | with_reducible apply State.migrationDue_keeps
    | with_reducible apply State.finishMigration_keeps
    | with_reducible apply State.activationDue_keeps
    | with_reducible apply State.holdupEnds_keeps
    | with_reducible apply State.commitAll_keeps
    | with_reducible apply State.pruneRefs_keeps
    | with_reducible apply State.endFrame_keeps
    | with_reducible apply State.openEpoch_keeps
    | with_reducible apply State.rejoin_keeps

theorem State.bootFailed_keeps {r : State} {s : State} (hk : Keeps r s) : Keeps r (State.bootFailed s) := by
  unfold State.bootFailed
  repeat' first
    | with_reducible assumption
    | with_reducible apply State.notify_keeps
    | with_reducible apply State.draw_keeps
    | (fail_if_no_progress (with_reducible refine Keeps.lit ?_ rfl rfl rfl rfl))

theorem State.loadConfig_keeps {r : State} {s : State} (hk : Keeps r s) : Keeps r (State.loadConfig s) := by
  unfold State.loadConfig
  repeat' first
    | with_reducible assumption
    | (intro x)
    | (extract_lets +onlyGivenNames x; first
        | (refine Keeps.step (s := x) ?_ ?_; rotate_left; ((try clear_value x); intro hx); rotate_left; subst x)
        | (refine Keeps.step (s := x.2) ?_ ?_; rotate_left; ((try clear_value x); intro hx); rotate_left; subst x)
        | (first | (have := (x : Keeper)) | (have := (x : Collector)) | (have := (x : Mag)) | (have := (x : Rstc)); subst x)
        | clear_value x | skip)
    | with_reducible apply State.applyRecord_keeps
    | with_reducible apply State.each_keeps
    | with_reducible apply State.raise_keeps
    | split
    | (fail_if_no_progress (with_reducible refine Keeps.lit ?_ rfl rfl rfl rfl))

theorem State.bootFirmware_keeps {r : State} {s : State} (hk : Keeps r s) : Keeps r (State.bootFirmware s) := by
  unfold State.bootFirmware
  repeat' first
    | with_reducible assumption
    | with_reducible apply State.enableLmc_keeps
    | with_reducible apply State.loadConfig_keeps
    | with_reducible apply State.applyConfig_keeps
    | with_reducible apply State.logbook_keeps
    | (fail_if_no_progress (with_reducible refine Keeps.lit ?_ rfl rfl rfl rfl))

theorem State.placeRings_keeps {r : State} {s : State} (hk : Keeps r s) : Keeps r (State.placeRings s) := by
  unfold State.placeRings
  repeat' first
    | with_reducible assumption
    | (intro x)
    | with_reducible apply State.set_keeps
    | with_reducible apply State.each_keeps
    | with_reducible apply State.draw_keeps

theorem State.placeStage_keeps {r : State} {s : State} (hk : Keeps r s) : Keeps r (State.placeStage s) := by
  unfold State.placeStage
  repeat' first
    | with_reducible assumption
    | with_reducible apply State.set_keeps
    | with_reducible apply State.draw_keeps

theorem State.bootService_keeps {r : State} {s : State} (hk : Keeps r s) : Keeps r (State.bootService s) := by
  unfold State.bootService
  repeat' first
    | with_reducible assumption
    | (intro x)
    | with_reducible apply State.startMoor_keeps
    | with_reducible apply State.when_keeps
    | with_reducible apply State.enableMgh_keeps
    | with_reducible apply State.set_keeps
    | with_reducible apply State.each_keeps
    | with_reducible apply State.enablePpr_keeps
    | (fail_if_no_progress (with_reducible refine Keeps.lit ?_ rfl rfl rfl rfl))

theorem State.startLoad_keeps {r : State} {s : State} {n : ℕ} (hk : Keeps r s) : Keeps r (State.startLoad s n) := by
  unfold State.startLoad
  repeat' first
    | with_reducible assumption
    | (intro x)
    | with_reducible apply State.askSlot_keeps
    | with_reducible apply State.when_keeps
    | with_reducible apply State.spareStatus_keeps
    | with_reducible apply State.setEng_keeps
    | with_reducible apply State.modEng_keeps

theorem State.loadDie_keeps {r : State} {s : State} {d : ℕ} (hk : Keeps r s) : Keeps r (State.loadDie s d) := by
  unfold State.loadDie
  repeat' first
    | with_reducible assumption
    | (intro x)
    | with_reducible apply State.startLoad_keeps
    | with_reducible apply State.when_keeps
    | with_reducible apply State.each_keeps
    | split

theorem State.bootMemory_keeps {r : State} {s : State} (hk : Keeps r s) : Keeps r (State.bootMemory s) := by
  unfold State.bootMemory
  repeat' first
    | with_reducible assumption
    | (intro x)
    | with_reducible apply State.bootFailed_keeps
    | with_reducible apply State.placeRings_keeps
    | with_reducible apply State.placeStage_keeps
    | with_reducible apply State.bootService_keeps
    | with_reducible apply State.loadDie_keeps
    | with_reducible apply State.each_keeps
    | with_reducible apply State.placeUc_keeps
    | split

theorem State.chooseImage_keeps {r : State} {s : State} (hk : Keeps r s) : Keeps r (State.chooseImage s) := by
  unfold State.chooseImage
  repeat' first
    | with_reducible assumption
    | (extract_lets +onlyGivenNames x; first
        | (refine Keeps.step (s := x) ?_ ?_; rotate_left; ((try clear_value x); intro hx); rotate_left; subst x)
        | (refine Keeps.step (s := x.2) ?_ ?_; rotate_left; ((try clear_value x); intro hx); rotate_left; subst x)
        | (first | (have := (x : Keeper)) | (have := (x : Collector)) | (have := (x : Mag)) | (have := (x : Rstc)); subst x)
        | clear_value x | skip)
    | with_reducible apply State.writeBoot_keeps
    | with_reducible apply State.logUpdate_keeps
    | with_reducible apply State.runImage_keeps
    | split
    | (fail_if_no_progress (with_reducible refine Keeps.lit ?_ rfl rfl rfl rfl))

theorem State.judgeStraps_keeps {r : State} {s : State} (hk : Keeps r s) : Keeps r (State.judgeStraps s) := by
  unfold State.judgeStraps
  repeat' first
    | with_reducible assumption
    | (intro x)
    | with_reducible apply State.raise_keeps
    | with_reducible apply State.when_keeps

theorem State.bootRom_keeps {r : State} {s : State} (hk : Keeps r s) : Keeps r (State.bootRom s) := by
  unfold State.bootRom
  repeat' first
    | with_reducible assumption
    | (extract_lets +onlyGivenNames x; first
        | (refine Keeps.step (s := x) ?_ ?_; rotate_left; ((try clear_value x); intro hx); rotate_left; subst x)
        | (refine Keeps.step (s := x.2) ?_ ?_; rotate_left; ((try clear_value x); intro hx); rotate_left; subst x)
        | (first | (have := (x : Keeper)) | (have := (x : Collector)) | (have := (x : Mag)) | (have := (x : Rstc)); subst x)
        | clear_value x | skip)
    | with_reducible apply State.joinCan0_keeps
    | with_reducible apply State.chooseImage_keeps
    | with_reducible apply State.afterChoice_keeps
    | with_reducible apply State.judgeStraps_keeps
    | split
    | (fail_if_no_progress (with_reducible refine Keeps.lit ?_ rfl rfl rfl rfl))

theorem State.restartMgc_keeps {r : State} {s : State} (hk : Keeps r s) : Keeps r (State.restartMgc s) := by
  unfold State.restartMgc
  repeat' first
    | with_reducible assumption
    | with_reducible apply State.chooseImage_keeps
    | (fail_if_no_progress (with_reducible refine Keeps.lit ?_ rfl rfl rfl rfl))

theorem State.restartStage_keeps {r : State} {s : State} (hk : Keeps r s) : Keeps r (State.restartStage s) := by
  unfold State.restartStage
  repeat' first
    | with_reducible assumption
    | (intro x)
    | with_reducible apply State.takeRequest_keeps
    | with_reducible apply State.each_keeps
    | with_reducible apply State.restartMgc_keeps
    | (fail_if_no_progress (with_reducible refine Keeps.lit ?_ rfl rfl rfl rfl))

theorem State.bootStage_keeps {r : State} {s : State} (hk : Keeps r s) : Keeps r (State.bootStage s) := by
  unfold State.bootStage
  repeat' first
    | with_reducible assumption
    | with_reducible apply State.restartStage_keeps
    | with_reducible apply State.bootMemory_keeps
    | with_reducible apply State.bootFirmware_keeps
    | with_reducible apply State.bootRom_keeps
    | split

theorem State.bpmThread_keeps {r : State} {s : State} {p : ℕ} (hk : Keeps r s) : Keeps r (State.bpmThread s p) := by
  unfold State.bpmThread
  repeat' first
    | with_reducible assumption
    | (intro x)
    | with_reducible apply State.memWrite_keeps
    | with_reducible apply State.setOwner_keeps
    | with_reducible apply State.each_keeps

theorem State.bpmDone_keeps {r : State} {s : State} {p : ℕ} (hk : Keeps r s) : Keeps r (State.bpmDone s p) := by
  unfold State.bpmDone
  repeat' first
    | with_reducible assumption
    | with_reducible apply State.modPool_keeps
    | with_reducible apply State.bpmThread_keeps
    | with_reducible apply State.set_keeps
    | split

theorem State.canErrors_keeps {r : State} {s : State} {c : ℕ} (hk : Keeps r s) : Keeps r (State.canErrors s c) := by
  unfold State.canErrors
  repeat' first
    | with_reducible assumption
    | with_reducible apply State.set_keeps
    | with_reducible apply State.draw_keeps

theorem State.busOff_keeps {r : State} {s : State} {c : ℕ} (hk : Keeps r s) : Keeps r (State.busOff s c) := by
  unfold State.busOff
  repeat' first
    | with_reducible assumption
    | with_reducible apply State.canErrors_keeps
    | with_reducible apply State.set_keeps
    | with_reducible apply State.inc_keeps
    | with_reducible apply State.raise_keeps
    | split

theorem State.heardRoll_keeps {r : State} {s : State} {c : ℕ} {src : ℕ} (hk : Keeps r s) : Keeps r (State.heardRoll s c src) := by
  unfold State.heardRoll
  repeat' first
    | with_reducible assumption
    | with_reducible apply State.hear_keeps
    | with_reducible apply State.rollPasses_keeps
    | with_reducible apply State.answerRoll_keeps

theorem State.heardAnswer_keeps {r : State} {s : State} {c : ℕ} {src : ℕ} {payload : List ℕ} (hk : Keeps r s) : Keeps r (State.heardAnswer s c src payload) := by
  unfold State.heardAnswer
  repeat' first
    | with_reducible assumption
    | (extract_lets +onlyGivenNames x; first
        | (refine Keeps.step (s := x) ?_ ?_; rotate_left; ((try clear_value x); intro hx); rotate_left; subst x)
        | (refine Keeps.step (s := x.2) ?_ ?_; rotate_left; ((try clear_value x); intro hx); rotate_left; subst x)
        | (first | (have := (x : Keeper)) | (have := (x : Collector)) | (have := (x : Mag)) | (have := (x : Rstc)); subst x)
        | clear_value x | skip)
    | with_reducible apply State.light_keeps
    | with_reducible apply State.raise_keeps
    | with_reducible apply State.assign_keeps
    | split

theorem State.canMessage_keeps {r : State} {s : State} {c : ℕ} {m : HppMsg} (hk : Keeps r s) : Keeps r (State.canMessage s c m) := by
  unfold State.canMessage
  repeat' first
    | with_reducible assumption
    | with_reducible apply State.arrive_keeps
    | with_reducible apply State.heardRoll_keeps
    | with_reducible apply State.heardAnswer_keeps
    | with_reducible apply State.hear_keeps
    | split

theorem State.canOut_keeps {r : State} {s : State} {c : ℕ} {id : ℕ} {brs : Bool} {aborted : Bool} {d : List ℕ} (hk : Keeps r s) : Keeps r (State.canOut s c id brs aborted d) := by
  unfold State.canOut
  repeat' first
    | with_reducible assumption
    | with_reducible apply State.emit_keeps
    | split

theorem State.clipHalted_keeps {r : State} {s : State} {p : ClipPlan} (hk : Keeps r s) : Keeps r (State.clipHalted s p) := by
  unfold State.clipHalted
  repeat' first
    | with_reducible assumption
    | with_reducible apply State.set_keeps

theorem State.clipName_keeps {r : State} {s : State} (hk : Keeps r s) : Keeps r (State.clipName s) := by
  unfold State.clipName
  repeat' first
    | with_reducible assumption
    | (intro x)
    | with_reducible apply State.set_keeps
    | with_reducible apply State.each_keeps

theorem State.clipShadows_keeps {r : State} {s : State} {p : ClipPlan} (hk : Keeps r s) : Keeps r (State.clipShadows s p) := by
  unfold State.clipShadows
  repeat' first
    | with_reducible assumption
    | with_reducible apply State.set_keeps
    | with_reducible apply State.mgcSet_keeps

theorem State.refuseClip_keeps {r : State} {s : State} {reason : ℕ} (hk : Keeps r s) : Keeps r (State.refuseClip s reason) := by
  unfold State.refuseClip
  repeat' first
    | with_reducible assumption
    | with_reducible apply State.notify_keeps
    | (fail_if_no_progress (with_reducible refine Keeps.lit ?_ rfl rfl rfl rfl))

theorem State.openStarted_keeps {r : State} {s : State} (hk : Keeps r s) : Keeps r (State.openStarted s) := by
  unfold State.openStarted
  repeat' first
    | with_reducible assumption
    | (extract_lets +onlyGivenNames x; first
        | (refine Keeps.step (s := x) ?_ ?_; rotate_left; ((try clear_value x); intro hx); rotate_left; subst x)
        | (refine Keeps.step (s := x.2) ?_ ?_; rotate_left; ((try clear_value x); intro hx); rotate_left; subst x)
        | (first | (have := (x : Keeper)) | (have := (x : Collector)) | (have := (x : Mag)) | (have := (x : Rstc)); subst x)
        | clear_value x | skip)
    | with_reducible apply State.set_keeps
    | with_reducible apply State.refuseClip_keeps
    | with_reducible apply State.openCmd_keeps
    | with_reducible apply State.mghCmd_keeps
    | split
    | (fail_if_no_progress (with_reducible refine Keeps.lit ?_ rfl rfl rfl rfl))

theorem State.configureClip_keeps {r : State} {s : State} (hk : Keeps r s) : Keeps r (State.configureClip s) := by
  unfold State.configureClip
  repeat' first
    | with_reducible assumption
    | with_reducible apply State.startBeacon_keeps
    | with_reducible apply State.when_keeps
    | with_reducible apply State.clipHalted_keeps
    | with_reducible apply State.clipShadows_keeps
    | with_reducible apply State.clipName_keeps
    | (fail_if_no_progress (with_reducible refine Keeps.lit ?_ rfl rfl rfl rfl))

theorem State.replyStart_keeps {r : State} {s : State} {result : ℕ} (hk : Keeps r s) : Keeps r (State.replyStart s result) := by
  unfold State.replyStart
  repeat' first
    | with_reducible assumption
    | with_reducible apply State.reply_keeps
    | split
    | (fail_if_no_progress (with_reducible refine Keeps.lit ?_ rfl rfl rfl rfl))

theorem State.endCheck_keeps {r : State} {s : State} (hk : Keeps r s) : Keeps r (State.endCheck s) := by
  unfold State.endCheck
  repeat' first
    | with_reducible assumption
    | (extract_lets +onlyGivenNames x; first
        | (refine Keeps.step (s := x) ?_ ?_; rotate_left; ((try clear_value x); intro hx); rotate_left; subst x)
        | (refine Keeps.step (s := x.2) ?_ ?_; rotate_left; ((try clear_value x); intro hx); rotate_left; subst x)
        | (first | (have := (x : Keeper)) | (have := (x : Collector)) | (have := (x : Mag)) | (have := (x : Rstc)); subst x)
        | clear_value x | skip)
    | (with_reducible refine Keeps.snd (by assumption) ?_)
    | with_reducible apply State.replyStart_keeps
    | with_reducible apply State.refuseClip_keeps
    | with_reducible apply State.draw_keeps
    | split
    | (fail_if_no_progress (with_reducible refine Keeps.lit ?_ rfl rfl rfl rfl))

theorem State.clipStage_keeps {r : State} {s : State} (hk : Keeps r s) : Keeps r (State.clipStage s) := by
  unfold State.clipStage
  repeat' first
    | with_reducible assumption
    | with_reducible apply State.closeStopped_keeps
    | with_reducible apply State.openStarted_keeps
    | with_reducible apply State.configureClip_keeps
    | with_reducible apply State.endCheck_keeps
    | split

theorem State.closeBanks_keeps {r : State} {s : State} {e : ℕ} (hk : Keeps r s) : Keeps r (State.closeBanks s e) := by
  unfold State.closeBanks
  repeat' first
    | with_reducible assumption
    | (fail_if_no_progress (with_reducible refine Keeps.maps ?_))

theorem State.notifyCommit_keeps {r : State} {s : State} {data : List ℕ} (hk : Keeps r s) : Keeps r (State.notifyCommit s data) := by
  unfold State.notifyCommit
  repeat' first
    | with_reducible assumption
    | (extract_lets +onlyGivenNames x; first
        | (refine Keeps.step (s := x) ?_ ?_; rotate_left; ((try clear_value x); intro hx); rotate_left; subst x)
        | (refine Keeps.step (s := x.2) ?_ ?_; rotate_left; ((try clear_value x); intro hx); rotate_left; subst x)
        | (first | (have := (x : Keeper)) | (have := (x : Collector)) | (have := (x : Mag)) | (have := (x : Rstc)); subst x)
        | clear_value x | skip)
    | with_reducible apply State.notify_keeps
    | split
    | (fail_if_no_progress (with_reducible refine Keeps.lit ?_ rfl rfl rfl rfl))

theorem State.commit_keeps {r : State} {s : State} {l : List FrameEntry} (hk : Keeps r s) : Keeps r (State.commit s l) := by
  unfold State.commit
  repeat' first
    | with_reducible assumption
    | (with_reducible refine State.modMag_keeps (fun _ => id) ?_)
    | with_reducible apply State.notifyCommit_keeps
    | with_reducible apply State.set_keeps
    | split
    | (fail_if_no_progress (with_reducible refine Keeps.lit ?_ rfl rfl rfl rfl))

theorem State.commitJseq_keeps {r : State} {s : State} {last : Option ℕ} (hk : Keeps r s) : Keeps r (State.commitJseq s last) := by
  unfold State.commitJseq
  repeat' first
    | with_reducible assumption
    | (with_reducible refine State.modMag_keeps (fun _ => id) ?_)
    | with_reducible apply State.set_keeps
    | split

theorem State.copy_keeps {r : State} {s : State} {n : ℕ} {c : Copy} (hk : Keeps r s) : Keeps r (State.copy s n c).2 := by
  unfold State.copy
  repeat' first
    | with_reducible assumption
    | with_reducible apply Copy.move_keeps
    | split

theorem State.countEscape_keeps {r : State} {s : State} {kind : ℕ} (hk : Keeps r s) : Keeps r (State.countEscape s kind) := by
  unfold State.countEscape
  repeat' first
    | with_reducible assumption
    | with_reducible apply State.inc_keeps
    | split

theorem State.countScrub_keeps {r : State} {s : State} {n : ℕ} (hk : Keeps r s) : Keeps r (State.countScrub s n) := by
  unfold State.countScrub
  repeat' first
    | with_reducible assumption
    | (with_reducible refine State.modMag_keeps (fun _ => id) ?_)

theorem State.countTime_keeps {r : State} {s : State} {ns : ℕ} (hk : Keeps r s) : Keeps r (State.countTime s ns) := by
  unfold State.countTime
  repeat' first
    | with_reducible assumption
    | (fail_if_no_progress (with_reducible refine Keeps.lit ?_ rfl rfl rfl rfl))

theorem State.cutFrame_keeps {r : State} {s : State} {k : ℕ} {x : Sender} (hk : Keeps r s) : Keeps r (State.cutFrame s k x) := by
  unfold State.cutFrame
  repeat' first
    | with_reducible assumption
    | (extract_lets +onlyGivenNames x; first
        | (refine Keeps.step (s := x) ?_ ?_; rotate_left; ((try clear_value x); intro hx); rotate_left; subst x)
        | (refine Keeps.step (s := x.2) ?_ ?_; rotate_left; ((try clear_value x); intro hx); rotate_left; subst x)
        | (first | (have := (x : Keeper)) | (have := (x : Collector)) | (have := (x : Mag)) | (have := (x : Rstc)); subst x)
        | clear_value x | skip)
    | with_reducible apply State.incBy_keeps
    | with_reducible apply State.inc_keeps
    | split
    | (fail_if_no_progress (with_reducible refine Keeps.maps ?_))

theorem State.takeReq_keeps {r : State} {s : State} {z1 : DramReq} {ecc : List EccFinding} (hk : Keeps r s) : Keeps r (State.takeReq s z1 ecc) := by
  unfold State.takeReq
  repeat' first
    | with_reducible assumption
    | with_reducible apply State.dramServe_keeps
    | with_reducible apply State.serveOff_keeps
    | split
    | (fail_if_no_progress (with_reducible refine Keeps.lit ?_ rfl rfl rfl rfl))

theorem State.cxlMem_keeps {r : State} {s : State} {off : ℕ} {len : ℕ} {w : Option (List Byte)} {ecc : List EccFinding} (hk : Keeps r s) : Keeps r (State.cxlMem s off len w ecc) := by
  unfold State.cxlMem
  repeat' first
    | with_reducible assumption
    | (intro x)
    | with_reducible apply State.takeReq_keeps
    | with_reducible apply State.each_keeps
    | with_reducible apply State.inc_keeps
    | with_reducible apply State.when_keeps

theorem State.declare_keeps {r : State} {s : State} {f : Frame} {x : QEntry} (hk : Keeps r s) : Keeps r (State.declare s f x) := by
  unfold State.declare
  repeat' first
    | with_reducible assumption
    | with_reducible apply State.modBank_keeps
    | with_reducible apply State.dropRef_keeps
    | with_reducible apply State.modFrame_keeps

theorem State.deliver_keeps {r : State} {s : State} {p : ProxyPicture} (hk : Keeps r s) : Keeps r (State.deliver s p) := by
  unfold State.deliver
  repeat' first
    | with_reducible assumption
    | (intro x)
    | (extract_lets +onlyGivenNames x; first
        | (refine Keeps.step (s := x) ?_ ?_; rotate_left; ((try clear_value x); intro hx); rotate_left; subst x)
        | (refine Keeps.step (s := x.2) ?_ ?_; rotate_left; ((try clear_value x); intro hx); rotate_left; subst x)
        | (first | (have := (x : Keeper)) | (have := (x : Collector)) | (have := (x : Mag)) | (have := (x : Rstc)); subst x)
        | clear_value x | skip)
    | (with_reducible refine Keeps.snd (by assumption) ?_)
    | with_reducible apply State.enqueue_keeps
    | with_reducible apply State.memWrite_keeps
    | with_reducible apply State.clearBit_keeps
    | with_reducible apply State.inc_keeps
    | (with_reducible apply List.foldl_keeps_snd)
    | split

theorem State.sendNote_keeps {r : State} {s : State} {n : Note} (hk : Keeps r s) : Keeps r (State.sendNote s n) := by
  unfold State.sendNote
  repeat' first
    | with_reducible assumption
    | (intro x)
    | with_reducible apply State.enqueue_keeps
    | with_reducible apply State.emit_keeps
    | with_reducible apply State.sendCan_keeps
    | with_reducible apply State.when_keeps
    | with_reducible apply State.each_keeps
    | with_reducible apply State.draw_keeps

theorem State.deliverNotes_keeps {r : State} {s : State} (hk : Keeps r s) : Keeps r (State.deliverNotes s) := by
  unfold State.deliverNotes
  repeat' first
    | with_reducible assumption
    | with_reducible apply State.sendNote_keeps
    | with_reducible apply State.each_keeps
    | split
    | (fail_if_no_progress (with_reducible refine Keeps.lit ?_ rfl rfl rfl rfl))

theorem State.deliverRx_keeps {r : State} {s : State} {p : ℕ} {c : ℕ} {l : List ℕ} (hk : Keeps r s) : Keeps r (State.deliverRx s p c l) := by
  unfold State.deliverRx
  repeat' first
    | with_reducible assumption
    | (extract_lets +onlyGivenNames x; first
        | (refine Keeps.step (s := x) ?_ ?_; rotate_left; ((try clear_value x); intro hx); rotate_left; subst x)
        | (refine Keeps.step (s := x.2) ?_ ?_; rotate_left; ((try clear_value x); intro hx); rotate_left; subst x)
        | (first | (have := (x : Keeper)) | (have := (x : Collector)) | (have := (x : Mag)) | (have := (x : Rstc)); subst x)
        | clear_value x | skip)
    | (with_reducible refine Keeps.snd (by assumption) ?_)
    | with_reducible apply State.icuPulse_keeps
    | with_reducible apply State.modPort_keeps
    | with_reducible apply State.memWrite_keeps
    | with_reducible apply State.inc_keeps
    | with_reducible apply State.memRead_keeps
    | split

theorem State.keepEntries_keeps {r : State} {s : State} {q : ℕ} {l : ℕ} {p : QEntry → Bool} (hk : Keeps r s) : Keeps r (State.keepEntries s q l p) := by
  unfold State.keepEntries
  repeat' first
    | with_reducible assumption
    | with_reducible apply State.setEntries_keeps
    | with_reducible apply State.settleGap_keeps

theorem State.discardFrame_keeps {r : State} {s : State} {f : Frame} (hk : Keeps r s) : Keeps r (State.discardFrame s f) := by
  unfold State.discardFrame
  repeat' first
    | with_reducible assumption
    | (intro x)
    | with_reducible apply State.keepEntries_keeps
    | with_reducible apply State.each_keeps

theorem State.dmaPass_keeps {r : State} {s : State} {n : ℕ} (hk : Keeps r s) : Keeps r (State.dmaPass s n) := by
  unfold State.dmaPass
  repeat' first
    | with_reducible assumption
    | with_reducible apply State.set_keeps
    | with_reducible apply State.modChan_keeps

theorem State.dmaWait_keeps {r : State} {s : State} {n : ℕ} {k : ℕ} {timeout : ℕ} (hk : Keeps r s) : Keeps r (State.dmaWait s n k timeout) := by
  unfold State.dmaWait
  repeat' first
    | with_reducible assumption
    | with_reducible apply State.set_keeps
    | with_reducible apply State.modChan_keeps

theorem State.dramHot_keeps {r : State} {s : State} (hk : Keeps r s) : Keeps r (State.dramHot s) := by
  unfold State.dramHot
  repeat' first
    | with_reducible assumption
    | (intro x)
    | (extract_lets +onlyGivenNames x; first
        | (refine Keeps.step (s := x) ?_ ?_; rotate_left; ((try clear_value x); intro hx); rotate_left; subst x)
        | (refine Keeps.step (s := x.2) ?_ ?_; rotate_left; ((try clear_value x); intro hx); rotate_left; subst x)
        | (first | (have := (x : Keeper)) | (have := (x : Collector)) | (have := (x : Mag)) | (have := (x : Rstc)); subst x)
        | clear_value x | skip)
    | with_reducible apply State.set_keeps
    | with_reducible apply State.when_keeps
    | split

theorem State.unpredict_keeps {r : State} {s : State} {f : Frame} (hk : Keeps r s) : Keeps r (State.unpredict s f) := by
  unfold State.unpredict
  repeat' first
    | with_reducible assumption
    | (intro x)
    | with_reducible apply State.declare_keeps
    | with_reducible apply State.each_keeps
    | with_reducible apply State.modFrame_keeps

theorem State.dropFifth_keeps {r : State} {s : State} {e : ℕ} (hk : Keeps r s) : Keeps r (State.dropFifth s e) := by
  unfold State.dropFifth
  repeat' first
    | with_reducible assumption
    | with_reducible apply State.inc_keeps
    | with_reducible apply State.set_keeps
    | with_reducible apply State.raise_keeps
    | with_reducible apply State.unpredict_keeps
    | with_reducible apply State.modFrame_keeps
    | split
    | (fail_if_no_progress (with_reducible refine Keeps.lit ?_ rfl rfl rfl rfl))

theorem State.unqueue_keeps {r : State} {s : State} {p : ℕ} {c : ℕ} (hk : Keeps r s) : Keeps r (State.unqueue s p c) := by
  unfold State.unqueue
  repeat' first
    | with_reducible assumption
    | with_reducible apply State.modPort_keeps

theorem State.dropHeads_keeps {r : State} {p c n : Nat} {s : State} (h : Keeps r s) : Keeps r (State.dropHeads p c n s) := by
  induction n generalizing s with
  | zero => exact h
  | succ n ih =>
    unfold State.dropHeads
    split
    · split
      · exact ih (State.dropLong_keeps (State.unqueue_keeps h))
      · exact h
    · exact h

theorem State.dropPart_keeps {r : State} {s : State} {c : ℕ} {id : ℕ} (hk : Keeps r s) : Keeps r (State.dropPart s c id) := by
  unfold State.dropPart
  repeat' first
    | with_reducible assumption
    | with_reducible apply State.modCan_keeps

theorem State.dropSlot_keeps {r : State} {s : State} {x : SlotReq} (hk : Keeps r s) : Keeps r (State.dropSlot s x) := by
  unfold State.dropSlot
  repeat' first
    | with_reducible assumption
    | (fail_if_no_progress (with_reducible refine Keeps.lit ?_ rfl rfl rfl rfl))

theorem State.emitRec_keeps {r : State} {s : State} {e : ℕ} {j : ℕ} {c : ℕ} {z4 : TsRec} (hk : Keeps r s) : Keeps r (State.emitRec s e j c z4) := by
  unfold State.emitRec
  repeat' first
    | with_reducible assumption
    | (intro x)
    | with_reducible apply State.raise_keeps
    | with_reducible apply State.dropRef_keeps
    | with_reducible apply State.when_keeps
    | with_reducible apply State.each_keeps
    | with_reducible apply State.modFrame_keeps
    | split

theorem State.takeRecord_keeps {r : State} {q l e j n : Nat} {s : State} (h : Keeps r s) : Keeps r (State.takeRecord q l e j n s).2 := by
  induction n generalizing s with
  | zero => exact h
  | succ n ih =>
    unfold State.takeRecord
    extract_lets t
    have hc : Keeps r t := State.checkLane_keeps h
    clear_value t
    have hd := State.dequeue_keeps (q := q) (l := l) hc
    split
    · exact hc
    · split
      · refine Keeps.ite_snd (ih hd) (Keeps.ite_snd hc ?_)
        split
        · exact hd
        · exact hc
      · exact Keeps.ite_snd hd (Keeps.ite_snd (ih (State.dequeue_keeps (State.inc_keeps hc))) hc)

theorem State.takeRow_keeps {r : State} {f : Frame} {j : Nat} {l : List Nat} {s : State} (h : Keeps r s) : Keeps r (State.takeRow f j l s).2 := by
  induction l generalizing s with
  | nil => exact h
  | cons c cs ih =>
    unfold State.takeRow
    split
    split
    · rename_i e; exact Keeps.snd e (State.takeRecord_keeps h)
    · rename_i e
      have h1 := Keeps.snd e (State.takeRecord_keeps h)
      split
      · rename_i e; exact Keeps.snd e (ih h1)
      · rename_i e; exact Keeps.snd e (ih h1)

theorem State.endMetas_keeps {r : State} {s : State} {e : ℕ} (hk : Keeps r s) : Keeps r (State.endMetas s e) := by
  unfold State.endMetas
  repeat' first
    | with_reducible assumption
    | (intro x)
    | with_reducible apply State.keepEntries_keeps
    | with_reducible apply State.each_keeps
    | (fail_if_no_progress (with_reducible refine Keeps.lit ?_ rfl rfl rfl rfl))

theorem State.emitTail_keeps {r : State} {s : State} {e : ℕ} (hk : Keeps r s) : Keeps r (State.emitTail s e) := by
  unfold State.emitTail
  repeat' first
    | with_reducible assumption
    | with_reducible apply State.endMetas_keeps
    | with_reducible apply State.modFrame_keeps
    | split

theorem State.stage_keeps {r : State} {s : State} {e : ℕ} (hk : Keeps r s) : Keeps r (State.stage s e) := by
  unfold State.stage
  repeat' first
    | with_reducible assumption
    | (with_reducible refine State.modMag_keeps (fun _ => id) ?_)
    | split

theorem State.emitRow_keeps {r : State} {s : State} {e : ℕ} (hk : Keeps r s) : OptKeeps r (State.emitRow s e) := by
  unfold State.emitRow
  repeat' first
    | (with_reducible apply OptKeeps.some)
    | (with_reducible exact OptKeeps.none)
    | with_reducible assumption
    | (intro x)
    | (extract_lets +onlyGivenNames x; first
        | (refine Keeps.step (s := x) ?_ ?_; rotate_left; ((try clear_value x); intro hx); rotate_left; subst x)
        | (refine Keeps.step (s := x.2) ?_ ?_; rotate_left; ((try clear_value x); intro hx); rotate_left; subst x)
        | (first | (have := (x : Keeper)) | (have := (x : Collector)) | (have := (x : Mag)) | (have := (x : Rstc)); subst x)
        | clear_value x | skip)
    | (with_reducible refine Keeps.snd (by assumption) ?_)
    | with_reducible apply State.when_keeps
    | with_reducible apply State.emitRec_keeps
    | with_reducible apply State.each_keeps
    | with_reducible apply State.modFrame_keeps
    | with_reducible apply State.takeRow_keeps
    | with_reducible apply State.emitTail_keeps
    | with_reducible apply State.stage_keeps
    | split

theorem State.emitRows_keeps {r : State} {e n : Nat} {s : State} (h : Keeps r s) : Keeps r (State.emitRows e n s) := by
  induction n generalizing s with
  | zero => exact h
  | succ n ih =>
    unfold State.emitRows
    split
    · exact h
    · rename_i e1; exact ih ((State.emitRow_keeps h).keeps _ e1)

theorem State.endRound_keeps {r : State} {s : State} {b : Superblock} {z2 : Round} (hk : Keeps r s) : Keeps r (State.endRound s b z2) := by
  unfold State.endRound
  repeat' first
    | with_reducible assumption
    | (with_reducible refine State.modMag_keeps (fun _ => id) ?_)
    | with_reducible apply State.commitJseq_keeps
    | with_reducible apply State.commit_keeps
    | with_reducible apply State.flushAll_keeps

theorem State.placeUnit_keeps {r : State} {s : State} {b : Superblock} {u : StagedUnit} (hk : Keeps r s) : Keeps r (State.placeUnit s b u) := by
  unfold State.placeUnit
  repeat' first
    | with_reducible assumption
    | (extract_lets +onlyGivenNames x; first
        | (refine Keeps.step (s := x) ?_ ?_; rotate_left; ((try clear_value x); intro hx); rotate_left; subst x)
        | (refine Keeps.step (s := x.2) ?_ ?_; rotate_left; ((try clear_value x); intro hx); rotate_left; subst x)
        | (first | (have := (x : Keeper)) | (have := (x : Collector)) | (have := (x : Mag)) | (have := (x : Rstc)); subst x)
        | clear_value x | skip)
    | (with_reducible refine State.modMag_keeps (fun _ => id) ?_)
    | with_reducible apply State.mghStatus_keeps
    | with_reducible apply State.set_keeps
    | with_reducible apply State.beginClose_keeps
    | split

theorem State.endUnit_keeps {r : State} {s : State} {f : Frame} (hk : Keeps r s) : Keeps r (State.endUnit s f) := by
  unfold State.endUnit
  repeat' first
    | with_reducible assumption
    | with_reducible apply State.placeUnit_keeps
    | split

theorem State.settleGrant_keeps {r : State} {s : State} (hk : Keeps r s) : Keeps r (State.settleGrant s) := by
  unfold State.settleGrant
  repeat' first
    | with_reducible assumption
    | with_reducible apply State.askFor_keeps
    | split
    | (fail_if_no_progress (with_reducible refine Keeps.lit ?_ rfl rfl rfl rfl))

theorem State.formGrant_keeps {r : State} {s : State} (hk : Keeps r s) : Keeps r (State.formGrant s) := by
  unfold State.formGrant
  repeat' first
    | with_reducible assumption
    | (intro x)
    | with_reducible apply State.settleGrant_keeps
    | with_reducible apply State.emit_keeps
    | with_reducible apply State.when_keeps
    | with_reducible apply State.set_keeps
    | (fail_if_no_progress (with_reducible refine Keeps.lit ?_ rfl rfl rfl rfl))

theorem State.freeDie_keeps {r : State} {s : State} {d : ℕ} (hk : Keeps r s) : Keeps r (State.freeDie s d) := by
  unfold State.freeDie
  repeat' first
    | with_reducible assumption
    | with_reducible apply State.set_keeps
    | with_reducible apply State.loadDie_keeps
    | with_reducible apply State.modDomain_keeps

theorem State.gangFail_keeps {r : State} {s : State} (hk : Keeps r s) : Keeps r (State.gangFail s) := by
  unfold State.gangFail
  repeat' first
    | with_reducible assumption
    | (intro x)
    | with_reducible apply State.light_keeps
    | with_reducible apply State.raise_keeps
    | with_reducible apply State.set_keeps
    | with_reducible apply State.lockLost_keeps
    | with_reducible apply State.when_keeps
    | (fail_if_no_progress (with_reducible refine Keeps.lit ?_ rfl rfl rfl rfl))

theorem State.gangDown_keeps {r : State} {s : State} (hk : Keeps r s) : Keeps r (State.gangDown s) := by
  unfold State.gangDown
  repeat' first
    | with_reducible assumption
    | (intro x)
    | with_reducible apply State.loseFollower_keeps
    | with_reducible apply State.each_keeps
    | with_reducible apply State.gangFail_keeps
    | with_reducible apply State.when_keeps

theorem State.gateDies_keeps {r : State} {s : State} (hk : Keeps r s) : Keeps r (State.gateDies s) := by
  unfold State.gateDies
  repeat' first
    | with_reducible assumption
    | (intro x)
    | with_reducible apply State.each_keeps
    | (fail_if_no_progress (with_reducible refine Keeps.maps ?_))

theorem State.giveLatch_keeps {r : State} {s : State} {m : ℕ} {p : Passed} (hk : Keeps r s) : Keeps r (State.giveLatch s m p) := by
  unfold State.giveLatch
  repeat' first
    | with_reducible assumption
    | with_reducible apply State.modChan_keeps
    | with_reducible apply State.dmaWait_keeps

theorem State.releaseDie_keeps {r : State} {s : State} {d : ℕ} (hk : Keeps r s) : Keeps r (State.releaseDie s d) := by
  unfold State.releaseDie
  repeat' first
    | with_reducible assumption
    | (intro x)
    | (extract_lets +onlyGivenNames x; first
        | (refine Keeps.step (s := x) ?_ ?_; rotate_left; ((try clear_value x); intro hx); rotate_left; subst x)
        | (refine Keeps.step (s := x.2) ?_ ?_; rotate_left; ((try clear_value x); intro hx); rotate_left; subst x)
        | (first | (have := (x : Keeper)) | (have := (x : Collector)) | (have := (x : Mag)) | (have := (x : Rstc)); subst x)
        | clear_value x | skip)
    | with_reducible apply State.modDomain_keeps
    | with_reducible apply State.set_keeps
    | with_reducible apply State.when_keeps
    | with_reducible apply State.freeDie_keeps
    | with_reducible apply State.loadDie_keeps
    | split

theorem State.ungate_keeps {r : State} {s : State} {e : ℕ} (hk : Keeps r s) : Keeps r (State.ungate s e) := by
  unfold State.ungate
  repeat' first
    | with_reducible assumption
    | (intro x)
    | with_reducible apply State.modEng_keeps
    | with_reducible apply State.when_keeps

theorem State.grantSlot_keeps {r : State} {s : State} {x : SlotReq} (hk : Keeps r s) : Keeps r (State.grantSlot s x) := by
  unfold State.grantSlot
  repeat' first
    | with_reducible assumption
    | with_reducible apply State.releaseDie_keeps
    | with_reducible apply State.ungate_keeps
    | split
    | (fail_if_no_progress (with_reducible refine Keeps.maps ?_))

theorem State.holdPacket_keeps {r : State} {s : State} {link : ℕ} {p : Packet} (hk : Keeps r s) : Keeps r (State.holdPacket s link p) := by
  unfold State.holdPacket
  repeat' first
    | with_reducible assumption
    | with_reducible apply State.inc_keeps
    | with_reducible apply State.set_keeps
    | split
    | (fail_if_no_progress (with_reducible refine Keeps.lit ?_ rfl rfl rfl rfl))

theorem State.writeChunk_keeps {r : State} {s : State} {x : Superblock} {b : ℕ} {pair : ℕ} {z4 : ℕ} {c : List ℕ} (hk : Keeps r s) : Keeps r (State.writeChunk s x b pair z4 c) := by
  unfold State.writeChunk
  repeat' first
    | with_reducible assumption
    | with_reducible apply State.putBlocks_keeps
    | with_reducible apply State.nvme_keeps

theorem State.writeRow_keeps {r : State} {s : State} {b : Superblock} {z2 : ℕ} {data : List ℕ} (hk : Keeps r s) : Keeps r (State.writeRow s b z2 data) := by
  unfold State.writeRow
  repeat' first
    | with_reducible assumption
    | (intro x)
    | with_reducible apply State.writeChunk_keeps
    | with_reducible apply State.each_keeps
    | split

theorem State.startRound_keeps {r : State} {s : State} {final : Bool} (hk : Keeps r s) : Keeps r (State.startRound s final) := by
  unfold State.startRound
  repeat' first
    | with_reducible assumption
    | (intro x)
    | (with_reducible refine State.modMag_keeps (fun _ => id) ?_)
    | with_reducible apply State.writeAll_keeps
    | with_reducible apply State.writeRow_keeps
    | with_reducible apply State.each_keeps
    | split

theorem State.powerFailCommit_keeps {r : State} {s : State} (hk : Keeps r s) : Keeps r (State.powerFailCommit s) := by
  unfold State.powerFailCommit
  repeat' first
    | with_reducible assumption
    | (with_reducible refine State.modMag_keeps (fun _ => id) ?_)
    | with_reducible apply State.mghStatus_keeps
    | with_reducible apply State.startRound_keeps
    | with_reducible apply State.set_keeps
    | split
    | (fail_if_no_progress (with_reducible refine Keeps.lit ?_ rfl rfl rfl rfl))

theorem State.holdup_keeps {r s : State} (h : Keeps r s) : Keeps r s.holdup := by
  unfold State.holdup
  extract_lets s1 t1 k1 k2 c1 c2 s2 s3 s4
  have h1 : Keeps r s1 := State.inc_keeps (State.set_keeps (State.set_keeps h))
  have h2 : Keeps r s2 := Keeps.maps (State.set_keeps h1) id id id id id id id id id id id id id (by simp) id id
  have h3 : Keeps r s3 := State.powerFailCommit_keeps h2
  clear_value s3
  exact State.lanesDown_keeps (Keeps.maps h3 id id id id id (by simp) (by simp) (by simp) id id (by simp) id id id id id)

theorem State.hostConfig_keeps {r : State} {s : State} (hk : Keeps r s) : Keeps r (State.hostConfig s) := by
  unfold State.hostConfig
  repeat' first
    | with_reducible assumption
    | (intro x)
    | with_reducible apply State.emit_keeps
    | with_reducible apply State.each_keeps
    | with_reducible apply State.draw_keeps
    | (fail_if_no_progress (with_reducible refine Keeps.lit ?_ rfl rfl rfl rfl))

theorem State.icuInput_keeps {r : State} {s : State} {n : ℕ} {level : Bool} (hk : Keeps r s) : Keeps r (State.icuInput s n level) := by
  unfold State.icuInput
  repeat' first
    | with_reducible assumption
    | (extract_lets +onlyGivenNames x; first
        | (refine Keeps.step (s := x) ?_ ?_; rotate_left; ((try clear_value x); intro hx); rotate_left; subst x)
        | (refine Keeps.step (s := x.2) ?_ ?_; rotate_left; ((try clear_value x); intro hx); rotate_left; subst x)
        | (first | (have := (x : Keeper)) | (have := (x : Collector)) | (have := (x : Mag)) | (have := (x : Rstc)); subst x)
        | clear_value x | skip)
    | with_reducible apply State.icuEvent_keeps
    | with_reducible apply State.putSource_keeps
    | split

theorem State.idleCheck_keeps {r : State} {s : State} (hk : Keeps r s) : Keeps r (State.idleCheck s) := by
  unfold State.idleCheck
  repeat' first
    | with_reducible assumption
    | (intro x)
    | with_reducible apply State.set_keeps
    | with_reducible apply State.when_keeps
    | split
    | (fail_if_no_progress (with_reducible refine Keeps.lit ?_ rfl rfl rfl rfl))

theorem State.judgeAge_keeps {r : State} {s : State} {i : ℕ} (hk : Keeps r s) : Keeps r (State.judgeAge s i) := by
  unfold State.judgeAge
  repeat' first
    | with_reducible assumption
    | with_reducible apply State.raiseAs_keeps
    | split
    | (fail_if_no_progress (with_reducible refine Keeps.lit ?_ rfl rfl rfl rfl))

theorem State.linkDown_keeps {r : State} {s : State} {k : ℕ} (hk : Keeps r s) : Keeps r (State.linkDown s k) := by
  unfold State.linkDown
  repeat' first
    | with_reducible assumption
    | (extract_lets +onlyGivenNames x; first
        | (refine Keeps.step (s := x) ?_ ?_; rotate_left; ((try clear_value x); intro hx); rotate_left; subst x)
        | (refine Keeps.step (s := x.2) ?_ ?_; rotate_left; ((try clear_value x); intro hx); rotate_left; subst x)
        | (first | (have := (x : Keeper)) | (have := (x : Collector)) | (have := (x : Mag)) | (have := (x : Rstc)); subst x)
        | clear_value x | skip)
    | with_reducible apply State.train_keeps
    | with_reducible apply State.clearBit_keeps
    | split

theorem State.judgeLink_keeps {r : State} {s : State} {k : ℕ} (hk : Keeps r s) : Keeps r (State.judgeLink s k) := by
  unfold State.judgeLink
  repeat' first
    | with_reducible assumption
    | (intro x)
    | (extract_lets +onlyGivenNames x; first
        | (refine Keeps.step (s := x) ?_ ?_; rotate_left; ((try clear_value x); intro hx); rotate_left; subst x)
        | (refine Keeps.step (s := x.2) ?_ ?_; rotate_left; ((try clear_value x); intro hx); rotate_left; subst x)
        | (first | (have := (x : Keeper)) | (have := (x : Collector)) | (have := (x : Mag)) | (have := (x : Rstc)); subst x)
        | clear_value x | skip)
    | with_reducible apply State.linkDown_keeps
    | with_reducible apply State.when_keeps
    | with_reducible apply State.setBit_keeps
    | with_reducible apply State.set_keeps
    | split
    | (fail_if_no_progress (with_reducible refine Keeps.lit ?_ rfl rfl rfl rfl))

theorem State.skewCode_keeps {r : State} {s : State} {e : ℤ} {d : ℕ} (hk : Keeps r s) : Keeps r (State.skewCode s e d).2 := by
  unfold State.skewCode
  repeat' first
    | with_reducible assumption
    | (extract_lets +onlyGivenNames x; first
        | (refine Keeps.step (s := x) ?_ ?_; rotate_left; ((try clear_value x); intro hx); rotate_left; subst x)
        | (refine Keeps.step (s := x.2) ?_ ?_; rotate_left; ((try clear_value x); intro hx); rotate_left; subst x)
        | (first | (have := (x : Keeper)) | (have := (x : Collector)) | (have := (x : Mag)) | (have := (x : Rstc)); subst x)
        | clear_value x | skip)
    | (with_reducible refine Keeps.snd (by assumption) ?_)
    | with_reducible apply State.draw_keeps
    | split

theorem State.judgeSkew_keeps {r : State} {s : State} {last : ℕ} {at8 : ℕ} (hk : Keeps r s) : Keeps r (State.judgeSkew s last at8) := by
  unfold State.judgeSkew
  repeat' first
    | with_reducible assumption
    | (with_reducible refine Keeps.snd (by assumption) ?_)
    | with_reducible apply State.gangFail_keeps
    | with_reducible apply State.when_keeps
    | with_reducible apply State.lockLost_keeps
    | with_reducible apply State.lockGained_keeps
    | with_reducible apply State.set_keeps
    | with_reducible apply State.skewCode_keeps
    | split
    | (fail_if_no_progress (with_reducible refine Keeps.lit ?_ rfl rfl rfl rfl))

theorem State.judgeTemp_keeps {r : State} {s : State} {t : ℤ} (hk : Keeps r s) : Keeps r (State.judgeTemp s t) := by
  unfold State.judgeTemp
  repeat' first
    | with_reducible assumption
    | (intro x)
    | (extract_lets +onlyGivenNames x; first
        | (refine Keeps.step (s := x) ?_ ?_; rotate_left; ((try clear_value x); intro hx); rotate_left; subst x)
        | (refine Keeps.step (s := x.2) ?_ ?_; rotate_left; ((try clear_value x); intro hx); rotate_left; subst x)
        | (first | (have := (x : Keeper)) | (have := (x : Collector)) | (have := (x : Mag)) | (have := (x : Rstc)); subst x)
        | clear_value x | skip)
    | with_reducible apply State.raise_keeps
    | with_reducible apply State.when_keeps
    | with_reducible apply State.set_keeps
    | split
    | (fail_if_no_progress (with_reducible refine Keeps.maps ?_))

theorem State.keepRef_keeps {r : State} {s : State} {e : ℕ} {j : Job} {x0 : ℕ} {z4 : TsRec} (hk : Keeps r s) : Keeps r (State.keepRef s e j x0 z4) := by
  unfold State.keepRef
  repeat' first
    | with_reducible assumption
    | split
    | (fail_if_no_progress (with_reducible refine Keeps.maps ?_))

theorem State.keeperStep_keeps {r : State} {s : State} (hk : Keeps r s) : Keeps r (State.keeperStep s) := by
  unfold State.keeperStep
  repeat' first
    | with_reducible assumption
    | with_reducible apply State.idleCheck_keeps
    | with_reducible apply State.dramHot_keeps
    | with_reducible apply State.settleGrant_keeps
    | with_reducible apply State.gateDies_keeps

theorem State.rankStates_keeps {r : State} {s : State} {n : ℕ} {spare : Option ℕ} (hk : Keeps r s) : Keeps r (State.rankStates s n spare) := by
  unfold State.rankStates
  repeat' first
    | with_reducible assumption
    | (intro x)
    | with_reducible apply State.set_keeps
    | with_reducible apply State.each_keeps
    | split

theorem State.lmcReady_keeps {r : State} {s : State} {n : ℕ} {g : ℕ} {temps : List ℤ} (hk : Keeps r s) : Keeps r (State.lmcReady s n g temps) := by
  unfold State.lmcReady
  repeat' first
    | with_reducible assumption
    | with_reducible apply State.rankStates_keeps
    | with_reducible apply State.set_keeps
    | (fail_if_no_progress (with_reducible refine Keeps.maps ?_))

theorem State.load_keeps {r : State} {s : State} {e : ℕ} {readBackOk : Bool} (hk : Keeps r s) : Keeps r (State.load s e readBackOk).2 := by
  unfold State.load
  repeat' first
    | with_reducible assumption
    | (extract_lets +onlyGivenNames x; first
        | (refine Keeps.step (s := x) ?_ ?_; rotate_left; ((try clear_value x); intro hx); rotate_left; subst x)
        | (refine Keeps.step (s := x.2) ?_ ?_; rotate_left; ((try clear_value x); intro hx); rotate_left; subst x)
        | (first | (have := (x : Keeper)) | (have := (x : Collector)) | (have := (x : Mag)) | (have := (x : Rstc)); subst x)
        | clear_value x | skip)
    | (with_reducible refine Keeps.snd (by assumption) ?_)
    | with_reducible apply State.set_keeps
    | with_reducible apply State.modEng_keeps
    | with_reducible apply State.memRead_keeps
    | split

theorem State.reachReady_keeps {r : State} {s : State} {e : ℕ} (hk : Keeps r s) : Keeps r (State.reachReady s e) := by
  unfold State.reachReady
  repeat' first
    | with_reducible assumption
    | with_reducible apply State.setEng_keeps
    | with_reducible apply State.modEng_keeps
    | with_reducible apply State.spareStatus_keeps

theorem State.loaded_keeps {r : State} {s : State} {e : ℕ} (hk : Keeps r s) : Keeps r (State.loaded s e) := by
  unfold State.loaded
  repeat' first
    | with_reducible assumption
    | with_reducible apply State.reachReady_keeps
    | with_reducible apply State.set_keeps

theorem State.markerError_keeps {r : State} {s : State} {lane : ℕ} (hk : Keeps r s) : Keeps r (State.markerError s lane) := by
  unfold State.markerError
  repeat' first
    | with_reducible assumption
    | with_reducible apply State.inc_keeps
    | with_reducible apply State.putPpl_keeps

theorem State.mboxHpp_keeps {r : State} {s : State} {l : List ℕ} (hk : Keeps r s) : Keeps r (State.mboxHpp s l) := by
  unfold State.mboxHpp
  repeat' first
    | with_reducible assumption
    | with_reducible apply State.arrive_keeps
    | with_reducible apply State.mailboxDone_keeps
    | split

theorem State.mboxLog_keeps {r : State} {s : State} {effects : Bool} (hk : Keeps r s) : Keeps r (State.mboxLog s effects) := by
  unfold State.mboxLog
  repeat' first
    | with_reducible assumption
    | with_reducible apply State.draw_keeps
    | with_reducible apply State.mailboxDone_keeps
    | split

theorem State.mboxTime_keeps {r : State} {s : State} (hk : Keeps r s) : Keeps r (State.mboxTime s) := by
  unfold State.mboxTime
  repeat' first
    | with_reducible assumption
    | with_reducible apply State.mailboxDone_keeps

theorem State.mismatch_keeps {r : State} {s : State} {e : ℕ} {j : Job} (hk : Keeps r s) : Keeps r (State.mismatch s e j) := by
  unfold State.mismatch
  repeat' first
    | with_reducible assumption
    | (intro x)
    | with_reducible apply State.modFrame_keeps
    | with_reducible apply State.requestReset_keeps
    | with_reducible apply State.wantBasic_keeps
    | with_reducible apply State.when_keeps
    | with_reducible apply State.raise_keeps
    | (fail_if_no_progress (with_reducible refine Keeps.lit ?_ rfl rfl rfl rfl))

theorem State.modJob_keeps {r : State} {s : State} {n : ℕ} {f : DmaJob → DmaJob} (hk : Keeps r s) : Keeps r (State.modJob s n f) := by
  unfold State.modJob
  repeat' first
    | with_reducible assumption
    | with_reducible apply State.modChan_keeps

theorem State.writeMount_keeps {r : State} {s : State} {b : ℕ} (hk : Keeps r s) : Keeps r (State.writeMount s b) := by
  unfold State.writeMount
  repeat' first
    | with_reducible assumption
    | with_reducible apply State.writeBay_keeps
    | with_reducible apply State.modBay_keeps
    | with_reducible apply State.flushBay_keeps
    | split

theorem State.repairClip_keeps {r : State} {s : State} {v : SetView} {e : CatEntry} (hk : Keeps r s) : Keeps r (State.repairClip s v e) := by
  unfold State.repairClip
  repeat' first
    | with_reducible assumption
    | with_reducible apply State.writeAll_keeps
    | with_reducible apply State.flushAll_keeps
    | with_reducible apply State.set_keeps
    | split

theorem State.repairIndex_keeps {r : State} {s : State} {v : SetView} (hk : Keeps r s) : Keeps r (State.repairIndex s v).2 := by
  unfold State.repairIndex
  repeat' first
    | with_reducible assumption
    | (intro x)
    | (extract_lets +onlyGivenNames x; first
        | (refine Keeps.step (s := x) ?_ ?_; rotate_left; ((try clear_value x); intro hx); rotate_left; subst x)
        | (refine Keeps.step (s := x.2) ?_ ?_; rotate_left; ((try clear_value x); intro hx); rotate_left; subst x)
        | (first | (have := (x : Keeper)) | (have := (x : Collector)) | (have := (x : Mag)) | (have := (x : Rstc)); subst x)
        | clear_value x | skip)
    | with_reducible apply State.writeBay_keeps
    | with_reducible apply State.each_keeps
    | with_reducible apply State.flushAll_keeps
    | split

theorem State.repairHead_keeps {r : State} {s : State} {v : SetView} (hk : Keeps r s) : Keeps r (State.repairHead s v).2 := by
  unfold State.repairHead
  repeat' first
    | with_reducible assumption
    | (intro x)
    | with_reducible apply State.writeBay_keeps
    | with_reducible apply State.each_keeps
    | with_reducible apply State.flushAll_keeps
    | split

theorem State.recoverSet_keeps {r : State} {s : State} (hk : Keeps r s) : Keeps r (State.recoverSet s) := by
  unfold State.recoverSet
  repeat' first
    | with_reducible assumption
    | (intro x)
    | (with_reducible refine State.modMag_keeps (fun _ => id) ?_)
    | with_reducible apply State.set_keeps
    | with_reducible apply State.when_keeps
    | with_reducible apply State.writeSupers_keeps
    | with_reducible apply State.settleSet_keeps
    | with_reducible apply State.repairClip_keeps
    | with_reducible apply State.repairIndex_keeps
    | with_reducible apply State.repairHead_keeps
    | with_reducible apply State.nvme_keeps
    | with_reducible apply State.each_keeps
    | split

theorem State.moored_keeps {r : State} {s : State} {b : ℕ} {x : Option (Superblock × Bool)} (hk : Keeps r s) : Keeps r (State.moored s b x) := by
  unfold State.moored
  repeat' first
    | with_reducible assumption
    | (extract_lets +onlyGivenNames x; first
        | (refine Keeps.step (s := x) ?_ ?_; rotate_left; ((try clear_value x); intro hx); rotate_left; subst x)
        | (refine Keeps.step (s := x.2) ?_ ?_; rotate_left; ((try clear_value x); intro hx); rotate_left; subst x)
        | (first | (have := (x : Keeper)) | (have := (x : Collector)) | (have := (x : Mag)) | (have := (x : Rstc)); subst x)
        | clear_value x | skip)
    | with_reducible apply State.writeMount_keeps
    | with_reducible apply State.recoverSet_keeps
    | with_reducible apply State.settleSet_keeps
    | with_reducible apply State.logbook_keeps
    | with_reducible apply State.setBay_keeps
    | with_reducible apply State.set_keeps
    | with_reducible apply State.clear_keeps
    | with_reducible apply State.modBay_keeps
    | split
    | (fail_if_no_progress (with_reducible refine Keeps.lit ?_ rfl rfl rfl rfl))

theorem State.sendMsix_keeps {r : State} {s : State} {v : ℕ} (hk : Keeps r s) : Keeps r (State.sendMsix s v) := by
  unfold State.sendMsix
  repeat' first
    | with_reducible assumption
    | (extract_lets +onlyGivenNames x; first
        | (refine Keeps.step (s := x) ?_ ?_; rotate_left; ((try clear_value x); intro hx); rotate_left; subst x)
        | (refine Keeps.step (s := x.2) ?_ ?_; rotate_left; ((try clear_value x); intro hx); rotate_left; subst x)
        | (first | (have := (x : Keeper)) | (have := (x : Collector)) | (have := (x : Mag)) | (have := (x : Rstc)); subst x)
        | clear_value x | skip)
    | with_reducible apply State.emit_keeps
    | with_reducible apply State.putVector_keeps
    | split
    | (fail_if_no_progress (with_reducible refine Keeps.lit ?_ rfl rfl rfl rfl))

theorem State.msix_keeps {r : State} {s : State} {v : ℕ} (hk : Keeps r s) : Keeps r (State.msix s v) := by
  unfold State.msix
  repeat' first
    | with_reducible assumption
    | with_reducible apply State.sendMsix_keeps
    | with_reducible apply State.putVector_keeps
    | split

theorem State.msixAll_keeps {r : State} {s : State} (hk : Keeps r s) : Keeps r (State.msixAll s) := by
  unfold State.msixAll
  repeat' first
    | with_reducible assumption
    | with_reducible apply State.msix_keeps
    | with_reducible apply State.each_keeps

theorem State.newUnit_keeps {r : State} {s : State} {f : Frame} {unit : ℕ} (hk : Keeps r s) : Keeps r (State.newUnit s f unit) := by
  unfold State.newUnit
  repeat' first
    | with_reducible assumption
    | (with_reducible refine State.modMag_keeps (fun _ => id) ?_)
    | split

theorem State.nextInstant_keeps {r : State} {s : State} (hk : Keeps r s) : Keeps r (State.nextInstant s) := by
  unfold State.nextInstant
  repeat' first
    | with_reducible assumption
    | split
    | (fail_if_no_progress (with_reducible refine Keeps.lit ?_ rfl rfl rfl rfl))

theorem State.nextOp_keeps {r : State} {s : State} {n : ℕ} (hk : Keeps r s) : Keeps r (State.nextOp s n) := by
  unfold State.nextOp
  repeat' first
    | with_reducible assumption
    | with_reducible apply State.modJob_keeps

theorem State.nextProxyFrame_keeps {r : State} {s : State} {k : ℕ} (hk : Keeps r s) : Keeps r (State.nextProxyFrame s k) := by
  unfold State.nextProxyFrame
  repeat' first
    | with_reducible assumption
    | (extract_lets +onlyGivenNames x; first
        | (refine Keeps.step (s := x) ?_ ?_; rotate_left; ((try clear_value x); intro hx); rotate_left; subst x)
        | (refine Keeps.step (s := x.2) ?_ ?_; rotate_left; ((try clear_value x); intro hx); rotate_left; subst x)
        | (first | (have := (x : Keeper)) | (have := (x : Collector)) | (have := (x : Mag)) | (have := (x : Rstc)); subst x)
        | clear_value x | skip)
    | with_reducible apply State.cutFrame_keeps
    | split
    | (fail_if_no_progress (with_reducible refine Keeps.lit ?_ rfl rfl rfl rfl))

theorem State.noteDecision_keeps {r : State} {s : State} {f : Frame} {fixed : ℕ} {d : Decision} {time : ℕ} (hk : Keeps r s) : Keeps r (State.noteDecision s f fixed d time) := by
  unfold State.noteDecision
  repeat' first
    | with_reducible assumption
    | (intro x)
    | with_reducible apply State.inc_keeps
    | with_reducible apply State.when_keeps
    | with_reducible apply State.set_keeps

theorem State.noteLoad_keeps {r : State} {s : State} {e : ℕ} {err : ℕ} (hk : Keeps r s) : Keeps r (State.noteLoad s e err) := by
  unfold State.noteLoad
  repeat' first
    | with_reducible assumption
    | (intro x)
    | with_reducible apply State.when_keeps
    | with_reducible apply State.set_keeps

theorem State.partFound_keeps {r : State} {s : State} {q : ℕ} {ecc : EccFinding} (hk : Keeps r s) : Keeps r (State.partFound s q ecc).2 := by
  unfold State.partFound
  repeat' first
    | with_reducible assumption
    | with_reducible apply State.raise_keeps
    | with_reducible apply State.inc_keeps
    | split

theorem State.passLatch_keeps {r : State} {s : State} {n : ℕ} {k : ℕ} {timeout : ℕ} (hk : Keeps r s) : Keeps r (State.passLatch s n k timeout) := by
  unfold State.passLatch
  repeat' first
    | with_reducible assumption
    | with_reducible apply State.modChan_keeps
    | with_reducible apply State.dmaPass_keeps

theorem State.policed_keeps {r : State} {s : State} {p : ℕ} {c : ℕ} {len : ℕ} (hk : Keeps r s) : Keeps r (State.policed s p c len).2 := by
  unfold State.policed
  repeat' first
    | with_reducible assumption
    | (extract_lets +onlyGivenNames x; first
        | (refine Keeps.step (s := x) ?_ ?_; rotate_left; ((try clear_value x); intro hx); rotate_left; subst x)
        | (refine Keeps.step (s := x.2) ?_ ?_; rotate_left; ((try clear_value x); intro hx); rotate_left; subst x)
        | (first | (have := (x : Keeper)) | (have := (x : Collector)) | (have := (x : Mag)) | (have := (x : Rstc)); subst x)
        | clear_value x | skip)
    | with_reducible apply State.incWrap_keeps
    | with_reducible apply State.putPolice_keeps
    | split

theorem State.powerFailDone_keeps {r : State} {s : State} (hk : Keeps r s) : Keeps r (State.powerFailDone s) := by
  unfold State.powerFailDone
  repeat' first
    | with_reducible assumption
    | (with_reducible refine State.modMag_keeps (fun _ => id) ?_)
    | with_reducible apply State.set_keeps

theorem State.powerFailStep_keeps {r : State} {s : State} (hk : Keeps r s) : Keeps r (State.powerFailStep s) := by
  unfold State.powerFailStep
  repeat' first
    | with_reducible assumption
    | (intro x)
    | with_reducible apply State.powerFailDone_keeps
    | with_reducible apply State.settleSet_keeps
    | with_reducible apply State.when_keeps

theorem State.powerFailEnd_keeps {r : State} {s : State} (hk : Keeps r s) : Keeps r (State.powerFailEnd s) := by
  unfold State.powerFailEnd
  repeat' first
    | with_reducible assumption
    | (intro x)
    | (with_reducible refine State.modMag_keeps (fun _ => id) ?_)
    | with_reducible apply State.powerFailDone_keeps
    | with_reducible apply State.mghStatus_keeps
    | with_reducible apply State.tryClose_keeps
    | with_reducible apply State.settleSet_keeps
    | with_reducible apply State.powerFailStep_keeps
    | with_reducible apply State.shutdownBay_keeps
    | with_reducible apply State.each_keeps
    | split
    | (fail_if_no_progress (with_reducible refine Keeps.lit ?_ rfl rfl rfl rfl))

theorem State.powerFalls_keeps {r s : State} (h : Keeps r s) : Keeps r s.powerFalls := by
  have ht : Keeps r { s with kpr := { s.kpr with powerFail := some s.now } } := Keeps.lit h rfl rfl rfl rfl
  unfold State.powerFalls
  dsimp only
  split
  · exact State.when_keeps (fun u hu => State.emit_keeps (Keeps.lit hu rfl rfl rfl rfl)) ht
  · split
    · exact ht
    · split
      · exact State.emit_keeps (Keeps.maps h id id (fun _ => swf_nil _) (fun _ => swf_nil _) id id id id id id id id id id id id)
      · exact Keeps.maps h id id (fun _ => swf_nil _) (fun _ => swf_nil _) id id id id id id id id id id id id
    · split
      · exact Keeps.lit h rfl rfl rfl rfl
      · split
        · exact State.holdup_keeps ht
        · exact Keeps.maps (State.set_keeps ht) id id id id id id id id id id id id id id id id

theorem State.pprTrim_keeps {r : State} {s : State} (hk : Keeps r s) : Keeps r (State.pprTrim s) := by
  unfold State.pprTrim
  repeat' first
    | with_reducible assumption
    | (intro x)
    | with_reducible apply State.putPpl_keeps
    | with_reducible apply State.clearBit_keeps
    | with_reducible apply State.each_keeps

theorem State.pulseLine_keeps {r : State} {s : State} {k : ℕ} (hk : Keeps r s) : Keeps r (State.pulseLine s k) := by
  unfold State.pulseLine
  repeat' first
    | with_reducible assumption
    | (extract_lets +onlyGivenNames x; first
        | (refine Keeps.step (s := x) ?_ ?_; rotate_left; ((try clear_value x); intro hx); rotate_left; subst x)
        | (refine Keeps.step (s := x.2) ?_ ?_; rotate_left; ((try clear_value x); intro hx); rotate_left; subst x)
        | (first | (have := (x : Keeper)) | (have := (x : Collector)) | (have := (x : Mag)) | (have := (x : Rstc)); subst x)
        | clear_value x | skip)
    | with_reducible apply State.dmaPass_keeps
    | with_reducible apply State.each_keeps
    | with_reducible apply State.setBit_keeps
    | split

theorem State.putUnit_keeps {r : State} {s : State} {j : DecodeJob} {u : UnitResult} {pos : ℕ} (hk : Keeps r s) : Keeps r (State.putUnit s j u pos) := by
  unfold State.putUnit
  repeat' first
    | with_reducible assumption
    | (extract_lets +onlyGivenNames x; first
        | (refine Keeps.step (s := x) ?_ ?_; rotate_left; ((try clear_value x); intro hx); rotate_left; subst x)
        | (refine Keeps.step (s := x.2) ?_ ?_; rotate_left; ((try clear_value x); intro hx); rotate_left; subst x)
        | (first | (have := (x : Keeper)) | (have := (x : Collector)) | (have := (x : Mag)) | (have := (x : Rstc)); subst x)
        | clear_value x | skip)
    | with_reducible apply State.endJob_keeps
    | with_reducible apply State.memWrite_keeps
    | with_reducible apply Picture.write_keeps
    | split
    | (fail_if_no_progress (with_reducible refine Keeps.lit ?_ rfl rfl rfl rfl))

theorem State.queueRecord_keeps {r : State} {s : State} {epoch : ℕ} {row : ℕ} {col : ℕ} {flags : ℕ} {z5 : TsRec} (hk : Keeps r s) : Keeps r (State.queueRecord s epoch row col flags z5) := by
  unfold State.queueRecord
  repeat' first
    | with_reducible assumption
    | with_reducible apply State.putRecord_keeps
    | with_reducible apply State.flushLost_keeps

theorem State.readRow_keeps {r : State} {s : State} {x : Superblock} {pair : ℕ} {z3 : ℕ} (hk : Keeps r s) : Keeps r (State.readRow s x pair z3) := by
  unfold State.readRow
  repeat' first
    | with_reducible assumption
    | (intro x)
    | with_reducible apply State.nvme_keeps
    | with_reducible apply State.each_keeps

theorem State.receive_keeps {r : State} {s : State} {link : ℕ} {l : List ℕ} (hk : Keeps r s) : Keeps r (State.receive s link l) := by
  unfold State.receive
  repeat' first
    | with_reducible assumption
    | (extract_lets +onlyGivenNames x; first
        | (refine Keeps.step (s := x) ?_ ?_; rotate_left; ((try clear_value x); intro hx); rotate_left; subst x)
        | (refine Keeps.step (s := x.2) ?_ ?_; rotate_left; ((try clear_value x); intro hx); rotate_left; subst x)
        | (first | (have := (x : Keeper)) | (have := (x : Collector)) | (have := (x : Mag)) | (have := (x : Rstc)); subst x)
        | clear_value x | skip)
    | with_reducible apply State.acceptPacket_keeps
    | with_reducible apply State.set_keeps
    | with_reducible apply State.holdPacket_keeps
    | with_reducible apply State.inc_keeps
    | split

theorem State.reloadStep_keeps {r : State} {s : State} (hk : Keeps r s) : Keeps r (State.reloadStep s) := by
  unfold State.reloadStep
  dsimp only
  repeat' first
    | with_reducible assumption
    | with_reducible apply State.requestReset_keeps
    | with_reducible apply State.startLoad_keeps
    | split
    | (fail_if_no_progress (with_reducible refine Keeps.lit ?_ rfl rfl rfl rfl))

theorem State.request_keeps {r : State} {s : State} {h : Hpp} {op : HppOp} (hk : Keeps r s) : Keeps r (State.request s h op) := by
  unfold State.request
  repeat' first
    | with_reducible assumption
    | with_reducible apply State.arrive_keeps
    | split

theorem State.restMemory_keeps {r : State} {s : State} (hk : Keeps r s) : Keeps r (State.restMemory s) := by
  unfold State.restMemory
  repeat' first
    | with_reducible assumption
    | (intro x)
    | with_reducible apply State.drainTo_keeps
    | with_reducible apply State.selfRefresh_keeps
    | with_reducible apply State.each_keeps

theorem State.retainTime_keeps {r : State} {s : State} (hk : Keeps r s) : Keeps r (State.retainTime s) := by
  unfold State.retainTime
  repeat' first
    | with_reducible assumption
    | (intro x)
    | with_reducible apply State.when_keeps
    | (fail_if_no_progress (with_reducible refine Keeps.lit ?_ rfl rfl rfl rfl))

theorem State.verify_keeps {r : State} {s : State} {e : ℕ} {j : Job} {ref : Option Ref} {bins : List ℕ} {z5 : TsRec} {f : JobFaults} (hk : Keeps r s) : Keeps r (State.verify s e j ref bins z5 f).2 := by
  unfold State.verify
  repeat' first
    | with_reducible assumption
    | (extract_lets +onlyGivenNames x; first
        | (refine Keeps.step (s := x) ?_ ?_; rotate_left; ((try clear_value x); intro hx); rotate_left; subst x)
        | (refine Keeps.step (s := x.2) ?_ ?_; rotate_left; ((try clear_value x); intro hx); rotate_left; subst x)
        | (first | (have := (x : Keeper)) | (have := (x : Collector)) | (have := (x : Mag)) | (have := (x : Rstc)); subst x)
        | clear_value x | skip)
    | with_reducible apply State.mismatch_keeps
    | with_reducible apply State.inc_keeps
    | split

theorem State.runJob_keeps {r : State} {s : State} {e : ℕ} {j : Job} {f : JobFaults} (hk : Keeps r s) : Keeps r (State.runJob s e j f) := by
  unfold State.runJob
  repeat' first
    | with_reducible assumption
    | with_reducible apply State.keepRef_keeps
    | with_reducible apply State.queueRecord_keeps
    | with_reducible apply State.modEng_keeps
    | with_reducible apply State.countEscape_keeps
    | with_reducible apply State.verify_keeps

theorem State.runWords_keeps {r : State} {e n c : Nat} {s : State} (h : Keeps r s) : Keeps r (State.runWords e n c s).2 := by
  induction n generalizing c s with
  | zero => exact h
  | succ n ih =>
    unfold State.runWords
    dsimp only
    have hw := State.microword_keeps (e := e) (k := (s.eng e).pc) h
    split
    · exact hw
    · split
      · exact State.draw_keeps hw
      · have hm {f : Engine → Engine} := State.modEng_keeps (e := e) (f := f) (State.draw_keeps hw)
        split
        · exact hm
        · split
          · exact hm
          · exact ih hm

theorem State.runMacro_keeps {r : State} {s : State} {e : ℕ} (hk : Keeps r s) : Keeps r (State.runMacro s e).2 := by
  unfold State.runMacro
  repeat' first
    | with_reducible assumption
    | with_reducible apply State.runWords_keeps
    | split

theorem State.rxOther_keeps {r : State} {s : State} {c : ℕ} (hk : Keeps r s) : Keeps r (State.rxOther s c) := by
  unfold State.rxOther
  repeat' first
    | with_reducible assumption
    | with_reducible apply State.inc_keeps

theorem State.rxRing_keeps {r : State} {s : State} {c : ℕ} {f : CanFrame} (hk : Keeps r s) : Keeps r (State.rxRing s c f).2 := by
  unfold State.rxRing
  repeat' first
    | with_reducible assumption
    | (extract_lets +onlyGivenNames x; first
        | (refine Keeps.step (s := x) ?_ ?_; rotate_left; ((try clear_value x); intro hx); rotate_left; subst x)
        | (refine Keeps.step (s := x.2) ?_ ?_; rotate_left; ((try clear_value x); intro hx); rotate_left; subst x)
        | (first | (have := (x : Keeper)) | (have := (x : Collector)) | (have := (x : Mag)) | (have := (x : Rstc)); subst x)
        | clear_value x | skip)
    | (with_reducible refine Keeps.snd (by assumption) ?_)
    | with_reducible apply State.icuPulse_keeps
    | with_reducible apply State.modCan_keeps
    | with_reducible apply State.memWrite_keeps
    | with_reducible apply State.draw_keeps
    | with_reducible apply State.inc_keeps
    | with_reducible apply State.memRead_keeps
    | split

theorem State.safeSteps_keeps {r s : State} (h : Keeps r s) : Keeps r s.safeSteps := by
  unfold State.safeSteps
  dsimp only
  split
  · exact h
  · split
    · exact State.tryClose_keeps (State.beginClose_keeps (Keeps.maps (State.set_keeps h) id id id id id (by simp) id id id id id id (by simp) id id (by simp)))
    · exact Keeps.maps (State.set_keeps h) id id id id id (by simp) id id id id id id (by simp) id id (by simp)

theorem State.sampleInputs_keeps {r : State} {s : State} (hk : Keeps r s) : Keeps r (State.sampleInputs s) := by
  unfold State.sampleInputs
  repeat' first
    | with_reducible assumption
    | (intro x)
    | with_reducible apply State.icuInput_keeps
    | with_reducible apply State.each_keeps

theorem State.scrubBad_keeps {r : State} {s : State} {row : ℕ} {bay : ℕ} (hk : Keeps r s) : Keeps r (State.scrubBad s row bay) := by
  unfold State.scrubBad
  repeat' first
    | with_reducible assumption
    | with_reducible apply State.set_keeps
    | with_reducible apply State.raise_keeps

theorem State.scrubRepaired_keeps {r : State} {s : State} {bay : ℕ} (hk : Keeps r s) : Keeps r (State.scrubRepaired s bay) := by
  unfold State.scrubRepaired
  repeat' first
    | with_reducible assumption
    | with_reducible apply State.inc_keeps
    | with_reducible apply State.set_keeps
    | with_reducible apply State.raise_keeps

theorem State.scrubMeta_keeps {r : State} {s : State} {b : Superblock} {m : ℕ} {lba : ℕ} (hk : Keeps r s) : Keeps r (State.scrubMeta s b m lba) := by
  unfold State.scrubMeta
  repeat' first
    | with_reducible assumption
    | with_reducible apply State.modBay_keeps
    | with_reducible apply State.nvme_keeps
    | with_reducible apply State.scrubRepaired_keeps
    | split

theorem State.scrubRow_keeps {r : State} {s : State} {b : Superblock} {z2 : ℕ} {f : ScrubFinding} (hk : Keeps r s) : Keeps r (State.scrubRow s b z2 f) := by
  unfold State.scrubRow
  repeat' first
    | with_reducible assumption
    | (extract_lets +onlyGivenNames x; first
        | (refine Keeps.step (s := x) ?_ ?_; rotate_left; ((try clear_value x); intro hx); rotate_left; subst x)
        | (refine Keeps.step (s := x.2) ?_ ?_; rotate_left; ((try clear_value x); intro hx); rotate_left; subst x)
        | (first | (have := (x : Keeper)) | (have := (x : Collector)) | (have := (x : Mag)) | (have := (x : Rstc)); subst x)
        | clear_value x | skip)
    | with_reducible apply State.inc_keeps
    | with_reducible apply State.draw_keeps
    | with_reducible apply State.modBay_keeps
    | with_reducible apply State.nvme_keeps
    | with_reducible apply State.scrubRepaired_keeps
    | with_reducible apply State.scrubBad_keeps
    | split

theorem State.wholeMessage_keeps {r : State} {s : State} {c : ℕ} {id : ℕ} {l : List ℕ} (hk : Keeps r s) : Keeps r (State.wholeMessage s c id l) := by
  unfold State.wholeMessage
  repeat' first
    | with_reducible assumption
    | with_reducible apply State.rxOther_keeps
    | with_reducible apply State.canMessage_keeps
    | split

theorem State.segment_keeps {r : State} {s : State} {c : ℕ} {id : ℕ} {d : List ℕ} (hk : Keeps r s) : Keeps r (State.segment s c id d) := by
  unfold State.segment
  dsimp only
  repeat' first
    | with_reducible assumption
    | (intro x)
    | with_reducible apply State.when_keeps
    | with_reducible apply State.rxOther_keeps
    | with_reducible apply State.modCan_keeps
    | with_reducible apply State.dropPart_keeps
    | with_reducible apply State.wholeMessage_keeps
    | split

theorem State.sendEvent_keeps {r : State} {s : State} {code : ℕ} (hk : Keeps r s) : Keeps r (State.sendEvent s code) := by
  unfold State.sendEvent
  repeat' first
    | with_reducible assumption
    | with_reducible apply State.raise_keeps
    | with_reducible apply State.draw_keeps
    | with_reducible apply State.reviewStart_keeps
    | with_reducible apply State.rqRing_keeps
    | with_reducible apply State.closePush_keeps
    | with_reducible apply State.pulseLine_keeps
    | split

theorem State.servoLock_keeps {r : State} {s : State} {locked : Bool} (hk : Keeps r s) : Keeps r (State.servoLock s locked) := by
  unfold State.servoLock
  repeat' first
    | with_reducible assumption
    | with_reducible apply State.lockLost_keeps
    | with_reducible apply State.lockGained_keeps
    | split

theorem State.setMasters_keeps {r : State} {s : State} {l : List (ℕ × ℕ × ℕ)} (hk : Keeps r s) : Keeps r (State.setMasters s l) := by
  unfold State.setMasters
  repeat' first
    | with_reducible assumption
    | (fail_if_no_progress (with_reducible refine Keeps.lit ?_ rfl rfl rfl rfl))

theorem State.setUnit_keeps {r : State} {s : State} {j : DecodeJob} (hk : Keeps r s) : Keeps r (State.setUnit s j) := by
  unfold State.setUnit
  repeat' first
    | with_reducible assumption
    | (intro x)
    | with_reducible apply State.readRow_keeps
    | with_reducible apply State.each_keeps
    | with_reducible apply State.putUnit_keeps
    | with_reducible apply State.endJob_keeps
    | split

theorem State.writeHeader_keeps {r : State} {s : State} (hk : Keeps r s) : Keeps r (State.writeHeader s) := by
  unfold State.writeHeader
  repeat' first
    | with_reducible assumption
    | (fail_if_no_progress (with_reducible refine Keeps.lit ?_ rfl rfl rfl rfl))

theorem State.sleep_keeps {r : State} {s : State} {m : PowerMode} (hk : Keeps r s) : Keeps r (State.sleep s m) := by
  unfold State.sleep
  repeat' first
    | with_reducible assumption
    | with_reducible apply State.writeHeader_keeps
    | with_reducible apply State.when_keeps
    | with_reducible apply State.restMemory_keeps
    | with_reducible apply State.set_keeps
    | with_reducible apply State.cxlLinkDown_keeps
    | (fail_if_no_progress (with_reducible refine Keeps.lit ?_ rfl rfl rfl rfl))

theorem State.sourceEdge_keeps {r : State} {s : State} (hk : Keeps r s) : Keeps r (State.sourceEdge s) := by
  unfold State.sourceEdge
  repeat' first
    | with_reducible assumption
    | (extract_lets +onlyGivenNames x; first
        | (refine Keeps.step (s := x) ?_ ?_; rotate_left; ((try clear_value x); intro hx); rotate_left; subst x)
        | (refine Keeps.step (s := x.2) ?_ ?_; rotate_left; ((try clear_value x); intro hx); rotate_left; subst x)
        | (first | (have := (x : Keeper)) | (have := (x : Collector)) | (have := (x : Mag)) | (have := (x : Rstc)); subst x)
        | clear_value x | skip)
    | (with_reducible refine Keeps.snd (by assumption) ?_)
    | with_reducible apply State.inc_keeps
    | with_reducible apply State.acceptEdge_keeps
    | with_reducible apply State.draw_keeps
    | split

theorem State.stamp_keeps {r : State} {s : State} {p : ℕ} {dir : ℕ} {typ : ℕ} {seq : ℕ} (hk : Keeps r s) : Keeps r (State.stamp s p dir typ seq) := by
  unfold State.stamp
  repeat' first
    | with_reducible assumption
    | with_reducible apply State.inc_keeps
    | with_reducible apply State.modPort_keeps
    | with_reducible apply State.draw_keeps
    | split

theorem State.storeEnds_keeps {r : State} {s : State} {z1 : ℕ} {c : ConfigSlot} (hk : Keeps r s) : Keeps r (State.storeEnds s z1 c) := by
  unfold State.storeEnds
  repeat' first
    | with_reducible assumption
    | (fail_if_no_progress (with_reducible refine Keeps.lit ?_ rfl rfl rfl rfl))

theorem State.streamUnit_keeps {r : State} {s : State} {j : DecodeJob} (hk : Keeps r s) : Keeps r (State.streamUnit s j) := by
  unfold State.streamUnit
  repeat' first
    | with_reducible assumption
    | with_reducible apply State.putUnit_keeps
    | with_reducible apply State.endJob_keeps
    | split

theorem State.substDone_keeps {r : State} {s : State} {use_ : ℕ} (hk : Keeps r s) : Keeps r (State.substDone s use_) := by
  unfold State.substDone
  repeat' first
    | with_reducible assumption
    | with_reducible apply State.set_keeps
    | (fail_if_no_progress (with_reducible refine Keeps.lit ?_ rfl rfl rfl rfl))

theorem State.substFailed_keeps {r : State} {s : State} (hk : Keeps r s) : Keeps r (State.substFailed s) := by
  unfold State.substFailed
  repeat' first
    | with_reducible assumption
    | with_reducible apply State.train_keeps
    | with_reducible apply State.each_keeps
    | with_reducible apply State.set_keeps
    | (fail_if_no_progress (with_reducible refine Keeps.lit ?_ rfl rfl rfl rfl))

theorem State.syncErrors_keeps {r : State} {s : State} {lane : ℕ} {n : ℕ} (hk : Keeps r s) : Keeps r (State.syncErrors s lane n) := by
  unfold State.syncErrors
  repeat' first
    | with_reducible assumption
    | with_reducible apply State.incBy_keeps
    | with_reducible apply State.putPpl_keeps

theorem State.takeJob_keeps {r : State} {s : State} {e : ℕ} {j : Job} {rest : List Job} {f : JobFaults} (hk : Keeps r s) : Keeps r (State.takeJob s e j rest f) := by
  unfold State.takeJob
  repeat' first
    | with_reducible assumption
    | with_reducible apply State.settle_keeps
    | with_reducible apply State.queueRecord_keeps
    | with_reducible apply State.runJob_keeps
    | with_reducible apply State.partFound_keeps
    | with_reducible apply State.modEng_keeps
    | with_reducible apply State.sramFound_keeps
    | with_reducible apply State.machineCheck_keeps
    | split

theorem State.takeTokens_keeps {r : State} {s : State} {p : ℕ} {f : EgressFrame} (hk : Keeps r s) : Keeps r (State.takeTokens s p f) := by
  unfold State.takeTokens
  repeat' first
    | with_reducible assumption
    | with_reducible apply State.putBuckets_keeps
    | split

theorem State.work_keeps {r : State} {s : State} (hk : Keeps r s) : Keeps r (State.work s) := by
  unfold State.work
  repeat' first
    | with_reducible assumption
    | with_reducible apply State.sendSymbol_keeps
    | with_reducible apply State.keeperStep_keeps
    | with_reducible apply State.sampleInputs_keeps
    | with_reducible apply State.msixAll_keeps
    | with_reducible apply State.deliverNotes_keeps
    | with_reducible apply State.reloadStep_keeps
    | with_reducible apply State.clipStage_keeps
    | with_reducible apply State.when_keeps
    | with_reducible apply State.safeSteps_keeps
    | with_reducible apply State.countTime_keeps
    | with_reducible apply State.bootStage_keeps

theorem State.timeClock_keeps {r : State} {s : State} (hk : Keeps r s) : Keeps r (State.timeClock s) := by
  unfold State.timeClock
  repeat' first
    | with_reducible assumption
    | (extract_lets +onlyGivenNames x; first
        | (refine Keeps.step (s := x) ?_ ?_; rotate_left; ((try clear_value x); intro hx); rotate_left; subst x)
        | (refine Keeps.step (s := x.2) ?_ ?_; rotate_left; ((try clear_value x); intro hx); rotate_left; subst x)
        | (first | (have := (x : Keeper)) | (have := (x : Collector)) | (have := (x : Mag)) | (have := (x : Rstc)); subst x)
        | clear_value x | skip)
    | split
    | (fail_if_no_progress (with_reducible refine Keeps.lit ?_ rfl rfl rfl rfl))

theorem State.tick_keeps {r : State} {s : State} (hk : Keeps r s) : Keeps r (State.tick s) := by
  unfold State.tick
  repeat' first
    | with_reducible assumption
    | with_reducible apply State.work_keeps
    | with_reducible apply State.when_keeps
    | with_reducible apply State.timeClock_keeps
    | with_reducible apply State.aonClock_keeps
    | with_reducible apply State.retainTime_keeps

theorem State.toStep_keeps {r : State} {s : State} {b : ℕ} {step : ℕ} (hk : Keeps r s) : Keeps r (State.toStep s b step) := by
  unfold State.toStep
  repeat' first
    | with_reducible assumption
    | with_reducible apply State.modBay_keeps

theorem State.txOutbox_keeps {r : State} {s : State} {c : ℕ} {aborted : Bool} (hk : Keeps r s) : Keeps r (State.txOutbox s c aborted) := by
  unfold State.txOutbox
  repeat' first
    | with_reducible assumption
    | with_reducible apply State.modCan_keeps
    | with_reducible apply State.canOut_keeps
    | split

theorem State.txRing_keeps {r : State} {s : State} {c : ℕ} {aborted : Bool} (hk : Keeps r s) : OptKeeps r (State.txRing s c aborted) := by
  unfold State.txRing
  repeat' first
    | (with_reducible apply OptKeeps.some)
    | (with_reducible exact OptKeeps.none)
    | (with_reducible apply OptKeeps.ite)
    | with_reducible assumption
    | (with_reducible refine Keeps.snd (by assumption) ?_)
    | with_reducible apply State.canOut_keeps
    | with_reducible apply State.icuPulse_keeps
    | with_reducible apply State.modCan_keeps
    | with_reducible apply State.memWrite_keeps
    | with_reducible apply State.draw_keeps
    | with_reducible apply State.memRead_keeps
    | split

theorem State.unmoored_keeps {r : State} {s : State} {b : ℕ} (hk : Keeps r s) : Keeps r (State.unmoored s b) := by
  unfold State.unmoored
  repeat' first
    | with_reducible assumption
    | (intro x)
    | with_reducible apply State.when_keeps
    | with_reducible apply State.set_keeps
    | with_reducible apply State.logbook_keeps

theorem State.upsetLane_keeps {r : State} {s : State} {q : ℕ} {l : ℕ} (hk : Keeps r s) : Keeps r (State.upsetLane s q l) := by
  unfold State.upsetLane
  repeat' first
    | with_reducible assumption
    | with_reducible apply State.putLane_keeps

theorem State.upsetWord_keeps {r : State} {s : State} {e : ℕ} {k : ℕ} (hk : Keeps r s) : Keeps r (State.upsetWord s e k) := by
  unfold State.upsetWord
  repeat' first
    | with_reducible assumption
    | with_reducible apply State.modEng_keeps
    | with_reducible apply State.draw_keeps
    | with_reducible apply State.microword_keeps

theorem State.waitLine_keeps {r : State} {s : State} {n : ℕ} {k : ℕ} {timeout : ℕ} (hk : Keeps r s) : Keeps r (State.waitLine s n k timeout) := by
  unfold State.waitLine
  repeat' first
    | with_reducible assumption
    | with_reducible apply State.dmaWait_keeps
    | with_reducible apply State.giveLatch_keeps
    | with_reducible apply State.clearBit_keeps
    | with_reducible apply State.passLatch_keeps
    | split

theorem execGangShortfallReport_keeps {r : State} {n : ℕ} {s : State} (hk : Keeps r s) : OutKeeps r (execGangShortfallReport n s) := by
  unfold execGangShortfallReport
  repeat' first
    | (with_reducible apply OutKeeps.next)
    | with_reducible assumption
    | with_reducible apply State.formGrant_keeps
    | with_reducible apply State.when_keeps
    | split
    | (fail_if_no_progress (with_reducible refine Keeps.lit ?_ rfl rfl rfl rfl))

theorem execFollowerReadoutEnd_keeps {r : State} {s : State} (hk : Keeps r s) : OutKeeps r (execFollowerReadoutEnd s) := by
  unfold execFollowerReadoutEnd
  repeat' first
    | (with_reducible apply OutKeeps.next)
    | with_reducible assumption
    | with_reducible apply State.modFrame_keeps
    | split

theorem execAonSupplyLost_keeps {r : State} {s : State} (hk : Keeps r s) : OutKeeps r (execAonSupplyLost s) := by
  unfold execAonSupplyLost
  repeat' first
    | (with_reducible apply OutKeeps.next)
    | with_reducible assumption
    | (intro x)
    | with_reducible apply State.emit_keeps
    | with_reducible apply State.when_keeps
    | (fail_if_no_progress (with_reducible refine Keeps.maps ?_))

theorem execCanBusOffRecovery_keeps {r : State} {c : ℕ} {s : State} (hk : Keeps r s) : OutKeeps r (execCanBusOffRecovery c s) := by
  unfold execCanBusOffRecovery
  repeat' first
    | (with_reducible apply OutKeeps.next)
    | with_reducible assumption
    | with_reducible apply State.clear_keeps
    | split

theorem execCanFrameSent_keeps {r : State} {c : ℕ} {aborted : Bool} {s : State} (hk : Keeps r s) : OutKeeps r (execCanFrameSent c aborted s) := by
  unfold execCanFrameSent
  repeat' first
    | (with_reducible apply OutKeeps.next)
    | with_reducible assumption
    | with_reducible apply State.txOutbox_keeps
    | (with_reducible refine (State.txRing_keeps ?_).keeps _ (by assumption))
    | (with_reducible apply OptKeeps.getD)
    | (with_reducible apply State.txRing_keeps)
    | with_reducible apply State.canErrors_keeps
    | with_reducible apply State.busOff_keeps
    | split

theorem execCanFrameReceived_keeps {r : State} {c : ℕ} {f : CanFrame} {s : State} (hk : Keeps r s) : OutKeeps r (execCanFrameReceived c f s) := by
  unfold execCanFrameReceived
  repeat' first
    | (with_reducible apply OutKeeps.next)
    | with_reducible assumption
    | (intro x)
    | (extract_lets +onlyGivenNames x; first
        | (refine Keeps.step (s := x) ?_ ?_; rotate_left; ((try clear_value x); intro hx); rotate_left; subst x)
        | (refine Keeps.step (s := x.2) ?_ ?_; rotate_left; ((try clear_value x); intro hx); rotate_left; subst x)
        | (first | (have := (x : Keeper)) | (have := (x : Collector)) | (have := (x : Mag)) | (have := (x : Rstc)); subst x)
        | clear_value x | skip)
    | with_reducible apply State.segment_keeps
    | with_reducible apply State.when_keeps
    | with_reducible apply State.rxRing_keeps
    | with_reducible apply State.rxOther_keeps
    | with_reducible apply State.canErrors_keeps
    | split

theorem execConfigStoreDone_keeps {r : State} {readBackOk : Bool} {s : State} (hk : Keeps r s) : OutKeeps r (execConfigStoreDone readBackOk s) := by
  unfold execConfigStoreDone
  repeat' first
    | (with_reducible apply OutKeeps.next)
    | with_reducible assumption
    | with_reducible apply State.raise_keeps
    | with_reducible apply State.storeEnds_keeps
    | split
    | (fail_if_no_progress (with_reducible refine Keeps.lit ?_ rfl rfl rfl rfl))

theorem execHppWarmResetApply_keeps {r : State} {s : State} (hk : Keeps r s) : OutKeeps r (execHppWarmResetApply s) := by
  unfold execHppWarmResetApply
  repeat' first
    | (with_reducible apply OutKeeps.next)
    | with_reducible assumption
    | with_reducible apply State.warmPulse_keeps
    | split

theorem execCacheFlushDone_keeps {r : State} {s : State} (hk : Keeps r s) : OutKeeps r (execCacheFlushDone s) := by
  unfold execCacheFlushDone
  repeat' first
    | (with_reducible apply OutKeeps.next)
    | with_reducible assumption
    | with_reducible apply State.discardCache_keeps
    | with_reducible apply State.flushCache_keeps
    | with_reducible apply State.set_keeps
    | split

theorem execBayMoorAfresh_keeps {r : State} {s : State} (hk : Keeps r s) : OutKeeps r (execBayMoorAfresh s) := by
  unfold execBayMoorAfresh
  repeat' first
    | (with_reducible apply OutKeeps.next)
    | with_reducible assumption
    | (with_reducible refine State.modMag_keeps (fun _ => id) ?_)
    | with_reducible apply State.startMoor_keeps
    | with_reducible apply State.each_keeps
    | split

theorem execMagShutdownComplete_keeps {r : State} {bay : ℕ} {s : State} (hk : Keeps r s) : OutKeeps r (execMagShutdownComplete bay s) := by
  unfold execMagShutdownComplete
  repeat' first
    | (with_reducible apply OutKeeps.next)
    | with_reducible assumption
    | (intro x)
    | with_reducible apply State.unmoored_keeps
    | with_reducible apply State.when_keeps
    | with_reducible apply State.settleSet_keeps
    | with_reducible apply State.powerFailStep_keeps
    | with_reducible apply State.pinsLow_keeps
    | with_reducible apply State.setBay_keeps
    | with_reducible apply State.dropMember_keeps
    | with_reducible apply State.modBay_keeps
    | with_reducible apply State.bayLinkDown_keeps
    | split

theorem execMoorStepTimeout_keeps {r : State} {bay : ℕ} {s : State} (hk : Keeps r s) : OutKeeps r (execMoorStepTimeout bay s) := by
  unfold execMoorStepTimeout
  repeat' first
    | (with_reducible apply OutKeeps.next)
    | with_reducible assumption
    | with_reducible apply State.bayFail_keeps
    | split

theorem execMoorPerstRelease_keeps {r : State} {bay : ℕ} {s : State} (hk : Keeps r s) : OutKeeps r (execMoorPerstRelease bay s) := by
  unfold execMoorPerstRelease
  repeat' first
    | (with_reducible apply OutKeeps.next)
    | with_reducible assumption
    | with_reducible apply State.toStep_keeps
    | with_reducible apply State.setPin_keeps
    | with_reducible apply State.setBay_keeps
    | split

theorem execMagLinkDown_keeps {r : State} {bay : ℕ} {s : State} (hk : Keeps r s) : OutKeeps r (execMagLinkDown bay s) := by
  unfold execMagLinkDown
  repeat' first
    | (with_reducible apply OutKeeps.next)
    | with_reducible assumption
    | with_reducible apply State.bayLost_keeps
    | with_reducible apply State.bayLinkDown_keeps

theorem execLowWordLatchRead_keeps {r : State} {a : Agent} {off : ℕ} {s : State} (hk : Keeps r s) : OutKeeps r (execLowWordLatchRead a off s) := by
  unfold execLowWordLatchRead
  repeat' first
    | (with_reducible apply OutKeeps.next)
    | with_reducible assumption
    | with_reducible apply State.readWord_keeps

theorem execAgeingMeasure_keeps {r : State} {readings : List ℕ} {s : State} (hk : Keeps r s) : OutKeeps r (execAgeingMeasure readings s) := by
  unfold execAgeingMeasure
  repeat' first
    | (with_reducible apply OutKeeps.next)
    | with_reducible assumption
    | with_reducible apply State.judgeAge_keeps
    | with_reducible apply State.each_keeps
    | split
    | (fail_if_no_progress (with_reducible refine Keeps.lit ?_ rfl rfl rfl rfl))

theorem execLogbookBucketRefill_keeps {r : State} {s : State} (hk : Keeps r s) : OutKeeps r (execLogbookBucketRefill s) := by
  unfold execLogbookBucketRefill
  repeat' first
    | (with_reducible apply OutKeeps.next)
    | with_reducible assumption
    | split
    | (fail_if_no_progress (with_reducible refine Keeps.lit ?_ rfl rfl rfl rfl))

theorem execLogbookHour_keeps {r : State} {s : State} (hk : Keeps r s) : OutKeeps r (execLogbookHour s) := by
  unfold execLogbookHour
  repeat' first
    | (with_reducible apply OutKeeps.next)
    | with_reducible assumption
    | with_reducible apply State.writeHeader_keeps
    | split
    | (fail_if_no_progress (with_reducible refine Keeps.lit ?_ rfl rfl rfl rfl))

theorem execMainPwrEnRaise_keeps {r : State} {s : State} (hk : Keeps r s) : OutKeeps r (execMainPwrEnRaise s) := by
  unfold execMainPwrEnRaise
  repeat' first
    | (with_reducible apply OutKeeps.next)
    | with_reducible assumption
    | with_reducible apply State.emit_keeps
    | split
    | (fail_if_no_progress (with_reducible refine Keeps.lit ?_ rfl rfl rfl rfl))

theorem execMsixHoldoffExpiry_keeps {r : State} {vec : ℕ} {s : State} (hk : Keeps r s) : OutKeeps r (execMsixHoldoffExpiry vec s) := by
  unfold execMsixHoldoffExpiry
  repeat' first
    | (with_reducible apply OutKeeps.next)
    | with_reducible assumption
    | with_reducible apply State.msix_keeps

theorem execIcuSourceEvent_keeps {r : State} {n : ℕ} {level : Bool} {s : State} (hk : Keeps r s) : OutKeeps r (execIcuSourceEvent n level s) := by
  unfold execIcuSourceEvent
  repeat' first
    | (with_reducible apply OutKeeps.next)
    | with_reducible assumption
    | with_reducible apply State.icuInput_keeps
    | split

theorem execGangLinkFail_keeps {r : State} {s : State} (hk : Keeps r s) : OutKeeps r (execGangLinkFail s) := by
  unfold execGangLinkFail
  repeat' first
    | (with_reducible apply OutKeeps.next)
    | with_reducible assumption
    | with_reducible apply State.gangDown_keeps
    | split

theorem execGangLinkTrained_keeps {r : State} {latency : ℕ} {s : State} (hk : Keeps r s) : OutKeeps r (execGangLinkTrained latency s) := by
  unfold execGangLinkTrained
  repeat' first
    | (with_reducible apply OutKeeps.next)
    | with_reducible assumption
    | with_reducible apply State.set_keeps
    | with_reducible apply State.light_keeps
    | split
    | (fail_if_no_progress (with_reducible refine Keeps.lit ?_ rfl rfl rfl rfl))

theorem execWatchdogExpiry_keeps {r : State} {s : State} (hk : Keeps r s) : OutKeeps r (execWatchdogExpiry s) := by
  unfold execWatchdogExpiry
  repeat' first
    | (with_reducible apply OutKeeps.next)
    | with_reducible assumption
    | with_reducible apply State.raise_keeps
    | with_reducible apply State.warmPulse_keeps
    | split

theorem execLockFailTimeout_keeps {r : State} {d : ℕ} {s : State} (hk : Keeps r s) : OutKeeps r (execLockFailTimeout d s) := by
  unfold execLockFailTimeout
  repeat' first
    | (with_reducible apply OutKeeps.next)
    | with_reducible assumption
    | with_reducible apply State.setBit_keeps
    | with_reducible apply State.raise_keeps
    | split

theorem execDomainRelease_keeps {r : State} {d : ℕ} {s : State} (hk : Keeps r s) : OutKeeps r (execDomainRelease d s) := by
  unfold execDomainRelease
  repeat' first
    | (with_reducible apply OutKeeps.next)
    | with_reducible assumption
    | with_reducible apply State.freeDie_keeps
    | with_reducible apply State.freeIod_keeps
    | with_reducible apply State.modDomain_keeps
    | split

theorem execSupplyBelowTrip_keeps {r : State} {s : State} (hk : Keeps r s) : OutKeeps r (execSupplyBelowTrip s) := by
  unfold execSupplyBelowTrip
  repeat' first
    | (with_reducible apply OutKeeps.next)
    | with_reducible assumption
    | with_reducible apply State.coldReset_keeps
    | split

theorem execPwrgdFall_keeps {r : State} {s : State} (hk : Keeps r s) : OutKeeps r (execPwrgdFall s) := by
  unfold execPwrgdFall
  repeat' first
    | (with_reducible apply OutKeeps.next)
    | with_reducible assumption
    | with_reducible apply State.coldReset_keeps

theorem execResetNRise_keeps {r : State} {s : State} (hk : Keeps r s) : OutKeeps r (execResetNRise s) := by
  unfold execResetNRise
  repeat' first
    | (with_reducible apply OutKeeps.next)
    | with_reducible assumption
    | with_reducible apply State.releaseIod_keeps
    | (fail_if_no_progress (with_reducible refine Keeps.lit ?_ rfl rfl rfl rfl))

theorem execResetNFall_keeps {r : State} {s : State} (hk : Keeps r s) : OutKeeps r (execResetNFall s) := by
  unfold execResetNFall
  repeat' first
    | (with_reducible apply OutKeeps.next)
    | with_reducible assumption
    | with_reducible apply State.warmReset_keeps
    | split
    | (fail_if_no_progress (with_reducible refine Keeps.lit ?_ rfl rfl rfl rfl))

theorem execPorRelease_keeps {r : State} {bootSrc : ℕ} {clkMode : ℕ} {gangId : ℕ} {s : State} (hk : Keeps r s) : OutKeeps r (execPorRelease bootSrc clkMode gangId s) := by
  unfold execPorRelease
  repeat' first
    | (with_reducible apply OutKeeps.next)
    | with_reducible assumption
    | (intro x)
    | with_reducible apply State.modDomain_keeps
    | with_reducible apply State.releaseIod_keeps
    | with_reducible apply State.set_keeps
    | with_reducible apply State.coldReset_keeps
    | with_reducible apply State.when_keeps
    | split
    | (fail_if_no_progress (with_reducible refine Keeps.maps ?_))

theorem execCollectorSelfFault_keeps {r : State} {s : State} (hk : Keeps r s) : OutKeeps r (execCollectorSelfFault s) := by
  unfold execCollectorSelfFault
  repeat' first
    | (with_reducible apply OutKeeps.next)
    | with_reducible assumption
    | with_reducible apply State.set_keeps
    | with_reducible apply State.raise_keeps
    | (fail_if_no_progress (with_reducible refine Keeps.lit ?_ rfl rfl rfl rfl))

theorem execTempSample_keeps {r : State} {readings : List (ℤ × Bool)} {s : State} (hk : Keeps r s) : OutKeeps r (execTempSample readings s) := by
  unfold execTempSample
  repeat' first
    | (with_reducible apply OutKeeps.next)
    | with_reducible assumption
    | (intro x)
    | with_reducible apply State.judgeTemp_keeps
    | with_reducible apply State.raise_keeps
    | with_reducible apply State.set_keeps
    | with_reducible apply State.each_keeps
    | (fail_if_no_progress (with_reducible refine Keeps.lit ?_ rfl rfl rfl rfl))

theorem execRampSlot_keeps {r : State} {s : State} (hk : Keeps r s) : OutKeeps r (execRampSlot s) := by
  unfold execRampSlot
  repeat' first
    | (with_reducible apply OutKeeps.next)
    | with_reducible assumption
    | (intro x)
    | with_reducible apply State.grantSlot_keeps
    | with_reducible apply State.each_keeps
    | with_reducible apply State.incBy_keeps
    | (fail_if_no_progress (with_reducible refine Keeps.lit ?_ rfl rfl rfl rfl))

theorem execDeficitLimit_keeps {r : State} {s : State} (hk : Keeps r s) : OutKeeps r (execDeficitLimit s) := by
  unfold execDeficitLimit
  repeat' first
    | (with_reducible apply OutKeeps.next)
    | with_reducible assumption
    | with_reducible apply State.raise_keeps
    | split
    | (fail_if_no_progress (with_reducible refine Keeps.lit ?_ rfl rfl rfl rfl))

theorem execGrantFormation_keeps {r : State} {s : State} (hk : Keeps r s) : OutKeeps r (execGrantFormation s) := by
  unfold execGrantFormation
  repeat' first
    | (with_reducible apply OutKeeps.next)
    | with_reducible assumption
    | with_reducible apply State.formGrant_keeps
    | split

theorem execPwrFailRise_keeps {r : State} {s : State} (hk : Keeps r s) : OutKeeps r (execPwrFailRise s) := by
  unfold execPwrFailRise
  repeat' first
    | (with_reducible apply OutKeeps.next)
    | with_reducible assumption
    | with_reducible apply State.wakeEvent_keeps
    | with_reducible apply State.writeHeader_keeps
    | with_reducible apply State.when_keeps
    | split
    | (fail_if_no_progress (with_reducible refine Keeps.lit ?_ rfl rfl rfl rfl))

theorem execHoldupOffEntry_keeps {r : State} {s : State} (hk : Keeps r s) : OutKeeps r (execHoldupOffEntry s) := by
  unfold execHoldupOffEntry
  repeat' first
    | (with_reducible apply OutKeeps.next)
    | with_reducible assumption
    | with_reducible apply State.sleep_keeps
    | split

theorem execPwrFailFall_keeps {r : State} {s : State} (hk : Keeps r s) : OutKeeps r (execPwrFailFall s) := by
  unfold execPwrFailFall
  repeat' first
    | (with_reducible apply OutKeeps.next)
    | with_reducible assumption
    | with_reducible apply State.powerFalls_keeps
    | split

theorem execWakeEvent_keeps {r : State} {bit : ℕ} {s : State} (hk : Keeps r s) : OutKeeps r (execWakeEvent bit s) := by
  unfold execWakeEvent
  repeat' first
    | (with_reducible apply OutKeeps.next)
    | with_reducible assumption
    | with_reducible apply State.wakeEvent_keeps
    | split

theorem execIdleTimer_keeps {r : State} {s : State} (hk : Keeps r s) : OutKeeps r (execIdleTimer s) := by
  unfold execIdleTimer
  repeat' first
    | (with_reducible apply OutKeeps.next)
    | with_reducible assumption
    | with_reducible apply State.set_keeps
    | split

theorem execEntryComplete_keeps {r : State} {s : State} (hk : Keeps r s) : OutKeeps r (execEntryComplete s) := by
  unfold execEntryComplete
  repeat' first
    | (with_reducible apply OutKeeps.next)
    | with_reducible assumption
    | with_reducible apply State.wake_keeps
    | with_reducible apply State.sleep_keeps
    | split
    | (fail_if_no_progress (with_reducible refine Keeps.lit ?_ rfl rfl rfl rfl))

theorem execEntryAbort_keeps {r : State} {wake : Option ℕ} {s : State} (hk : Keeps r s) : OutKeeps r (execEntryAbort wake s) := by
  unfold execEntryAbort
  repeat' first
    | (with_reducible apply OutKeeps.next)
    | with_reducible assumption
    | (extract_lets +onlyGivenNames x; first
        | (refine Keeps.step (s := x) ?_ ?_; rotate_left; ((try clear_value x); intro hx); rotate_left; subst x)
        | (refine Keeps.step (s := x.2) ?_ ?_; rotate_left; ((try clear_value x); intro hx); rotate_left; subst x)
        | (first | (have := (x : Keeper)) | (have := (x : Collector)) | (have := (x : Mag)) | (have := (x : Rstc)); subst x)
        | clear_value x | skip)
    | with_reducible apply State.abortEntry_keeps
    | split

theorem execUcSelect_keeps {r : State} {h : Hpp} {s : State} (hk : Keeps r s) : OutKeeps r (execUcSelect h s) := by
  unfold execUcSelect
  repeat' first
    | (with_reducible apply OutKeeps.next)
    | with_reducible assumption
    | with_reducible apply State.request_keeps

theorem execUcImage_keeps {r : State} {h : Hpp} {image : List Byte} {s : State} (hk : Keeps r s) : OutKeeps r (execUcImage h image s) := by
  unfold execUcImage
  repeat' first
    | (with_reducible apply OutKeeps.next)
    | with_reducible assumption
    | with_reducible apply State.request_keeps

theorem execEpochCommit_keeps {r : State} {h : Hpp} {which : ℕ} {s : State} (hk : Keeps r s) : OutKeeps r (execEpochCommit h which s) := by
  unfold execEpochCommit
  repeat' first
    | (with_reducible apply OutKeeps.next)
    | with_reducible assumption
    | with_reducible apply State.request_keeps

theorem execFwConfirm_keeps {r : State} {h : Hpp} {s : State} (hk : Keeps r s) : OutKeeps r (execFwConfirm h s) := by
  unfold execFwConfirm
  repeat' first
    | (with_reducible apply OutKeeps.next)
    | with_reducible assumption
    | with_reducible apply State.request_keeps

theorem execFwActivate_keeps {r : State} {h : Hpp} {s : State} (hk : Keeps r s) : OutKeeps r (execFwActivate h s) := by
  unfold execFwActivate
  repeat' first
    | (with_reducible apply OutKeeps.next)
    | with_reducible assumption
    | with_reducible apply State.request_keeps

theorem execFwImage_keeps {r : State} {h : Hpp} {image : List Byte} {s : State} (hk : Keeps r s) : OutKeeps r (execFwImage h image s) := by
  unfold execFwImage
  repeat' first
    | (with_reducible apply OutKeeps.next)
    | with_reducible assumption
    | with_reducible apply State.request_keeps

theorem execConfigStoreStart_keeps {r : State} {s : State} (hk : Keeps r s) : OutKeeps r (execConfigStoreStart s) := by
  unfold execConfigStoreStart
  repeat' first
    | (with_reducible apply OutKeeps.next)
    | with_reducible assumption
    | split
    | (fail_if_no_progress (with_reducible refine Keeps.lit ?_ rfl rfl rfl rfl))

theorem execAutoStoreTimer_keeps {r : State} {s : State} (hk : Keeps r s) : OutKeeps r (execAutoStoreTimer s) := by
  unfold execAutoStoreTimer
  repeat' first
    | (with_reducible apply OutKeeps.next)
    | with_reducible assumption
    | with_reducible apply State.requestStore_keeps
    | split

theorem execDefaults_keeps {r : State} {h : Hpp} {s : State} (hk : Keeps r s) : OutKeeps r (execDefaults h s) := by
  unfold execDefaults
  repeat' first
    | (with_reducible apply OutKeeps.next)
    | with_reducible assumption
    | with_reducible apply State.request_keeps

theorem execStore_keeps {r : State} {h : Hpp} {s : State} (hk : Keeps r s) : OutKeeps r (execStore h s) := by
  unfold execStore
  repeat' first
    | (with_reducible apply OutKeeps.next)
    | with_reducible assumption
    | with_reducible apply State.request_keeps

theorem execDeviceReset_keeps {r : State} {h : Hpp} {arg : Word} {s : State} (hk : Keeps r s) : OutKeeps r (execDeviceReset h arg s) := by
  unfold execDeviceReset
  repeat' first
    | (with_reducible apply OutKeeps.next)
    | with_reducible assumption
    | with_reducible apply State.request_keeps

theorem execDecodeStop_keeps {r : State} {h : Hpp} {s : State} (hk : Keeps r s) : OutKeeps r (execDecodeStop h s) := by
  unfold execDecodeStop
  repeat' first
    | (with_reducible apply OutKeeps.next)
    | with_reducible assumption
    | with_reducible apply State.request_keeps

theorem execDecodeStart_keeps {r : State} {h : Hpp} {s : State} (hk : Keeps r s) : OutKeeps r (execDecodeStart h s) := by
  unfold execDecodeStart
  repeat' first
    | (with_reducible apply OutKeeps.next)
    | with_reducible assumption
    | with_reducible apply State.request_keeps

theorem execStorageRebuild_keeps {r : State} {h : Hpp} {s : State} (hk : Keeps r s) : OutKeeps r (execStorageRebuild h s) := by
  unfold execStorageRebuild
  repeat' first
    | (with_reducible apply OutKeeps.next)
    | with_reducible assumption
    | with_reducible apply State.request_keeps

theorem execStorageDeleteLast_keeps {r : State} {h : Hpp} {s : State} (hk : Keeps r s) : OutKeeps r (execStorageDeleteLast h s) := by
  unfold execStorageDeleteLast
  repeat' first
    | (with_reducible apply OutKeeps.next)
    | with_reducible assumption
    | with_reducible apply State.request_keeps

theorem execStorageFormat_keeps {r : State} {h : Hpp} {bays : ℕ} {s : State} (hk : Keeps r s) : OutKeeps r (execStorageFormat h bays s) := by
  unfold execStorageFormat
  repeat' first
    | (with_reducible apply OutKeeps.next)
    | with_reducible assumption
    | with_reducible apply State.request_keeps

theorem execStorageUnmoor_keeps {r : State} {h : Hpp} {bays : ℕ} {s : State} (hk : Keeps r s) : OutKeeps r (execStorageUnmoor h bays s) := by
  unfold execStorageUnmoor
  repeat' first
    | (with_reducible apply OutKeeps.next)
    | with_reducible assumption
    | with_reducible apply State.request_keeps

theorem execStorageMoor_keeps {r : State} {h : Hpp} {bays : ℕ} {s : State} (hk : Keeps r s) : OutKeeps r (execStorageMoor h bays s) := by
  unfold execStorageMoor
  repeat' first
    | (with_reducible apply OutKeeps.next)
    | with_reducible assumption
    | with_reducible apply State.request_keeps

theorem execClipStop_keeps {r : State} {h : Hpp} {s : State} (hk : Keeps r s) : OutKeeps r (execClipStop h s) := by
  unfold execClipStop
  repeat' first
    | (with_reducible apply OutKeeps.next)
    | with_reducible assumption
    | with_reducible apply State.request_keeps

theorem execClipStart_keeps {r : State} {h : Hpp} {s : State} (hk : Keeps r s) : OutKeeps r (execClipStart h s) := by
  unfold execClipStart
  repeat' first
    | (with_reducible apply OutKeeps.next)
    | with_reducible assumption
    | with_reducible apply State.request_keeps

theorem execCommitNotifyTimer_keeps {r : State} {s : State} (hk : Keeps r s) : OutKeeps r (execCommitNotifyTimer s) := by
  unfold execCommitNotifyTimer
  repeat' first
    | (with_reducible apply OutKeeps.next)
    | with_reducible assumption
    | with_reducible apply State.notify_keeps
    | split
    | (fail_if_no_progress (with_reducible refine Keeps.lit ?_ rfl rfl rfl rfl))

theorem execUdpControllerTimeout_keeps {r : State} {peer : ℕ} {s : State} (hk : Keeps r s) : OutKeeps r (execUdpControllerTimeout peer s) := by
  unfold execUdpControllerTimeout
  repeat' first
    | (with_reducible apply OutKeeps.next)
    | with_reducible assumption
    | with_reducible apply State.light_keeps
    | split

theorem execRollCallTimer_keeps {r : State} {c : ℕ} {s : State} (hk : Keeps r s) : OutKeeps r (execRollCallTimer c s) := by
  unfold execRollCallTimer
  repeat' first
    | (with_reducible apply OutKeeps.next)
    | with_reducible assumption
    | with_reducible apply State.sendRollCall_keeps
    | split

theorem execHeartbeatTimer_keeps {r : State} {s : State} (hk : Keeps r s) : OutKeeps r (execHeartbeatTimer s) := by
  unfold execHeartbeatTimer
  repeat' first
    | (with_reducible apply OutKeeps.next)
    | with_reducible assumption
    | (intro x)
    | with_reducible apply State.broadcast_keeps
    | with_reducible apply State.when_keeps
    | with_reducible apply State.each_keeps
    | split
    | (fail_if_no_progress (with_reducible refine Keeps.lit ?_ rfl rfl rfl rfl))

theorem execHeartbeat_keeps {r : State} {c : ℕ} {src : ℕ} {s : State} (hk : Keeps r s) : OutKeeps r (execHeartbeat c src s) := by
  unfold execHeartbeat
  repeat' first
    | (with_reducible apply OutKeeps.next)
    | with_reducible assumption
    | with_reducible apply State.hear_keeps
    | split

theorem execRollCall_keeps {r : State} {c : ℕ} {src : ℕ} {z2 : ℕ} {s : State} (hk : Keeps r s) : OutKeeps r (execRollCall c src z2 s) := by
  unfold execRollCall
  repeat' first
    | (with_reducible apply OutKeeps.next)
    | with_reducible assumption
    | with_reducible apply State.heardRoll_keeps
    | split

theorem execAnswer_keeps {r : State} {c : ℕ} {src : ℕ} {uid : ℕ} {vendor : ℕ} {product : ℕ} {name : List Byte} {s : State} (hk : Keeps r s) : OutKeeps r (execAnswer c src uid vendor product name s) := by
  unfold execAnswer
  repeat' first
    | (with_reducible apply OutKeeps.next)
    | with_reducible assumption
    | with_reducible apply State.heardAnswer_keeps
    | split

theorem execCanReassemblyTimeout_keeps {r : State} {c : ℕ} {src : ℕ} {s : State} (hk : Keeps r s) : OutKeeps r (execCanReassemblyTimeout c src s) := by
  unfold execCanReassemblyTimeout
  repeat' first
    | (with_reducible apply OutKeeps.next)
    | with_reducible assumption
    | (intro x)
    | with_reducible apply State.dropPart_keeps
    | with_reducible apply State.rxOther_keeps
    | with_reducible apply State.each_keeps

theorem execHppUnsupported_keeps {r : State} {h : Hpp} {op : ℕ} {version : ℕ} {s : State} (hk : Keeps r s) : OutKeeps r (execHppUnsupported h op version s) := by
  unfold execHppUnsupported
  repeat' first
    | (with_reducible apply OutKeeps.next)
    | with_reducible assumption
    | with_reducible apply State.request_keeps

theorem execBlockSequenceTimeout_keeps {r : State} {carrier : Carrier} {peer : ℕ} {index : ℕ} {sub : ℕ} {s : State} (hk : Keeps r s) : OutKeeps r (execBlockSequenceTimeout carrier peer index sub s) := by
  unfold execBlockSequenceTimeout
  repeat' first
    | (with_reducible apply OutKeeps.next)
    | with_reducible assumption
    | with_reducible apply State.discardSequence_keeps
    | split

theorem execHppWriteBlock_keeps {r : State} {h : Hpp} {index : ℕ} {sub : ℕ} {typ : ℕ} {offset : ℕ} {total : ℕ} {data : List Byte} {s : State} (hk : Keeps r s) : OutKeeps r (execHppWriteBlock h index sub typ offset total data s) := by
  unfold execHppWriteBlock
  repeat' first
    | (with_reducible apply OutKeeps.next)
    | with_reducible assumption
    | with_reducible apply State.request_keeps

theorem execHppReadBlock_keeps {r : State} {h : Hpp} {index : ℕ} {sub : ℕ} {offset : ℕ} {count : ℕ} {s : State} (hk : Keeps r s) : OutKeeps r (execHppReadBlock h index sub offset count s) := by
  unfold execHppReadBlock
  repeat' first
    | (with_reducible apply OutKeeps.next)
    | with_reducible assumption
    | with_reducible apply State.request_keeps

theorem execHppWrite_keeps {r : State} {h : Hpp} {index : ℕ} {sub : ℕ} {typ : ℕ} {value : List Byte} {s : State} (hk : Keeps r s) : OutKeeps r (execHppWrite h index sub typ value s) := by
  unfold execHppWrite
  repeat' first
    | (with_reducible apply OutKeeps.next)
    | with_reducible assumption
    | with_reducible apply State.request_keeps

theorem execHppRead_keeps {r : State} {h : Hpp} {index : ℕ} {sub : ℕ} {s : State} (hk : Keeps r s) : OutKeeps r (execHppRead h index sub s) := by
  unfold execHppRead
  repeat' first
    | (with_reducible apply OutKeeps.next)
    | with_reducible assumption
    | with_reducible apply State.request_keeps

theorem execAnnounceTimeout_keeps {r : State} {s : State} (hk : Keeps r s) : OutKeeps r (execAnnounceTimeout s) := by
  unfold execAnnounceTimeout
  repeat' first
    | (with_reducible apply OutKeeps.next)
    | with_reducible assumption
    | with_reducible apply State.light_keeps
    | with_reducible apply State.setMasters_keeps
    | with_reducible apply State.servoLock_keeps
    | split
    | (fail_if_no_progress (with_reducible refine Keeps.lit ?_ rfl rfl rfl rfl))

theorem execPtpAnnounce_keeps {r : State} {port : ℕ} {clockId : ℕ} {rank : ℕ} {s : State} (hk : Keeps r s) : OutKeeps r (execPtpAnnounce port clockId rank s) := by
  unfold execPtpAnnounce
  repeat' first
    | (with_reducible apply OutKeeps.next)
    | with_reducible assumption
    | with_reducible apply State.setMasters_keeps
    | with_reducible apply State.light_keeps
    | split

theorem execPtpSync_keeps {r : State} {offset : ℤ} {adj : ℤ} {s : State} (hk : Keeps r s) : OutKeeps r (execPtpSync offset adj s) := by
  unfold execPtpSync
  repeat' first
    | (with_reducible apply OutKeeps.next)
    | with_reducible assumption
    | (intro x)
    | with_reducible apply State.servoLock_keeps
    | with_reducible apply State.when_keeps
    | with_reducible apply State.set_keeps
    | with_reducible apply State.stepTime_keeps
    | split
    | (fail_if_no_progress (with_reducible refine Keeps.lit ?_ rfl rfl rfl rfl))

theorem execProxyPictureDone_keeps {r : State} {s : State} (hk : Keeps r s) : OutKeeps r (execProxyPictureDone s) := by
  unfold execProxyPictureDone
  repeat' first
    | (with_reducible apply OutKeeps.next)
    | with_reducible assumption
    | with_reducible apply State.set_keeps
    | split
    | (fail_if_no_progress (with_reducible refine Keeps.lit ?_ rfl rfl rfl rfl))

theorem execSenderPacketDue_keeps {r : State} {k : ℕ} {s : State} (hk : Keeps r s) : OutKeeps r (execSenderPacketDue k s) := by
  unfold execSenderPacketDue
  repeat' first
    | (with_reducible apply OutKeeps.next)
    | with_reducible assumption
    | (extract_lets +onlyGivenNames x; first
        | (refine Keeps.step (s := x) ?_ ?_; rotate_left; ((try clear_value x); intro hx); rotate_left; subst x)
        | (refine Keeps.step (s := x.2) ?_ ?_; rotate_left; ((try clear_value x); intro hx); rotate_left; subst x)
        | (first | (have := (x : Keeper)) | (have := (x : Collector)) | (have := (x : Mag)) | (have := (x : Rstc)); subst x)
        | clear_value x | skip)
    | with_reducible apply State.enqueueFrame_keeps
    | with_reducible apply State.draw_keeps
    | with_reducible apply State.nextProxyFrame_keeps
    | split
    | (fail_if_no_progress (with_reducible refine Keeps.lit ?_ rfl rfl rfl rfl))

theorem execProxyFrameTick_keeps {r : State} {s : State} (hk : Keeps r s) : OutKeeps r (execProxyFrameTick s) := by
  unfold execProxyFrameTick
  repeat' first
    | (with_reducible apply OutKeeps.next)
    | with_reducible assumption
    | (intro x)
    | with_reducible apply State.deliver_keeps
    | with_reducible apply State.inc_keeps
    | with_reducible apply State.when_keeps
    | split
    | (fail_if_no_progress (with_reducible refine Keeps.lit ?_ rfl rfl rfl rfl))

theorem execGateListStart_keeps {r : State} {port : ℕ} {s : State} (hk : Keeps r s) : OutKeeps r (execGateListStart port s) := by
  unfold execGateListStart
  repeat' first
    | (with_reducible apply OutKeeps.next)
    | with_reducible assumption
    | with_reducible apply State.set_keeps
    | with_reducible apply State.modPort_keeps
    | split

theorem execGateEntryChange_keeps {r : State} {port : ℕ} {s : State} (hk : Keeps r s) : OutKeeps r (execGateEntryChange port s) := by
  unfold execGateEntryChange
  repeat' first
    | (with_reducible apply OutKeeps.next)
    | with_reducible assumption
    | with_reducible apply State.modPort_keeps
    | split

theorem execEgressFrameDone_keeps {r : State} {port : ℕ} {s : State} (hk : Keeps r s) : OutKeeps r (execEgressFrameDone port s) := by
  unfold execEgressFrameDone
  repeat' first
    | (with_reducible apply OutKeeps.next)
    | with_reducible assumption
    | with_reducible apply State.txBack_keeps
    | with_reducible apply State.emit_keeps
    | with_reducible apply State.modPort_keeps
    | split

theorem execEgressFrameStart_keeps {r : State} {port : ℕ} {s : State} (hk : Keeps r s) : OutKeeps r (execEgressFrameStart port s) := by
  unfold execEgressFrameStart
  repeat' first
    | (with_reducible apply OutKeeps.next)
    | with_reducible assumption
    | (intro x)
    | (extract_lets +onlyGivenNames x; first
        | (refine Keeps.step (s := x) ?_ ?_; rotate_left; ((try clear_value x); intro hx); rotate_left; subst x)
        | (refine Keeps.step (s := x.2) ?_ ?_; rotate_left; ((try clear_value x); intro hx); rotate_left; subst x)
        | (first | (have := (x : Keeper)) | (have := (x : Collector)) | (have := (x : Mag)) | (have := (x : Rstc)); subst x)
        | clear_value x | skip)
    | with_reducible apply State.stamp_keeps
    | with_reducible apply State.unqueue_keeps
    | with_reducible apply State.takeTokens_keeps
    | with_reducible apply State.modPort_keeps
    | with_reducible apply State.dropHeads_keeps
    | with_reducible apply State.each_keeps
    | split

theorem execEthTxDescriptor_keeps {r : State} {port : ℕ} {s : State} (hk : Keeps r s) : OutKeeps r (execEthTxDescriptor port s) := by
  unfold execEthTxDescriptor
  repeat' first
    | (with_reducible apply OutKeeps.next)
    | with_reducible assumption
    | with_reducible apply State.takeTx_keeps

theorem execEthFrameReceived_keeps {r : State} {port : ℕ} {frame : List Byte} {s : State} (hk : Keeps r s) : OutKeeps r (execEthFrameReceived port frame s) := by
  unfold execEthFrameReceived
  repeat' first
    | (with_reducible apply OutKeeps.next)
    | with_reducible assumption
    | (intro x)
    | (extract_lets +onlyGivenNames x; first
        | (refine Keeps.step (s := x) ?_ ?_; rotate_left; ((try clear_value x); intro hx); rotate_left; subst x)
        | (refine Keeps.step (s := x.2) ?_ ?_; rotate_left; ((try clear_value x); intro hx); rotate_left; subst x)
        | (first | (have := (x : Keeper)) | (have := (x : Collector)) | (have := (x : Mag)) | (have := (x : Rstc)); subst x)
        | clear_value x | skip)
    | (with_reducible refine Keeps.snd (by assumption) ?_)
    | with_reducible apply State.stamp_keeps
    | with_reducible apply State.when_keeps
    | with_reducible apply State.deliverRx_keeps
    | with_reducible apply State.policed_keeps
    | with_reducible apply State.inc_keeps
    | split

theorem execHppRequest_keeps {r : State} {opcode : ℕ} {payload : List Byte} {s : State} (hk : Keeps r s) : OutKeeps r (execHppRequest opcode payload s) := by
  unfold execHppRequest
  repeat' first
    | (with_reducible apply OutKeeps.next)
    | with_reducible assumption
    | with_reducible apply State.mboxLog_keeps
    | with_reducible apply State.mboxTime_keeps
    | with_reducible apply State.mboxHpp_keeps
    | with_reducible apply State.mailboxDone_keeps
    | split

theorem execGetLog_keeps {r : State} {commandEffects : Bool} {s : State} (hk : Keeps r s) : OutKeeps r (execGetLog commandEffects s) := by
  unfold execGetLog
  repeat' first
    | (with_reducible apply OutKeeps.next)
    | with_reducible assumption
    | with_reducible apply State.mboxLog_keeps
    | split

theorem execGetSupportedLogs_keeps {r : State} {s : State} (hk : Keeps r s) : OutKeeps r (execGetSupportedLogs s) := by
  unfold execGetSupportedLogs
  repeat' first
    | (with_reducible apply OutKeeps.next)
    | with_reducible assumption
    | with_reducible apply State.mailboxDone_keeps
    | split

theorem execGetTimestamp_keeps {r : State} {s : State} (hk : Keeps r s) : OutKeeps r (execGetTimestamp s) := by
  unfold execGetTimestamp
  repeat' first
    | (with_reducible apply OutKeeps.next)
    | with_reducible assumption
    | with_reducible apply State.mboxTime_keeps
    | split

theorem execViralReceived_keeps {r : State} {s : State} (hk : Keeps r s) : OutKeeps r (execViralReceived s) := by
  unfold execViralReceived
  repeat' first
    | (with_reducible apply OutKeeps.next)
    | with_reducible assumption
    | with_reducible apply State.set_keeps
    | with_reducible apply State.raise_keeps

theorem execBiasChangeDone_keeps {r : State} {s : State} (hk : Keeps r s) : OutKeeps r (execBiasChangeDone s) := by
  unfold execBiasChangeDone
  repeat' first
    | (with_reducible apply OutKeeps.next)
    | with_reducible assumption
    | with_reducible apply State.goOn_keeps
    | with_reducible apply State.set_keeps
    | split
    | (fail_if_no_progress (with_reducible refine Keeps.lit ?_ rfl rfl rfl rfl))

theorem execCxlMemRequest_keeps {r : State} {off : ℕ} {len : ℕ} {w : Option (List Byte)} {ecc : List EccFinding} {s : State} (hk : Keeps r s) : OutKeeps r (execCxlMemRequest off len w ecc s) := by
  unfold execCxlMemRequest
  repeat' first
    | (with_reducible apply OutKeeps.next)
    | with_reducible assumption
    | with_reducible apply State.cxlMem_keeps
    | split

theorem execHdmDecoderCommit_keeps {r : State} {base : ℕ} {s : State} (hk : Keeps r s) : OutKeeps r (execHdmDecoderCommit base s) := by
  unfold execHdmDecoderCommit
  repeat' first
    | (with_reducible apply OutKeeps.next)
    | with_reducible assumption
    | with_reducible apply State.set_keeps
    | split
    | (fail_if_no_progress (with_reducible refine Keeps.lit ?_ rfl rfl rfl rfl))

theorem execLinkReset_keeps {r : State} {s : State} (hk : Keeps r s) : OutKeeps r (execLinkReset s) := by
  unfold execLinkReset
  repeat' first
    | (with_reducible apply OutKeeps.next)
    | with_reducible assumption
    | with_reducible apply State.linkReset__keeps
    | with_reducible apply State.set_keeps

theorem execHostDeparture_keeps {r : State} {linkLost : Bool} {s : State} (hk : Keeps r s) : OutKeeps r (execHostDeparture linkLost s) := by
  unfold execHostDeparture
  repeat' first
    | (with_reducible apply OutKeeps.next)
    | with_reducible assumption
    | with_reducible apply State.cxlLinkDown_keeps
    | with_reducible apply State.hostDown_keeps
    | with_reducible apply State.when_keeps

theorem execHostArrival_keeps {r : State} {s : State} (hk : Keeps r s) : OutKeeps r (execHostArrival s) := by
  unfold execHostArrival
  repeat' first
    | (with_reducible apply OutKeeps.next)
    | with_reducible assumption
    | with_reducible apply State.hostConfig_keeps
    | with_reducible apply State.set_keeps
    | with_reducible apply State.allBias_keeps
    | with_reducible apply State.light_keeps
    | split

theorem execCxlLinkUp_keeps {r : State} {cxlMode : Bool} {speed : ℕ} {width : ℕ} {s : State} (hk : Keeps r s) : OutKeeps r (execCxlLinkUp cxlMode speed width s) := by
  unfold execCxlLinkUp
  repeat' first
    | (with_reducible apply OutKeeps.next)
    | with_reducible assumption
    | (intro x)
    | with_reducible apply State.raise_keeps
    | with_reducible apply State.when_keeps
    | with_reducible apply State.set_keeps

theorem execMagReadRequest_keeps {r : State} {bay : ℕ} {readOk : Bool} {s : State} (hk : Keeps r s) : OutKeeps r (execMagReadRequest bay readOk s) := by
  unfold execMagReadRequest
  repeat' first
    | (with_reducible apply OutKeeps.next)
    | with_reducible assumption
    | (intro x)
    | (with_reducible refine Keeps.snd (by assumption) ?_)
    | with_reducible apply State.set_keeps
    | with_reducible apply State.memWrite_keeps
    | with_reducible apply State.nvme_keeps
    | with_reducible apply State.when_keeps
    | with_reducible apply State.modBay_keeps
    | with_reducible apply State.memRead_keeps
    | split

theorem execMagScrubRead_keeps {r : State} {f : ScrubFinding} {s : State} (hk : Keeps r s) : OutKeeps r (execMagScrubRead f s) := by
  unfold execMagScrubRead
  repeat' first
    | (with_reducible apply OutKeeps.next)
    | with_reducible assumption
    | (intro x)
    | (extract_lets +onlyGivenNames x; first
        | (refine Keeps.step (s := x) ?_ ?_; rotate_left; ((try clear_value x); intro hx); rotate_left; subst x)
        | (refine Keeps.step (s := x.2) ?_ ?_; rotate_left; ((try clear_value x); intro hx); rotate_left; subst x)
        | (first | (have := (x : Keeper)) | (have := (x : Collector)) | (have := (x : Mag)) | (have := (x : Rstc)); subst x)
        | clear_value x | skip)
    | with_reducible apply State.scrubMeta_keeps
    | with_reducible apply State.incWrap_keeps
    | with_reducible apply State.nvme_keeps
    | with_reducible apply State.each_keeps
    | with_reducible apply State.countScrub_keeps
    | with_reducible apply State.readRow_keeps
    | with_reducible apply State.scrubRow_keeps
    | with_reducible apply State.set_keeps
    | split

theorem execSmartLogPoll_keeps {r : State} {s : State} (hk : Keeps r s) : OutKeeps r (execSmartLogPoll s) := by
  unfold execSmartLogPoll
  repeat' first
    | (with_reducible apply OutKeeps.next)
    | with_reducible assumption
    | (intro x)
    | with_reducible apply State.nvme_keeps
    | with_reducible apply State.each_keeps

theorem execCommitRoundEnd_keeps {r : State} {flushUs : List ℕ} {s : State} (hk : Keeps r s) : OutKeeps r (execCommitRoundEnd flushUs s) := by
  unfold execCommitRoundEnd
  repeat' first
    | (with_reducible apply OutKeeps.next)
    | with_reducible assumption
    | (intro x)
    | (extract_lets +onlyGivenNames x; first
        | (refine Keeps.step (s := x) ?_ ?_; rotate_left; ((try clear_value x); intro hx); rotate_left; subst x)
        | (refine Keeps.step (s := x.2) ?_ ?_; rotate_left; ((try clear_value x); intro hx); rotate_left; subst x)
        | (first | (have := (x : Keeper)) | (have := (x : Collector)) | (have := (x : Mag)) | (have := (x : Rstc)); subst x)
        | clear_value x | skip)
    | (with_reducible refine State.modMag_keeps (fun _ => id) ?_)
    | with_reducible apply State.tryClose_keeps
    | with_reducible apply State.startRound_keeps
    | with_reducible apply State.powerFailEnd_keeps
    | with_reducible apply State.endRound_keeps
    | with_reducible apply State.mghStatus_keeps
    | with_reducible apply State.set_keeps
    | with_reducible apply State.each_keeps
    | split

theorem execRoundAgeTimeout_keeps {r : State} {s : State} (hk : Keeps r s) : OutKeeps r (execRoundAgeTimeout s) := by
  unfold execRoundAgeTimeout
  repeat' first
    | (with_reducible apply OutKeeps.next)
    | with_reducible assumption
    | (extract_lets +onlyGivenNames x; first
        | (refine Keeps.step (s := x) ?_ ?_; rotate_left; ((try clear_value x); intro hx); rotate_left; subst x)
        | (refine Keeps.step (s := x.2) ?_ ?_; rotate_left; ((try clear_value x); intro hx); rotate_left; subst x)
        | (first | (have := (x : Keeper)) | (have := (x : Collector)) | (have := (x : Mag)) | (have := (x : Rstc)); subst x)
        | clear_value x | skip)
    | with_reducible apply State.startRound_keeps
    | split

theorem execCommitRoundStart_keeps {r : State} {s : State} (hk : Keeps r s) : OutKeeps r (execCommitRoundStart s) := by
  unfold execCommitRoundStart
  repeat' first
    | (with_reducible apply OutKeeps.next)
    | with_reducible assumption
    | (extract_lets +onlyGivenNames x; first
        | (refine Keeps.step (s := x) ?_ ?_; rotate_left; ((try clear_value x); intro hx); rotate_left; subst x)
        | (refine Keeps.step (s := x.2) ?_ ?_; rotate_left; ((try clear_value x); intro hx); rotate_left; subst x)
        | (first | (have := (x : Keeper)) | (have := (x : Collector)) | (have := (x : Mag)) | (have := (x : Rstc)); subst x)
        | clear_value x | skip)
    | with_reducible apply State.startRound_keeps
    | split

theorem execNvmeCommandTimeout_keeps {r : State} {bay : ℕ} {s : State} (hk : Keeps r s) : OutKeeps r (execNvmeCommandTimeout bay s) := by
  unfold execNvmeCommandTimeout
  repeat' first
    | (with_reducible apply OutKeeps.next)
    | with_reducible assumption
    | with_reducible apply State.inc_keeps
    | with_reducible apply State.emit_keeps
    | with_reducible apply State.bayLost_keeps
    | split

theorem execNvmeCompletion_keeps {r : State} {bay : ℕ} {vec : ℕ} {error : Bool} {s : State} (hk : Keeps r s) : OutKeeps r (execNvmeCompletion bay vec error s) := by
  unfold execNvmeCompletion
  repeat' first
    | (with_reducible apply OutKeeps.next)
    | with_reducible assumption
    | (intro x)
    | with_reducible apply State.inc_keeps
    | with_reducible apply State.when_keeps
    | with_reducible apply State.icuEvent_keeps
    | split

theorem execRebuildDone_keeps {r : State} {s : State} (hk : Keeps r s) : OutKeeps r (execRebuildDone s) := by
  unfold execRebuildDone
  repeat' first
    | (with_reducible apply OutKeeps.next)
    | with_reducible assumption
    | (intro x)
    | (with_reducible refine State.modMag_keeps (fun _ => id) ?_)
    | with_reducible apply State.writeSupers_keeps
    | with_reducible apply State.set_keeps
    | with_reducible apply State.settleSet_keeps
    | with_reducible apply State.flushBay_keeps
    | with_reducible apply State.readRow_keeps
    | with_reducible apply State.writeChunk_keeps
    | with_reducible apply State.each_keeps
    | split

theorem execMoorComplete_keeps {r : State} {bay : ℕ} {s : State} (hk : Keeps r s) : OutKeeps r (execMoorComplete bay s) := by
  unfold execMoorComplete
  repeat' first
    | (with_reducible apply OutKeeps.next)
    | with_reducible assumption
    | (extract_lets +onlyGivenNames x; first
        | (refine Keeps.step (s := x) ?_ ?_; rotate_left; ((try clear_value x); intro hx); rotate_left; subst x)
        | (refine Keeps.step (s := x.2) ?_ ?_; rotate_left; ((try clear_value x); intro hx); rotate_left; subst x)
        | (first | (have := (x : Keeper)) | (have := (x : Collector)) | (have := (x : Mag)) | (have := (x : Rstc)); subst x)
        | clear_value x | skip)
    | with_reducible apply State.bayFail_keeps
    | with_reducible apply State.moored_keeps
    | with_reducible apply State.nvme_keeps
    | split

theorem execMagControllerReady_keeps {r : State} {bay : ℕ} {ready : Bool} {adminOk : Bool} {queuesOk : Bool} {s : State} (hk : Keeps r s) : OutKeeps r (execMagControllerReady bay ready adminOk queuesOk s) := by
  unfold execMagControllerReady
  repeat' first
    | (with_reducible apply OutKeeps.next)
    | with_reducible assumption
    | (intro x)
    | (extract_lets +onlyGivenNames x; first
        | (refine Keeps.step (s := x) ?_ ?_; rotate_left; ((try clear_value x); intro hx); rotate_left; subst x)
        | (refine Keeps.step (s := x.2) ?_ ?_; rotate_left; ((try clear_value x); intro hx); rotate_left; subst x)
        | (first | (have := (x : Keeper)) | (have := (x : Collector)) | (have := (x : Mag)) | (have := (x : Rstc)); subst x)
        | clear_value x | skip)
    | with_reducible apply State.emit_keeps
    | with_reducible apply State.each_keeps
    | with_reducible apply State.toStep_keeps
    | with_reducible apply State.set_keeps
    | with_reducible apply State.setBay_keeps
    | with_reducible apply State.modBay_keeps
    | with_reducible apply State.nvme_keeps
    | with_reducible apply State.bayFail_keeps
    | split

theorem execMagLinkUp_keeps {r : State} {bay : ℕ} {link : Option (ℕ × ℕ)} {s : State} (hk : Keeps r s) : OutKeeps r (execMagLinkUp bay link s) := by
  unfold execMagLinkUp
  repeat' first
    | (with_reducible apply OutKeeps.next)
    | with_reducible assumption
    | with_reducible apply State.modBay_keeps
    | with_reducible apply State.emit_keeps
    | with_reducible apply State.set_keeps
    | with_reducible apply State.toStep_keeps
    | with_reducible apply State.bayFail_keeps
    | split

theorem execMoorPresenceStable_keeps {r : State} {bay : ℕ} {s : State} (hk : Keeps r s) : OutKeeps r (execMoorPresenceStable bay s) := by
  unfold execMoorPresenceStable
  repeat' first
    | (with_reducible apply OutKeeps.next)
    | with_reducible assumption
    | with_reducible apply State.toStep_keeps
    | with_reducible apply State.setPin_keeps
    | split

theorem execMagPresenceEdge_keeps {r : State} {bay : ℕ} {m : Option Magazine} {s : State} (hk : Keeps r s) : OutKeeps r (execMagPresenceEdge bay m s) := by
  unfold execMagPresenceEdge
  repeat' first
    | (with_reducible apply OutKeeps.next)
    | with_reducible assumption
    | (intro x)
    | with_reducible apply State.pinsLow_keeps
    | with_reducible apply State.dropMember_keeps
    | with_reducible apply State.settleSet_keeps
    | with_reducible apply State.powerFailStep_keeps
    | with_reducible apply State.bayLinkDown_keeps
    | with_reducible apply State.unmoored_keeps
    | with_reducible apply State.loseMember_keeps
    | with_reducible apply State.when_keeps
    | with_reducible apply State.rebuildLost_keeps
    | with_reducible apply State.startMoor_keeps
    | with_reducible apply State.setBay_keeps
    | with_reducible apply State.set_keeps
    | with_reducible apply State.clear_keeps
    | with_reducible apply State.modBay_keeps
    | split

theorem execDmaWaitTimeout_keeps {r : State} {ch : ℕ} {s : State} (hk : Keeps r s) : OutKeeps r (execDmaWaitTimeout ch s) := by
  unfold execDmaWaitTimeout
  repeat' first
    | (with_reducible apply OutKeeps.next)
    | with_reducible assumption
    | with_reducible apply State.dmaHalt_keeps
    | split

theorem execDmaEnd_keeps {r : State} {ch : ℕ} {s : State} (hk : Keeps r s) : OutKeeps r (execDmaEnd ch s) := by
  unfold execDmaEnd
  repeat' first
    | (with_reducible apply OutKeeps.next)
    | with_reducible assumption
    | (intro x)
    | with_reducible apply State.modJob_keeps
    | with_reducible apply State.atOp_keeps

theorem execDmaSignal_keeps {r : State} {ch : ℕ} {s : State} (hk : Keeps r s) : OutKeeps r (execDmaSignal ch s) := by
  unfold execDmaSignal
  repeat' first
    | (with_reducible apply OutKeeps.next)
    | with_reducible assumption
    | (intro x)
    | with_reducible apply State.sendEvent_keeps
    | with_reducible apply State.nextOp_keeps
    | with_reducible apply State.atOp_keeps

theorem execDmaWait_keeps {r : State} {ch : ℕ} {s : State} (hk : Keeps r s) : OutKeeps r (execDmaWait ch s) := by
  unfold execDmaWait
  repeat' first
    | (with_reducible apply OutKeeps.next)
    | with_reducible assumption
    | (intro x)
    | (extract_lets +onlyGivenNames x; first
        | (refine Keeps.step (s := x) ?_ ?_; rotate_left; ((try clear_value x); intro hx); rotate_left; subst x)
        | (refine Keeps.step (s := x.2) ?_ ?_; rotate_left; ((try clear_value x); intro hx); rotate_left; subst x)
        | (first | (have := (x : Keeper)) | (have := (x : Collector)) | (have := (x : Mag)) | (have := (x : Rstc)); subst x)
        | clear_value x | skip)
    | with_reducible apply State.waitLine_keeps
    | with_reducible apply State.dmaHalt_keeps
    | with_reducible apply State.atOp_keeps
    | split

theorem execDmaLoop_keeps {r : State} {ch : ℕ} {s : State} (hk : Keeps r s) : OutKeeps r (execDmaLoop ch s) := by
  unfold execDmaLoop
  repeat' first
    | (with_reducible apply OutKeeps.next)
    | with_reducible assumption
    | (intro x)
    | (extract_lets +onlyGivenNames x; first
        | (refine Keeps.step (s := x) ?_ ?_; rotate_left; ((try clear_value x); intro hx); rotate_left; subst x)
        | (refine Keeps.step (s := x.2) ?_ ?_; rotate_left; ((try clear_value x); intro hx); rotate_left; subst x)
        | (first | (have := (x : Keeper)) | (have := (x : Collector)) | (have := (x : Mag)) | (have := (x : Rstc)); subst x)
        | clear_value x | skip)
    | with_reducible apply State.modJob_keeps
    | with_reducible apply State.dmaHalt_keeps
    | with_reducible apply State.atOp_keeps
    | split

theorem execDmaMove_keeps {r : State} {ch : ℕ} {s : State} (hk : Keeps r s) : OutKeeps r (execDmaMove ch s) := by
  unfold execDmaMove
  repeat' first
    | (with_reducible apply OutKeeps.next)
    | with_reducible assumption
    | (intro x)
    | (with_reducible refine Keeps.snd (by assumption) ?_)
    | with_reducible apply State.nextOp_keeps
    | with_reducible apply State.copy_keeps
    | with_reducible apply State.dmaHalt_keeps
    | with_reducible apply State.atOp_keeps
    | split

theorem execDmaDescriptorComplete_keeps {r : State} {ch : ℕ} {s : State} (hk : Keeps r s) : OutKeeps r (execDmaDescriptorComplete ch s) := by
  unfold execDmaDescriptorComplete
  repeat' first
    | (with_reducible apply OutKeeps.next)
    | with_reducible assumption
    | (with_reducible refine Keeps.snd (by assumption) ?_)
    | with_reducible apply State.modChan_keeps
    | with_reducible apply State.dmaFetch_keeps
    | with_reducible apply State.haltAt_keeps
    | with_reducible apply State.incWrap_keeps
    | with_reducible apply State.dmaHalt_keeps
    | with_reducible apply State.sendEvent_keeps
    | with_reducible apply State.putDesc_keeps
    | split

theorem execDmaDescriptor_keeps {r : State} {ch : ℕ} {s : State} (hk : Keeps r s) : OutKeeps r (execDmaDescriptor ch s) := by
  unfold execDmaDescriptor
  repeat' first
    | (with_reducible apply OutKeeps.next)
    | with_reducible assumption
    | (with_reducible refine Keeps.snd (by assumption) ?_)
    | with_reducible apply State.modJob_keeps
    | with_reducible apply State.copy_keeps
    | with_reducible apply State.dmaHalt_keeps
    | split

theorem execDmaPoll_keeps {r : State} {ch : ℕ} {s : State} (hk : Keeps r s) : OutKeeps r (execDmaPoll ch s) := by
  unfold execDmaPoll
  repeat' first
    | (with_reducible apply OutKeeps.next)
    | with_reducible assumption
    | with_reducible apply State.dmaKick_keeps
    | split

theorem execBpmInitDone_keeps {r : State} {p : ℕ} {s : State} (hk : Keeps r s) : OutKeeps r (execBpmInitDone p s) := by
  unfold execBpmInitDone
  repeat' first
    | (with_reducible apply OutKeeps.next)
    | with_reducible assumption
    | with_reducible apply State.bpmDone_keeps

theorem execPushWindowWrite_keeps {r : State} {q : ℕ} {off : ℕ} {data : List Byte} {s : State} (hk : Keeps r s) : OutKeeps r (execPushWindowWrite q off data s) := by
  unfold execPushWindowWrite
  repeat' first
    | (with_reducible apply OutKeeps.next)
    | with_reducible assumption
    | with_reducible apply State.push_keeps

theorem execQueueEntryWrite_keeps {r : State} {q : ℕ} {lane : ℕ} {epoch : ℕ} {row : ℕ} {column : ℕ} {kind : ℕ} {flags : ℕ} {body : List Byte} {copiesDiffer : Bool} {s : State} (hk : Keeps r s) : OutKeeps r (execQueueEntryWrite q lane epoch row column kind flags body copiesDiffer s) := by
  unfold execQueueEntryWrite
  repeat' first
    | (with_reducible apply OutKeeps.next)
    | with_reducible assumption
    | (intro x)
    | (extract_lets +onlyGivenNames x; first
        | (refine Keeps.step (s := x) ?_ ?_; rotate_left; ((try clear_value x); intro hx); rotate_left; subst x)
        | (refine Keeps.step (s := x.2) ?_ ?_; rotate_left; ((try clear_value x); intro hx); rotate_left; subst x)
        | (first | (have := (x : Keeper)) | (have := (x : Collector)) | (have := (x : Mag)) | (have := (x : Rstc)); subst x)
        | clear_value x | skip)
    | with_reducible apply State.lateRecord_keeps
    | with_reducible apply State.enqueue_keeps
    | with_reducible apply State.queueRecord_keeps
    | with_reducible apply State.upsetLane_keeps
    | with_reducible apply State.when_keeps
    | split

theorem execMigrationCopyDone_keeps {r : State} {s : State} (hk : Keeps r s) : OutKeeps r (execMigrationCopyDone s) := by
  unfold execMigrationCopyDone
  repeat' first
    | (with_reducible apply OutKeeps.next)
    | with_reducible assumption
    | with_reducible apply State.finishMigration_keeps
    | split
    | (fail_if_no_progress (with_reducible refine Keeps.lit ?_ rfl rfl rfl rfl))

theorem execMigrationGranuleCopy_keeps {r : State} {src : EccFinding} {spare : EccFinding} {s : State} (hk : Keeps r s) : OutKeeps r (execMigrationGranuleCopy src spare s) := by
  unfold execMigrationGranuleCopy
  repeat' first
    | (with_reducible apply OutKeeps.next)
    | with_reducible assumption
    | (intro x)
    | (extract_lets +onlyGivenNames x; first
        | (refine Keeps.step (s := x) ?_ ?_; rotate_left; ((try clear_value x); intro hx); rotate_left; subst x)
        | (refine Keeps.step (s := x.2) ?_ ?_; rotate_left; ((try clear_value x); intro hx); rotate_left; subst x)
        | (first | (have := (x : Keeper)) | (have := (x : Collector)) | (have := (x : Mag)) | (have := (x : Rstc)); subst x)
        | clear_value x | skip)
    | with_reducible apply State.set_keeps
    | with_reducible apply State.uncorrectable_keeps
    | with_reducible apply State.correctable_keeps
    | with_reducible apply State.column_keeps
    | with_reducible apply State.each_keeps
    | split

theorem execRankRetrainDone_keeps {r : State} {rank : ℕ} {s : State} (hk : Keeps r s) : OutKeeps r (execRankRetrainDone rank s) := by
  unfold execRankRetrainDone
  repeat' first
    | (with_reducible apply OutKeeps.next)
    | with_reducible assumption
    | with_reducible apply State.retrainStopped_keeps
    | with_reducible apply State.goOn_keeps
    | with_reducible apply State.inc_keeps
    | with_reducible apply State.set_keeps
    | split
    | (fail_if_no_progress (with_reducible refine Keeps.lit ?_ rfl rfl rfl rfl))

theorem execRetrainForceTimeout_keeps {r : State} {s : State} (hk : Keeps r s) : OutKeeps r (execRetrainForceTimeout s) := by
  unfold execRetrainForceTimeout
  repeat' first
    | (with_reducible apply OutKeeps.next)
    | with_reducible assumption
    | split
    | (fail_if_no_progress (with_reducible refine Keeps.lit ?_ rfl rfl rfl rfl))

theorem execRetrainDue_keeps {r : State} {rank : ℕ} {drift : ℕ} {temp : ℤ} {s : State} (hk : Keeps r s) : OutKeeps r (execRetrainDue rank drift temp s) := by
  unfold execRetrainDue
  repeat' first
    | (with_reducible apply OutKeeps.next)
    | with_reducible assumption
    | with_reducible apply State.retrainWanted_keeps
    | split
    | (fail_if_no_progress (with_reducible refine Keeps.lit ?_ rfl rfl rfl rfl))

theorem execCeLimitReached_keeps {r : State} {rank : ℕ} {s : State} (hk : Keeps r s) : OutKeeps r (execCeLimitReached rank s) := by
  unfold execCeLimitReached
  repeat' first
    | (with_reducible apply OutKeeps.next)
    | with_reducible assumption
    | with_reducible apply State.retireRank_keeps
    | split
    | (fail_if_no_progress (with_reducible refine Keeps.lit ?_ rfl rfl rfl rfl))

theorem execPatrolScrubRead_keeps {r : State} {rank : ℕ} {ecc : EccFinding} {s : State} (hk : Keeps r s) : OutKeeps r (execPatrolScrubRead rank ecc s) := by
  unfold execPatrolScrubRead
  repeat' first
    | (with_reducible apply OutKeeps.next)
    | with_reducible assumption
    | with_reducible apply State.uncorrectable_keeps
    | with_reducible apply State.correctable_keeps
    | with_reducible apply State.column_keeps
    | split
    | (fail_if_no_progress (with_reducible refine Keeps.lit ?_ rfl rfl rfl rfl))

theorem execRefreshDue_keeps {r : State} {rank : ℕ} {bank : ℕ} {s : State} (hk : Keeps r s) : OutKeeps r (execRefreshDue rank bank s) := by
  unfold execRefreshDue
  repeat' first
    | (with_reducible apply OutKeeps.next)
    | with_reducible assumption
    | with_reducible apply State.putBank_keeps
    | with_reducible apply State.traceCmd_keeps
    | split

theorem execMr4Poll_keeps {r : State} {readings : List (List (ℕ × Bool × ℤ))} {s : State} (hk : Keeps r s) : OutKeeps r (execMr4Poll readings s) := by
  unfold execMr4Poll
  repeat' first
    | (with_reducible apply OutKeeps.next)
    | with_reducible assumption
    | (intro x)
    | (extract_lets +onlyGivenNames x; first
        | (refine Keeps.step (s := x) ?_ ?_; rotate_left; ((try clear_value x); intro hx); rotate_left; subst x)
        | (refine Keeps.step (s := x.2) ?_ ?_; rotate_left; ((try clear_value x); intro hx); rotate_left; subst x)
        | (first | (have := (x : Keeper)) | (have := (x : Collector)) | (have := (x : Mag)) | (have := (x : Rstc)); subst x)
        | clear_value x | skip)
    | with_reducible apply State.raise_keeps
    | with_reducible apply State.set_keeps
    | with_reducible apply State.when_keeps
    | with_reducible apply State.traceCmd_keeps
    | with_reducible apply State.each_keeps
    | split
    | (fail_if_no_progress (with_reducible refine Keeps.lit ?_ rfl rfl rfl rfl))

theorem execOpenRowTimeout_keeps {r : State} {ch : ℕ} {cs : ℕ} {bank : ℕ} {s : State} (hk : Keeps r s) : OutKeeps r (execOpenRowTimeout ch cs bank s) := by
  unfold execOpenRowTimeout
  repeat' first
    | (with_reducible apply OutKeeps.next)
    | with_reducible assumption
    | with_reducible apply State.traceCmd_keeps
    | with_reducible apply State.putBank_keeps
    | split

theorem execWriteQueueDrain_keeps {r : State} {ch : ℕ} {s : State} (hk : Keeps r s) : OutKeeps r (execWriteQueueDrain ch s) := by
  unfold execWriteQueueDrain
  repeat' first
    | (with_reducible apply OutKeeps.next)
    | with_reducible assumption
    | with_reducible apply State.drain_keeps
    | with_reducible apply State.goOn_keeps
    | split

theorem execDramRequest_keeps {r : State} {z0 : DramReq} {ecc : List EccFinding} {s : State} (hk : Keeps r s) : OutKeeps r (execDramRequest z0 ecc s) := by
  unfold execDramRequest
  repeat' first
    | (with_reducible apply OutKeeps.next)
    | with_reducible assumption
    | (intro x)
    | with_reducible apply State.takeReq_keeps
    | with_reducible apply State.each_keeps

theorem execLmcInitDone_keeps {r : State} {ranks : InitRanks} {needsRfm : Bool} {trainFailed : Bool} {s : State} (hk : Keeps r s) : OutKeeps r (execLmcInitDone ranks needsRfm trainFailed s) := by
  unfold execLmcInitDone
  repeat' first
    | (with_reducible apply OutKeeps.next)
    | with_reducible assumption
    | (extract_lets +onlyGivenNames x; first
        | (refine Keeps.step (s := x) ?_ ?_; rotate_left; ((try clear_value x); intro hx); rotate_left; subst x)
        | (refine Keeps.step (s := x.2) ?_ ?_; rotate_left; ((try clear_value x); intro hx); rotate_left; subst x)
        | (first | (have := (x : Keeper)) | (have := (x : Collector)) | (have := (x : Mag)) | (have := (x : Rstc)); subst x)
        | clear_value x | skip)
    | with_reducible apply State.lmcReady_keeps
    | with_reducible apply State.set_keeps
    | split
    | (fail_if_no_progress (with_reducible refine Keeps.lit ?_ rfl rfl rfl rfl))

theorem execDecodeUnit_keeps {r : State} {s : State} (hk : Keeps r s) : OutKeeps r (execDecodeUnit s) := by
  unfold execDecodeUnit
  repeat' first
    | (with_reducible apply OutKeeps.next)
    | with_reducible assumption
    | with_reducible apply State.streamUnit_keeps
    | with_reducible apply State.setUnit_keeps
    | split

theorem execPackerFrameDone_keeps {r : State} {s : State} (hk : Keeps r s) : OutKeeps r (execPackerFrameDone s) := by
  unfold execPackerFrameDone
  repeat' first
    | (with_reducible apply OutKeeps.next)
    | with_reducible assumption
    | (intro x)
    | with_reducible apply State.closeCmd_keeps
    | with_reducible apply State.mghCmd_keeps
    | with_reducible apply State.endUnit_keeps
    | with_reducible apply State.tryClose_keeps
    | with_reducible apply State.inc_keeps
    | with_reducible apply State.when_keeps
    | with_reducible apply State.set_keeps
    | split
    | (fail_if_no_progress (with_reducible refine Keeps.lit ?_ rfl rfl rfl rfl))

theorem execPackerRowEmit_keeps {r : State} {s : State} (hk : Keeps r s) : OutKeeps r (execPackerRowEmit s) := by
  unfold execPackerRowEmit
  repeat' first
    | (with_reducible apply OutKeeps.next)
    | with_reducible assumption
    | (with_reducible refine (State.emitRow_keeps ?_).keeps _ (by assumption))
    | (with_reducible apply OptKeeps.getD)
    | (with_reducible apply State.emitRow_keeps)
    | split

theorem execPackerFrameStart_keeps {r : State} {s : State} (hk : Keeps r s) : OutKeeps r (execPackerFrameStart s) := by
  unfold execPackerFrameStart
  repeat' first
    | (with_reducible apply OutKeeps.next)
    | with_reducible assumption
    | (extract_lets +onlyGivenNames x; first
        | (refine Keeps.step (s := x) ?_ ?_; rotate_left; ((try clear_value x); intro hx); rotate_left; subst x)
        | (refine Keeps.step (s := x.2) ?_ ?_; rotate_left; ((try clear_value x); intro hx); rotate_left; subst x)
        | (first | (have := (x : Keeper)) | (have := (x : Collector)) | (have := (x : Mag)) | (have := (x : Rstc)); subst x)
        | clear_value x | skip)
    | with_reducible apply State.emitRows_keeps
    | with_reducible apply State.takeRow_keeps
    | with_reducible apply State.stage_keeps
    | with_reducible apply State.set_keeps
    | with_reducible apply State.endMetas_keeps
    | with_reducible apply State.modFrame_keeps
    | with_reducible apply State.discardFrame_keeps
    | with_reducible apply State.newUnit_keeps
    | split

theorem execFalWaitTimeout_keeps {r : State} {s : State} (hk : Keeps r s) : OutKeeps r (execFalWaitTimeout s) := by
  unfold execFalWaitTimeout
  repeat' first
    | (with_reducible apply OutKeeps.next)
    | with_reducible assumption
    | (intro x)
    | with_reducible apply State.loseTile_keeps
    | with_reducible apply State.each_keeps
    | with_reducible apply State.raise_keeps
    | with_reducible apply State.inc_keeps
    | with_reducible apply State.set_keeps
    | split

theorem execFalDecision_keeps {r : State} {s : State} (hk : Keeps r s) : OutKeeps r (execFalDecision s) := by
  unfold execFalDecision
  repeat' first
    | (with_reducible apply OutKeeps.next)
    | with_reducible assumption
    | (intro x)
    | with_reducible apply State.dropFifth_keeps
    | with_reducible apply State.set_keeps
    | with_reducible apply State.when_keeps
    | with_reducible apply State.noteDecision_keeps
    | with_reducible apply State.modFrame_keeps
    | with_reducible apply State.closeBanks_keeps
    | split
    | (fail_if_no_progress (with_reducible refine Keeps.lit ?_ rfl rfl rfl rfl))

theorem execEngineUngateDone_keeps {r : State} {e : EngId} {bad : Option (ℕ × ℕ)} {s : State} (hk : Keeps r s) : OutKeeps r (execEngineUngateDone e bad s) := by
  unfold execEngineUngateDone
  repeat' first
    | (with_reducible apply OutKeeps.next)
    | with_reducible assumption
    | with_reducible apply State.upsetWord_keeps
    | with_reducible apply State.machineCheck_keeps
    | with_reducible apply State.reachReady_keeps
    | with_reducible apply State.modEng_keeps
    | split

theorem execEngineResetDone_keeps {r : State} {e : EngId} {readBackOk : Bool} {selfTestOk : Bool} {s : State} (hk : Keeps r s) : OutKeeps r (execEngineResetDone e readBackOk selfTestOk s) := by
  unfold execEngineResetDone
  repeat' first
    | (with_reducible apply OutKeeps.next)
    | with_reducible assumption
    | (with_reducible refine Keeps.snd (by assumption) ?_)
    | with_reducible apply State.setEng_keeps
    | with_reducible apply State.countIsolation_keeps
    | with_reducible apply State.spareStatus_keeps
    | with_reducible apply State.loaded_keeps
    | with_reducible apply State.noteLoad_keeps
    | with_reducible apply State.dropSlot_keeps
    | with_reducible apply State.load_keeps
    | split

theorem execMicrocodeLoadDone_keeps {r : State} {e : EngId} {readBackOk : Bool} {s : State} (hk : Keeps r s) : OutKeeps r (execMicrocodeLoadDone e readBackOk s) := by
  unfold execMicrocodeLoadDone
  repeat' first
    | (with_reducible apply OutKeeps.next)
    | with_reducible assumption
    | (extract_lets +onlyGivenNames x; first
        | (refine Keeps.step (s := x) ?_ ?_; rotate_left; ((try clear_value x); intro hx); rotate_left; subst x)
        | (refine Keeps.step (s := x.2) ?_ ?_; rotate_left; ((try clear_value x); intro hx); rotate_left; subst x)
        | (first | (have := (x : Keeper)) | (have := (x : Collector)) | (have := (x : Mag)) | (have := (x : Rstc)); subst x)
        | clear_value x | skip)
    | (with_reducible refine Keeps.snd (by assumption) ?_)
    | with_reducible apply State.loaded_keeps
    | with_reducible apply State.gateEngine_keeps
    | with_reducible apply State.setEng_keeps
    | with_reducible apply State.spareStatus_keeps
    | with_reducible apply State.noteLoad_keeps
    | with_reducible apply State.modEng_keeps
    | with_reducible apply State.dropSlot_keeps
    | with_reducible apply State.load_keeps
    | split

theorem execControlStoreScrub_keeps {r : State} {e : EngId} {ucAddr : ℕ} {parityBad : Bool} {s : State} (hk : Keeps r s) : OutKeeps r (execControlStoreScrub e ucAddr parityBad s) := by
  unfold execControlStoreScrub
  repeat' first
    | (with_reducible apply OutKeeps.next)
    | with_reducible assumption
    | with_reducible apply State.upsetWord_keeps
    | with_reducible apply State.raise_keeps
    | with_reducible apply State.requestReset_keeps
    | split

theorem execMacroOpWatchdog_keeps {r : State} {e : EngId} {ucAddr : ℕ} {macroOp : ℕ} {s : State} (hk : Keeps r s) : OutKeeps r (execMacroOpWatchdog e ucAddr macroOp s) := by
  unfold execMacroOpWatchdog
  repeat' first
    | (with_reducible apply OutKeeps.next)
    | with_reducible assumption
    | with_reducible apply State.machineCheck_keeps
    | split

theorem execMachineCheck_keeps {r : State} {e : EngId} {cause : ℕ} {ucAddr : ℕ} {quarter : ℕ} {macroOp : ℕ} {s : State} (hk : Keeps r s) : OutKeeps r (execMachineCheck e cause ucAddr quarter macroOp s) := by
  unfold execMachineCheck
  repeat' first
    | (with_reducible apply OutKeeps.next)
    | with_reducible assumption
    | with_reducible apply State.machineCheck_keeps
    | split

theorem execMacroOpBoundary_keeps {r : State} {e : EngId} {s : State} (hk : Keeps r s) : OutKeeps r (execMacroOpBoundary e s) := by
  unfold execMacroOpBoundary
  repeat' first
    | (with_reducible apply OutKeeps.next)
    | with_reducible assumption
    | (with_reducible refine Keeps.snd (by assumption) ?_)
    | with_reducible apply State.machineCheck_keeps
    | with_reducible apply State.takeEvents_keeps
    | with_reducible apply State.runMacro_keeps
    | split

theorem execEngineJob_keeps {r : State} {e : EngId} {sram part : EccFinding} {coded : List (ℕ × ℕ × Byte)} {escape : List (ℕ × Byte)} {s : State} (hk : Keeps r s) : OutKeeps r (execEngineJob e sram part coded escape s) := by
  unfold execEngineJob
  repeat' first
    | (with_reducible apply OutKeeps.next)
    | with_reducible assumption
    | with_reducible apply State.takeJob_keeps
    | with_reducible apply State.takeEvents_keeps
    | split

theorem execMetadataPacket_keeps {r : State} {link : ℕ} {p : List Byte} {s : State} (hk : Keeps r s) : OutKeeps r (execMetadataPacket link p s) := by
  unfold execMetadataPacket
  repeat' first
    | (with_reducible apply OutKeeps.next)
    | with_reducible assumption
    | with_reducible apply State.receive_keeps

theorem execLinePacket_keeps {r : State} {link : ℕ} {p : List Byte} {s : State} (hk : Keeps r s) : OutKeeps r (execLinePacket link p s) := by
  unfold execLinePacket
  repeat' first
    | (with_reducible apply OutKeeps.next)
    | with_reducible assumption
    | with_reducible apply State.receive_keeps

theorem execSubstErrorThreshold_keeps {r : State} {lane : ℕ} {errors : ℕ} {s : State} (hk : Keeps r s) : OutKeeps r (execSubstErrorThreshold lane errors s) := by
  unfold execSubstErrorThreshold
  repeat' first
    | (with_reducible apply OutKeeps.next)
    | with_reducible assumption
    | with_reducible apply State.requestSubst_keeps
    | with_reducible apply State.incBy_keeps
    | with_reducible apply State.putPpl_keeps
    | split
    | (fail_if_no_progress (with_reducible refine Keeps.lit ?_ rfl rfl rfl rfl))

theorem execBackChannelAckTimeout_keeps {r : State} {s : State} (hk : Keeps r s) : OutKeeps r (execBackChannelAckTimeout s) := by
  unfold execBackChannelAckTimeout
  repeat' first
    | (with_reducible apply OutKeeps.next)
    | with_reducible assumption
    | with_reducible apply State.substFailed_keeps
    | with_reducible apply State.set_keeps
    | with_reducible apply State.raise_keeps
    | with_reducible apply State.sendBc_keeps
    | split
    | (fail_if_no_progress (with_reducible refine Keeps.lit ?_ rfl rfl rfl rfl))

theorem execStatusAck_keeps {r : State} {code : AckCode} {refused : Bool} {s : State} (hk : Keeps r s) : OutKeeps r (execStatusAck code refused s) := by
  unfold execStatusAck
  repeat' first
    | (with_reducible apply OutKeeps.next)
    | with_reducible assumption
    | with_reducible apply State.substFailed_keeps
    | split
    | (fail_if_no_progress (with_reducible refine Keeps.lit ?_ rfl rfl rfl rfl))

theorem execAlignBlock_keeps {r : State} {e : LaneErrors} {logical : ℕ} {link : ℕ} {count : ℕ} {slot : ℕ} {s : State} (hk : Keeps r s) : OutKeeps r (execAlignBlock e logical link count slot s) := by
  unfold execAlignBlock
  repeat' first
    | (with_reducible apply OutKeeps.next)
    | with_reducible assumption
    | (intro x)
    | with_reducible apply State.judgeLink_keeps
    | with_reducible apply State.each_keeps
    | with_reducible apply State.substDone_keeps
    | with_reducible apply State.putPpl_keeps
    | with_reducible apply State.when_keeps
    | with_reducible apply State.syncErrors_keeps
    | with_reducible apply State.markerError_keeps
    | split

theorem execTrainRetry_keeps {r : State} {link : ℕ} {s : State} (hk : Keeps r s) : OutKeeps r (execTrainRetry link s) := by
  unfold execTrainRetry
  repeat' first
    | (with_reducible apply OutKeeps.next)
    | with_reducible assumption
    | with_reducible apply State.train_keeps
    | split

theorem execBlockLockLost_keeps {r : State} {e : LaneErrors} {s : State} (hk : Keeps r s) : OutKeeps r (execBlockLockLost e s) := by
  unfold execBlockLockLost
  repeat' first
    | (with_reducible apply OutKeeps.next)
    | with_reducible assumption
    | (intro x)
    | (extract_lets +onlyGivenNames x; first
        | (refine Keeps.step (s := x) ?_ ?_; rotate_left; ((try clear_value x); intro hx); rotate_left; subst x)
        | (refine Keeps.step (s := x.2) ?_ ?_; rotate_left; ((try clear_value x); intro hx); rotate_left; subst x)
        | (first | (have := (x : Keeper)) | (have := (x : Collector)) | (have := (x : Mag)) | (have := (x : Rstc)); subst x)
        | clear_value x | skip)
    | with_reducible apply State.linkDown_keeps
    | with_reducible apply State.raise_keeps
    | with_reducible apply State.requestSubst_keeps
    | with_reducible apply State.when_keeps
    | with_reducible apply State.set_keeps
    | with_reducible apply State.clearBit_keeps
    | with_reducible apply State.putPpl_keeps
    | with_reducible apply State.syncErrors_keeps
    | split

theorem execBlockLockGained_keeps {r : State} {lane : ℕ} {s : State} (hk : Keeps r s) : OutKeeps r (execBlockLockGained lane s) := by
  unfold execBlockLockGained
  repeat' first
    | (with_reducible apply OutKeeps.next)
    | with_reducible assumption
    | with_reducible apply State.putPpl_keeps
    | with_reducible apply State.setBit_keeps
    | split

theorem execLtcOutFrameStart_keeps {r : State} {s : State} (hk : Keeps r s) : OutKeeps r (execLtcOutFrameStart s) := by
  unfold execLtcOutFrameStart
  repeat' first
    | (with_reducible apply OutKeeps.next)
    | with_reducible assumption
    | (intro x)
    | with_reducible apply State.emit_keeps
    | with_reducible apply State.when_keeps
    | with_reducible apply State.genNext_keeps
    | split
    | (fail_if_no_progress (with_reducible refine Keeps.lit ?_ rfl rfl rfl rfl))

theorem execLtcInTimeout_keeps {r : State} {s : State} (hk : Keeps r s) : OutKeeps r (execLtcInTimeout s) := by
  unfold execLtcInTimeout
  repeat' first
    | (with_reducible apply OutKeeps.next)
    | with_reducible assumption
    | with_reducible apply State.clear_keeps
    | split
    | (fail_if_no_progress (with_reducible refine Keeps.lit ?_ rfl rfl rfl rfl))

theorem execLtcInWord_keeps {r : State} {tc : Word} {user : Word} {frameNs : ℕ} {s : State} (hk : Keeps r s) : OutKeeps r (execLtcInWord tc user frameNs s) := by
  unfold execLtcInWord
  repeat' first
    | (with_reducible apply OutKeeps.next)
    | with_reducible assumption
    | (intro x)
    | with_reducible apply State.when_keeps
    | with_reducible apply State.set_keeps
    | with_reducible apply State.putWord_keeps
    | split
    | (fail_if_no_progress (with_reducible refine Keeps.lit ?_ rfl rfl rfl rfl))

theorem execGangSymbolTimeout_keeps {r : State} {s : State} (hk : Keeps r s) : OutKeeps r (execGangSymbolTimeout s) := by
  unfold execGangSymbolTimeout
  repeat' first
    | (with_reducible apply OutKeeps.next)
    | with_reducible assumption
    | with_reducible apply State.gangFail_keeps
    | split

theorem execGangBeaconSymbol_keeps {r : State} {epoch : Word} {b : GangSymbol} {s : State} (hk : Keeps r s) : OutKeeps r (execGangBeaconSymbol epoch b s) := by
  unfold execGangBeaconSymbol
  repeat' first
    | (with_reducible apply OutKeeps.next)
    | with_reducible assumption
    | with_reducible apply State.judgeSkew_keeps
    | split
    | (fail_if_no_progress (with_reducible refine Keeps.lit ?_ rfl rfl rfl rfl))

theorem execBeaconOutEnd_keeps {r : State} {s : State} (hk : Keeps r s) : OutKeeps r (execBeaconOutEnd s) := by
  unfold execBeaconOutEnd
  repeat' first
    | (with_reducible apply OutKeeps.next)
    | with_reducible assumption
    | with_reducible apply State.emit_keeps
    | split
    | (fail_if_no_progress (with_reducible refine Keeps.lit ?_ rfl rfl rfl rfl))

theorem execBeaconEdge_keeps {r : State} {s : State} (hk : Keeps r s) : OutKeeps r (execBeaconEdge s) := by
  unfold execBeaconEdge
  repeat' first
    | (with_reducible apply OutKeeps.next)
    | with_reducible assumption
    | with_reducible apply State.beacon_keeps
    | split

theorem execBeaconMiss_keeps {r : State} {s : State} (hk : Keeps r s) : OutKeeps r (execBeaconMiss s) := by
  unfold execBeaconMiss
  repeat' first
    | (with_reducible apply OutKeeps.next)
    | with_reducible assumption
    | with_reducible apply State.raise_keeps
    | split
    | (fail_if_no_progress (with_reducible refine Keeps.lit ?_ rfl rfl rfl rfl))

theorem execFlywheelEdge_keeps {r : State} {s : State} (hk : Keeps r s) : OutKeeps r (execFlywheelEdge s) := by
  unfold execFlywheelEdge
  repeat' first
    | (with_reducible apply OutKeeps.next)
    | with_reducible assumption
    | with_reducible apply State.relock_keeps
    | with_reducible apply State.edge_keeps
    | with_reducible apply State.lockLost_keeps
    | with_reducible apply State.when_keeps
    | with_reducible apply State.inc_keeps
    | with_reducible apply State.set_keeps
    | split
    | (fail_if_no_progress (with_reducible refine Keeps.lit ?_ rfl rfl rfl rfl))

theorem execBeaconInEdge_keeps {r : State} {s : State} (hk : Keeps r s) : OutKeeps r (execBeaconInEdge s) := by
  unfold execBeaconInEdge
  repeat' first
    | (with_reducible apply OutKeeps.next)
    | with_reducible assumption
    | with_reducible apply State.sourceEdge_keeps
    | split
    | (fail_if_no_progress (with_reducible refine Keeps.lit ?_ rfl rfl rfl rfl))

theorem execTimerBeaconInstant_keeps {r : State} {s : State} (hk : Keeps r s) : OutKeeps r (execTimerBeaconInstant s) := by
  unfold execTimerBeaconInstant
  repeat' first
    | (with_reducible apply OutKeeps.next)
    | with_reducible assumption
    | with_reducible apply State.inc_keeps
    | with_reducible apply State.edge_keeps
    | with_reducible apply State.nextInstant_keeps
    | split

theorem execGangWindowAccess_keeps {r : State} {a : Agent} {off : ℕ} {w : Option Word} {reply : Word} {s : State} (hk : Keeps r s) : OutKeeps r (execGangWindowAccess a off w reply s) := by
  unfold execGangWindowAccess
  repeat' first
    | (with_reducible apply OutKeeps.next)
    | with_reducible assumption
    | with_reducible apply State.noAccess_keeps
    | with_reducible apply State.gangAccess_keeps
    | split

theorem execReservedOffsetAccess_keeps {r : State} {a : Agent} {off : ℕ} {w : Option Word} {s : State} (hk : Keeps r s) : OutKeeps r (execReservedOffsetAccess a off w s) := by
  unfold execReservedOffsetAccess
  repeat' first
    | (with_reducible apply OutKeeps.next)
    | with_reducible assumption
    | with_reducible apply State.writeWord_keeps
    | with_reducible apply State.readWord_keeps
    | split

theorem execUnalignedAccess_keeps {r : State} {a : Agent} {off : ℕ} {size : ℕ} {w : Option Word} {s : State} (hk : Keeps r s) : OutKeeps r (execUnalignedAccess a off size w s) := by
  unfold execUnalignedAccess
  repeat' first
    | (with_reducible apply OutKeeps.next)
    | with_reducible assumption
    | with_reducible apply State.oddAccess_keeps

theorem execRegisterWrite_keeps {r : State} {a : Agent} {off : ℕ} {v : Word} {s : State} (hk : Keeps r s) : OutKeeps r (execRegisterWrite a off v s) := by
  unfold execRegisterWrite
  repeat' first
    | (with_reducible apply OutKeeps.next)
    | with_reducible assumption
    | with_reducible apply State.writeWord_keeps

end Sys2Proof.Machine
end

