-- ==== Sys2Proof/Laws/Words.lean ====
section
/-! SUPPORT. What the raising of a fault does to the registers: those outside the Fault Collector's window keep their words. -/

namespace Sys2Proof.Machine

/-- From a well-formed state, `t` is well formed and the words of which `p` holds are what they were. -/
structure SameWords (p : Nat → Prop) (s t : State) : Prop where
  wf : s.wf = true → t.wf = true
  word : s.wf = true → ∀ k, p k → t.word k = s.word k

/-- Outside the Fault Collector's window (R37). -/
def NotFc (k : Nat) : Prop := k < 0x480000 ∨ 0x4C0000 ≤ k

theorem SameWords.refl {p : Nat → Prop} (s : State) : SameWords p s s := ⟨id, fun _ _ _ => rfl⟩

theorem SameWords.trans {p : Nat → Prop} {r s t : State} (h : SameWords p r s) (k : SameWords p s t) : SameWords p r t :=
  ⟨fun w => k.wf (h.wf w), fun w j hj => (k.word (h.wf w) j hj).trans (h.word w j hj)⟩

/-- An operation that leaves the registers alone. -/
theorem SameWords.of_regs {p : Nat → Prop} {s t : State} (h : Keeps s t) (e : t.regs = s.regs) : SameWords p s t :=
  ⟨h.wf, fun _ k _ => by unfold State.word; rw [e]⟩

theorem State.logbook_regs_words (s : State) (t : Nat) (d : List Nat) : (s.logbook t d).regs = s.regs := by
  unfold State.logbook; dsimp only; split <;> rfl

theorem State.icuPulse_regs_words (s : State) (n : Nat) : (s.icuPulse n).regs = s.regs := by
  unfold State.icuPulse State.icuEvent
  split
  · rfl
  · dsimp only; split <;> rfl

theorem State.set_sameWords {p : Nat → Prop} (s : State) (f : Fld) (v : Nat) (h1 : ¬ p f.off) (h2 : f.lo + f.width ≤ 32 ∨ ¬ p (f.off + 4)) :
    SameWords p s (s.set f v) :=
  ⟨fun w => State.set_wf w f v, fun w k hk => State.word_set_other w f v k (fun e => h1 (e ▸ hk)) (by
    rcases h2 with h2 | h2
    · exact Or.inl h2
    · exact Or.inr (fun e => h2 (e ▸ hk)))⟩

/-- Every field of the Fault Collector that the raising of a fault writes lies in its window. -/
theorem State.set_notFc (s : State) (f : Fld) (v : Nat) (h : 0x480000 ≤ f.off ∧ f.off < 0x4C0000 ∧ f.lo + f.width ≤ 32) :
    SameWords NotFc s (s.set f v) :=
  State.set_sameWords s f v (by unfold NotFc; omega) (Or.inl h.2.2)

theorem State.setLevel_notFc (s : State) (l k c : Nat) : SameWords NotFc s (s.setLevel l k c) := by
  unfold State.setLevel
  refine ((((State.set_notFc s FC_LEVEL_LEVEL l (by decide)).trans (State.set_notFc _ FC_LEVEL_KIND k (by decide))).trans
    (State.set_notFc _ FC_LEVEL_CAUSE c (by decide))).trans ?_)
  exact SameWords.of_regs (State.logbook_keeps (State.notify_keeps (Keeps.refl _)))
    (by unfold State.logbook; dsimp only; split <;> rfl)

theorem State.enterSafe_notFc (s : State) (k c : Nat) : SameWords NotFc s (s.enterSafe k c) := by
  unfold State.enterSafe
  split
  · exact SameWords.refl s
  · exact (State.setLevel_notFc s 3 k c).trans (SameWords.of_regs (Keeps.lit (Keeps.refl _) rfl rfl rfl rfl) rfl)

theorem State.recordFault_notFc (s : State) (r : FaultRec) : SameWords NotFc s (s.recordFault r) := by
  have hl : (logFault s.fc.log s.fc.seq r).2.length ≤ 32 := by simp [logFault]
  unfold State.recordFault
  dsimp only
  refine SameWords.trans (SameWords.trans ?_ (State.set_notFc _ FC_LOG_HEAD_NEXT _ (by decide)))
    (SameWords.of_regs (Keeps.maps (Keeps.refl _) (l11 := fun _ => hl)) rfl)
  split
  · unfold State.inc
    split
    · exact State.set_notFc s FC_LOG_HEAD_LOST _ (by decide)
    · exact SameWords.refl s
  · exact SameWords.refl s

theorem State.pendBit_notFc (s : State) (n i : Nat) (h : n < 8) : SameWords NotFc s (s.setBit (FC_PEND_PEND n) i) := by
  unfold State.setBit
  split
  · exact SameWords.refl s
  · exact State.set_notFc s _ _ (by unfold FC_PEND_PEND; dsimp only; omega)

/-- Raising a fault changes no register outside the Fault Collector's window, and keeps the state well formed. -/
theorem State.raise_notFc (s : State) (src unit info : Nat) (hs : src < 256) : SameWords NotFc s (s.raise src unit info) := by
  unfold State.raise State.raiseAs
  extract_lets sev r s1 l1 l2 s2 s3 s4 s5 s6 s7
  have h1 : SameWords NotFc s s1 := s.recordFault_notFc r
  have h3 : SameWords NotFc s s3 := h1.trans (SameWords.of_regs
    ((Keeps.lit (Keeps.refl _) rfl rfl rfl rfl : Keeps s1 s2).trans (State.logbook_keeps (Keeps.refl _)))
    (by show (State.logbook s2 _ _).regs = s1.regs; rw [State.logbook_regs_words]))
  have h6 : SameWords NotFc s s6 := ((h3.trans (State.pendBit_notFc s3 (src / 32) _ (by omega))).trans
    (SameWords.of_regs (State.icuPulse_keeps (Keeps.refl s4)) (State.icuPulse_regs_words s4 _))).trans
    (SameWords.of_regs (Keeps.lit (Keeps.refl _) rfl rfl rfl rfl) rfl)
  have h7 : SameWords NotFc s s7 := by
    show SameWords NotFc s (if src = 0x55 then s6.wantBasic 0 0x55 else s6)
    split
    · exact h6.trans (SameWords.of_regs (Keeps.lit (Keeps.refl _) rfl rfl rfl rfl) rfl)
    · exact h6
  split
  · exact h3
  · split
    · exact h7.trans (State.enterSafe_notFc s7 _ _)
    · exact h7

end Sys2Proof.Machine
end

