-- ==== Sys2Proof/Tests/Slice0.lean ====
section
/-! SUPPORT. The model's own tests: small states, an ill-formed term for each check of `wellFormed`, the manual's worked
examples, and for the statements with hypotheses one theorem each that shows states and operands that meet them, clause by
clause, at a boundary value where a clause has a range. -/

namespace Sys2Proof.Machine

/-! ## Small states -/

/-- Fields of registers set to values. -/
def State.with (s : State) (l : List (Fld × Nat)) : State := l.foldl (fun s p => s.set p.1 p.2) s

/-- Values in force. -/
def State.withF (s : State) (l : List (Fld × Nat)) : State := l.foldl (fun s p => s.putForce p.1.off (BitVec.ofNat 32 (insBits (s.inForce p.1.off).toNat p.1.lo p.1.width p.2))) s

/-- The state at a time in ns. -/
def State.at_ (t : Nat) (s : State) : State := { s with clk := t * 2 ^ 32 }

/-- Bytes placed in DRAM. -/
def State.bytesAt (a : Nat) (l : List Nat) (s : State) : State := s.dramPut a l

end Sys2Proof.Machine

namespace Sys2Proof.Tests

open Sys2Proof.Machine

set_option Elab.async false

/-! The states below are named for what they prepare; each is a few updates of the state after reset. -/

def z : State := State.reset
def run (s : State) : State := s.with [(BU_STATUS_RUNNING, 1), (BU_CTRL_RUN, 1)]
def mgc (s : State) : State := { s with mgc := { s.mgc with up := true } }
def hst (s : State) : State := s.with [(CXP_STATUS_HOST, 1), (CXP_STATUS_LINK_UP, 1), (CXP_STATUS_CXL_MODE, 1)]
def mem (s : State) : State := { s.set LMC_STATUS_READY 1 with lmc := { s.lmc with setA := [0], rankBytes := 2 ^ 33 } }
def fBu (f : Beacon → Beacon) (s : State) : State := { s with bu := f s.bu }
def fTb (f : TimeBase → TimeBase) (s : State) : State := { s with tb := f s.tb }
def fFc (f : Collector → Collector) (s : State) : State := { s with fc := f s.fc }
def fPpr (f : Ingest → Ingest) (s : State) : State := { s with ppr := f s.ppr }
def fMag (f : Mag → Mag) (s : State) : State := { s with mag := f s.mag }
def fCxl (f : Cxl → Cxl) (s : State) : State := { s with cxl := f s.cxl }
def fHpp (f : HppState → HppState) (s : State) : State := { s with hpp := f s.hpp }
def fKpr (f : Keeper → Keeper) (s : State) : State := { s with kpr := f s.kpr }
def fAon (f : AlwaysOn → AlwaysOn) (s : State) : State := { s with aon := f s.aon }
def fLmc (f : Lmc → Lmc) (s : State) : State := { s with lmc := f s.lmc }
def fMgc (f : Mgc → Mgc) (s : State) : State := { s with mgc := f s.mgc }
def fRst (f : Rstc → Rstc) (s : State) : State := { s with rstc := f s.rstc }
def fPxy (f : Proxy → Proxy) (s : State) : State := { s with proxy := f s.proxy }
def fPtp (f : Ptp → Ptp) (s : State) : State := { s with ptp := f s.ptp }
def fGang (f : Gang → Gang) (s : State) : State := { s with gang := f s.gang }
def fClip (f : ClipCtl → ClipCtl) (s : State) : State := { s with clip := f s.clip }
def fNor (f : Nor → Nor) (s : State) : State := { s with nor := f s.nor }
def fEth (p : Nat) (f : EthPort → EthPort) (s : State) : State := { s with eth := modAt s.eth p f }
def fPool (p : Nat) (f : Pool → Pool) (s : State) : State := { s with pools := modAt s.pools p f }
def fDma (p : Nat) (f : DmaCh → DmaCh) (s : State) : State := { s with dma := modAt s.dma p f }
def fCan (p : Nat) (f : CanCtl → CanCtl) (s : State) : State := { s with can := modAt s.can p f }
def fEng (p : Nat) (f : Engine → Engine) (s : State) : State := { s with engines := modAt s.engines p f }
def fQ (p : Nat) (f : OutQ → OutQ) (s : State) : State := { s with queues := modAt s.queues p f }
def fBay (p : Nat) (f : Bay → Bay) (s : State) : State := fMag (fun m => { m with bays := modAt m.bays p f }) s
def dies (s : State) : State := fKpr (fun k => { k with gated := [false, false] }) (s.with [(RSTC_STATUS_CD0_RESET, 0), (RSTC_STATUS_CD1_RESET, 0)])
def info0 : FrameInfo := ⟨5, 0, 77, 0, 0, 0, 24, 1, 100000, 1, false, false, false, false, true, false, 12, 0, 128, 16, []⟩
def frame0 (i : FrameInfo) : Frame :=
  { info := i, weight := 0, qfloor := 0, lose := false, predict := true, escapeOnly := false, drop := none, queued := [], lost := [],
    gangBins := [], readoutEnd := none, followerEnd := none, recBytes := 0, escapes := [], declared := [], metas := none,
    closed := false, decision := none, fixed := 0, started := false, startAt := 0, row := 0, quota := 0, out := [], offsets := [],
    status := [], predCoded := false, predSeen := false, patched := false, gangLoss := false, vfail := [], tie := 0, filler := 0,
    ended := false, cflags := 0, crc := 0 }
def frs (l : List Frame) (s : State) : State := { s with frames := l }
def wqs (a n : Nat) (s : State) : State := fLmc (fun m => { m with wq := (linesOf a n).map fun x => ⟨x, 0, 0, 3, [], false⟩ }) s
def bp : State := ((mem z).with [(BPM_P_OWNER_BASE_ADDR 0, 65536), (BPM_P_COUNT_BUFFERS 0, 2), (BPM_P_INIT_BUSY 0, 1)])
def bp1 : State := (bp.bpmDone 0).with [(BPM_P_CFG_EN 0, 1), (BPM_P_LOW_MARK_COUNT 0, 2)]
def bp2 : State := (bp1.alloc 2 0).2
def st (n v : Nat) (s : State) : State := s.set (CE_ENG_STATE_STATE n) v
def e0 : EngId := ⟨0, 0, 0, false⟩
def eL : EngId := ⟨3, 3, 3, false⟩
def job0 : Job := ⟨5, 0, 0, 128, 12, true, 0, 0, false, false, false, true, false, 63, List.replicate 16 (List.replicate 128 7)⟩
def img : List Nat :=
  let body := (List.range 18).map fun i => trapWord / 256 ^ i % 256
  le 4 0x49434D45 ++ le 2 1 ++ le 2 64 ++ le 2 1 ++ le 2 2 ++ le 4 3 ++ le 4 0 ++ le 2 1 ++ le 2 0 ++ le 4 1 ++ le 4 (crc32c body) ++
    List.replicate 32 0 ++ body
def bigJob : Job := job0
def ucs (n : Nat) (s : State) : State :=
  wqs 4096 128 (fEng n (fun g => { g with image := 4096 }) (((mem s).bytesAt 4096 img).with [(CE_RG_UC_CRC_CRC (n / 17), rdLe img 28 4)]))
def f1 : Frame := { frame0 { info0 with cols := [(1, 0, 0, 0, false, false)] } with readoutEnd := some 3, queued := [1], recBytes := 50 }
def dec0 : Decision := ⟨9, 8, 7, false, false, false⟩
def clean1 (s : State) : State := fLmc (fun m => { m with timing := List.replicate 8 RankTiming.reset }) (s.with [(LMC_RANK_STATE 0, 1), (LMC_RANK_STATE 2, 2)])
def pp (s : State) : State := s.with [(PPR_CTRL_EN, 1), (PPR_CTRL_LINK_EN, 15), (PPR_CTRL_BC_EN, 1), (PPR_CTRL_SPARE_EN, 1)]
def lk (n : Nat) (s : State) : State := fPpr (fun x => { x with lanes := modAt x.lanes n fun l => { l with lock := true } }) s
def msg (l : List BcMsg) (s : State) : State := fPpr (fun x => { x with bc := l }) s
def rdo (s : State) : State := fPpr (fun x => { x with cnt := some 3, lines := [(0, [1])] }) (((pp s).with [(PPR_LINK_STATUS_LINK_UP, 1)]).withF [(PPR_FMT0_WIDTH, 4), (PPR_FMT0_HEIGHT, 32), (PPR_FMT1_DEPTH, 1)])
def pix : Packet := ⟨1, false, false, 3, 14, 4, 12, 32, [1, 2, 3, 4097]⟩
def prx (s : State) : State := s.with [(PXP_CTRL_EN, 1)]
def pic0 : ProxyPicture := ⟨5, 6, 4, 2, [[1, 2, 3, 4]]⟩
def pin0 : ProxyInput := ⟨5, 6, 4, 4, 12, true, 0, List.replicate 4 [1, 2, 3, 4]⟩
def src (n : Nat) (f : IcuSource → IcuSource) (s : State) : State := s.putSource n (f (s.source n))
def en (n prio tgt vec : Nat) (s : State) : State := s.with [(ICU_SRC_ENABLE n, 1), (ICU_SRC_PRIO n, prio), (ICU_SRC_TARGET n, tgt), (ICU_SRC_VECTOR n, vec)]
def pend (n : Nat) (s : State) : State := src n (fun x => { x with pend := true, count := 255 }) s
def ef : List Byte := [1#8, 2#8]
def eth1 (p : Nat) (s : State) : State := (mem s).with [(ETH_P_CTRL_EN p, 1), (ETH_P_RXR_BASE_ADDR p, 1), (ETH_P_TXR_BASE_ADDR p, 1), (ETH_P_RXR_SIZE_COUNT p, 4), (ETH_P_TXR_SIZE_COUNT p, 4)]
def rxd (p : Nat) (s : State) : State := (eth1 p s).bytesAt ((eth1 p s).getAddr (ETH_P_RXR_BASE_ADDR p)) (le 8 8192 ++ [4, 0, 3, 3, 0, 0, 0, 0])
def eg0 : EgressFrame := ⟨3, 0, [1, 2], 60, none, none⟩
def gl0 : GateList := ⟨[(255, 500), (1, 500)], 1000, 0⟩
def snd0 : Sender := ⟨some (0, 0), some ⟨5, 6, 1920, 1080, []⟩, 0, 2 ^ 32 - 1⟩
def sndS (s : State) : State := fPxy (fun x => { x with lastTick := some 0, senders := [snd0, Sender.reset] }) ((prx s).with [(ETH_SND_CTRL_EN 0, 1)])
def cf0 : CanFrame := ⟨true, true, false, 2 ^ 29 - 1, [128#8, 7#8]⟩
def canS (c : Nat) (s : State) : State := s.with [(CAN_C_CTRL_EN c, 1)]
def node (s : State) : State := fHpp (fun h => { h with dict := [(0x110001, [9]), (0x110002, [9])] }) s
def prt (c : Nat) (l : List Nat) : Partner := ⟨1 + c, 5, 1, 0, l, 0, 0⟩
def msg0 : List Nat := hppBytes 1 0x10 1 9 7 [0, 0x10, 1, 0, 0, 0, 0, 0]
def hdm (s : State) : State := (hst (mem s)).with [(CXP_STATUS_HDM_COMMITTED, 1), (CXP_HDM_SIZE_BYTES, 2 ^ 28)]
def big (s : State) : State := fLmc (fun m => { m with rankBytes := 2 ^ 34 }) (hdm s)
def dm (n : Nat) (s : State) : State := (mem s).with [(DMA_CH_CTRL_EN n, 1), (DMA_CH_RING_BASE_ADDR n, 1), (DMA_CH_RING_SIZE_COUNT n, 4)]
def dmBase (n : Nat) : Nat := (dm n z).descAddr n 0
def desc0 : List Nat := le 8 65600 ++ le 8 131072 ++ le 4 70 ++ le 4 1
def dj (ctrl : Nat) : DmaJob := ⟨1, 65600, 131072, 70, ctrl, false, 0, [none, none, none, none], [0, 0, 0, 0]⟩
def dmJob (n : Nat) (j : DmaJob) (s : State) : State := fDma n (fun c => { c with job := some j }) ((dm n s).with [(DMA_CH_STAT_STATE n, 1)])
def dopAt (n : Nat) (l : List Nat) (s : State) : State :=
  wqs 65600 64 ((dmJob n { dj 0x21 with len := 32 } s).bytesAt 65600 (l ++ List.replicate 16 0))
def dop (l : List Nat) (s : State) : State := dopAt 15 l s
def pj : DmaJob := { dj 0x21 with len := 32 }
def iod (d : Domain) (s : State) : State := fRst (fun r => { r with domains := r.domains.set 0 d }) s
def wakeEn (s : State) : State := s.putWord AON_WAKE_EN_WAKE_PIN.off 0xFF#32
def ent (toOff : Bool) (s : State) : State := fKpr (fun k => { k with entry := some ⟨toOff, 0, none, false⟩ }) s
def cat0 : CatEntry := ⟨1, 0, 0, 0, 0, 0, 0, 0, 0, 0, 0, 0, 0, 0, 0, 0, 0, 0, 0, 0, 0, 0, 0, 0, 0, 0, []⟩
def hM : Hpp := ⟨.mailbox, 0, 5, 1, 9⟩
def hU : Hpp := ⟨.udp, 77, 5, 1, 9⟩
def hC : Hpp := ⟨.can0, 5, 5, 1, 9⟩
def host (s : State) : State := hst (mgc s)
def udp (s : State) : State := mgc (s.with [(ETH_P_CTRL_EN 0, 1)])
def seq0 : BlockSeq := ⟨.mailbox, 0, 0x501001, 9, 0, [1]⟩
def mgz : Magazine := ⟨List.replicate 20 65#8, 2 ^ 28, [1], 4096, 0, 255, 1, true, true, 4, 4, []⟩
def bay (b : Nat) (s : State) : State := (fBay b (fun x => { x with mag := some mgz }) s).with [(MGH_MAG_STATE_STATE b, 4), (MGH_MAG_BLOCKS_COUNT b, 2 ^ 28)]
def mghS (s : State) : State := (host s).with [(MGH_CTRL_EN, 1)]
def sb0 (parity : Bool) (width : Nat) : Superblock := ⟨1, parity, 0, width, 4, 77, 15, 1, 2 ^ 28, 3, 8, 8, 11, 19, 8, 27, 1000, 0, 0, 1, 0, 0, 0, 0, 0, 0, []⟩
def dj0 : DecodeJob := ⟨1, 0, 9, 65536, 131072, 4096, 2, 262144, 0, 0, 0, 0, 0, 0, none⟩
def unit0 : List Nat := droppedRecord 5 0 77 2
def djS (j : DecodeJob) : State := fHpp (fun h => { h with job := some j }) ((mem z).bytesAt 65536 unit0)
def cs0 : ConfigSlot := ⟨1023, 4, 5, []⟩
def dflt : DictEntry := ⟨0, 0, .ro, 0, .any, 0⟩
def fe0 : FrameEntry := ⟨4, 9, 0, 70000, 2, 5, 6, 0, 7, 1, 8, 3, 2⟩
def su0 : StagedUnit := ⟨fe0, [1, 2, 3], true, 0, 0, 0⟩
def bstep (b n : Nat) (s : State) : State := fBay b (fun x => { x with step := n, mag := some mgz }) s
def set4 (s : State) : State :=
  fMag (fun m => { m with set := some (sb0 true 4), members := [some 0, some 1, some 2, some 3] })
    ((bay 3 (bay 0 (bay 1 (bay 2 s)))).with [(MGH_MAG_STATE_ROLE 3, 1)])
def set1 (s : State) : State := fMag (fun m => { m with set := some (sb0 false 1), members := [some 3] }) (bay 3 s)
def clp (s : State) : State := fMag (fun m => { m with clip := some cat0 }) s
def fmt1 (s : State) : State := ((bay 3 s).with [(MGH_FMT0_WIDTH, 1), (MGH_FMT0_CHUNK_LOG, 8)]).mghCmd .mgc 2 fun s => s.formatCmd 8
def feB : FrameEntry := ⟨0, 5, 0, unit0.length, 1, 77, 0, 0, 1, 0, crc32c unit0, 0, 3⟩
def catB : CatEntry := { cat0 with state := 2, clipNo := 0, entrySeq := 2, setId := 77, frames := 1, rows := 1, openJseq := 1, width := 128, height := 16, depth := 12 }
def sbQ : Superblock := { sb0 false 1 with seq := 2, chunkLog := 2, missing := 0, dataLba := 28, dataRows := 100, nextClip := 0 }
def setQ (s : State) : State :=
  (fBay 3 (fun y => { y with media := [(2, sbQ.bytes), (3, catB.toBytes), (19, indexBlock 77 0 [feB.toBytes]), (28, unit0)] }) (bay 3 s)).settleSet
def djC : DecodeJob := { dj0 with source := 0, count := 2, clip := 0 }
def recS (j : DecodeJob) : State := fHpp (fun h => { h with job := some j }) (setQ (mem z))
def vQ : SetView :=
  ⟨{ sbQ with serials := List.replicate 4 (List.replicate 20 0) }, 0,
    [(0, [(2, sbQ.bytes), (3, catB.toBytes), (19, indexBlock 77 0 [feB.toBytes]), (28, unit0)])], [], none,
    [some { catB with name := List.replicate 64 0 }], 1, 1⟩
def sb2 : List Nat := sealed (sbQ.bytes.take 4 ++ [2] ++ (sbQ.bytes.drop 5).take 503)
def catQ : CatEntry := { catB with name := List.replicate 64 0 }
def rowOf (off : Nat) : RegSpec := match regFind off with | some (r, _) => r | none => ⟨off, false, 0, 1, 0, 1, fun _ _ => 0, []⟩
def cR (c : Nat) : Nat := (z.with [(CAN_C_RXR_BASE_ADDR c, 1)]).getAddr (CAN_C_RXR_BASE_ADDR c)
def cT (c : Nat) : Nat := (z.with [(CAN_C_TXR_BASE_ADDR c, 1)]).getAddr (CAN_C_TXR_BASE_ADDR c)
def canR (c : Nat) (l : List Nat) : State :=
  wqs (cR c) 80 (((mem (canS c z)).with [(CAN_C_ACCEPT_ALL c, 1), (CAN_C_RXR_BASE_ADDR c, 1), (CAN_C_RXR_SIZE_COUNT c, 4)]).bytesAt (cR c) l)
def canT (c : Nat) (l : List Nat) : State :=
  wqs (cT c) 80 (((mem (canS c z)).with [(CAN_C_TXR_BASE_ADDR c, 1), (CAN_C_TXR_SIZE_COUNT c, 4)]).bytesAt (cT c) l)
def hm0 : HppMsg := ⟨1, 0x10, 1, 9, 7, [0, 0x10, 1, 0, 0, 0, 0, 0]⟩
def msg1 : List Nat := hppBytes 1 0x11 1 9 7 [0, 0x10, 1, 0, 0, 0, 0, 0]
def jf0 : JobFaults := ⟨.clean, .clean, [], []⟩
def jb (j : Job) (s : State) : State := fEng 0 (fun g => { g with jobs := [j] }) (st 0 3 (dies s))
def lim0 (s : State) : State := s.with [(CE_RG_CTRL_RETIRE_LIMIT 0, 0)]
def passS : State :=
  fDma 15 (fun c => { c with passed := some ⟨1, 0, 7, 16⟩, job := some { pj with pc := 16 } }) ((dopAt 3 ([3, 0, 1, 0] ++ le 4 9) (dm 15 z)).with [(DMA_CH_STAT_STATE 15, 1)])
def ucTrap : State := lim0 (fEng 0 (fun g => { g with dispatch := [5], store := [(0, trapWord)] }) (st 0 2 (dies z)))
def ethF (l : List Nat) : List Byte := toBytes (l ++ le 4 (crc32 l))
def pauseF : List Nat := List.replicate 12 0 ++ [0x88, 0x08, 0, 1]
def plainF : List Nat := List.replicate 14 0
def txF (ctl : Nat) : List Nat := le 8 8192 ++ [4, 0, 3, ctl, 0, 0, 0, 0]
def rxB (p : Nat) : Nat := (eth1 p z).getAddr (ETH_P_RXR_BASE_ADDR p)
def ring (p ctl : Nat) : State := (eth1 p z).bytesAt (rxB p) (txF ctl)
def tsL : Lane := { Lane.reset with entries := [⟨5, 0, 0, 1, 0, [], some TsRec.lost⟩], head := 16 }
def gF (s : State) : State := fGang (fun _ => ⟨true, true, false⟩) (s.with [(RSTC_STRAPS_GANG_ID, 2)])
def gL (s : State) : State := fGang (fun _ => ⟨true, true, false⟩) (s.with [(RSTC_STRAPS_GANG_ID, 1)])
def msx (s : State) : State := fCxl (fun c => { c with fn := { c.fn with msixEnable := true } }) (hst s)
def due63 (s : State) : State := pend 384 (en 384 7 2 63 (s.with [(ICU_CTRL_EN, 1)]))
def krep : KeptReply := ⟨.mailbox, 0, 9, 0, [1, 2]⟩
def pe (o l : Bool) (ab : Option Nat) : PowerEntry := ⟨o, 0, ab, l⟩
def entL (o l : Bool) (ab : Option Nat) (s : State) : State := fKpr (fun k => { k with entry := some (pe o l ab) }) s
def pmode (m : PowerMode) (s : State) : State := fKpr (fun k => { k with mode := m }) s
def pf3 (s : State) : State := fKpr (fun k => { k with powerFail := some 3 }) s
def dom0 (d : Domain) (s : State) : State := fRst (fun r => { r with domains := r.domains.set 0 d }) s
def up0 (s : State) : State := dom0 ⟨false, 0, false, none, 0⟩ s
def sbS (parity : Bool) (w : Nat) : Superblock := { sb0 parity w with chunkLog := 0, jrnBlocks := 0 }
def setS (l : List (Option Nat)) (parity : Bool) (row : Nat) (s : State) : State :=
  (fMag (fun m => { m with set := some (sbS parity l.length), members := l, appendRow := row }) ((bay 3 (bay 0 (bay 1 (bay 2 s)))))).with [(MGH_CTRL_SCRUB_EN, 1)]
def cmdS : State := (mghS z).with [(MGH_CTRL_READ_ONLY, 0), (MGH_CMD_STAT_BUSY, 0)]
def wq2 (s : State) : State := fLmc (fun m => { m with wq := (linesOf 65536 4096).map (fun x => ⟨x, 0, 0, 3, [], false⟩) ++ [⟨0, 1, 0, 3, [], false⟩] }) s
def pktB (typ flags cnt line n d : Nat) (pay : List Nat) : List Byte :=
  let b := fit (packetLen pay.length - 4) ([typ, flags] ++ le 2 cnt ++ le 2 line ++ le 2 n ++ [d] ++ List.replicate 7 0 ++ pay)
  toBytes (b ++ le 4 (crc32c b))
def linB : List Byte := pktB 1 0 3 14 4 12 [1, 0x20, 0, 3, 0x40, 0]
def metB : List Byte := pktB 2 0 3 0 3 0 [7, 8, 9]
def pk (l : List Byte) : Packet := packetOf (toNats l)
def oq (s : State) : State := s.with [(OQ_CTRL_EN, 1)]
def big1 : QEntry := ⟨1, 2, 3, 3, 0, List.replicate 4000 0, none⟩
def fullL : Lane := { Lane.reset with entries := List.replicate 32 big1, head := 65536, tail := 32 * big1.size - 65536 }
def five : QEntry := ⟨1, 2, 3, 3, 0, [1, 2, 3, 4, 5], none⟩
def laneOf (l : List QEntry) : Lane := { Lane.reset with entries := l, head := l.foldl (fun a e => a + e.size) 0 }
def setLane (q : Nat) (l : Lane) (s : State) : State := fQ q (fun o => { o with lanes := [l, Lane.reset] }) s
def hm (s : State) : State := s
def djW (j : DecodeJob) : State :=
  fLmc (fun m => { m with wq := ((linesOf 131072 4096).map fun x => ⟨x, 0, 0, 3, [], false⟩) ++ [⟨65536 / 64, 1, 0, 3, [], false⟩, ⟨262144 / 64, 1, 0, 3, [], false⟩] }) (djS j)
def dj1 : DecodeJob := { dj0 with pitch := 256 }
def withPic (s : State) : State :=
  fHpp (fun h => { h with ctx := { h.ctx with prev := some ⟨128, 16, 12, false, 0, List.replicate 16 (List.replicate 128 7), []⟩, lastHeader := some info0 } }) s
def unl (s : State) : List Nat := ((s.scanUnit 65536 1000 []).getD (0, [])).2
def tim (r : Nat) (f : RankTiming → RankTiming) (s : State) : State := fLmc (fun m => { m with timing := modAt m.timing r f }) s
def dms (r : DramReq) (s : State) : State := wqs r.addr (max r.len 1) s
def rd0 : DramReq := ⟨1, 62, 4, none⟩
def wr0 : DramReq := ⟨1, 62, 4, some [1#8, 2#8, 0#8]⟩
def rd1 : DramReq := ⟨1, 60, 4, none⟩

/-! ## Well-formedness -/

def gs0 : GangSymbol := ⟨0, 0, 0⟩
def ln0 : LaneErrors := ⟨0, 0⟩
def ac0 : AckCode := ⟨0, 1⟩
def ir0 : InitRanks := ⟨List.replicate 4 [], List.replicate 8 0⟩

/-- A DRAM write of three bytes. -/
def dr0 : DramReq := ⟨1, 62, 3, some [1#8, 2#8, 0#8]⟩

/-- A well-formed term of every constructor that has a check. -/
theorem test_well_formed_accepted_a : ([.registerWrite .mgc 0 0#32, .unalignedAccess .mgc 0 1 none, .reservedOffsetAccess .mgc 0 none,
   .gangWindowAccess .mgc 0 none 0#32, .gangBeaconSymbol 0#32 gs0, .tbRefChange .mgc 0, .blockLockGained 0,
   .blockLockLost ln0, .trainRetry 0, .alignBlock ln0 0 0 0 0, .statusAck ac0 true, .substErrorThreshold 0 0,
   .linePacket 0 linB, .metadataPacket 0 linB, .engineJob e0 .clean .clean [] [], .macroOpBoundary e0,
   .machineCheck e0 1 0 0 0, .macroOpWatchdog e0 0 0, .controlStoreScrub e0 0 true, .ceHalt .mgc e0, .ceResume .mgc e0,
   .ceLoad .mgc e0, .ceReset .mgc e0, .ceUnretire .mgc e0, .ceAdmit .mgc e0, .ceClrCounts .mgc e0, .ceIaRead .mgc e0 .clean,
   .microcodeLoadDone e0 true, .engineResetDone e0 true true, .engineUngateDone e0 none, .lmcInitDone ir0 true true,
   .dramRequest dr0 [], .writeQueueDrain 0, .openRowTimeout 0 0 0, .mr4Poll (List.replicate 8 default), .refreshDue 0 0,
   .patrolScrubRead 0 .clean, .ceLimitReached 0, .retrainDue 0 0 0, .rankRetrainDone 0, .lmcRetrain .mgc 0,
   .lmcRetire .mgc 0, .lmcThaw .mgc 0, .clrCapture .mgc 0, .queueEntryWrite 0 0 0 0 0 0 0 [] true, .pushWindowWrite 65 0 [],
   .pushEnd .mgc 0, .oqPop .mgc 0, .bpmInit .mgc 0, .bpmInitDone 0, .bpmAlloc 1 0, .bpmFree 1 0 0, .bpmHandover 1 0 0 0,
   .dmaEnable .mgc 0 true, .dmaKick .mgc 0, .dmaPoll 0, .dmaResume .mgc 0, .dmaSkip .mgc 0, .dmaAbort .mgc 0,
   .dmaDescriptor 0, .dmaDescriptorComplete 0, .dmaMove 0, .dmaLoop 0, .dmaWait 0, .dmaSignal 0, .dmaEnd 0,
   .dmaWaitTimeout 0, .magPresenceEdge 0 none, .moorPresenceStable 0, .magLinkUp 0 none] : List Instr).all wellFormed = true := by
  decide +kernel

/-- A well-formed term of every constructor that has a check. -/
theorem test_well_formed_accepted_b : ([.magControllerReady 0 true true true, .moorComplete 0, .moor .mgc 0, .unmoor .mgc 0, .format .mgc 0, .closeClip .mgc 1,
   .nvmeCompletion 0 0 true, .nvmeCommandTimeout 0, .commitRoundEnd (List.replicate 4 default), .rqDoorbell .mgc 0,
   .magReadRequest 0 true, .cxlLinkUp true 0 0, .cxlMemRequest 0 0 none [], .hppRequest 0 [], .ethFrameReceived 0 [],
   .ethTsPop .mgc 0, .ethRingKickTx .mgc 0, .ethRingKickRx .mgc 0, .ethTxDescriptor 0, .egressFrameStart 0,
   .egressFrameDone 0, .gateEntryChange 0, .gateCommit .mgc 0, .gateListStart 0, .ethClrCounts .mgc 0, .senderEnable .mgc 0,
   .senderPacketDue 0, .ptpAnnounce 0 0 0, .hppRead hM 0 0, .hppWrite hM 0 0 0 [], .hppReadBlock hM 0 0 0 0,
   .hppWriteBlock hM 0 0 0 0 0 [], .blockSequenceTimeout .mailbox 0 0 0, .hppUnsupported hM 0 0, .canReassemblyTimeout 0 0,
   .answer 0 0 0 0 0 [], .rollCall 0 0 0, .heartbeat 0 0, .rollCallTimer 0, .clipStart hM, .clipStop hM, .storageMoor hM 0,
   .storageUnmoor hM 0, .storageFormat hM 0, .storageDeleteLast hM, .storageRebuild hM, .decodeStart hM, .decodeStop hM,
   .deviceReset hM 0#32, .store hM, .defaults hM, .fwImage hM [], .fwActivate hM, .fwConfirm hM, .epochCommit hM 0,
   .ucImage hM [], .ucSelect hM, .entryAbort none, .wakeEvent 0, .tempSample (List.replicate 24 default), .porRelease 0 0 0,
   .domainRelease 0, .lockFailTimeout 1, .rstcDie .mgc 0, .rstcEngine .mgc e0, .gangLinkTrained 0, .icuSourceEvent 0 true,
   .icuHvClaim 0, .icuHvComplete 0 0#32, .icuPendSet .mgc 0 0#32] : List Instr).all wellFormed = true := by
  decide +kernel

/-- A well-formed term of every constructor that has a check. -/
theorem test_well_formed_accepted_c : ([.icuPendClr .mgc 0 0#32, .clrOne .mgc 0, .msixHoldoffExpiry 0, .ageingMeasure (List.replicate 12 default),
   .lowWordLatchRead .mgc 0, .magLinkDown 0, .moorPerstRelease 0, .moorStepTimeout 0, .magShutdownComplete 0,
   .canFrameReceived 0 cf0, .canFrameSent 0 true, .canRingKick .mgc 0 true true, .canBusOffRecovery 0,
   .gangShortfallReport 0] : List Instr).all wellFormed = true := by
  decide +kernel

/-- Terms that break one check each. -/
theorem test_ill_formed_refused_a : ([.registerWrite .mgc 0x4000000 0#32, .unalignedAccess .mgc 0x4000000 1 none, .unalignedAccess .mgc 0 (64 + 1) none,
   .unalignedAccess .mgc 0 (1 - 1) none, .reservedOffsetAccess .mgc 0x4000000 none,
   .gangWindowAccess .mgc 0x2000000 none 0#32, .gangBeaconSymbol 0#32 ({ gs0 with dtc := (2 ^ 64) }),
   .gangBeaconSymbol 0#32 ({ gs0 with frac := 8 }), .gangBeaconSymbol 0#32 ({ gs0 with columns := 65 }),
   .tbRefChange .mgc 4, .blockLockGained 17, .blockLockLost ({ ln0 with lane := 17 }), .trainRetry 4,
   .alignBlock ({ ln0 with lane := 17 }) 0 0 0 0, .alignBlock ln0 32 0 0 0, .alignBlock ln0 0 4 0 0,
   .alignBlock ln0 0 0 (2 ^ 32) 0, .statusAck ({ ac0 with link := 4 }) true, .statusAck ({ ac0 with code := 5 + 1 }) true,
   .statusAck ({ ac0 with code := 1 - 1 }) true, .substErrorThreshold 17 0, .linePacket 4 linB, .linePacket 0 [],
   .linePacket 0 (List.replicate 25 0#8), .metadataPacket 4 linB, .metadataPacket 0 [],
   .metadataPacket 0 (List.replicate 25 0#8), .engineJob ⟨4, 0, 0, false⟩ .clean .clean [] [],
   .engineJob ⟨0, 4, 0, false⟩ .clean .clean [] [], .engineJob ⟨0, 0, 4, false⟩ .clean .clean [] [],
   .engineJob ⟨0, 1, 0, true⟩ .clean .clean [] [], .engineJob ⟨0, 0, 1, true⟩ .clean .clean [] [],
   .engineJob e0 .clean .clean [(32, 0, 0)] [], .engineJob e0 .clean .clean [(0, 32769, 0)] [],
   .engineJob e0 .clean .clean [] [(32769, 0)], .macroOpBoundary ⟨4, 0, 0, false⟩, .machineCheck ⟨4, 0, 0, false⟩ 1 0 0 0,
   .machineCheck e0 (5 + 1) 0 0 0, .machineCheck e0 (1 - 1) 0 0 0, .machineCheck e0 1 8192 0 0, .machineCheck e0 1 0 16 0,
   .machineCheck e0 1 0 0 256, .macroOpWatchdog ⟨4, 0, 0, false⟩ 0 0, .macroOpWatchdog e0 8192 0, .macroOpWatchdog e0 0 256,
   .controlStoreScrub ⟨4, 0, 0, false⟩ 0 true, .controlStoreScrub e0 8192 true, .ceHalt .mgc ⟨4, 0, 0, false⟩,
   .ceResume .mgc ⟨4, 0, 0, false⟩, .ceLoad .mgc ⟨4, 0, 0, false⟩, .ceReset .mgc ⟨4, 0, 0, false⟩,
   .ceUnretire .mgc ⟨4, 0, 0, false⟩, .ceAdmit .mgc ⟨4, 0, 0, false⟩, .ceClrCounts .mgc ⟨4, 0, 0, false⟩,
   .ceIaRead .mgc ⟨4, 0, 0, false⟩ .clean, .microcodeLoadDone ⟨4, 0, 0, false⟩ true,
   .engineResetDone ⟨4, 0, 0, false⟩ true true, .engineUngateDone ⟨4, 0, 0, false⟩ none,
   .engineUngateDone e0 (some (8192, 0)), .engineUngateDone e0 (some (0, 16)), .engineUngateDone e0 (some (0, 0)),
   .lmcInitDone ({ ir0 with sizes := [] }) true true, .lmcInitDone ({ ir0 with temps := [] }) true true,
   .dramRequest ({ dr0 with addr := 2 ^ 62 }) [], .dramRequest ({ dr0 with len := 5 }) [], .writeQueueDrain 4,
   .openRowTimeout 4 0 0, .openRowTimeout 0 2 0, .openRowTimeout 0 0 16, .mr4Poll []] : List Instr).all (fun c => !wellFormed c) = true := by
  decide +kernel

/-- Terms that break one check each. -/
theorem test_ill_formed_refused_b : ([.refreshDue 8 0, .refreshDue 0 16, .patrolScrubRead 8 .clean, .ceLimitReached 8, .retrainDue 8 0 0, .rankRetrainDone 8,
   .lmcRetrain .mgc 8, .lmcRetire .mgc 8, .lmcThaw .mgc 8, .clrCapture .mgc 4, .queueEntryWrite 72 0 0 0 0 0 0 [] true,
   .queueEntryWrite 0 2 0 0 0 0 0 [] true, .queueEntryWrite 0 0 (2 ^ 32) 0 0 0 0 [] true,
   .queueEntryWrite 0 0 0 65536 0 0 0 [] true, .queueEntryWrite 0 0 0 0 256 0 0 [] true,
   .queueEntryWrite 0 0 0 0 0 7 0 [] true, .queueEntryWrite 0 0 0 0 0 0 16 [] true, .pushWindowWrite 67 0 [],
   .pushWindowWrite 65 4096 [], .pushEnd .mgc 72, .oqPop .mgc 72, .bpmInit .mgc 16, .bpmInitDone 16, .bpmAlloc 0 0,
   .bpmAlloc 3 0, .bpmAlloc 0x27 0, .bpmAlloc 1 16, .bpmFree 0 0 0, .bpmFree 3 0 0, .bpmFree 0x27 0 0, .bpmFree 1 16 0,
   .bpmFree 1 0 (2 ^ 64), .bpmHandover 0 0 0 0, .bpmHandover 3 0 0 0, .bpmHandover 0x27 0 0 0, .bpmHandover 1 16 0 0,
   .bpmHandover 1 0 (2 ^ 64) 0, .bpmHandover 1 0 0 256, .dmaEnable .mgc 16 true, .dmaKick .mgc 16, .dmaPoll 16,
   .dmaResume .mgc 16, .dmaSkip .mgc 16, .dmaAbort .mgc 16, .dmaDescriptor 16, .dmaDescriptorComplete 16, .dmaMove 16,
   .dmaLoop 16, .dmaWait 16, .dmaSignal 16, .dmaEnd 16, .dmaWaitTimeout 16, .magPresenceEdge 4 none,
   .magPresenceEdge 0 (some { mgz with serial := [] }),
   .magPresenceEdge 0 (some { mgz with media := [(2 ^ 28, List.replicate 4096 1#8)] }),
   .magPresenceEdge 0 (some { mgz with media := [(0, [])] }), .moorPresenceStable 4, .magLinkUp 4 none,
   .magLinkUp 0 (some (0, 1)), .magLinkUp 0 (some (6, 1)), .magLinkUp 0 (some (1, 0)), .magLinkUp 0 (some (1, 4)),
   .magControllerReady 4 true true true, .moorComplete 4, .moor .mgc 16, .unmoor .mgc 16, .format .mgc 16,
   .closeClip .mgc (6 + 1), .closeClip .mgc (1 - 1), .nvmeCompletion 4 0 true] : List Instr).all (fun c => !wellFormed c) = true := by
  decide +kernel

/-- Terms that break one check each. -/
theorem test_ill_formed_refused_c : ([.nvmeCompletion 0 5 true, .nvmeCommandTimeout 4, .commitRoundEnd [], .rqDoorbell .mgc 4, .magReadRequest 4 true,
   .cxlLinkUp true 3 0, .cxlLinkUp true 0 4, .cxlMemRequest 0 65 none [], .hppRequest 65536 [], .ethFrameReceived 2 [],
   .ethTsPop .mgc 2, .ethRingKickTx .mgc 2, .ethRingKickRx .mgc 2, .ethTxDescriptor 2, .egressFrameStart 2,
   .egressFrameDone 2, .gateEntryChange 2, .gateCommit .mgc 2, .gateListStart 2, .ethClrCounts .mgc 2, .senderEnable .mgc 2,
   .senderPacketDue 2, .ptpAnnounce 2 0 0, .ptpAnnounce 0 (2 ^ 64) 0, .hppRead ({ hM with src := 128 }) 0 0,
   .hppRead ({ hM with dst := 128 }) 0 0, .hppRead ({ hM with tid := 65536 }) 0 0, .hppRead hM 65536 0, .hppRead hM 0 256,
   .hppWrite ({ hM with src := 128 }) 0 0 0 [], .hppWrite hM 65536 0 0 [], .hppWrite hM 0 256 0 [], .hppWrite hM 0 0 256 [],
   .hppReadBlock ({ hM with src := 128 }) 0 0 0 0, .hppReadBlock hM 65536 0 0 0, .hppReadBlock hM 0 256 0 0,
   .hppReadBlock hM 0 0 (2 ^ 32) 0, .hppReadBlock hM 0 0 0 65536, .hppWriteBlock ({ hM with src := 128 }) 0 0 0 0 0 [],
   .hppWriteBlock hM 65536 0 0 0 0 [], .hppWriteBlock hM 0 256 0 0 0 [], .hppWriteBlock hM 0 0 256 0 0 [],
   .hppWriteBlock hM 0 0 0 (2 ^ 32) 0 [], .hppWriteBlock hM 0 0 0 0 (2 ^ 32) [], .blockSequenceTimeout .mailbox 0 65536 0,
   .blockSequenceTimeout .mailbox 0 0 256, .hppUnsupported ({ hM with src := 128 }) 0 0, .hppUnsupported hM 256 0,
   .hppUnsupported hM 0 256, .canReassemblyTimeout 2 0, .canReassemblyTimeout 0 128, .answer 2 0 0 0 0 [],
   .answer 0 128 0 0 0 [], .answer 0 0 (2 ^ 64) 0 0 [], .answer 0 0 0 (2 ^ 32) 0 [], .answer 0 0 0 0 (2 ^ 32) [],
   .rollCall 2 0 0, .rollCall 0 128 0, .rollCall 0 0 256, .heartbeat 2 0, .heartbeat 0 128, .rollCallTimer 2,
   .clipStart ({ hM with src := 128 }), .clipStop ({ hM with src := 128 }), .storageMoor ({ hM with src := 128 }) 0,
   .storageMoor hM 16, .storageUnmoor ({ hM with src := 128 }) 0, .storageUnmoor hM 16,
   .storageFormat ({ hM with src := 128 }) 0, .storageFormat hM 16] : List Instr).all (fun c => !wellFormed c) = true := by
  decide +kernel

/-- Terms that break one check each. -/
theorem test_ill_formed_refused_d : ([.storageDeleteLast ({ hM with src := 128 }), .storageRebuild ({ hM with src := 128 }),
   .decodeStart ({ hM with src := 128 }), .decodeStop ({ hM with src := 128 }), .deviceReset ({ hM with src := 128 }) 0#32,
   .store ({ hM with src := 128 }), .defaults ({ hM with src := 128 }), .fwImage ({ hM with src := 128 }) [],
   .fwActivate ({ hM with src := 128 }), .fwConfirm ({ hM with src := 128 }), .epochCommit ({ hM with src := 128 }) 0,
   .epochCommit hM 256, .ucImage ({ hM with src := 128 }) [], .ucSelect ({ hM with src := 128 }), .entryAbort (some 8),
   .wakeEvent 8, .tempSample [], .porRelease 4 0 0, .porRelease 0 4 0, .porRelease 0 0 4, .domainRelease 4,
   .lockFailTimeout (3 + 1), .lockFailTimeout (1 - 1), .rstcDie .mgc 2, .rstcEngine .mgc ⟨4, 0, 0, false⟩,
   .gangLinkTrained 65536, .icuSourceEvent 384 true, .icuHvClaim 64, .icuHvComplete 64 0#32, .icuPendSet .mgc 16 0#32,
   .icuPendClr .mgc 16 0#32, .clrOne .mgc 512, .msixHoldoffExpiry 64, .ageingMeasure [], .lowWordLatchRead .mgc 0x4000000,
   .lowWordLatchRead .mgc 1, .magLinkDown 4, .moorPerstRelease 4, .moorStepTimeout 4, .magShutdownComplete 4,
   .canFrameReceived 2 cf0, .canFrameReceived 0 ({ cf0 with id := 2 ^ 29 }),
   .canFrameReceived 0 ({ cf0 with ext := false, id := 2 ^ 11 }),
   .canFrameReceived 0 ({ cf0 with data := List.replicate 65 0#8 }), .canFrameSent 2 true, .canRingKick .mgc 2 true true,
   .canBusOffRecovery 2, .gangShortfallReport 129] : List Instr).all (fun c => !wellFormed c) = true := by
  decide +kernel

/-- A frame of more bytes than a frame has. -/
theorem test_long_frame_refused : wellFormed (.ethFrameReceived 0 (List.replicate 65536 0#8)) = false := by
  show (lt 0 2 && lt (List.replicate 65536 0#8).length 65536) = false
  rw [List.length_replicate]; decide

/-- No row of the table gives bits, so no word spells a command. -/
theorem test_no_word_spells_a_command : decodeTableWord 32 0xFFFFFFFF = none ∧ (z.withFetchWord 16 1).pending = [] := by decide +kernel

/-! ## The manual's worked examples -/

/-- The examples under R122 and R162. -/
theorem test_stuffing : stuff [0x3C, 0xFF, 0xE1, 0x80, 0xFF] = [0x3C, 0xFF, 0x70, 0xC0, 0x7F, 0x80] ∧
    (stuff [0xFF, 0xFF, 0x12, 0x34]).take 4 = [0xFF, 0x7F, 0x89, 0x1A] := by decide +kernel

/-- The example under R99. -/
theorem test_decorrelation : decorr 12 1500 1000 1003 700 = (-1047, -3, 499, -301) ∧
    recorr 12 (-1047) (-3) 499 (-301) = (1500, 1000, 1003, 700) := by decide +kernel

/-- The example under R102. -/
theorem test_lifting : lift [10, 12, 20, 40, 38, 37, 30, 31] = ([9, 22, 42, 31], [-3, 11, 3, 1]) := by decide +kernel

/-- The example under R131: two 12-bit samples, most significant bit first. -/
theorem test_escape_packing : packBits (bitsOf 12 0x123 ++ bitsOf 12 0x456) = [0x12, 0x34, 0x56] := by decide +kernel

/-- The example under R81: a line of 24 576 payload bytes takes 24 600. -/
theorem test_packet_length : packetLen 24576 = 24600 := by decide +kernel

/-- The example under R91: 26 columns at P0 and 24 at P1 in 512 units. -/
theorem test_tiling : cutUnits 512 (List.replicate 26 4 ++ List.replicate 24 3) =
    List.replicate 26 12 ++ List.replicate 8 9 ++ List.replicate 16 8 := by decide +kernel

/-- The example under R195: line 5 of a lost tile-stripe between 1200 and 1290 is 1230. -/
theorem test_spatial_concealment :
    ((concealSpatial (some (List.replicate 16 [1200])) (some (List.replicate 16 [1290])) 1).getD []).getD 5 [] = [1230] := by decide +kernel

/-- The example under R284: data chunk 1 of row 1002 lies on member 3. -/
theorem test_parity_rotation : (sb0 true 4).chunkMember 1002 1 = 3 := by decide +kernel

/-- The example under R293: the rows of members of 976 562 500 blocks. -/
theorem test_formatted_rows : largestD 976562500 16 64 0 (976562500 / 16 + 1) = 60974324 := by decide +kernel

/-- The example under R365: identifier and header of a reply on CAN. -/
theorem test_can_identifier : canId 3 1 5 1 0x123 = 0x0E140923 ∧
    (hppBytes 1 0x11 1 5 0x123 (List.replicate 72 0)).take 8 = [1, 0x11, 1, 5, 0x23, 1, 0x48, 0] := by decide +kernel

/-- The example under R333: 8192 × 4320 in a picture of 3840 × 2160. -/
theorem test_active_picture : activeSize 8192 4320 3840 2160 = (3840, 2024) := by decide +kernel

/-- The example under R45: the first three instants at 24000/1001. -/
theorem test_beacon_instants : [1, 2, 3].map ((z.with [(BU_RATE_NUM_NUM, 24000), (BU_RATE_DEN_DEN, 1001)]).withF
    [(BU_RATE_NUM_NUM, 24000), (BU_RATE_DEN_DEN, 1001)]).sched = [41708333, 83416666, 125125000] := by decide +kernel

/-! ## Commands, one step each -/

/-- What `f` reads in the state a command answers. -/
def after {α : Type} (c : Instr) (s : State) (f : State → α) : Option α :=
  match exec c s with
  | .next t => some (f t)
  | _ => none

/-- R436: a doorbell makes its source pending and counts it. -/
theorem test_icu_doorbell : after (.icuDoorbell 511#32) z (fun t => ((t.source 511).pend, (t.source 511).count)) = some (true, 1) := by
  decide +kernel

/-- R442: with nothing eligible a claim reads 1023. -/
theorem test_icu_claim_spurious : after (.icuMgcClaim .mgc) z (·.resp) = some (.word 1023#32) := by decide +kernel

/-- R438: the count of a claimed source stands above its number. -/
theorem test_icu_claim : after (.icuMgcClaim .mgc) (pend 384 (en 384 7 1 0 (z.with [(ICU_CTRL_EN, 1)]))) (·.resp) =
    some (.word (BitVec.ofNat 32 (255 * 65536 + 384))) := by decide +kernel

/-- R233: a write is read back. -/
theorem test_dram_write_then_read : ((after (.dramRequest dr0 []) (mem z) id).bind fun s =>
    after (.dramRequest ⟨1, 60, 6, none⟩ []) s (·.resp)) = some (.bytes [0#8, 0#8, 1#8, 2#8, 0#8, 0#8]) := by decide +kernel

/-- R419: sources below 0xF0 are not raised by the command. -/
theorem test_fc_raise : after (.fcRaise .mgc 0xABCD01F3#32) z (fun t => t.fc.log.map fun r => (r.source, r.severity, r.info)) =
      some [(0xF3, 1, 0xABCD)] ∧
    after (.fcRaise .mgc 0xABCD0107#32) z (fun t => t.fc.log.map (·.source)) = some [0x01] := by decide +kernel

/-- R430: a requested warm reset is recorded and counted. -/
theorem test_warm_reset_counts : after (.rstcWarm .mgc) z (fun t => (t.get RSTC_CAUSE_SOFT, t.get RSTC_COUNTS_WARM)) = some (1, 1) := by
  decide +kernel

/-- The queue: the front command runs, the rest waits. -/
theorem test_step_takes_the_front : (match step { z with pending := [.icuDoorbell 400#32, .clrAll .mgc] } with
    | .next t => ((t.source 400).count, t.pending.length)
    | _ => (0, 0)) = (1, 1) := by decide +kernel

/-! ## The hypotheses of the statements can be met -/

/-- A source that is neither pending nor set by software is not eligible. -/
theorem not_eligible (s : State) (n k : Nat) (h : s.source n = ⟨0, false, false, none, false⟩) : s.eligible n k = false := by
  simp [State.eligible, State.isPending, h]

theorem source_reset (n : Nat) : z.source n = ⟨0, false, false, none, false⟩ := rfl

theorem pend_claims (n k : Nat) (s : State) (hs : s.icu.sources = [(n, ⟨255, true, false, none, false⟩)]) (h : s.eligible n k = true) :
    s.claims n k := by
  refine ⟨h, fun m hm => ?_⟩
  by_cases e : m = n
  · subst e; exact .inr ⟨rfl, Nat.le_refl _⟩
  · exfalso
    have : s.source m = ⟨0, false, false, none, false⟩ := by simp [State.source, hs, sget, e]
    rw [not_eligible s m k this] at hm; cases hm

theorem be_two (n : Nat) : (be 2 n).length = 2 := rfl

theorem senderFrame_id (s : State) (k n id : Nat) (x : Sender) (pic : ProxyPicture) (tk : Nat) :
    (s.senderFrame k n id x pic tk).length = (s.senderFrame k n 0 x pic tk).length := by
  simp [State.senderFrame, be_two]

/-- No slot of the list is asked for by a die. -/
theorem no_die_ungate {l : List (SlotReq × Bool)}
    (h : l.all (fun x => match x.1 with | .dieUngate _ => false | _ => true) = true) : ∀ x ∈ l, ∀ d, x.1 ≠ .dieUngate d :=
  fun x hx d e => by have k := List.all_eq_true.1 h x hx; rw [e] at k; simp at k

theorem witness_decorrelation : ∃ (d : Nat) (r g1 g2 b gs : Int), gs = (g1 + g2) / 2 ∧ 0 < d ∧ ∀ v ∈ [r, g1, g2, b], 0 ≤ v ∧ v ≤ 2 ^ d - 1 :=
  ⟨16, 65535, 0, 65535, 0, 32767, by decide +kernel⟩

theorem witness_wavelet_line : (∃ x : List Int, x.length % 2 = 0 ∧ 4 ≤ x.length) ∧
    ∃ s d : List Int, s.length = d.length ∧ 2 ≤ s.length :=
  ⟨⟨[1, -2, 3, 4], by decide +kernel⟩, [1, -1], [2, 5], by decide +kernel⟩

theorem witness_wavelet_component : ∃ (m n : Nat) (a : List (List Int)), 0 < m ∧ 0 < n ∧ a.length = 4 * m ∧ ∀ r ∈ a, r.length = 8 * n :=
  ⟨1, 1, List.replicate 4 [1, 2, 3, 4, 5, 6, 7, -8], by decide +kernel⟩

theorem witness_stuffing : (∃ raw : List Nat, ∀ x ∈ raw, x < 256) ∧ (stuff [0xFF])[0]? = some 0xFF :=
  ⟨⟨[0xFF], by decide +kernel⟩, by decide +kernel⟩

theorem witness_escape_stripes :
    (∃ (d w n k : Nat) (t : List (List Nat)), n = 2 * w * d ∧ k < 256 ∧ t.length = 16 ∧ ∀ r ∈ t, r.length = w ∧ ∀ x ∈ r, x < 2 ^ d) ∧
    (∃ (d w n : Nat) (seg raw : List Nat), n = 2 * w * d ∧ destuff seg = some raw ∧ raw.length < n + 1) ∧
    ∃ (d w n : Nat) (seg raw : List Nat) (k : Nat) (l : List Nat), n = 2 * w * d ∧ destuff seg = some raw ∧ raw = k :: l ∧ n ≤ l.length :=
  ⟨⟨10, 1, 20, 255, List.replicate 16 [1023], by decide +kernel⟩, ⟨1, 1, 2, [7, 8], [7, 8], by decide +kernel⟩,
    ⟨1, 1, 2, [7, 8, 9], [7, 8, 9], 7, [8, 9], by decide +kernel⟩⟩

theorem witness_step_runs_the_front_command : ∃ (s : State) (c : Instr) (rest : List Instr), s.pending = c :: rest :=
  ⟨{ z with pending := [.smartLogPoll, .clrAll .host] }, .smartLogPoll, [.clrAll .host], rfl⟩

theorem witness_empty_queue_ticks : (∃ s : State, s.pending = [] ∧ (s.kpr.mode = .on ∨ s.tb.sleepTicks = none)) ∧
    ∃ s : State, s.pending = [] ∧ s.kpr.mode ≠ .on ∧ s.tb.sleepTicks.isSome = true :=
  ⟨⟨z, by decide +kernel⟩, fTb (fun x => { x with sleepTicks := some 5 }) (fKpr (fun k => { k with mode := .off }) z), by decide +kernel⟩

theorem witness_step_keeps_the_invariant : (∃ s t : State, s.wf = true ∧ step s = .next t) ∧
    ∃ s t : State, s.pending ≠ [] ∧ s.wf = true ∧ step s = .next t :=
  ⟨⟨z, z.tick, by decide +kernel, rfl⟩, { z with pending := [.clrAll .host] }, { z with pending := [] }, by decide +kernel, by decide +kernel, rfl⟩

theorem witness_step_consumes_the_queue : ∃ s t : State, s.pending ≠ [] ∧ step s = .next t :=
  ⟨{ z with pending := [.clrAll .host] }, { z with pending := [] }, by decide +kernel, rfl⟩

theorem witness_register_accesses :
    (∃ (s : State) (a : Agent), s.wf = true ∧ s.awake = true ∧ (a = .mgc ∨ s.mgcWrites.at_ ≠ s.now)) ∧
    (∃ (s : State) (a : Agent) (p : Nat × Nat), s.wf = true ∧ s.awake = true ∧ (a = .mgc ∨ s.mgcWrites.at_ ≠ s.now) ∧ p ∈ plainRegs) ∧
    (∃ (s : State) (a : Agent) (p : Nat × Nat), s.wf = true ∧ s.awake = true ∧ (a = .mgc ∨ s.mgcWrites.at_ ≠ s.now) ∧ p ∈ plainRegs) ∧
    (∃ (s : State) (a : Agent) (p : Nat × Nat), s.wf = true ∧ s.awake = true ∧ (a = .mgc ∨ s.mgcWrites.at_ ≠ s.now) ∧ p ∈ plainRegs) ∧
    (∃ (s : State) (a : Agent) (p : Nat × Nat), s.wf = true ∧ s.awake = true ∧ (a = .mgc ∨ s.mgcWrites.at_ ≠ s.now) ∧ p ∈ plainRegs) ∧
    (∃ (s : State) (a : Agent), s.wf = true ∧ s.awake = true ∧ (a = .mgc ∨ s.mgcWrites.at_ ≠ s.now)) ∧
    (∃ (s : State) (a : Agent), s.wf = true ∧ s.awake = true ∧ (a = .mgc ∨ s.mgcWrites.at_ ≠ s.now) ∧ s.host = false) ∧
    (∃ (s : State) (a : Agent) (v : Word), s.wf = true ∧ s.awake = true ∧ (a = .mgc ∨ s.mgcWrites.at_ ≠ s.now) ∧ s.host = true ∧ v.toNat % 64 = s.get CXP_CTRL_MBOX_VEC) ∧
    (∃ (s : State) (a : Agent) (v : Word), s.wf = true ∧ s.awake = true ∧ (a = .mgc ∨ s.mgcWrites.at_ ≠ s.now) ∧ s.host = true ∧ v.toNat % 64 ≠ s.get CXP_CTRL_MBOX_VEC) ∧
    (∃ (s : State) (a : Agent), s.wf = true ∧ s.awake = true ∧ (a = .mgc ∨ s.mgcWrites.at_ ≠ s.now)) ∧
    (∃ (s : State) (p : Nat × Nat) (u : Word), s.wf = true ∧ s.awake = true ∧ p ∈ plainRegs ∧ s.mgcWrote p.1 = some u) ∧
    (∃ (s : State) (a : Agent) (off : Nat) (r : RegSpec) (i : Nat) (j : Nat) (high : Bool), s.wf = true ∧ s.awake = true ∧ regFind (off / 4 * 4) = some (r, i, j, high) ∧ gangWindow (off / 4 * 4) = false ∧ s.isOff (off / 4 * 4) = false ∧ s.readDoes a (agentIx a) (off / 4 * 4) = none ∧ high = false ∧ r.wide = false) ∧
    (∃ (s : State) (a : Agent) (off : Nat) (r : RegSpec) (i : Nat) (j : Nat) (high : Bool), s.wf = true ∧ s.awake = true ∧ regFind (off / 4 * 4) = some (r, i, j, high) ∧ gangWindow (off / 4 * 4) = false ∧ s.isOff (off / 4 * 4) = false ∧ s.readDoes a (agentIx a) (off / 4 * 4) = none ∧ high = false ∧ r.wide = true) ∧
    (∃ (s : State) (a : Agent) (off : Nat) (r : RegSpec) (i : Nat) (j : Nat) (high : Bool) (h : Word), s.wf = true ∧ s.awake = true ∧ regFind (off / 4 * 4) = some (r, i, j, high) ∧ gangWindow (off / 4 * 4) = false ∧ s.isOff (off / 4 * 4) = false ∧ s.readDoes a (agentIx a) (off / 4 * 4) = none ∧ high = true ∧ aget s.latch (latchKey (agentIx a) (off / 4 * 4)) = some h) :=
  ⟨⟨(State.at_ 7 z : State), (.host : Agent), by decide +kernel⟩,
   ⟨(run z : State), (.mgc : Agent), (plainRegs.getD 0 (0,0) : Nat × Nat), by decide +kernel⟩,
   ⟨(State.at_ 7 (hst z) : State), (.host : Agent), ((0x2C0014, 0x7FFF) : Nat × Nat), by decide +kernel⟩,
   ⟨(mgc z : State), (.mgc : Agent), ((0x540000, 0xFF) : Nat × Nat), by decide +kernel⟩,
   ⟨(mgc z : State), (.mgc : Agent), ((0x480000, 3) : Nat × Nat), by decide +kernel⟩,
   ⟨(State.at_ 7 (run z) : State), (.host : Agent), by decide +kernel⟩,
   ⟨(z : State), (.mgc : Agent), by decide +kernel⟩,
   ⟨(hst z : State), (.mgc : Agent), (64#32 : Word), by decide +kernel⟩,
   ⟨(hst z : State), (.mgc : Agent), (5#32 : Word), by decide +kernel⟩,
   ⟨(z.with [(FAL_EVENTS_DECIDED, 1)] : State), (.mgc : Agent), by decide +kernel⟩,
   ⟨({ z with mgcWrites := ⟨0, [(0x18, 7#32)]⟩ } : State), ((0x18, 0xFF) : Nat × Nat), (7#32 : Word), by decide +kernel⟩,
   ⟨(z.with [(BU_OUT_WIDTH_WIDTH, 77)] : State), (.mgc : Agent), (0x1B : Nat), (rowOf 0x18 : RegSpec), (0 : Nat), (0 : Nat), (false : Bool), by decide +kernel, by decide +kernel, rfl, by decide +kernel⟩,
   ⟨(fTb (fun x => { x with dtc := (2 ^ 33 + 5) * 2 ^ 32 }) z : State), (.mgc : Agent), (TB_DTC_NS.off : Nat), (rowOf TB_DTC_NS.off : RegSpec), (0 : Nat), (0 : Nat), (false : Bool), by decide +kernel, by decide +kernel, rfl, by decide +kernel⟩,
   ⟨({ z with latch := aput z.latch (latchKey 0 (TB_DTC_NS.off + 4)) 9#32 } : State), (.mgc : Agent), (TB_DTC_NS.off + 4 : Nat), (rowOf TB_DTC_NS.off : RegSpec), (0 : Nat), (0 : Nat), (true : Bool), (9#32 : Word), by decide +kernel, by decide +kernel, rfl, by decide +kernel⟩⟩

theorem witness_refused_accesses :
    (∃ (s : State) (a : Agent) (off : Nat) (size : Nat) (r : RegSpec) (i : Nat) (j : Nat), s.wf = true ∧ s.awake = true ∧ gangWindow off = false ∧ s.isOff off = false ∧ (off % 4 ≠ 0 ∨ size ≠ 4) ∧ regFind (off / 4 * 4) = some (r, i, j, false) ∧ s.readDoes a (agentIx a) (off / 4 * 4) = none) ∧
    (∃ (s : State) (off : Nat) (size : Nat) (p : Nat × Nat), s.wf = true ∧ s.awake = true ∧ gangWindow off = false ∧ s.isOff off = false ∧ (off % 4 ≠ 0 ∨ size ≠ 4) ∧ p ∈ plainRegs ∧ off / 4 * 4 = p.1) ∧
    (∃ (s : State) (off : Nat) (size : Nat), s.wf = true ∧ s.awake = true ∧ gangWindow off = false ∧ s.isOff off = false ∧ (off % 4 ≠ 0 ∨ size ≠ 4)) ∧
    (∃ (s : State) (off : Nat), s.wf = true ∧ s.awake = true ∧ gangWindow off = false ∧ s.isOff off = false ∧ regFind (off / 4 * 4) = none) ∧
    (∃ (s : State) (off : Nat), s.wf = true ∧ s.awake = true ∧ gangWindow off = false ∧ s.isOff off = false ∧ regFind (off / 4 * 4) = none) ∧
    (∃ (s : State) (off : Nat), s.wf = true ∧ s.awake = true ∧ gangWindow off = false ∧ s.isOff off = false ∧ off % 4 = 0 ∧ regFind off = none ∧ pushAt off = none) ∧
    (∃ (s : State) (off : Nat), s.wf = true ∧ s.awake = true ∧ gangWindow off = false ∧ s.isOff off = false ∧ off % 4 = 0 ∧ regFind off = none ∧ pushAt off = none) :=
  ⟨⟨(run z : State), (.mgc : Agent), (0x19 : Nat), (4 : Nat), (rowOf 0x18 : RegSpec), (0 : Nat), (0 : Nat), by decide +kernel, by decide +kernel, by decide +kernel, by decide +kernel, by decide +kernel, rfl, by decide +kernel⟩,
   ⟨(run z : State), (0x18 : Nat), (2 : Nat), ((0x18, 0xFF) : Nat × Nat), by decide +kernel⟩,
   ⟨(hst z : State), (0x5BFFFC : Nat), (8 : Nat), by decide +kernel⟩,
   ⟨(run z : State), (0xF00 : Nat), by decide +kernel⟩,
   ⟨(run z : State), (0x5BFFFD : Nat), by decide +kernel⟩,
   ⟨(run z : State), (0xF00 : Nat), by decide +kernel⟩,
   ⟨(run z : State), (0x5BFFFC : Nat), by decide +kernel⟩⟩

theorem witness_beacon_edge :
    (∃ (s : State) (k : EdgeKind) (at8 : Nat), s.wf = true ∧ s.bu.edgeDue = some (k, at8) ∧ at8 ≤ s.now8 ∧ s.beaconRuns = true) ∧
    (∃ (s : State) (k : EdgeKind) (at8 : Nat), s.wf = true ∧ s.bu.edgeDue = some (k, at8) ∧ at8 ≤ s.now8 ∧ s.beaconRuns = true) ∧
    (∃ (s : State) (k : EdgeKind) (at8 : Nat), s.wf = true ∧ s.bu.edgeDue = some (k, at8) ∧ at8 ≤ s.now8 ∧ s.beaconRuns = true) ∧
    (∃ (s : State), s.wf = true ∧ (s.bu.edgeDue = none ∨ s.beaconRuns = false)) ∧
    (∃ (s : State), s.wf = true ∧ (s.bu.edgeDue = none ∨ s.beaconRuns = false)) :=
  ⟨⟨(run (fBu (fun b => { b with edgeDue := some (.timer, 0), waitHost := true }) z) : State), (EdgeKind.timer : EdgeKind), (0 : Nat), by decide +kernel⟩,
   ⟨(run (fBu (fun b => { b with edgeDue := some (.gang 0xFFFFFFFF#32 (2 ^ 64 + 3) 2, 0) }) z) : State), (EdgeKind.gang 0xFFFFFFFF#32 (2 ^ 64 + 3) 2 : EdgeKind), (0 : Nat), by decide +kernel⟩,
   ⟨(State.at_ 5 ((run (fBu (fun b => { b with edgeDue := some (.beaconIn, 39) }) z)).with [(BU_STATUS_PRESET_ARMED, 1), (BU_EPOCH_PRESET_EPOCH, 0xFFFFFFFF)]) : State), (EdgeKind.beaconIn : EdgeKind), (39 : Nat), by decide +kernel⟩,
   ⟨(run z : State), by decide +kernel⟩,
   ⟨(fBu (fun b => { b with edgeDue := some (.timer, 0) }) z : State), by decide +kernel⟩⟩

theorem witness_buffer_pools :
    (∃ (s : State) (p : Nat), s.wf = true ∧ p < 16 ∧ (s.pool p).opResult.length = 18 ∧ s.flag (BPM_P_CFG_EN p) = false) ∧
    (∃ (s : State) (p : Nat), s.wf = true ∧ p < 16 ∧ (s.pool p).opResult.length = 18 ∧ s.flag (BPM_P_CFG_EN p) = false) ∧
    (∃ (s : State) (p : Nat), s.wf = true ∧ p < 16 ∧ (s.pool p).opResult.length = 18 ∧ s.flag (BPM_P_CFG_EN p) = true) ∧
    (∃ (s : State) (p : Nat), s.wf = true ∧ p < 16 ∧ (s.pool p).opResult.length = 18 ∧ s.flag (BPM_P_INIT_BUSY p) = true) ∧
    (∃ (s : State) (p : Nat), s.wf = true ∧ p < 16 ∧ (s.pool p).opResult.length = 18 ∧ s.flag (BPM_P_INIT_BUSY p) = false) ∧
    (∃ (s : State) (p : Nat) (r : Nat) (b : Nat) (nx : Nat) (i : Nat) (l : List Nat), s.wf = true ∧ p < 16 ∧ (s.pool p).opResult.length = 18 ∧ assigned r = true ∧ s.poolOut p = none ∧ (s.pool p).head = some b ∧ (s.memRead b 16).1 = some l ∧ linkNext p l = some nx ∧ s.bufAt p b = some i ∧ (nx = listEnd ∨ (s.bufAt p nx).isSome = true) ∧ s.usable b 16 ∧ s.usable (s.get (BPM_P_OWNER_BASE_ADDR p) + i) 1 ∧ 0 < s.get (BPM_P_FREE_COUNT p)) ∧
    (∃ (s : State) (p : Nat) (r : Nat) (b : Nat) (nx : Nat) (i : Nat) (l : List Nat), s.wf = true ∧ p < 16 ∧ (s.pool p).opResult.length = 18 ∧ assigned r = true ∧ s.poolOut p = none ∧ (s.pool p).head = some b ∧ (s.memRead b 16).1 = some l ∧ linkNext p l = some nx ∧ s.bufAt p b = some i ∧ (nx = listEnd ∨ (s.bufAt p nx).isSome = true) ∧ s.usable b 16 ∧ s.usable (s.get (BPM_P_OWNER_BASE_ADDR p) + i) 1 ∧ 0 < s.get (BPM_P_FREE_COUNT p)) ∧
    (∃ (s : State) (p : Nat) (r : Nat), s.wf = true ∧ p < 16 ∧ (s.pool p).opResult.length = 18 ∧ assigned r = true ∧ s.poolOut p = none ∧ (s.pool p).head = none) ∧
    (∃ (s : State) (p : Nat) (r : Nat) (b : Nat) (i : Nat), s.wf = true ∧ p < 16 ∧ (s.pool p).opResult.length = 18 ∧ assigned r = true ∧ s.poolOut p = none ∧ s.bufAt p b = some i ∧ (s.owner p i).1 = some r ∧ s.usable b 16 ∧ s.usable (s.get (BPM_P_OWNER_BASE_ADDR p) + i) 1 ∧ (s.get (BPM_P_OWNER_BASE_ADDR p) + i < b ∨ b + 16 ≤ s.get (BPM_P_OWNER_BASE_ADDR p) + i)) ∧
    (∃ (s : State) (p : Nat) (r : Nat) (b : Nat) (o : Nat) (c : Instr), s.wf = true ∧ p < 16 ∧ (s.pool p).opResult.length = 18 ∧ assigned r = true ∧ s.poolOut p = none ∧ s.bufAt p b = none ∧ c ∈ [Instr.bpmFree r p b, .bpmHandover r p b o]) ∧
    (∃ (s : State) (p : Nat) (r : Nat) (b : Nat) (o : Nat) (c : Instr), s.wf = true ∧ p < 16 ∧ (s.pool p).opResult.length = 18 ∧ assigned r = true ∧ s.poolOut p = none ∧ s.bufAt p b = none ∧ c ∈ [Instr.bpmFree r p b, .bpmHandover r p b o]) ∧
    (∃ (s : State) (p : Nat) (r : Nat) (b : Nat) (i : Nat) (o : Nat), s.wf = true ∧ p < 16 ∧ (s.pool p).opResult.length = 18 ∧ assigned r = true ∧ s.poolOut p = none ∧ assigned o = true ∧ s.bufAt p b = some i ∧ (s.owner p i).1 = some r ∧ s.usable (s.get (BPM_P_OWNER_BASE_ADDR p) + i) 1) ∧
    (∃ (s : State) (p : Nat) (r : Nat) (x : Nat), s.wf = true ∧ p < 16 ∧ (s.pool p).opResult.length = 18 ∧ assigned r = true ∧ s.poolOut p = some x) ∧
    (∃ (s : State) (p : Nat) (r : Nat), s.wf = true ∧ p < 16 ∧ (s.pool p).opResult.length = 18 ∧ assigned r = false) :=
  ⟨⟨(bp : State), (0 : Nat), by decide +kernel⟩,
   ⟨(bp : State), (15 : Nat), by decide +kernel⟩,
   ⟨(bp1 : State), (0 : Nat), by decide +kernel⟩,
   ⟨(bp : State), (0 : Nat), by decide +kernel⟩,
   ⟨(z : State), (0 : Nat), by decide +kernel⟩,
   ⟨(bp1 : State), (0 : Nat), (2 : Nat), (0 : Nat), (4096 : Nat), (0 : Nat), (linkBytes 4096 0 : List Nat), by decide +kernel⟩,
   ⟨(bp2 : State), (0 : Nat), (1 : Nat), (4096 : Nat), (listEnd : Nat), (1 : Nat), (linkBytes listEnd 0 : List Nat), by decide +kernel⟩,
   ⟨((bp2.alloc 2 0).2 : State), (0 : Nat), (0x26 : Nat), by decide +kernel⟩,
   ⟨(bp2 : State), (0 : Nat), (2 : Nat), (0 : Nat), (0 : Nat), by decide +kernel⟩,
   ⟨(bp2 : State), (0 : Nat), (2 : Nat), (8192 : Nat), (1 : Nat), (Instr.bpmFree 2 0 8192 : Instr), by decide +kernel⟩,
   ⟨(bp2 : State), (0 : Nat), (0x26 : Nat), (8192 : Nat), (1 : Nat), (Instr.bpmHandover 0x26 0 8192 1 : Instr), by decide +kernel⟩,
   ⟨(bp2 : State), (0 : Nat), (2 : Nat), (0 : Nat), (0 : Nat), (0x26 : Nat), by decide +kernel⟩,
   ⟨(z : State), (0 : Nat), (2 : Nat), (2 : Nat), by decide +kernel⟩,
   ⟨(z : State), (0 : Nat), (0xFF : Nat), by decide +kernel⟩⟩

theorem witness_beacon_sources :
    (∃ (s : State), s.wf = true ∧ s.beaconRuns = true ∧ s.bu.edgeDue = none ∧ s.source_ = 0 ∧ s.bu.tStart + s.sched s.bu.k * 2 ^ 32 ≤ s.tb.disc ∧ s.clearOfLast (s.edgeAt 0) = true) ∧
    (∃ (s : State), s.wf = true ∧ s.beaconRuns = true ∧ s.bu.edgeDue = none ∧ s.source_ = 1 ∧ s.getF BU_PHASE_PHASE + s.sched s.bu.ptpK ≤ s.dtcNs ∧ s.bu.ptpFrom ≤ s.now ∧ s.clearOfLast (s.edgeAt 0) = true) ∧
    (∃ (s : State), s.wf = true ∧ s.beaconRuns = true ∧ s.bu.edgeDue = none ∧ s.source_ = 1 ∧ s.getF BU_PHASE_PHASE + s.sched s.bu.ptpK ≤ s.dtcNs ∧ s.bu.ptpFrom ≤ s.now ∧ s.clearOfLast (s.edgeAt 0) = false) ∧
    (∃ (s : State), s.wf = true ∧ s.beaconRuns = true ∧ s.source_ = 2 ∧ s.bu.edgeDue = none ∧ ((∀ w, 23 ≤ w → w ≤ 25 → s.clearOfLast (s.edgeAt w) = true))) ∧
    (∃ (s : State), s.wf = true ∧ s.beaconRuns = true ∧ s.source_ = 2 ∧ s.bu.edgeDue = none ∧ ((∀ w, 23 ≤ w → w ≤ 25 → s.clearOfLast (s.edgeAt w) = true))) ∧
    (∃ (s : State), s.wf = true ∧ s.beaconRuns = true ∧ s.source_ = 2 ∧ s.bu.fresh = false ∧ ((∀ w, 23 ≤ w → w ≤ 25 → s.clearOfLast (s.edgeAt w) = false))) ∧
    (∃ (s : State), s.wf = true ∧ (s.source_ ≠ 2 ∨ s.beaconRuns = false)) ∧
    (∃ (s : State) (e : Nat), s.wf = true ∧ s.bu.lastEdge = some e ∧ s.beaconRuns = true ∧ s.source_ = 2 ∧ s.bu.edgeDue = none ∧ s.reachedPpW (if s.bu.fresh then 2 else 1) (s.edgeAt 0 - e) = true) ∧
    (∃ (s : State), s.wf = true ∧ max 1 (s.get BU_MISS_LIMIT_LIMIT) ≤ s.bu.missRun ∧ s.bu.missTold = false) ∧
    (∃ (s : State), s.wf = true ∧ (s.bu.missRun < max 1 (s.get BU_MISS_LIMIT_LIMIT) ∨ s.bu.missTold = true)) ∧
    (∃ (s : State) (e : Nat), s.wf = true ∧ s.bu.outSince = some e ∧ e + 1000 * max 1 (s.get BU_OUT_WIDTH_WIDTH) ≤ s.now) :=
  ⟨⟨(run z : State), by decide +kernel⟩,
   ⟨((run z).withF [(BU_CTRL_SRC, 1)] : State), by decide +kernel⟩,
   ⟨((fBu (fun b => { b with lastEdge := some 0 }) (run z)).withF [(BU_CTRL_SRC, 1)] : State), by decide +kernel⟩,
   ⟨((run z).withF [(BU_CTRL_SRC, 2)] : State), by decide +kernel⟩,
   ⟨((State.at_ 41504000 (fBu (fun b => { b with lastEdge := some 0 }) (run z))).withF [(BU_CTRL_SRC, 2)] : State), by decide +kernel⟩,
   ⟨((fBu (fun b => { b with lastEdge := some 0 }) (run z)).withF [(BU_CTRL_SRC, 2)] : State), by decide +kernel⟩,
   ⟨(z : State), by decide +kernel⟩,
   ⟨(((State.at_ 41829428 (fBu (fun b => { b with lastEdge := some 0 }) (run z))).withF [(BU_CTRL_SRC, 2)]).with [(TB_CTRL_REF, 2), (TB_QUALITY_STATE, 2)] : State), (0 : Nat), by decide +kernel⟩,
   ⟨(fBu (fun b => { b with missRun := max 1 (z.get BU_MISS_LIMIT_LIMIT) }) z : State), by decide +kernel⟩,
   ⟨(z : State), by decide +kernel⟩,
   ⟨(State.at_ 1000000 (fBu (fun b => { b with outSince := some 0 }) z) : State), (0 : Nat), by decide +kernel⟩⟩

theorem witness_beacon_commands :
    (∃ (s : State) (a : Agent) (l : Fld), s.wf = true ∧ l = (if a = .host then BU_LAST_WR_EPOCH_HOST_EPOCH else BU_LAST_WR_EPOCH_MGC_EPOCH) ∧ s.flag BU_CTRL_RUN = false) ∧
    (∃ (s : State) (a : Agent) (l : Fld), s.wf = true ∧ l = (if a = .host then BU_LAST_WR_EPOCH_HOST_EPOCH else BU_LAST_WR_EPOCH_MGC_EPOCH) ∧ s.flag BU_CTRL_RUN = false) ∧
    (∃ (s : State) (a : Agent) (l : Fld), s.wf = true ∧ l = (if a = .host then BU_LAST_WR_EPOCH_HOST_EPOCH else BU_LAST_WR_EPOCH_MGC_EPOCH) ∧ s.flag BU_CTRL_RUN = true) ∧
    (∃ (s : State) (a : Agent) (l : Fld), s.wf = true ∧ l = (if a = .host then BU_LAST_WR_EPOCH_HOST_EPOCH else BU_LAST_WR_EPOCH_MGC_EPOCH) ∧ s.clipOpen = false) ∧
    (∃ (s : State) (a : Agent) (l : Fld), s.wf = true ∧ l = (if a = .host then BU_LAST_WR_EPOCH_HOST_EPOCH else BU_LAST_WR_EPOCH_MGC_EPOCH) ∧ s.clipOpen = true) ∧
    (∃ (s : State) (a : Agent) (l : Fld), s.wf = true ∧ l = (if a = .host then BU_LAST_WR_EPOCH_HOST_EPOCH else BU_LAST_WR_EPOCH_MGC_EPOCH)) ∧
    (∃ (s : State) (a : Agent) (l : Fld), s.wf = true ∧ l = (if a = .host then BU_LAST_WR_EPOCH_HOST_EPOCH else BU_LAST_WR_EPOCH_MGC_EPOCH) ∧ s.beaconRuns = false) ∧
    (∃ (s : State) (a : Agent) (l : Fld), s.wf = true ∧ l = (if a = .host then BU_LAST_WR_EPOCH_HOST_EPOCH else BU_LAST_WR_EPOCH_MGC_EPOCH) ∧ s.beaconRuns = false) ∧
    (∃ (s : State) (a : Agent) (l : Fld) (v : Word), s.wf = true ∧ l = (if a = .host then BU_LAST_WR_EPOCH_HOST_EPOCH else BU_LAST_WR_EPOCH_MGC_EPOCH) ∧ s.beaconRuns = true ∧ v = s.word BU_EPOCH_PRESET_EPOCH.off) ∧
    (∃ (s : State) (a : Agent) (l : Fld) (v : Word), s.wf = true ∧ l = (if a = .host then BU_LAST_WR_EPOCH_HOST_EPOCH else BU_LAST_WR_EPOCH_MGC_EPOCH) ∧ s.beaconRuns = true ∧ v ≠ s.word BU_EPOCH_PRESET_EPOCH.off) ∧
    (∃ (s : State) (a : Agent) (l : Fld), s.wf = true ∧ l = (if a = .host then BU_LAST_WR_EPOCH_HOST_EPOCH else BU_LAST_WR_EPOCH_MGC_EPOCH) ∧ s.beaconRuns = false) :=
  ⟨⟨(State.at_ 5 z : State), (.mgc : Agent), (BU_LAST_WR_EPOCH_MGC_EPOCH : Fld), by decide +kernel⟩,
   ⟨(State.at_ 5 z : State), (.host : Agent), (BU_LAST_WR_EPOCH_HOST_EPOCH : Fld), by decide +kernel⟩,
   ⟨(run z : State), (.mgc : Agent), (BU_LAST_WR_EPOCH_MGC_EPOCH : Fld), by decide +kernel⟩,
   ⟨(run z : State), (.mgc : Agent), (BU_LAST_WR_EPOCH_MGC_EPOCH : Fld), by decide +kernel⟩,
   ⟨(fClip (fun c => { c with step := 3 }) (run z) : State), (.mgc : Agent), (BU_LAST_WR_EPOCH_MGC_EPOCH : Fld), by decide +kernel⟩,
   ⟨(z.with [(BU_COUNTS_RUNT, 5)] : State), (.mgc : Agent), (BU_LAST_WR_EPOCH_MGC_EPOCH : Fld), by decide +kernel⟩,
   ⟨(State.at_ 5 z : State), (.mgc : Agent), (BU_LAST_WR_EPOCH_MGC_EPOCH : Fld), by decide +kernel⟩,
   ⟨(fBu (fun b => { b with waitHost := true, waitMgc := true }) z : State), (.mgc : Agent), (BU_LAST_WR_EPOCH_MGC_EPOCH : Fld), by decide +kernel⟩,
   ⟨(run z : State), (.mgc : Agent), (BU_LAST_WR_EPOCH_MGC_EPOCH : Fld), (0#32 : Word), by decide +kernel⟩,
   ⟨(run z : State), (.mgc : Agent), (BU_LAST_WR_EPOCH_MGC_EPOCH : Fld), (1#32 : Word), by decide +kernel⟩,
   ⟨(z.with [(FAL_QFLOOR_Q, 9)] : State), (.mgc : Agent), (BU_LAST_WR_EPOCH_MGC_EPOCH : Fld), by decide +kernel⟩⟩

theorem witness_can_controllers :
    (∃ (s : State) (c : Nat), s.wf = true ∧ c < 2 ∧ (s.awake = false ∨ s.flag (CAN_C_CTRL_EN c) = false)) ∧
    (∃ (s : State) (c : Nat) (f : CanFrame), s.wf = true ∧ c < 2 ∧ s.awake = true ∧ s.flag (CAN_C_CTRL_EN c) = true ∧ s.get (CAN_C_STATUS_STATE c) ≠ 2 ∧ (f.fd = false ∨ f.ext = false)) ∧
    (∃ (s : State) (c : Nat) (f : CanFrame), s.wf = true ∧ c < 2 ∧ s.awake = true ∧ s.flag (CAN_C_CTRL_EN c) = true ∧ s.get (CAN_C_STATUS_STATE c) ≠ 2 ∧ f.fd = true ∧ f.ext = true ∧ s.canAccepts c (bits f.id 18 7) = false) ∧
    (∃ (s : State) (c : Nat) (f : CanFrame) (d : List Nat), s.wf = true ∧ c < 2 ∧ s.awake = true ∧ s.flag (CAN_C_CTRL_EN c) = true ∧ s.get (CAN_C_STATUS_STATE c) ≠ 2 ∧ f.fd = true ∧ f.ext = true ∧ s.canAccepts c (bits f.id 18 7) = true ∧ s.getAddr (CAN_C_RXR_BASE_ADDR c) = 0 ∧ s.canServed c = true ∧ toNats f.data = 128 :: d ∧ aget (s.canCtl c).parts (f.id % 2 ^ 29) = none) ∧
    (∃ (s : State) (c : Nat) (f : CanFrame) (i : Nat) (b : Nat) (d : List Nat), s.wf = true ∧ c < 2 ∧ s.awake = true ∧ s.flag (CAN_C_CTRL_EN c) = true ∧ s.get (CAN_C_STATUS_STATE c) ≠ 2 ∧ f.fd = true ∧ f.ext = true ∧ s.canAccepts c (bits f.id 18 7) = true ∧ s.canServed c = false ∧ i = (s.canCtl c).rxHead ∧ b = s.getAddr (CAN_C_RXR_BASE_ADDR c) + 80 * i ∧ s.getAddr (CAN_C_RXR_BASE_ADDR c) ≠ 0 ∧ s.usable b 80 ∧ (s.memRead b 80).1 = some d ∧ d.getD 5 0 % 2 = 1) ∧
    (∃ (s : State) (c : Nat) (f : CanFrame) (i : Nat) (b : Nat) (d : List Nat), s.wf = true ∧ c < 2 ∧ s.awake = true ∧ s.flag (CAN_C_CTRL_EN c) = true ∧ s.get (CAN_C_STATUS_STATE c) ≠ 2 ∧ f.fd = true ∧ f.ext = true ∧ s.canAccepts c (bits f.id 18 7) = true ∧ s.canServed c = false ∧ i = (s.canCtl c).rxHead ∧ b = s.getAddr (CAN_C_RXR_BASE_ADDR c) + 80 * i ∧ s.getAddr (CAN_C_RXR_BASE_ADDR c) ≠ 0 ∧ s.usable b 80 ∧ (s.memRead b 80).1 = some d ∧ d.getD 5 0 % 2 = 0) ∧
    (∃ (s : State) (c : Nat), s.wf = true ∧ c < 2 ∧ s.flag (CAN_C_CTRL_LISTEN c) = true) ∧
    (∃ (s : State) (c : Nat) (id : Nat) (d : List Nat) (rest : List (Nat × List Nat)), s.wf = true ∧ c < 2 ∧ s.awake = true ∧ s.flag (CAN_C_CTRL_EN c) = true ∧ s.flag (CAN_C_CTRL_LISTEN c) = false ∧ s.getAddr (CAN_C_TXR_BASE_ADDR c) = 0 ∧ (s.canCtl c).outbox = (id, d) :: rest ∧ s.get (CAN_C_STATUS_STATE c) ≠ 2) ∧
    (∃ (s : State) (c : Nat) (id : Nat) (d : List Nat) (rest : List (Nat × List Nat)), s.wf = true ∧ c < 2 ∧ s.awake = true ∧ s.flag (CAN_C_CTRL_EN c) = true ∧ s.flag (CAN_C_CTRL_LISTEN c) = false ∧ s.getAddr (CAN_C_TXR_BASE_ADDR c) = 0 ∧ (s.canCtl c).outbox = (id, d) :: rest ∧ s.get (CAN_C_STATUS_STATE c) = 2) ∧
    (∃ (s : State) (c : Nat) (i : Nat) (b : Nat) (d : List Nat), s.wf = true ∧ c < 2 ∧ s.awake = true ∧ s.flag (CAN_C_CTRL_EN c) = true ∧ s.flag (CAN_C_CTRL_LISTEN c) = false ∧ s.get (CAN_C_STATUS_STATE c) ≠ 2 ∧ i = (s.canCtl c).txHead ∧ b = s.getAddr (CAN_C_TXR_BASE_ADDR c) + 80 * i ∧ s.getAddr (CAN_C_TXR_BASE_ADDR c) ≠ 0 ∧ s.usable b 80 ∧ (s.memRead b 80).1 = some d ∧ d.getD 5 0 % 2 = 1) ∧
    (∃ (s : State) (c : Nat), s.wf = true ∧ c < 2 ∧ s.flag (CAN_C_CTRL_EN c) = true ∧ s.flag (CAN_C_CTRL_AUTO_RECOVER c) = true ∧ s.get (CAN_C_STATUS_STATE c) = 2) ∧
    (∃ (s : State) (c : Nat), s.wf = true ∧ c < 2 ∧ (s.flag (CAN_C_CTRL_EN c) = false ∨ s.flag (CAN_C_CTRL_AUTO_RECOVER c) = false ∨ s.get (CAN_C_STATUS_STATE c) ≠ 2)) :=
  ⟨⟨(z : State), (1 : Nat), by decide +kernel⟩,
   ⟨(canS 0 z : State), (0 : Nat), ({ cf0 with ext := false } : CanFrame), by decide +kernel⟩,
   ⟨(canS 1 z : State), (1 : Nat), ({ cf0 with id := 5 * 2 ^ 18 } : CanFrame), by decide +kernel⟩,
   ⟨((mgc (canS 0 z)).with [(CAN_C_ACCEPT_ALL 0, 1)] : State), (0 : Nat), (cf0 : CanFrame), ([7] : List Nat), by decide +kernel⟩,
   ⟨(canR 0 (List.replicate 5 0 ++ [1]) : State), (0 : Nat), (cf0 : CanFrame), (0 : Nat), (cR 0 : Nat), (List.replicate 5 0 ++ [1] ++ List.replicate 74 0 : List Nat), by decide +kernel⟩,
   ⟨(canR 0 [] : State), (0 : Nat), (cf0 : CanFrame), (0 : Nat), (cR 0 : Nat), (List.replicate 80 0 : List Nat), by decide +kernel⟩,
   ⟨((canS 0 z).with [(CAN_C_CTRL_LISTEN 0, 1)] : State), (0 : Nat), by decide +kernel⟩,
   ⟨({ canS 0 z with can := [{ CanCtl.reset with outbox := [(5, [1])] }, CanCtl.reset] } : State), (0 : Nat), (5 : Nat), ([1] : List Nat), (([] : List (Nat × List Nat)) : List (Nat × List Nat)), by decide +kernel⟩,
   ⟨({ (canS 0 z).with [(CAN_C_STATUS_STATE 0, 2)] with can := [{ CanCtl.reset with outbox := [(5, [1])] }, CanCtl.reset] } : State), (0 : Nat), (5 : Nat), ([1] : List Nat), (([] : List (Nat × List Nat)) : List (Nat × List Nat)), by decide +kernel⟩,
   ⟨(canT 0 [5, 0, 0, 0, 1, 1] : State), (0 : Nat), (0 : Nat), (cT 0 : Nat), ([5, 0, 0, 0, 1, 1] ++ List.replicate 74 0 : List Nat), by decide +kernel⟩,
   ⟨((canS 1 z).with [(CAN_C_STATUS_STATE 1, 2), (CAN_C_CTRL_AUTO_RECOVER 1, 1)] : State), (1 : Nat), by decide +kernel⟩,
   ⟨(z : State), (1 : Nat), by decide +kernel⟩⟩

theorem witness_messages_of_the_firmware :
    (∃ (s : State), s.wf = true ∧ s.mgc.up = true ∧ s.setting 0x1100 6 ≠ 0 ∧ ((∀ x, s.hpp.beatAt = some x → x + s.setting 0x1100 6 * 10 ^ 6 ≤ s.now))) ∧
    (∃ (s : State), s.wf = true ∧ s.mgc.up = true ∧ s.setting 0x1100 6 ≠ 0 ∧ ((∀ x, s.hpp.beatAt = some x → x + s.setting 0x1100 6 * 10 ^ 6 ≤ s.now))) ∧
    (∃ (s : State), s.wf = true ∧ s.beatDue = false) ∧
    (∃ (s : State) (c : Nat), s.wf = true ∧ s.rollDue c = false) ∧
    (∃ (s : State) (c : Nat), s.wf = true ∧ c < 2 ∧ s.mgc.up = true ∧ s.rollMaster c = true ∧ ((∀ x, (s.canCtl c).rollAt = some x → x + s.setting 0x1100 7 * 10 ^ 6 ≤ s.now)) ∧ s.hpp.rounds.length = 2) ∧
    (∃ (s : State) (c : Nat) (src : Nat) (round : Nat) (uid : Nat) (v : Nat) (p : Nat) (n : List (Byte)) (i : Instr), s.wf = true ∧ (s.mgc.up = false ∨ s.flag (CAN_C_CTRL_EN c) = false) ∧ i ∈ [Instr.rollCall c src round, .heartbeat c src, .answer c src uid v p n]) ∧
    (∃ (s : State) (peer : Nat), s.wf = true ∧ s.udpSilent peer = false) ∧
    (∃ (s : State) (peer : Nat) (x : Partner), s.wf = true ∧ s.mgc.up = true ∧ s.partner 7 peer = some x ∧ x.state = 1 ∧ x.heard + 60 * 10 ^ 9 ≤ s.now) ∧
    (∃ (s : State) (d : List Nat) (x : Nat), s.wf = true ∧ s.hpp.commitDue = some d ∧ s.hpp.commitLast = some x ∧ x + 10 ^ 6 * s.setting 0x1100 16 ≤ s.now) ∧
    (∃ (s : State), s.wf = true ∧ s.hpp.commitDue = none) ∧
    (∃ (s : State) (c : Nat), s.wf = true ∧ c < 2 ∧ s.mgc.up = true ∧ s.flag (CAN_C_CTRL_EN c) = true ∧ s.ownNode (canOf c) ≠ 0 ∧ s.setting 0x1100 9 ≠ 1) ∧
    (∃ (s : State) (c : Nat) (n : List (Byte)) (m : Nat), s.wf = true ∧ c < 2 ∧ s.mgc.up = true ∧ s.flag (CAN_C_CTRL_EN c) = true ∧ s.ownNode (canOf c) ≠ 0 ∧ s.setting 0x1100 9 = 1 ∧ bitAt (s.setting 0x1100 8) c = 1 ∧ ((List.range 63).map (64 + ·)).find? (fun n => (s.partner (1 + c) n).isNone) = some m) ∧
    (∃ (s : State) (c : Nat) (src : Nat) (x : Partner), s.wf = true ∧ c < 2 ∧ s.mgc.up = true ∧ s.flag (CAN_C_CTRL_EN c) = true ∧ s.ownNode (canOf c) ≠ 0 ∧ src ≠ 0 ∧ src ≠ s.ownNode (canOf c) ∧ s.partner (1 + c) src = some x ∧ x.identity = [] ∧ x.state = 1) ∧
    (∃ (s : State) (c : Nat) (uid : Nat) (src : Nat) (x : Partner), s.wf = true ∧ c < 2 ∧ s.mgc.up = true ∧ s.flag (CAN_C_CTRL_EN c) = true ∧ s.ownNode (canOf c) ≠ 0 ∧ src ≠ 0 ∧ src ≠ s.ownNode (canOf c) ∧ s.partner (1 + c) src = some x ∧ x.identity ≠ [] ∧ rdLe x.identity 0 8 ≠ uid % 2 ^ 64 ∧ x.state = 1) ∧
    (∃ (s : State), s.wf = true ∧ (s.awake = false ∨ s.host = false)) ∧
    (∃ (s : State) (op : Nat), s.wf = true ∧ s.awake = true ∧ s.host = true ∧ (s.role = 2 ∧ op = 0xC000 ∨ op ≠ 0xC000 ∧ op ≠ 0x0300 ∧ op ≠ 0x0400 ∧ op ≠ 0x0401)) ∧
    (∃ (s : State) (op : Nat), s.wf = true ∧ s.awake = true ∧ s.host = true ∧ (s.role = 2 ∧ op = 0xC000 ∨ op ≠ 0xC000 ∧ op ≠ 0x0300 ∧ op ≠ 0x0400 ∧ op ≠ 0x0401)) ∧
    (∃ (s : State) (payload : List Byte), s.wf = true ∧ s.awake = true ∧ s.host = true ∧ s.role ≠ 2 ∧ parseMsg (toNats payload) = none) ∧
    (∃ (s : State) (payload : List Byte) (m : HppMsg) (op : HppOp), s.wf = true ∧ s.awake = true ∧ s.host = true ∧ s.role ≠ 2 ∧ parseMsg (toNats payload) = some m ∧ m.request = some op ∧ m.flags % 2 = 0) ∧
    (∃ (s : State) (payload : List Byte) (m : HppMsg) (op : HppOp), s.wf = true ∧ s.awake = true ∧ s.host = true ∧ s.role ≠ 2 ∧ parseMsg (toNats payload) = some m ∧ m.request = some op ∧ m.flags % 2 = 1) :=
  ⟨⟨(mgc (canS 0 z) : State), by decide +kernel⟩,
   ⟨(State.at_ (10 ^ 12) (fHpp (fun h => { h with beatAt := some 0 }) (mgc z)) : State), by decide +kernel⟩,
   ⟨(z : State), by decide +kernel⟩,
   ⟨(z : State), (0 : Nat), by decide +kernel⟩,
   ⟨(fHpp (fun h => { h with dict := [(0x110008, [1]), (0x110009, [1])] }) (mgc (canS 0 (node z))) : State), (0 : Nat), by decide +kernel⟩,
   ⟨(z : State), (1 : Nat), (9 : Nat), (7 : Nat), (1 : Nat), (2 : Nat), (3 : Nat), ([65#8] : List (Byte)), (Instr.heartbeat 1 9 : Instr), by decide +kernel⟩,
   ⟨(z : State), (9 : Nat), by decide +kernel⟩,
   ⟨(fHpp (fun h => { h with light := [(0, ⟨7, 77, 1, 0, [], 0, 0⟩)] }) (State.at_ (60 * 10 ^ 9) (mgc z)) : State), (77 : Nat), ((⟨7, 77, 1, 0, [], 0, 0⟩ : Partner) : Partner), by decide +kernel⟩,
   ⟨(fHpp (fun h => { h with commitDue := some [1], commitLast := some 0 }) (State.at_ (10 ^ 12) z) : State), ([1] : List Nat), (0 : Nat), by decide +kernel⟩,
   ⟨(z : State), by decide +kernel⟩,
   ⟨(fHpp (fun h => { h with dict := [(0x110001, [9]), (0x110009, [0])] }) (mgc (canS 0 z)) : State), (0 : Nat), by decide +kernel⟩,
   ⟨(fHpp (fun h => { h with dict := [(0x110001, [9]), (0x110008, [1]), (0x110009, [1])] }) (mgc (canS 0 z)) : State), (0 : Nat), ([65#8] : List (Byte)), (64 : Nat), by decide +kernel⟩,
   ⟨(fHpp (fun h => { h with light := [(0, ⟨1, 5, 1, 0, [], 0, 0⟩)] }) (mgc (canS 0 (node z))) : State), (0 : Nat), (5 : Nat), ((⟨1, 5, 1, 0, [], 0, 0⟩ : Partner) : Partner), by decide +kernel⟩,
   ⟨(fHpp (fun h => { h with light := [(0, ⟨1, 5, 1, 0, [9], 0, 0⟩)] }) (mgc (canS 0 (node z))) : State), (0 : Nat), (5 : Nat), (5 : Nat), ((⟨1, 5, 1, 0, [9], 0, 0⟩ : Partner) : Partner), by decide +kernel⟩,
   ⟨(z : State), by decide +kernel⟩,
   ⟨(hst z : State), (0x1234 : Nat), by decide +kernel⟩,
   ⟨((hst z).with [(RSTC_STRAPS_GANG_ID, 2)] : State), (0xC000 : Nat), by decide +kernel⟩,
   ⟨(hst z : State), ([1#8] : List Byte), by decide +kernel⟩,
   ⟨(host z : State), (toBytes msg0 : List Byte), (hm0 : HppMsg), (HppOp.read 0x1000 1 : HppOp), by decide +kernel⟩,
   ⟨(host z : State), (toBytes msg1 : List Byte), ({ hm0 with flags := 0x11 } : HppMsg), (HppOp.read 0x1000 1 : HppOp), by decide +kernel⟩⟩

theorem witness_cxl_port :
    (∃ (s : State), s.wf = true) ∧
    (∃ (s : State) (sp : Nat) (w : Nat), s.wf = true ∧ sp < 4 ∧ w < 4 ∧ (sp ≠ 2 ∨ w ≠ 3)) ∧
    (∃ (s : State) (sp : Nat) (w : Nat), s.wf = true ∧ sp < 4 ∧ w < 4 ∧ (sp ≠ 2 ∨ w ≠ 3)) ∧
    (∃ (s : State), s.wf = true ∧ s.flag CXP_STATUS_LINK_UP = true ∧ s.host = false) ∧
    (∃ (s : State), s.wf = true ∧ (s.flag CXP_STATUS_LINK_UP = false ∨ s.host = true)) ∧
    (∃ (s : State), s.wf = true ∧ s.host = true) ∧
    (∃ (s : State), s.wf = true ∧ s.host = true) ∧
    (∃ (s : State), s.wf = true ∧ s.hostReach = false) ∧
    (∃ (s : State) (off : Nat) (len : Nat), s.wf = true ∧ (s.hostReach = false ∨ s.flag CXP_STATUS_HDM_COMMITTED = false ∨ s.get CXP_HDM_SIZE_BYTES < off + len)) ∧
    (∃ (s : State) (off : Nat) (len : Nat), s.wf = true ∧ (s.hostReach = false ∨ s.flag CXP_STATUS_HDM_COMMITTED = false ∨ s.get CXP_HDM_SIZE_BYTES < off + len)) ∧
    (∃ (s : State) (off : Nat) (len : Nat) (l : List EccFinding), s.wf = true ∧ s.hostReach = true ∧ s.flag CXP_STATUS_HDM_COMMITTED = true ∧ off + len ≤ s.get CXP_HDM_SIZE_BYTES ∧ s.allOn (2 ^ 32 + off) len = true ∧ s.reqWaits s.lmc.held ⟨0x23, 2 ^ 32 + off, len, none⟩ = false ∧ (∀ e ∈ l, e = .clean) ∧ s.poisonedIn (2 ^ 32 + off) len = false ∧ s.pageBias (off / 2 ^ 21) = false) ∧
    (∃ (s : State) (off : Nat) (len : Nat) (l : List EccFinding), s.wf = true ∧ s.hostReach = true ∧ s.flag CXP_STATUS_HDM_COMMITTED = true ∧ off + len ≤ s.get CXP_HDM_SIZE_BYTES ∧ s.allOn (2 ^ 32 + off) len = true ∧ s.reqWaits s.lmc.held ⟨0x23, 2 ^ 32 + off, len, none⟩ = false ∧ (∀ e ∈ l, e = .clean) ∧ s.poisonedIn (2 ^ 32 + off) len = false ∧ s.pageBias (off / 2 ^ 21) = true) ∧
    (∃ (s : State) (off : Nat) (len : Nat) (l : List EccFinding) (w : List (Byte)), s.wf = true ∧ s.hostReach = true ∧ s.flag CXP_STATUS_HDM_COMMITTED = true ∧ off + len ≤ s.get CXP_HDM_SIZE_BYTES ∧ w.length = len ∧ s.allOn (2 ^ 32 + off) len = true ∧ s.lmc.held = [] ∧ (∀ e ∈ l, e = .clean) ∧ (∀ x ∈ linesOf (2 ^ 32 + off) len, s.dramWaits (64 * x) = false) ∧ (∀ ch, (s.wqOf ch).length + (linesOf (2 ^ 32 + off) len).length ≤ 64)) ∧
    (∃ (s : State) (off : Nat) (len : Nat), s.wf = true ∧ s.hostReach = true ∧ s.flag CXP_STATUS_HDM_COMMITTED = true ∧ off + len ≤ s.get CXP_HDM_SIZE_BYTES ∧ s.allOn (2 ^ 32 + off) len = false) ∧
    (∃ (s : State), s.wf = true ∧ s.flag CXP_BIAS_STAT_BUSY = false ∧ s.get CXP_BIAS_PAGE_INDEX * 2 ^ 21 < s.get CXP_HDM_SIZE_BYTES) ∧
    (∃ (s : State) (a : Agent) (c : Instr), s.wf = true ∧ (s.flag CXP_BIAS_STAT_BUSY = true ∨ s.get CXP_HDM_SIZE_BYTES ≤ s.get CXP_BIAS_PAGE_INDEX * 2 ^ 21) ∧ c ∈ [Instr.toHost a, .toDevice a]) ∧
    (∃ (s : State) (a : Agent) (c : Instr), s.wf = true ∧ (s.flag CXP_BIAS_STAT_BUSY = true ∨ s.get CXP_HDM_SIZE_BYTES ≤ s.get CXP_BIAS_PAGE_INDEX * 2 ^ 21) ∧ c ∈ [Instr.toHost a, .toDevice a]) ∧
    (∃ (s : State) (c : BiasChange), s.wf = true ∧ s.cxl.change = some c ∧ swf (fun _ => s.cxl.devBase) s.cxl.pages = true) ∧
    (∃ (s : State), s.wf = true ∧ s.cxl.change = none) ∧
    (∃ (s : State), s.wf = true ∧ s.flag CXP_STATUS_FLUSHING = true ∧ s.flag CXP_STATUS_LINK_UP = true ∧ (s.cxl.cache.map (·.1)).Nodup ∧ (∀ e ∈ s.cxl.cache, e.2.length = 64)) ∧
    (∃ (s : State), s.wf = true ∧ s.flag CXP_STATUS_FLUSHING = true ∧ s.flag CXP_STATUS_LINK_UP = false) ∧
    (∃ (s : State), s.wf = true ∧ s.flag CXP_STATUS_FLUSHING = false) ∧
    (∃ (s : State) (c : Instr), s.wf = true ∧ s.host = false ∧ c ∈ [Instr.getTimestamp, .getSupportedLogs, .getLog true, .getLog false]) :=
  ⟨⟨(z.with [(RSTC_STRAPS_GANG_ID, 2)] : State), by decide +kernel⟩,
   ⟨(z : State), (3 : Nat), (3 : Nat), by decide +kernel⟩,
   ⟨(z : State), (2 : Nat), (0 : Nat), by decide +kernel⟩,
   ⟨(z.with [(CXP_STATUS_LINK_UP, 1)] : State), by decide +kernel⟩,
   ⟨(z : State), by decide +kernel⟩,
   ⟨(fCxl (fun c => { c with cache := [(3, [1]), (5, [2])] }) ((hst z).with [(ICU_HOST_SLEEP, 1), (PXP_HOST_FREE_MAP, 255)]) : State), by decide +kernel⟩,
   ⟨(hst z : State), by decide +kernel⟩,
   ⟨(z : State), by decide +kernel⟩,
   ⟨(hst z : State), (0 : Nat), (4 : Nat), by decide +kernel⟩,
   ⟨(big z : State), (2 ^ 28 - 3 : Nat), (4 : Nat), by decide +kernel⟩,
   ⟨((big z).bytesAt (2 ^ 32) [1, 2, 3] : State), (0 : Nat), (4 : Nat), ([EccFinding.clean] : List EccFinding), by decide +kernel⟩,
   ⟨(fCxl (fun c => { c with devBase := true }) (big z) : State), (2 ^ 28 - 4 : Nat), (4 : Nat), (([] : List EccFinding) : List EccFinding), by decide +kernel⟩,
   ⟨(big z : State), (2 ^ 28 - 4 : Nat), (4 : Nat), (([] : List EccFinding) : List EccFinding), ([1#8, 2#8, 3#8, 0#8] : List (Byte)), by decide +kernel, by decide +kernel, by decide +kernel, by decide +kernel, by decide +kernel, by decide +kernel, by decide +kernel, by decide +kernel, by decide +kernel, (fun ch => by rw [show (linesOf (2 ^ 32 + (2 ^ 28 - 4)) 4).length = 1 by decide +kernel]; exact (by decide : 1 ≤ 64))⟩,
   ⟨((hst z).with [(CXP_STATUS_HDM_COMMITTED, 1), (CXP_HDM_SIZE_BYTES, 2 ^ 28)] : State), (0 : Nat), (64 : Nat), by decide +kernel⟩,
   ⟨((hst z).with [(CXP_HDM_SIZE_BYTES, 2 ^ 28), (CXP_BIAS_PAGE_INDEX, 127)] : State), by decide +kernel⟩,
   ⟨(z.with [(CXP_BIAS_STAT_BUSY, 1)] : State), (.mgc : Agent), (Instr.toHost .mgc : Instr), by decide +kernel⟩,
   ⟨(z : State), (.mgc : Agent), (Instr.toDevice .mgc : Instr), by decide +kernel⟩,
   ⟨(fCxl (fun c => { c with change := some ⟨127, true⟩ }) ((hst z).with [(CXP_BIAS_STAT_BUSY, 1)]) : State), ((⟨127, true⟩ : BiasChange) : BiasChange), by decide +kernel⟩,
   ⟨(z : State), by decide +kernel⟩,
   ⟨(fCxl (fun c => { c with cache := [(3, List.replicate 64 1), (5, List.replicate 64 2)] }) ((hst z).with [(CXP_STATUS_FLUSHING, 1)]) : State), by decide +kernel⟩,
   ⟨(fCxl (fun c => { c with cache := [(3, [1])] }) (z.with [(CXP_STATUS_FLUSHING, 1)]) : State), by decide +kernel⟩,
   ⟨(z : State), by decide +kernel⟩,
   ⟨(z : State), (Instr.getTimestamp : Instr), by decide +kernel⟩⟩

theorem witness_dma_channels :
    (∃ (s : State) (n : Nat) (l : List Nat), s.wf = true ∧ n < 16 ∧ s.flag (DMA_CH_CTRL_EN n) = false ∧ s.usable (s.descAddr n 0) 24 ∧ (s.memRead (s.descAddr n 0) 24).1 = some l ∧ rdLe l 20 4 % 2 = 1) ∧
    (∃ (s : State) (n : Nat) (en : Bool), s.wf = true ∧ n < 16 ∧ s.flag (DMA_CH_CTRL_EN n) = en) ∧
    (∃ (s : State) (n : Nat), s.wf = true ∧ n < 16 ∧ s.get KPR_STATUS_STATE = 2) ∧
    (∃ (s : State) (n : Nat) (l : List Nat) (i : Nat), s.wf = true ∧ n < 16 ∧ s.get KPR_STATUS_STATE ≠ 2 ∧ s.flag (DMA_CH_CTRL_EN n) = true ∧ s.chanState n = 0 ∧ i = s.get (DMA_CH_HEAD_INDEX n) ∧ s.usable (s.descAddr n i) 24 ∧ (s.memRead (s.descAddr n i) 24).1 = some l ∧ rdLe l 20 4 % 2 = 0) ∧
    (∃ (s : State) (n : Nat) (l : List Nat) (i : Nat), s.wf = true ∧ n < 16 ∧ s.get KPR_STATUS_STATE ≠ 2 ∧ s.flag (DMA_CH_CTRL_EN n) = true ∧ s.chanState n = 0 ∧ i = s.get (DMA_CH_HEAD_INDEX n) ∧ s.usable (s.descAddr n i) 24 ∧ (s.memRead (s.descAddr n i) 24).1 = some l ∧ rdLe l 20 4 % 2 = 1 ∧ s.get (DMA_CH_POLL_US n) ≠ 0 ∧ 1000 * s.get (DMA_CH_POLL_US n) ≤ s.now - (s.chan n).polled) ∧
    (∃ (s : State) (n : Nat), s.wf = true ∧ n < 16 ∧ s.get KPR_STATUS_STATE ≠ 2 ∧ s.flag (DMA_CH_CTRL_EN n) = true ∧ s.chanState n = 0 ∧ (s.memRead (s.descAddr n (s.get (DMA_CH_HEAD_INDEX n))) 24).1 = none) ∧
    (∃ (s : State) (n : Nat), s.wf = true ∧ n < 16 ∧ s.get KPR_STATUS_STATE ≠ 2 ∧ (s.flag (DMA_CH_CTRL_EN n) = false ∨ s.chanState n ≠ 0)) ∧
    (∃ (s : State) (n : Nat), s.wf = true ∧ n < 16 ∧ (s.get (DMA_CH_POLL_US n) = 0 ∨ s.now - (s.chan n).polled < 1000 * s.get (DMA_CH_POLL_US n))) ∧
    (∃ (s : State) (n : Nat) (l : List Nat) (i : Nat), s.wf = true ∧ n < 16 ∧ s.flag (DMA_CH_CTRL_EN n) = true ∧ s.chanState n = 3 ∧ i = s.get (DMA_CH_STAT_HALT_INDEX n) ∧ s.usable (s.descAddr n i) 24 ∧ (s.memRead (s.descAddr n i) 24).1 = some l ∧ rdLe l 20 4 % 2 = 1) ∧
    (∃ (s : State) (n : Nat) (l : List Nat) (i : Nat), s.wf = true ∧ n < 16 ∧ s.flag (DMA_CH_CTRL_EN n) = true ∧ s.chanState n = 3 ∧ i = s.nextIndex n (s.get (DMA_CH_STAT_HALT_INDEX n)) ∧ i < 4096 ∧ s.usable (s.descAddr n i) 24 ∧ (s.memRead (s.descAddr n i) 24).1 = some l ∧ rdLe l 20 4 % 2 = 1) ∧
    (∃ (s : State) (n : Nat), s.wf = true ∧ n < 16 ∧ (s.flag (DMA_CH_CTRL_EN n) = false ∨ s.chanState n ≠ 3)) ∧
    (∃ (s : State) (n : Nat) (j : DmaJob), s.wf = true ∧ n < 16 ∧ (s.chan n).job = some j ∧ s.usable (s.descAddr n j.index + 20) 4) ∧
    (∃ (s : State) (n : Nat), s.wf = true ∧ n < 16 ∧ (s.chan n).job = none) :=
  ⟨⟨(((dm 15 z).bytesAt (dmBase 15) desc0).with [(DMA_CH_CTRL_EN 15, 0)] : State), (15 : Nat), (desc0 : List Nat), by decide +kernel⟩,
   ⟨(z : State), (15 : Nat), (false : Bool), by decide +kernel⟩,
   ⟨(z.with [(KPR_STATUS_STATE, 2)] : State), (15 : Nat), by decide +kernel⟩,
   ⟨(dm 15 z : State), (15 : Nat), (List.replicate 24 0 : List Nat), (0 : Nat), by decide +kernel⟩,
   ⟨((State.at_ 1000 ((dm 15 z).bytesAt (dmBase 15) desc0)).with [(DMA_CH_POLL_US 15, 1)] : State), (15 : Nat), (desc0 : List Nat), (0 : Nat), by decide +kernel⟩,
   ⟨(z.with [(DMA_CH_CTRL_EN 0, 1)] : State), (0 : Nat), by decide +kernel⟩,
   ⟨(z : State), (15 : Nat), by decide +kernel⟩,
   ⟨(z : State), (15 : Nat), by decide +kernel⟩,
   ⟨(((dm 0 z).bytesAt (dmBase 0 + 96) desc0).with [(DMA_CH_STAT_STATE 0, 3), (DMA_CH_STAT_HALT_INDEX 0, 3)] : State), (0 : Nat), (desc0 : List Nat), (3 : Nat), by decide +kernel⟩,
   ⟨(((dm 0 z).bytesAt (dmBase 0) desc0).with [(DMA_CH_STAT_STATE 0, 3), (DMA_CH_STAT_HALT_INDEX 0, 3)] : State), (0 : Nat), (desc0 : List Nat), (0 : Nat), by decide +kernel⟩,
   ⟨(z : State), (15 : Nat), by decide +kernel⟩,
   ⟨(dmJob 15 (dj 1) z : State), (15 : Nat), (dj 1 : DmaJob), by decide +kernel⟩,
   ⟨(z : State), (15 : Nat), by decide +kernel⟩⟩

theorem witness_dma_programs :
    (∃ (s : State) (n : Nat) (j : DmaJob), s.wf = true ∧ n < 16 ∧ s.running n = some j ∧ j.prog = false ∧ (s.copy n j.native).1 = 0) ∧
    (∃ (s : State) (n : Nat) (j : DmaJob), s.wf = true ∧ n < 16 ∧ s.running n = some j ∧ (j.prog = false ∧ j.native.ok = false ∨ j.prog = true ∧ j.progOk = false)) ∧
    (∃ (s : State) (n : Nat) (j : DmaJob), s.wf = true ∧ n < 16 ∧ s.running n = some j ∧ (j.prog = false ∧ j.native.ok = false ∨ j.prog = true ∧ j.progOk = false)) ∧
    (∃ (s : State) (n : Nat) (j : DmaJob) (l : List Nat) (u : State) (k : Nat), s.wf = true ∧ n < 16 ∧ s.running n = some j ∧ j.prog = true ∧ j.progOk = true ∧ j.pc + 16 ≤ j.len ∧ s.usable (j.src + j.pc) 16 ∧ s.memRead (j.src + j.pc) 16 = (some l, u) ∧ k = rdLe l 2 1 ∧ rdLe l 0 1 = 1 ∧ ¬ (bitAt (rdLe l 1 1) 4 = 1 ∧ 3 < k) ∧ (u.copy n (j.moveOf l)).1 = 0) ∧
    (∃ (s : State) (n : Nat) (j : DmaJob) (l : List Nat) (u : State) (k : Nat), s.wf = true ∧ n < 16 ∧ s.running n = some j ∧ j.prog = true ∧ j.progOk = true ∧ j.pc + 16 ≤ j.len ∧ s.usable (j.src + j.pc) 16 ∧ s.memRead (j.src + j.pc) 16 = (some l, u) ∧ k = rdLe l 2 1 ∧ rdLe l 0 1 = 2 ∧ k ≤ 3 ∧ rdLe l 8 4 < j.pc ∧ rdLe l 8 4 % 16 = 0) ∧
    (∃ (s : State) (n : Nat) (j : DmaJob) (l : List Nat) (u : State) (k : Nat), s.wf = true ∧ n < 16 ∧ s.running n = some j ∧ j.prog = true ∧ j.progOk = true ∧ j.pc + 16 ≤ j.len ∧ s.usable (j.src + j.pc) 16 ∧ s.memRead (j.src + j.pc) 16 = (some l, u) ∧ k = rdLe l 2 1 ∧ rdLe l 0 1 = 2 ∧ k ≤ 3 ∧ rdLe l 8 4 < j.pc ∧ rdLe l 8 4 % 16 = 0) ∧
    (∃ (s : State) (n : Nat) (j : DmaJob) (l : List Nat) (u : State) (k : Nat), s.wf = true ∧ n < 16 ∧ s.running n = some j ∧ j.prog = true ∧ j.progOk = true ∧ j.pc + 16 ≤ j.len ∧ s.usable (j.src + j.pc) 16 ∧ s.memRead (j.src + j.pc) 16 = (some l, u) ∧ k = rdLe l 2 1 ∧ rdLe l 0 1 = 3 ∧ 1 ≤ k ∧ k ≤ 63 ∧ bitAt (s.get DMA_EVT_PEND_LINES) (k - 1) = 1) ∧
    (∃ (s : State) (n : Nat) (j : DmaJob) (l : List Nat) (u : State) (k : Nat), s.wf = true ∧ n < 16 ∧ s.running n = some j ∧ j.prog = true ∧ j.progOk = true ∧ j.pc + 16 ≤ j.len ∧ s.usable (j.src + j.pc) 16 ∧ s.memRead (j.src + j.pc) 16 = (some l, u) ∧ k = rdLe l 2 1 ∧ rdLe l 0 1 = 3 ∧ 1 ≤ k ∧ k ≤ 63 ∧ bitAt (s.get DMA_EVT_PEND_LINES) (k - 1) = 0 ∧ s.passedAbove n k = none) ∧
    (∃ (s : State) (n : Nat) (j : DmaJob) (l : List Nat) (u : State) (k : Nat) (m : Nat) (p : Passed), s.wf = true ∧ n < 16 ∧ s.running n = some j ∧ j.prog = true ∧ j.progOk = true ∧ j.pc + 16 ≤ j.len ∧ s.usable (j.src + j.pc) 16 ∧ s.memRead (j.src + j.pc) 16 = (some l, u) ∧ k = rdLe l 2 1 ∧ rdLe l 0 1 = 3 ∧ 1 ≤ k ∧ k ≤ 63 ∧ bitAt (s.get DMA_EVT_PEND_LINES) (k - 1) = 0 ∧ s.passedAbove n k = some (m, p)) ∧
    (∃ (s : State) (n : Nat) (j : DmaJob) (l : List Nat) (u : State) (k : Nat), s.wf = true ∧ n < 16 ∧ s.running n = some j ∧ j.prog = true ∧ j.progOk = true ∧ j.pc + 16 ≤ j.len ∧ s.usable (j.src + j.pc) 16 ∧ s.memRead (j.src + j.pc) 16 = (some l, u) ∧ k = rdLe l 2 1 ∧ rdLe l 0 1 = 4 ∧ 1 ≤ k ∧ k ≤ 63 ∧ ((∀ m < 16, ∀ w, (s.chan m).wait = some w → w.1 ≠ k))) ∧
    (∃ (s : State) (n : Nat) (j : DmaJob) (l : List Nat) (u : State) (k : Nat) (m : Nat) (us : Nat), s.wf = true ∧ n < 16 ∧ s.running n = some j ∧ j.prog = true ∧ j.progOk = true ∧ j.pc + 16 ≤ j.len ∧ s.usable (j.src + j.pc) 16 ∧ s.memRead (j.src + j.pc) 16 = (some l, u) ∧ k = rdLe l 2 1 ∧ rdLe l 0 1 = 4 ∧ 1 ≤ k ∧ k ≤ 63 ∧ m < 16 ∧ m ≠ n ∧ (s.chan m).wait = some (k, us)) ∧
    (∃ (s : State) (n : Nat) (j : DmaJob) (l : List Nat) (u : State) (k : Nat), s.wf = true ∧ n < 16 ∧ s.running n = some j ∧ j.prog = true ∧ j.progOk = true ∧ j.pc + 16 ≤ j.len ∧ s.usable (j.src + j.pc) 16 ∧ s.memRead (j.src + j.pc) 16 = (some l, u) ∧ k = rdLe l 2 1 ∧ rdLe l 0 1 = 5) ∧
    (∃ (s : State) (n : Nat) (j : DmaJob) (l : List Nat) (u : State) (k : Nat) (c : Instr), s.wf = true ∧ n < 16 ∧ s.running n = some j ∧ j.prog = true ∧ j.progOk = true ∧ j.pc + 16 ≤ j.len ∧ s.usable (j.src + j.pc) 16 ∧ s.memRead (j.src + j.pc) 16 = (some l, u) ∧ k = rdLe l 2 1 ∧ (rdLe l 0 1 = 0 ∨ 5 < rdLe l 0 1) ∧ c ∈ [Instr.dmaMove n, .dmaLoop n, .dmaWait n, .dmaSignal n, .dmaEnd n]) :=
  ⟨⟨((dmJob 15 { dj 1 with len := 3 } z).bytesAt 65600 [9, 8, 7] : State), (15 : Nat), ({ dj 1 with len := 3 } : DmaJob), by decide +kernel⟩,
   ⟨(dmJob 15 { dj 1 with len := 0 } z : State), (15 : Nat), ({ dj 1 with len := 0 } : DmaJob), by decide +kernel⟩,
   ⟨(dmJob 15 { pj with len := 8 } z : State), (15 : Nat), ({ pj with len := 8 } : DmaJob), by decide +kernel⟩,
   ⟨(dop ([1, 0, 0, 0] ++ le 4 7 ++ le 4 256 ++ le 4 512) z : State), (15 : Nat), (pj : DmaJob), ([1, 0, 0, 0] ++ le 4 7 ++ le 4 256 ++ le 4 512 : List Nat), (dop ([1, 0, 0, 0] ++ le 4 7 ++ le 4 256 ++ le 4 512) z : State), (0 : Nat), by decide +kernel⟩,
   ⟨(fDma 15 (fun c => { c with job := some { pj with pc := 16 } }) ((dop [2] z).bytesAt 65616 ([2, 0, 3, 0] ++ le 4 5)) : State), (15 : Nat), ({ pj with pc := 16 } : DmaJob), ([2, 0, 3, 0] ++ le 4 5 ++ le 4 0 ++ le 4 0 : List Nat), (fDma 15 (fun c => { c with job := some { pj with pc := 16 } }) ((dop [2] z).bytesAt 65616 ([2, 0, 3, 0] ++ le 4 5)) : State), (3 : Nat), by decide +kernel⟩,
   ⟨(fDma 15 (fun c => { c with job := some { pj with pc := 16 } }) ((dop [2] z).bytesAt 65616 ([2, 0, 3, 0] ++ le 4 1)) : State), (15 : Nat), ({ pj with pc := 16 } : DmaJob), ([2, 0, 3, 0] ++ le 4 1 ++ le 4 0 ++ le 4 0 : List Nat), (fDma 15 (fun c => { c with job := some { pj with pc := 16 } }) ((dop [2] z).bytesAt 65616 ([2, 0, 3, 0] ++ le 4 1)) : State), (3 : Nat), by decide +kernel⟩,
   ⟨((dop [3, 0, 63] z).with [(DMA_EVT_PEND_LINES, 2 ^ 62)] : State), (15 : Nat), (pj : DmaJob), ([3, 0, 63] ++ List.replicate 13 0 : List Nat), ((dop [3, 0, 63] z).with [(DMA_EVT_PEND_LINES, 2 ^ 62)] : State), (63 : Nat), by decide +kernel⟩,
   ⟨(dop ([3, 0, 1, 0] ++ le 4 9) z : State), (15 : Nat), (pj : DmaJob), ([3, 0, 1, 0] ++ le 4 9 ++ List.replicate 8 0 : List Nat), (dop ([3, 0, 1, 0] ++ le 4 9) z : State), (1 : Nat), by decide +kernel⟩,
   ⟨(passS : State), (3 : Nat), (pj : DmaJob), ([3, 0, 1, 0] ++ le 4 9 ++ List.replicate 8 0 : List Nat), (passS : State), (1 : Nat), (15 : Nat), ((⟨1, 0, 7, 16⟩ : Passed) : Passed), by decide +kernel⟩,
   ⟨(dop [4, 0, 63] z : State), (15 : Nat), (pj : DmaJob), ([4, 0, 63] ++ List.replicate 13 0 : List Nat), (dop [4, 0, 63] z : State), (63 : Nat), by decide +kernel⟩,
   ⟨(fDma 2 (fun c => { c with wait := some (63, 0) }) (dop [4, 0, 63] z) : State), (15 : Nat), (pj : DmaJob), ([4, 0, 63] ++ List.replicate 13 0 : List Nat), (fDma 2 (fun c => { c with wait := some (63, 0) }) (dop [4, 0, 63] z) : State), (63 : Nat), (2 : Nat), (0 : Nat), by decide +kernel⟩,
   ⟨(dop [5] z : State), (15 : Nat), (pj : DmaJob), ([5] ++ List.replicate 15 0 : List Nat), (dop [5] z : State), (0 : Nat), by decide +kernel⟩,
   ⟨(dop [6] z : State), (15 : Nat), (pj : DmaJob), ([6] ++ List.replicate 15 0 : List Nat), (dop [6] z : State), (0 : Nat), (Instr.dmaEnd 15 : Instr), by decide +kernel⟩⟩

theorem witness_dma_completion :
    (∃ (s : State) (n : Nat) (j : DmaJob), s.wf = true ∧ n < 16 ∧ (s.chan n).job = some j ∧ s.usable (s.descAddr n j.index + 20) 4 ∧ s.awake = true ∧ s.chanState n = 1 ∧ j.done = true ∧ bits j.ctrl 8 8 = 0 ∧ bitAt j.ctrl 6 = 1) ∧
    (∃ (s : State) (n : Nat) (j : DmaJob), s.wf = true ∧ n < 16 ∧ (s.chan n).job = some j ∧ s.usable (s.descAddr n j.index + 20) 4 ∧ s.awake = true ∧ (s.chanState n ≠ 1 ∨ j.done = false)) ∧
    (∃ (s : State) (n : Nat) (j : DmaJob) (k : Nat) (us : Nat), s.wf = true ∧ n < 16 ∧ (s.chan n).job = some j ∧ s.usable (s.descAddr n j.index + 20) 4 ∧ s.awake = true ∧ (s.chan n).wait = some (k, us) ∧ us ≠ 0 ∧ (s.chan n).since + 1000 * us ≤ s.now) ∧
    (∃ (s : State) (n : Nat) (j : DmaJob), s.wf = true ∧ n < 16 ∧ (s.chan n).job = some j ∧ s.usable (s.descAddr n j.index + 20) 4 ∧ s.awake = true ∧ ((∀ k us, (s.chan n).wait = some (k, us) → us = 0 ∨ s.now < (s.chan n).since + 1000 * us))) :=
  ⟨⟨(dmJob 15 { dj 0x41 with done := true } z : State), (15 : Nat), ({ dj 0x41 with done := true } : DmaJob), by decide +kernel⟩,
   ⟨(dmJob 15 (dj 0x41) z : State), (15 : Nat), (dj 0x41 : DmaJob), by decide +kernel⟩,
   ⟨(State.at_ 5000 (fDma 15 (fun c => { c with wait := some (3, 5) }) (dmJob 15 (dj 0x21) z)) : State), (15 : Nat), (dj 0x21 : DmaJob), (3 : Nat), (5 : Nat), by decide +kernel⟩,
   ⟨(dmJob 15 (dj 0x21) z : State), (15 : Nat), (dj 0x21 : DmaJob), by decide +kernel, by decide +kernel, by decide +kernel, by decide +kernel, by decide +kernel, (fun _ _ h => nomatch h)⟩⟩

set_option maxRecDepth 100000 in
theorem witness_native_copy :
    (∃ (s : State) (c : Copy), s.wf = true ∧ c.ok = true ∧ c.srcFix = false ∧ c.dstFix = false ∧ ((∀ k, k < c.src + c.len + 64 → s.dramOn k = true)) ∧ ((∀ k, k < c.dst + c.len → s.dramOn k = true)) ∧ s.poison = [] ∧ c.src + c.len + 64 ≤ 2 ^ 62 ∧ c.dst + c.len ≤ 2 ^ 62 ∧ (s.hostReach = false ∨ (c.src + c.len + 64 ≤ 2 ^ 32 ∧ c.dst + c.len ≤ 2 ^ 32)) ∧ (c.src + c.len + 64 ≤ c.dst ∨ c.dst + c.len ≤ c.src / 64 * 64)) ∧
    (∃ (s : State) (c : Copy) (k : Nat), s.wf = true ∧ c.ok = true ∧ c.srcFix = false ∧ c.dstFix = false ∧ ((∀ k, k < c.src + c.len + 64 → s.dramOn k = true)) ∧ ((∀ k, k < c.dst + c.len → s.dramOn k = true)) ∧ s.poison = [] ∧ c.src + c.len + 64 ≤ 2 ^ 62 ∧ c.dst + c.len ≤ 2 ^ 62 ∧ (s.hostReach = false ∨ (c.src + c.len + 64 ≤ 2 ^ 32 ∧ c.dst + c.len ≤ 2 ^ 32)) ∧ (c.src + c.len + 64 ≤ c.dst ∨ c.dst + c.len ≤ c.src / 64 * 64)) :=
  ⟨⟨((mem z).bytesAt 0 [9, 8, 7] : State), ((⟨0, 256, 70, false, false, 0⟩ : Copy) : Copy), by decide +kernel⟩,
   ⟨((mem z).bytesAt 0 [9, 8, 7] : State), ((⟨0, 256, 70, false, false, 0⟩ : Copy) : Copy), (5 : Nat), by decide +kernel⟩⟩

theorem witness_engine_commands :
    (∃ (s : State) (a : Agent) (e : EngId) (n : Nat) (c : Instr), s.wf = true ∧ n = engNum e ∧ s.dieOff (n / 34) = true ∧ c ∈ [Instr.ceHalt a e, .ceResume a e, .ceLoad a e, .ceReset a e, .ceUnretire a e, .ceAdmit a e, .ceClrCounts a e, .ceIaRead a e .clean]) ∧
    (∃ (s : State) (e : EngId) (n : Nat), s.wf = true ∧ n = engNum e ∧ s.dieOff (n / 34) = false ∧ s.engState n = 2) ∧
    (∃ (s : State) (e : EngId) (n : Nat), s.wf = true ∧ n = engNum e ∧ s.dieOff (n / 34) = false ∧ s.engState n = 2) ∧
    (∃ (s : State) (e : EngId) (n : Nat), s.wf = true ∧ n = engNum e ∧ s.dieOff (n / 34) = false ∧ s.engState n ≠ 2) ∧
    (∃ (s : State) (e : EngId) (n : Nat), s.wf = true ∧ n = engNum e ∧ s.dieOff (n / 34) = false ∧ s.engState n = 4) ∧
    (∃ (s : State) (e : EngId) (n : Nat), s.wf = true ∧ n = engNum e ∧ s.dieOff (n / 34) = false ∧ s.engState n ≠ 4) ∧
    (∃ (s : State) (e : EngId) (n : Nat), s.wf = true ∧ n = engNum e ∧ s.dieOff (n / 34) = false ∧ (s.engState n = 0 ∨ s.engState n = 2 ∨ s.engState n = 4)) ∧
    (∃ (s : State) (e : EngId) (n : Nat), s.wf = true ∧ n = engNum e ∧ s.dieOff (n / 34) = false ∧ (s.engState n = 0 ∨ s.engState n = 2 ∨ s.engState n = 4)) ∧
    (∃ (s : State) (e : EngId) (n : Nat), s.wf = true ∧ n = engNum e ∧ s.dieOff (n / 34) = false ∧ s.engState n ≠ 6 ∧ s.beaconRuns = true) ∧
    (∃ (s : State) (e : EngId) (n : Nat), s.wf = true ∧ n = engNum e ∧ s.dieOff (n / 34) = false ∧ s.engState n ≠ 6 ∧ s.beaconRuns = false) ∧
    (∃ (s : State) (e : EngId) (n : Nat), s.wf = true ∧ n = engNum e ∧ s.dieOff (n / 34) = false ∧ s.engState n = 6) ∧
    (∃ (s : State) (e : EngId) (n : Nat), s.wf = true ∧ n = engNum e ∧ s.dieOff (n / 34) = false ∧ s.engState n = 6) ∧
    (∃ (s : State) (e : EngId) (n : Nat), s.wf = true ∧ n = engNum e ∧ s.dieOff (n / 34) = false ∧ (s.eng n).away = true) ∧
    (∃ (s : State) (e : EngId) (n : Nat), s.wf = true ∧ n = engNum e ∧ s.dieOff (n / 34) = false ∧ (s.eng n).away = false) ∧
    (∃ (s : State) (e : EngId) (n : Nat), s.wf = true ∧ n = engNum e ∧ s.dieOff (n / 34) = false) ∧
    (∃ (s : State) (e : EngId) (n : Nat) (w : Nat), s.wf = true ∧ n = engNum e ∧ s.dieOff (n / 34) = false ∧ s.iaHalted n = true ∧ s.get (CE_ENG_IA_SEL_SPACE n) = 1 ∧ s.get (CE_ENG_IA_ADDR_ADDR n) < 8192 ∧ aget (s.eng n).store (s.get (CE_ENG_IA_ADDR_ADDR n)) = some w) ∧
    (∃ (s : State) (e : EngId) (n : Nat) (v : Nat), s.wf = true ∧ n = engNum e ∧ s.dieOff (n / 34) = false ∧ s.iaHalted n = true ∧ s.get (CE_ENG_IA_SEL_SPACE n) = 0 ∧ s.get (CE_ENG_IA_ADDR_ADDR n) < 131072 ∧ aget (s.eng n).sram.read (s.get (CE_ENG_IA_ADDR_ADDR n) / 4) = some v) ∧
    (∃ (s : State) (e : EngId) (n : Nat), s.wf = true ∧ n = engNum e ∧ s.dieOff (n / 34) = false ∧ s.iaHalted n = false) :=
  ⟨⟨(z : State), (.host : Agent), (e0 : EngId), (0 : Nat), (Instr.ceAdmit .host e0 : Instr), by decide +kernel⟩,
   ⟨(st 0 2 (dies z) : State), (e0 : EngId), (0 : Nat), by decide +kernel⟩,
   ⟨(st 66 2 (dies z) : State), (eL : EngId), (66 : Nat), by decide +kernel⟩,
   ⟨(st 0 3 (dies z) : State), (e0 : EngId), (0 : Nat), by decide +kernel⟩,
   ⟨(State.at_ 7 (st 0 4 (dies z)) : State), (e0 : EngId), (0 : Nat), by decide +kernel⟩,
   ⟨(st 0 3 (dies z) : State), (e0 : EngId), (0 : Nat), by decide +kernel⟩,
   ⟨(st 0 4 (dies z) : State), (e0 : EngId), (0 : Nat), by decide +kernel⟩,
   ⟨(dies z : State), (e0 : EngId), (0 : Nat), by decide +kernel⟩,
   ⟨(run (st 0 3 (dies z)) : State), (e0 : EngId), (0 : Nat), by decide +kernel⟩,
   ⟨(st 0 3 (dies z) : State), (e0 : EngId), (0 : Nat), by decide +kernel⟩,
   ⟨(st 0 6 (dies z) : State), (e0 : EngId), (0 : Nat), by decide +kernel⟩,
   ⟨((st 66 6 (dies z)).with [(CE_ENG_FAULTS_ISOLATIONS 66, 3)] : State), (eL : EngId), (66 : Nat), by decide +kernel⟩,
   ⟨(fEng 0 (fun g => { g with away := true }) (dies z) : State), (e0 : EngId), (0 : Nat), by decide +kernel⟩,
   ⟨(st 0 3 (dies z) : State), (e0 : EngId), (0 : Nat), by decide +kernel⟩,
   ⟨((dies z).with [(CE_ENG_VCOUNT_CODED 0, 3)] : State), (e0 : EngId), (0 : Nat), by decide +kernel⟩,
   ⟨((fEng 0 (fun g => { g with store := [(8191, trapWord)] }) (st 0 4 (dies z))).with [(CE_ENG_IA_SEL_SPACE 0, 1), (CE_ENG_IA_ADDR_ADDR 0, 8191)] : State), (e0 : EngId), (0 : Nat), (trapWord : Nat), by decide +kernel⟩,
   ⟨((fEng 0 (fun g => { g with sram := { g.sram with read := [(1, 7)] } }) (st 0 4 (dies z))).with [(CE_ENG_IA_ADDR_ADDR 0, 4)] : State), (e0 : EngId), (0 : Nat), (7 : Nat), by decide +kernel⟩,
   ⟨(dies z : State), (e0 : EngId), (0 : Nat), by decide +kernel⟩⟩

theorem witness_engine_events :
    (∃ (s : State) (e : EngId) (n : Nat) (j : Job) (rest : List Job) (f : JobFaults), s.wf = true ∧ n = engNum e ∧ (s.eng n).jobs = j :: rest ∧ s.engState n = 3 ∧ (s.eng n).haltReq = false ∧ j.ok = true ∧ f.sram = .clean ∧ f.part = .clean ∧ (j.verify = false ∨ s.beaconRuns = true)) ∧
    (∃ (s : State) (e : EngId) (n : Nat) (j : Job) (rest : List Job) (f : JobFaults) (y : Nat) (h : Nat), s.wf = true ∧ n = engNum e ∧ (s.eng n).jobs = j :: rest ∧ s.engState n = 3 ∧ (s.eng n).haltReq = false ∧ j.ok = true ∧ f.sram = .clean ∧ f.part = .uncorrectable y h ∧ j.slot < 64) ∧
    (∃ (s : State) (e : EngId) (n : Nat) (j : Job) (rest : List Job), s.wf = true ∧ n = engNum e ∧ (s.eng n).jobs = j :: rest ∧ s.engState n = 3 ∧ (s.eng n).haltReq = false ∧ s.get (CE_RG_CTRL_RETIRE_LIMIT (n / 17)) = 0 ∧ j.ok = false) ∧
    (∃ (s : State) (e : EngId) (n : Nat) (j : Job) (rest : List Job) (f : JobFaults) (y : Nat) (h : Nat), s.wf = true ∧ n = engNum e ∧ (s.eng n).jobs = j :: rest ∧ s.engState n = 3 ∧ (s.eng n).haltReq = false ∧ s.get (CE_RG_CTRL_RETIRE_LIMIT (n / 17)) = 0 ∧ j.ok = true ∧ f.sram = .uncorrectable y h) ∧
    (∃ (s : State) (e : EngId) (n : Nat), s.wf = true ∧ n = engNum e ∧ ((s.eng n).jobs = [] ∨ s.engState n ≠ 3)) ∧
    (∃ (s : State) (e : EngId) (n : Nat) (u : State), s.wf = true ∧ n = engNum e ∧ s.runs n = true ∧ s.runMacro n = (.boundary, u) ∧ (s.eng n).haltReq = true ∧ s.engState n = 2 ∧ s.get FC_LEVEL_LEVEL ≠ 3 ∧ s.flag KPR_STATUS_HOLDUP = false) ∧
    (∃ (s : State) (e : EngId) (n : Nat) (u : State), s.wf = true ∧ n = engNum e ∧ s.runs n = true ∧ s.runMacro n = (.boundary, u) ∧ (s.eng n).haltReq = false ∧ (s.eng n).gateReq = true ∧ s.engState n = 2) ∧
    (∃ (s : State) (e : EngId) (n : Nat) (u : State), s.wf = true ∧ n = engNum e ∧ s.runs n = true ∧ s.runMacro n = (.boundary, u) ∧ (s.eng n).haltReq = false ∧ (s.eng n).gateReq = false) ∧
    (∃ (s : State) (e : EngId) (n : Nat) (u : State) (c : Nat) (x : Nat) (q : Nat), s.wf = true ∧ n = engNum e ∧ s.runs n = true ∧ s.runMacro n = (.check c x q, u) ∧ s.get (CE_RG_CTRL_RETIRE_LIMIT (n / 17)) = 0) ∧
    (∃ (s : State) (e : EngId) (n : Nat) (cause : Nat), s.wf = true ∧ n = engNum e ∧ s.runs n = true ∧ 1 ≤ cause ∧ cause ≤ 5 ∧ s.get (CE_RG_CTRL_RETIRE_LIMIT (n / 17)) = 0) ∧
    (∃ (s : State) (e : EngId) (n : Nat) (cause : Nat), s.wf = true ∧ n = engNum e ∧ s.runs n = true ∧ 1 ≤ cause ∧ cause ≤ 5 ∧ s.get (CE_RG_CTRL_RETIRE_LIMIT (n / 17)) = 0) ∧
    (∃ (s : State) (e : EngId) (n : Nat), s.wf = true ∧ n = engNum e ∧ s.runs n = false) ∧
    (∃ (s : State) (e : EngId) (n : Nat), s.wf = true ∧ n = engNum e ∧ (s.runs n = true ∨ s.engState n = 4) ∧ s.beaconRuns = true) ∧
    (∃ (s : State) (e : EngId) (n : Nat) (f : Nat) (ok : Bool), s.wf = true ∧ n = engNum e ∧ s.engState n = 1 ∧ (s.eng n).loadFrom = some f ∧ (s.load n ok).1 = 0) ∧
    (∃ (s : State) (e : EngId) (n : Nat) (f : Nat) (ok : Bool), s.wf = true ∧ n = engNum e ∧ s.engState n = 1 ∧ (s.eng n).loadFrom = some f ∧ (s.load n ok).1 = 0) ∧
    (∃ (s : State) (e : EngId) (n : Nat) (f : Nat) (ok : Bool), s.wf = true ∧ n = engNum e ∧ s.engState n = 1 ∧ (s.eng n).loadFrom = some f ∧ (s.load n ok).1 ≠ 0) ∧
    (∃ (s : State) (e : EngId) (n : Nat) (f : Nat) (ok : Bool), s.wf = true ∧ n = engNum e ∧ s.engState n = 1 ∧ (s.eng n).loadFrom = some f ∧ (s.load n ok).1 ≠ 0) ∧
    (∃ (s : State) (e : EngId) (n : Nat) (ok : Bool), s.wf = true ∧ n = engNum e ∧ s.engState n = 1 ∧ (s.eng n).loadFrom = none ∧ (s.load n ok).1 = 0) ∧
    (∃ (s : State) (e : EngId) (n : Nat), s.wf = true ∧ n = engNum e ∧ s.engState n = 1 ∧ (s.eng n).loadFrom = none ∧ s.get (CE_RG_CTRL_RETIRE_LIMIT (n / 17)) = 0) ∧
    (∃ (s : State) (e : EngId) (n : Nat), s.wf = true ∧ n = engNum e ∧ s.engState n = 0 ∧ (s.eng n).ungating = true ∧ s.get (CE_RG_CTRL_RETIRE_LIMIT (n / 17)) = 0) :=
  ⟨⟨(jb job0 z : State), (e0 : EngId), (0 : Nat), (job0 : Job), (([] : List Job) : List Job), (jf0 : JobFaults), by decide +kernel⟩,
   ⟨(jb job0 z : State), (e0 : EngId), (0 : Nat), (job0 : Job), (([] : List Job) : List Job), ({ jf0 with part := .uncorrectable 1 2 } : JobFaults), (1 : Nat), (2 : Nat), by decide +kernel⟩,
   ⟨(lim0 (jb { job0 with width := 127 } z) : State), (e0 : EngId), (0 : Nat), ({ job0 with width := 127 } : Job), (([] : List Job) : List Job), by decide +kernel⟩,
   ⟨(run (lim0 (jb job0 z)) : State), (e0 : EngId), (0 : Nat), (job0 : Job), (([] : List Job) : List Job), ({ jf0 with sram := .uncorrectable 1 2 } : JobFaults), (1 : Nat), (2 : Nat), by decide +kernel⟩,
   ⟨(st 0 3 (dies z) : State), (e0 : EngId), (0 : Nat), by decide +kernel⟩,
   ⟨(fEng 0 (fun g => { g with haltReq := true }) (st 0 2 (dies z)) : State), (e0 : EngId), (0 : Nat), (fEng 0 (fun g => { g with haltReq := true }) (st 0 2 (dies z)) : State), by decide +kernel⟩,
   ⟨(fEng 0 (fun g => { g with gateReq := true }) (st 0 2 (dies z)) : State), (e0 : EngId), (0 : Nat), (fEng 0 (fun g => { g with gateReq := true }) (st 0 2 (dies z)) : State), by decide +kernel⟩,
   ⟨(st 0 3 (dies z) : State), (e0 : EngId), (0 : Nat), (st 0 3 (dies z) : State), by decide +kernel⟩,
   ⟨(ucTrap : State), (e0 : EngId), (0 : Nat), ({ ucTrap with draws := 1 } : State), (2 : Nat), (0 : Nat), (0 : Nat), by decide +kernel⟩,
   ⟨(run (lim0 (jb job0 z)) : State), (e0 : EngId), (0 : Nat), (5 : Nat), by decide +kernel⟩,
   ⟨(lim0 (st 0 2 (dies z)) : State), (e0 : EngId), (0 : Nat), (1 : Nat), by decide +kernel⟩,
   ⟨(z : State), (e0 : EngId), (0 : Nat), by decide +kernel⟩,
   ⟨(run (st 0 3 (dies z)) : State), (e0 : EngId), (0 : Nat), by decide +kernel⟩,
   ⟨(fEng 0 (fun g => { g with loadFrom := some 0 }) (ucs 0 (st 0 1 (dies z))) : State), (e0 : EngId), (0 : Nat), (0 : Nat), (true : Bool), by decide +kernel⟩,
   ⟨(fEng 0 (fun g => { g with loadFrom := some 4 }) (ucs 0 (st 0 1 (dies z))) : State), (e0 : EngId), (0 : Nat), (4 : Nat), (true : Bool), by decide +kernel⟩,
   ⟨(fEng 0 (fun g => { g with loadFrom := some 4 }) (ucs 0 (st 0 1 (dies z))) : State), (e0 : EngId), (0 : Nat), (4 : Nat), (false : Bool), by decide +kernel⟩,
   ⟨(fEng 0 (fun g => { g with loadFrom := some 4 }) (st 0 1 (dies z)) : State), (e0 : EngId), (0 : Nat), (4 : Nat), (false : Bool), by decide +kernel⟩,
   ⟨(ucs 0 (st 0 1 (dies z)) : State), (e0 : EngId), (0 : Nat), (true : Bool), by decide +kernel⟩,
   ⟨(lim0 (ucs 0 (st 0 1 (dies z))) : State), (e0 : EngId), (0 : Nat), by decide +kernel⟩,
   ⟨(lim0 (fEng 0 (fun g => { g with ungating := true }) (st 0 0 (dies z))) : State), (e0 : EngId), (0 : Nat), by decide +kernel⟩⟩

set_option maxRecDepth 100000 in
theorem witness_ethernet_ports :
    (∃ (s : State) (p : Nat) (f : List Byte) (l : List Nat) (c : Nat), s.wf = true ∧ p < 2 ∧ l = toNats f ∧ c = s.ingressClass p l ∧ s.portOn p = false) ∧
    (∃ (s : State) (p : Nat) (f : List Byte) (l : List Nat) (c : Nat), s.wf = true ∧ p < 2 ∧ l = toNats f ∧ c = s.ingressClass p l ∧ s.portOn p = true ∧ fcsOk l = false) ∧
    (∃ (s : State) (p : Nat) (f : List Byte) (l : List Nat) (c : Nat), s.wf = true ∧ p < 2 ∧ l = toNats f ∧ c = s.ingressClass p l ∧ s.portOn p = true ∧ fcsOk l = true ∧ 1522 < l.length) ∧
    (∃ (s : State) (p : Nat) (f : List Byte) (l : List Nat) (c : Nat), s.wf = true ∧ p < 2 ∧ l = toNats f ∧ c = s.ingressClass p l ∧ s.portOn p = true ∧ fcsOk l = true ∧ l.length ≤ 1522 ∧ isPause l = true) ∧
    (∃ (s : State) (p : Nat) (f : List Byte) (l : List Nat) (c : Nat), s.wf = true ∧ p < 2 ∧ l = toNats f ∧ c = s.ingressClass p l ∧ s.portOn p = true ∧ fcsOk l = true ∧ l.length ≤ 1522 ∧ isPause l = false ∧ s.get (ETH_P_POL_RATE p c) ≠ 0 ∧ s.policeLevel p c < 8000 * l.length) ∧
    (∃ (s : State) (p : Nat) (f : List Byte) (l : List Nat) (c : Nat) (i : Nat) (b : Nat) (d : List Nat), s.wf = true ∧ p < 2 ∧ l = toNats f ∧ c = s.ingressClass p l ∧ s.portOn p = true ∧ fcsOk l = true ∧ l.length ≤ 1522 ∧ isPause l = false ∧ (s.get (ETH_P_POL_RATE p c) = 0 ∨ 8000 * l.length ≤ s.policeLevel p c) ∧ i = (s.port p).rxHead ∧ b = s.getAddr (ETH_P_RXR_BASE_ADDR p) + 16 * i ∧ s.usable b 16 ∧ (s.memRead b 16).1 = some d ∧ rdLe d 11 1 % 2 = 1 ∧ s.usable (rdLe d 0 8) (l.length - 4)) ∧
    (∃ (s : State) (p : Nat) (f : List Byte) (l : List Nat) (c : Nat) (i : Nat) (b : Nat) (d : List Nat), s.wf = true ∧ p < 2 ∧ l = toNats f ∧ c = s.ingressClass p l ∧ s.portOn p = true ∧ fcsOk l = true ∧ l.length ≤ 1522 ∧ isPause l = false ∧ (s.get (ETH_P_POL_RATE p c) = 0 ∨ 8000 * l.length ≤ s.policeLevel p c) ∧ i = (s.port p).rxHead ∧ b = s.getAddr (ETH_P_RXR_BASE_ADDR p) + 16 * i ∧ s.usable b 16 ∧ (s.memRead b 16).1 = some d ∧ rdLe d 11 1 % 2 = 0 ∧ isPtpEvent l = false) ∧
    (∃ (s : State) (p : Nat) (dir : Nat) (typ : Nat) (seq : Nat) (x : Nat) (rest : List (Nat × Nat × Nat × Nat)), s.wf = true ∧ p < 2 ∧ (s.port p).ts = (dir, typ, seq, x) :: rest) ∧
    (∃ (s : State) (p : Nat), s.wf = true ∧ p < 2 ∧ (s.port p).ts = []) ∧
    (∃ (s : State) (a : Agent) (p : Nat) (c : Instr), s.wf = true ∧ p < 2 ∧ (c = Instr.ethTxDescriptor p ∨ c = Instr.ethRingKickTx a p) ∧ (s.portOn p = false ∨ (s.port p).holds (s.port p).txHead = true)) ∧
    (∃ (s : State) (a : Agent) (p : Nat) (c : Instr) (i : Nat) (b : Nat) (d : List Nat), s.wf = true ∧ p < 2 ∧ (c = Instr.ethTxDescriptor p ∨ c = Instr.ethRingKickTx a p) ∧ s.portOn p = true ∧ i = (s.port p).txHead ∧ (s.port p).holds i = false ∧ b = s.getAddr (ETH_P_TXR_BASE_ADDR p) + 16 * i ∧ s.usable b 16 ∧ (s.memRead b 16).1 = some d ∧ rdLe d 11 1 % 2 = 0) ∧
    (∃ (s : State) (a : Agent) (p : Nat) (c : Instr) (i : Nat) (b : Nat) (d : List Nat) (x : List Nat) (f : EgressFrame), s.wf = true ∧ p < 2 ∧ (c = Instr.ethTxDescriptor p ∨ c = Instr.ethRingKickTx a p) ∧ s.portOn p = true ∧ i = (s.port p).txHead ∧ (s.port p).holds i = false ∧ b = s.getAddr (ETH_P_TXR_BASE_ADDR p) + 16 * i ∧ s.usable b 16 ∧ (s.memRead b 16).1 = some d ∧ rdLe d 11 1 % 2 = 1 ∧ s.usable (rdLe d 0 8) (rdLe d 8 2) ∧ (s.memRead (rdLe d 0 8) (rdLe d 8 2)).1 = some x ∧ f = ⟨rdLe d 10 1 % 32, s.flowClass p (rdLe d 10 1 % 32), x, rdLe d 8 2, some (i, bitAt (rdLe d 11 1) 1 == 1), none⟩ ∧ s.tooLong p f = false ∧ ((s.port p).queue.filter fun g => g.cls == f.cls).length < 128) ∧
    (∃ (s : State) (a : Agent) (p : Nat) (c : Instr) (i : Nat) (b : Nat) (d : List Nat) (x : List Nat) (f : EgressFrame) (st : Nat) (w : Fld), s.wf = true ∧ p < 2 ∧ (c = Instr.ethTxDescriptor p ∨ c = Instr.ethRingKickTx a p) ∧ s.portOn p = true ∧ i = (s.port p).txHead ∧ (s.port p).holds i = false ∧ b = s.getAddr (ETH_P_TXR_BASE_ADDR p) + 16 * i ∧ s.usable b 16 ∧ (s.memRead b 16).1 = some d ∧ rdLe d 11 1 % 2 = 1 ∧ s.usable (rdLe d 0 8) (rdLe d 8 2) ∧ (s.memRead (rdLe d 0 8) (rdLe d 8 2)).1 = some x ∧ f = ⟨rdLe d 10 1 % 32, s.flowClass p (rdLe d 10 1 % 32), x, rdLe d 8 2, some (i, bitAt (rdLe d 11 1) 1 == 1), none⟩ ∧ ((s.tooLong p f = true ∧ st = 1 ∧ w = ETH_P_DROP_TOO_LONG p) ∨ (s.tooLong p f = false ∧ 128 ≤ ((s.port p).queue.filter fun g => g.cls == f.cls).length ∧ st = 2 ∧ w = ETH_P_DROP_QFULL p))) ∧
    (∃ (s : State) (a : Agent) (p : Nat) (c : Instr) (i : Nat) (b : Nat) (d : List Nat) (x : List Nat) (f : EgressFrame) (st : Nat) (w : Fld), s.wf = true ∧ p < 2 ∧ (c = Instr.ethTxDescriptor p ∨ c = Instr.ethRingKickTx a p) ∧ s.portOn p = true ∧ i = (s.port p).txHead ∧ (s.port p).holds i = false ∧ b = s.getAddr (ETH_P_TXR_BASE_ADDR p) + 16 * i ∧ s.usable b 16 ∧ (s.memRead b 16).1 = some d ∧ rdLe d 11 1 % 2 = 1 ∧ s.usable (rdLe d 0 8) (rdLe d 8 2) ∧ (s.memRead (rdLe d 0 8) (rdLe d 8 2)).1 = some x ∧ f = ⟨rdLe d 10 1 % 32, s.flowClass p (rdLe d 10 1 % 32), x, rdLe d 8 2, some (i, bitAt (rdLe d 11 1) 1 == 1), none⟩ ∧ ((s.tooLong p f = true ∧ st = 1 ∧ w = ETH_P_DROP_TOO_LONG p) ∨ (s.tooLong p f = false ∧ 128 ≤ ((s.port p).queue.filter fun g => g.cls == f.cls).length ∧ st = 2 ∧ w = ETH_P_DROP_QFULL p))) ∧
    (∃ (s : State) (p : Nat), s.wf = true ∧ p < 2 ∧ (s.portOn p = false ∨ (s.port p).sending.isSome = true)) ∧
    (∃ (s : State) (p : Nat), s.wf = true ∧ p < 2 ∧ s.portOn p = true ∧ (s.port p).sending = none ∧ (∀ g ∈ (s.port p).queue, s.tooLong p g = false) ∧ s.nextClass p = none) ∧
    (∃ (s : State) (p : Nat) (f : EgressFrame), s.wf = true ∧ p < 2 ∧ s.portOn p = true ∧ (s.port p).sending = none ∧ (∀ g ∈ (s.port p).queue, s.tooLong p g = false) ∧ s.nextClass p = some f) ∧
    (∃ (s : State) (p : Nat) (f : EgressFrame), s.wf = true ∧ p < 2 ∧ s.portOn p = true ∧ (s.port p).sending = none ∧ (s.port p).queue = [f] ∧ f.cls < 8 ∧ s.tooLong p f = true ∧ f.desc = none ∧ f.packet = none) ∧
    (∃ (s : State) (p : Nat) (f : EgressFrame), s.wf = true ∧ p < 2 ∧ (s.port p).sending = some f ∧ f.desc = none) ∧
    (∃ (s : State) (p : Nat) (f : EgressFrame) (i : Nat) (ts : Bool) (k : Nat), s.wf = true ∧ p < 2 ∧ (s.port p).sending = some f ∧ f.desc = some (i, ts) ∧ k = s.getAddr (ETH_P_TXR_BASE_ADDR p) + 16 * i + 11 ∧ s.usable k 1) ∧
    (∃ (s : State) (p : Nat) (g : GateList), s.wf = true ∧ p < 2 ∧ (s.port p).oper = some g) ∧
    (∃ (s : State) (p : Nat), s.wf = true ∧ p < 2 ∧ (s.port p).oper = none) ∧
    (∃ (s : State) (p : Nat) (n : Nat) (cycle : Nat) (b : Nat), s.wf = true ∧ p < 2 ∧ n = s.get (ETH_P_GATE_LEN_COUNT p) ∧ cycle = s.get (ETH_P_GATE_CYCLE_NS p) ∧ b = s.get (ETH_P_GATE_BASE_NS p) ∧ 1 ≤ n ∧ n ≤ 64 ∧ 1000 ≤ cycle ∧ cycle ≤ 10 ^ 9) ∧
    (∃ (s : State) (p : Nat) (n : Nat) (cycle : Nat) (b : Nat), s.wf = true ∧ p < 2 ∧ n = s.get (ETH_P_GATE_LEN_COUNT p) ∧ cycle = s.get (ETH_P_GATE_CYCLE_NS p) ∧ b = s.get (ETH_P_GATE_BASE_NS p) ∧ 1 ≤ n ∧ n ≤ 64 ∧ 1000 ≤ cycle ∧ cycle ≤ 10 ^ 9) ∧
    (∃ (s : State) (p : Nat) (n : Nat) (cycle : Nat) (b : Nat), s.wf = true ∧ p < 2 ∧ n = s.get (ETH_P_GATE_LEN_COUNT p) ∧ cycle = s.get (ETH_P_GATE_CYCLE_NS p) ∧ b = s.get (ETH_P_GATE_BASE_NS p) ∧ (n = 0 ∨ 64 < n ∨ cycle < 1000 ∨ 10 ^ 9 < cycle)) ∧
    (∃ (s : State) (p : Nat) (g : GateList), s.wf = true ∧ p < 2 ∧ (s.port p).next = some g ∧ g.start ≤ s.dtcNs) ∧
    (∃ (s : State) (p : Nat), s.wf = true ∧ p < 2 ∧ ((∀ g, (s.port p).next = some g → s.dtcNs < g.start))) :=
  ⟨⟨(z : State), (1 : Nat), (ef : List Byte), ([1, 2] : List Nat), (0 : Nat), by decide +kernel⟩,
   ⟨(eth1 1 z : State), (1 : Nat), (ef : List Byte), ([1, 2] : List Nat), (0 : Nat), by decide +kernel⟩,
   ⟨(eth1 1 z : State), (1 : Nat), (ethF (List.replicate 1519 0) : List Byte), (toNats (ethF (List.replicate 1519 0)) : List Nat), (0 : Nat), by decide +kernel⟩,
   ⟨(eth1 1 z : State), (1 : Nat), (ethF pauseF : List Byte), (toNats (ethF pauseF) : List Nat), (0 : Nat), by decide +kernel⟩,
   ⟨((eth1 1 z).with [(ETH_P_POL_RATE 1 0, 1), (ETH_P_POL_BURST 1 0, 0)] : State), (1 : Nat), (ethF plainF : List Byte), (toNats (ethF plainF) : List Nat), (0 : Nat), by decide +kernel⟩,
   ⟨(ring 1 1 : State), (1 : Nat), (ethF plainF : List Byte), (toNats (ethF plainF) : List Nat), (0 : Nat), (0 : Nat), (rxB 1 : Nat), (txF 1 : List Nat), by decide +kernel⟩,
   ⟨(ring 1 0 : State), (1 : Nat), (ethF plainF : List Byte), (toNats (ethF plainF) : List Nat), (0 : Nat), (0 : Nat), (rxB 1 : Nat), (txF 0 : List Nat), by decide +kernel⟩,
   ⟨(fEth 1 (fun e => { e with ts := [(1, 15, 65535, 2 ^ 64 - 1)] }) z : State), (1 : Nat), (1 : Nat), (15 : Nat), (65535 : Nat), (2 ^ 64 - 1 : Nat), (([] : List (Nat × Nat × Nat × Nat)) : List (Nat × Nat × Nat × Nat)), by decide +kernel⟩,
   ⟨(z : State), (0 : Nat), by decide +kernel⟩,
   ⟨(z : State), (.mgc : Agent), (1 : Nat), (Instr.ethTxDescriptor 1 : Instr), by decide +kernel⟩,
   ⟨(ring 1 0 : State), (.mgc : Agent), (1 : Nat), (Instr.ethRingKickTx .mgc 1 : Instr), (0 : Nat), (rxB 1 : Nat), (txF 0 : List Nat), by decide +kernel⟩,
   ⟨(ring 1 3 : State), (.mgc : Agent), (1 : Nat), (Instr.ethTxDescriptor 1 : Instr), (0 : Nat), (rxB 1 : Nat), (txF 3 : List Nat), ([0, 0, 0, 0] : List Nat), ((⟨3, (eth1 1 z).flowClass 1 3, [0, 0, 0, 0], 4, some (0, true), none⟩ : EgressFrame) : EgressFrame), by decide +kernel⟩,
   ⟨(fEth 1 (fun e => { e with queue := List.replicate 128 { eg0 with cls := (eth1 1 z).flowClass 1 3 } }) (ring 1 3) : State), (.mgc : Agent), (1 : Nat), (Instr.ethTxDescriptor 1 : Instr), (0 : Nat), (rxB 1 : Nat), (txF 3 : List Nat), ([0, 0, 0, 0] : List Nat), ((⟨3, (eth1 1 z).flowClass 1 3, [0, 0, 0, 0], 4, some (0, true), none⟩ : EgressFrame) : EgressFrame), (2 : Nat), (ETH_P_DROP_QFULL 1 : Fld), by decide +kernel⟩,
   ⟨(fEth 1 (fun e => { e with oper := some ⟨[(255, 1), (0, 999)], 1000, 0⟩ }) ((ring 1 3).with [(ETH_P_CTRL_GATE_EN 1, 1)]) : State), (.mgc : Agent), (1 : Nat), (Instr.ethTxDescriptor 1 : Instr), (0 : Nat), (rxB 1 : Nat), (txF 3 : List Nat), ([0, 0, 0, 0] : List Nat), ((⟨3, (eth1 1 z).flowClass 1 3, [0, 0, 0, 0], 4, some (0, true), none⟩ : EgressFrame) : EgressFrame), (1 : Nat), (ETH_P_DROP_TOO_LONG 1 : Fld), by decide +kernel⟩,
   ⟨(z : State), (1 : Nat), by decide +kernel⟩,
   ⟨(eth1 1 z : State), (1 : Nat), by decide +kernel⟩,
   ⟨(fEth 1 (fun e => { e with queue := [eg0] }) (eth1 1 z) : State), (1 : Nat), (eg0 : EgressFrame), by decide +kernel⟩,
   ⟨(fEth 1 (fun e => { e with queue := [{ eg0 with len := 1519 }] }) (eth1 1 z) : State), (1 : Nat), ({ eg0 with len := 1519 } : EgressFrame), by decide +kernel⟩,
   ⟨(fEth 1 (fun e => { e with sending := some eg0 }) (eth1 1 z) : State), (1 : Nat), (eg0 : EgressFrame), by decide +kernel⟩,
   ⟨(fEth 1 (fun e => { e with sending := some { eg0 with desc := some (3, true) } }) (eth1 1 z) : State), (1 : Nat), ({ eg0 with desc := some (3, true) } : EgressFrame), (3 : Nat), (true : Bool), (rxB 1 + 48 + 11 : Nat), by decide +kernel⟩,
   ⟨(fEth 1 (fun e => { e with oper := some gl0 }) (eth1 1 z) : State), (1 : Nat), (gl0 : GateList), by decide +kernel⟩,
   ⟨(z : State), (1 : Nat), by decide +kernel⟩,
   ⟨((eth1 1 z).with [(ETH_P_GATE_LEN_COUNT 1, 64), (ETH_P_GATE_CYCLE_NS 1, 1000)] : State), (1 : Nat), (64 : Nat), (1000 : Nat), (0 : Nat), by decide +kernel⟩,
   ⟨((eth1 1 z).with [(ETH_P_GATE_LEN_COUNT 1, 1), (ETH_P_GATE_CYCLE_NS 1, 10 ^ 9), (ETH_P_GATE_BASE_NS 1, 1000)] : State), (1 : Nat), (1 : Nat), (10 ^ 9 : Nat), (1000 : Nat), by decide +kernel⟩,
   ⟨(z.with [(ETH_P_GATE_LEN_COUNT 0, 0)] : State), (0 : Nat), (0 : Nat), ((z.with [(ETH_P_GATE_LEN_COUNT 0, 0)]).get (ETH_P_GATE_CYCLE_NS 0) : Nat), (0 : Nat), by decide +kernel⟩,
   ⟨(fEth 1 (fun e => { e with next := some gl0 }) ((eth1 1 z).with [(ETH_P_GATE_STAT_PENDING 1, 1)]) : State), (1 : Nat), (gl0 : GateList), by decide +kernel⟩,
   ⟨(z : State), (0 : Nat), by decide +kernel⟩⟩

theorem witness_senders_and_ptp :
    (∃ (s : State) (k : Nat) (p : Nat), s.wf = true ∧ k < 2 ∧ p = s.get (ETH_SND_CTRL_PORT k) ∧ s.flag (ETH_SND_CTRL_EN k) = false ∧ 10 * (((List.range 2).filter fun j => j != k && s.flag (ETH_SND_CTRL_EN j) && s.get (ETH_SND_CTRL_PORT j) == p).length + 1) * s.framePackets * 10288 * s.outRate.1 ≤ 9 * s.portRate p * 10 ^ 9 * s.outRate.2 ∧ s.proxy.senders.length = 2) ∧
    (∃ (s : State) (k : Nat) (p : Nat), s.wf = true ∧ k < 2 ∧ p = s.get (ETH_SND_CTRL_PORT k) ∧ s.flag (ETH_SND_CTRL_EN k) = false ∧ 10 * (((List.range 2).filter fun j => j != k && s.flag (ETH_SND_CTRL_EN j) && s.get (ETH_SND_CTRL_PORT j) == p).length + 1) * s.framePackets * 10288 * s.outRate.1 ≤ 9 * s.portRate p * 10 ^ 9 * s.outRate.2 ∧ s.proxy.senders.length = 2) ∧
    (∃ (s : State) (k : Nat) (p : Nat), s.wf = true ∧ k < 2 ∧ p = s.get (ETH_SND_CTRL_PORT k) ∧ s.flag (ETH_SND_CTRL_EN k) = false ∧ 9 * s.portRate p * 10 ^ 9 * s.outRate.2 < 10 * (((List.range 2).filter fun j => j != k && s.flag (ETH_SND_CTRL_EN j) && s.get (ETH_SND_CTRL_PORT j) == p).length + 1) * s.framePackets * 10288 * s.outRate.1) ∧
    (∃ (s : State) (k : Nat), s.wf = true ∧ k < 2 ∧ (s.flag (ETH_SND_CTRL_EN k) = false ∨ s.proxyOn = false)) ∧
    (∃ (s : State) (k : Nat) (x : Sender) (kk : Nat) (tk : Nat) (pic : ProxyPicture) (p : Nat), s.wf = true ∧ k < 2 ∧ x = s.proxy.senders.getD k Sender.reset ∧ s.proxy.senders.length = 2 ∧ s.flag (ETH_SND_CTRL_EN k) = true ∧ s.proxyOn = true ∧ s.proxy.lastTick = some kk ∧ tk = s.proxyTime kk ∧ tk + s.get (ETH_SND_OFFSET_NS k) ≤ s.dtcNs ∧ x.frame = some (kk, tk) ∧ x.pic = some pic ∧ x.next < s.framePackets ∧ 9 * x.next * 10 ^ 9 * s.outRate.2 ≤ 10 * s.framePackets * s.outRate.1 * (s.dtcNs - (tk + s.get (ETH_SND_OFFSET_NS k))) ∧ p = s.get (ETH_SND_CTRL_PORT k) ∧ s.flag (ETH_P_CTRL_GATE_EN p) = false ∧ (∀ id, (s.senderFrame k x.next id x pic tk).length ≤ 1518) ∧ ((s.port p).queue.filter fun f => f.cls == s.flowClass p k).length < 128) ∧
    (∃ (s : State) (k : Nat) (x : Sender) (kk : Nat) (tk : Nat), s.wf = true ∧ k < 2 ∧ x = s.proxy.senders.getD k Sender.reset ∧ s.proxy.senders.length = 2 ∧ s.flag (ETH_SND_CTRL_EN k) = true ∧ s.proxyOn = true ∧ s.proxy.lastTick = some kk ∧ tk = s.proxyTime kk ∧ tk + s.get (ETH_SND_OFFSET_NS k) ≤ s.dtcNs ∧ x.frame = some (kk, tk) ∧ (s.framePackets ≤ x.next ∨ 10 * s.framePackets * s.outRate.1 * (s.dtcNs - (tk + s.get (ETH_SND_OFFSET_NS k))) < 9 * x.next * 10 ^ 9 * s.outRate.2)) ∧
    (∃ (s : State) (k : Nat) (x : Sender) (kk : Nat) (tk : Nat), s.wf = true ∧ k < 2 ∧ x = s.proxy.senders.getD k Sender.reset ∧ s.proxy.senders.length = 2 ∧ s.flag (ETH_SND_CTRL_EN k) = true ∧ s.proxyOn = true ∧ s.proxy.lastTick = some kk ∧ tk = s.proxyTime kk ∧ tk + s.get (ETH_SND_OFFSET_NS k) ≤ s.dtcNs ∧ s.proxy.sent = none ∧ x.frame ≠ some (kk, tk)) ∧
    (∃ (s : State) (k : Nat), s.wf = true ∧ k < 2 ∧ s.mgc.up = false) ∧
    (∃ (s : State) (k : Nat) (offset : Int), s.wf = true ∧ k < 2 ∧ s.mgc.up = true ∧ s.ref = 1 ∧ offset.natAbs < 100) ∧
    (∃ (s : State) (k : Nat) (offset : Int), s.wf = true ∧ k < 2 ∧ s.mgc.up = true ∧ 1000 < offset.natAbs ∧ (offset.natAbs ≤ 1000000 ∨ s.clipOpen = true)) ∧
    (∃ (s : State) (k : Nat) (offset : Int), s.wf = true ∧ k < 2 ∧ s.mgc.up = true ∧ s.clipOpen = false ∧ 1000000 < offset.natAbs) ∧
    (∃ (s : State) (k : Nat) (m : Nat × Nat × Nat), s.wf = true ∧ k < 2 ∧ bestMaster s.ptp.masters = some m) ∧
    (∃ (s : State) (k : Nat), s.wf = true ∧ k < 2 ∧ bestMaster s.ptp.masters = none) :=
  ⟨⟨(z : State), (0 : Nat), (0 : Nat), by decide +kernel⟩,
   ⟨(z.with [(ETH_SND_CTRL_PORT 1, 1)] : State), (1 : Nat), (1 : Nat), by decide +kernel⟩,
   ⟨(z.with [(ETH_SND_CTRL_PORT 1, 1), (ETH_P_CTRL_SPEED 1, 1), (PXP_CTRL_OUT_FMT, 1), (PXP_CTRL_OUT_RATE, 7)] : State), (1 : Nat), (1 : Nat), by decide +kernel⟩,
   ⟨(z : State), (0 : Nat), by decide +kernel⟩,
   ⟨(sndS z : State), (0 : Nat), (snd0 : Sender), (0 : Nat), (0 : Nat), ((⟨5, 6, 1920, 1080, []⟩ : ProxyPicture) : ProxyPicture), (0 : Nat), by decide +kernel, by decide +kernel, by decide +kernel, by decide +kernel, by decide +kernel, by decide +kernel, by decide +kernel, by decide +kernel, by decide +kernel, by decide +kernel, by decide +kernel, by decide +kernel, by decide +kernel, by decide +kernel, by decide +kernel, (fun id => by rw [senderFrame_id]; decide +kernel), by decide +kernel⟩,
   ⟨(fPxy (fun x => { x with senders := [{ snd0 with next := 100000 }, Sender.reset] }) (sndS z) : State), (0 : Nat), ({ snd0 with next := 100000 } : Sender), (0 : Nat), (0 : Nat), by decide +kernel⟩,
   ⟨(fPxy (fun x => { x with lastTick := some 0, senders := [Sender.reset, Sender.reset] }) (sndS z) : State), (0 : Nat), (Sender.reset : Sender), (0 : Nat), (0 : Nat), by decide +kernel⟩,
   ⟨(z : State), (0 : Nat), by decide +kernel⟩,
   ⟨((mgc z).with [(TB_CTRL_REF, 1)] : State), (0 : Nat), ((-99 : Int) : Int), by decide +kernel⟩,
   ⟨(mgc z : State), (0 : Nat), ((-1000000 : Int) : Int), by decide +kernel⟩,
   ⟨(mgc z : State), (0 : Nat), ((1000001 : Int) : Int), by decide +kernel⟩,
   ⟨(fPtp (fun x => { x with masters := [(1, 7, 4), (0, 8, 3)] }) (mgc z) : State), (0 : Nat), ((0, 8, 3) : Nat × Nat × Nat), by decide +kernel⟩,
   ⟨(z : State), (0 : Nat), by decide +kernel⟩⟩

theorem witness_frame_allocator :
    (∃ (s : State) (f : Frame) (t0 : Nat) (h : List (Nat × Nat)) (fixed : Nat) (lost : List (Nat × Nat)) (d : Decision), s.wf = true ∧ s.deciding = some f ∧ s.readoutEnd f = some t0 ∧ s.allocates = true ∧ f.complete = true ∧ h = s.merged f ∧ f.choose h (f.recBytes + fixedFrame f.info (s.metasOf f.info.epoch)) = (fixed, lost, d) ∧ s.waiting < 4) ∧
    (∃ (s : State) (f : Frame) (t0 : Nat), s.wf = true ∧ s.deciding = some f ∧ s.readoutEnd f = some t0 ∧ s.allocates = true ∧ f.complete = false ∧ t0 + 230000 ≤ s.now) ∧
    (∃ (s : State), s.wf = true ∧ (s.role = 2 ∨ s.flag FAL_CTRL_EN = false ∨ s.deciding = none)) :=
  ⟨⟨({ frs [f1] (z.with [(FAL_CTRL_EN, 1)]) with regions := [{ Region.reset with banks := [some ⟨5, [(3, 9)]⟩, none] }, Region.reset, Region.reset, Region.reset] } : State), (f1 : Frame), (3 : Nat), ([(3, 9)] : List (Nat × Nat)), ((f1.choose [(3, 9)] (f1.recBytes + fixedFrame f1.info (z.metasOf f1.info.epoch))).1 : Nat), ((f1.choose [(3, 9)] (f1.recBytes + fixedFrame f1.info (z.metasOf f1.info.epoch))).2.1 : List (Nat × Nat)), ((f1.choose [(3, 9)] (f1.recBytes + fixedFrame f1.info (z.metasOf f1.info.epoch))).2.2 : Decision), by decide +kernel⟩,
   ⟨(State.at_ 230003 (frs [{ f1 with queued := [0] }] (z.with [(FAL_CTRL_EN, 1)])) : State), ({ f1 with queued := [0] } : Frame), (3 : Nat), by decide +kernel⟩,
   ⟨(z.with [(FAL_COUNTS_TIMEOUT, 4)] : State), by decide +kernel⟩⟩

theorem witness_packer :
    (∃ (s : State) (f : Frame) (fs : List Frame) (reason : Nat), s.wf = true ∧ s.frames = f :: fs ∧ f.started = false ∧ s.packs = true ∧ s.accepts = true ∧ f.drop = some reason) ∧
    (∃ (s : State) (f : Frame) (fs : List Frame) (reason : Nat), s.wf = true ∧ s.frames = f :: fs ∧ f.started = false ∧ s.packs = true ∧ s.accepts = true ∧ f.drop = some reason) ∧
    (∃ (s : State) (f : Frame) (fs : List Frame), s.wf = true ∧ s.frames = f :: fs ∧ f.started = false ∧ s.packs = true ∧ s.accepts = true ∧ f.drop = none ∧ f.decides = true ∧ f.decision.isSome = true) ∧
    (∃ (s : State) (f : Frame) (fs : List Frame), s.wf = true ∧ s.frames = f :: fs ∧ f.started = true ∧ s.packs = true ∧ f.ended = false ∧ s.accepts = true ∧ f.row < f.info.rows ∧ (State.takeRow f f.row (List.range f.info.cols.length) s).1.isSome = true) ∧
    (∃ (s : State) (f : Frame) (fs : List Frame), s.wf = true ∧ s.frames = f :: fs ∧ (f.started = false ∨ s.packs = false ∨ f.ended = true ∨ s.accepts = false)) ∧
    (∃ (s : State) (f : Frame) (fs : List Frame), s.wf = true ∧ s.frames = f :: fs ∧ f.started = true ∧ f.ended = true ∧ s.packs = true ∧ s.clip.stopReq = false ∧ (s.endUnit f).mag.closing = none) :=
  ⟨⟨(frs [{ f1 with drop := some 2 }] (z.with [(PKR_CTRL_EN, 1), (MGH_STAGE_SIZE_BYTES, 1000)]) : State), ({ f1 with drop := some 2 } : Frame), (([] : List Frame) : List Frame), (2 : Nat), by decide +kernel⟩,
   ⟨(frs [{ f1 with drop := some 2 }, { f1 with info := { f1.info with epoch := 6 } }] (z.with [(PKR_CTRL_EN, 1), (MGH_STAGE_SIZE_BYTES, 1000)]) : State), ({ f1 with drop := some 2 } : Frame), ([{ f1 with info := { f1.info with epoch := 6 } }] : List Frame), (2 : Nat), by decide +kernel⟩,
   ⟨(frs [{ f1 with decision := some dec0 }] (z.with [(PKR_CTRL_EN, 1), (MGH_STAGE_SIZE_BYTES, 1000)]) : State), ({ f1 with decision := some dec0 } : Frame), (([] : List Frame) : List Frame), by decide +kernel⟩,
   ⟨(fQ 0 (fun o => { o with lanes := [tsL, Lane.reset] }) (frs [{ f1 with started := true, decision := some dec0 }] (z.with [(PKR_CTRL_EN, 1), (MGH_STAGE_SIZE_BYTES, 1000)])) : State), ({ f1 with started := true, decision := some dec0 } : Frame), (([] : List Frame) : List Frame), by decide +kernel⟩,
   ⟨(frs [f1] z : State), (f1 : Frame), (([] : List Frame) : List Frame), by decide +kernel⟩,
   ⟨(frs [{ f1 with started := true, ended := true }] (z.with [(PKR_CTRL_EN, 1)]) : State), ({ f1 with started := true, ended := true } : Frame), (([] : List Frame) : List Frame), by decide +kernel⟩⟩

theorem witness_fault_commands :
    (∃ (s : State), s.wf = true) ∧
    (∃ (s : State) (v : Word), s.wf = true ∧ 0xF0 ≤ v.toNat % 256 ∧ v.toNat / 256 % 4 ≠ 3) ∧
    (∃ (s : State) (v : Word), s.wf = true ∧ 0xF0 ≤ v.toNat % 256 ∧ v.toNat / 256 % 4 ≠ 3) ∧
    (∃ (s : State) (v : Word), s.wf = true ∧ (v.toNat % 256 < 0xF0 ∨ v.toNat / 256 % 4 = 3)) ∧
    (∃ (s : State) (v : Word), s.wf = true ∧ (v.toNat % 256 < 0xF0 ∨ v.toNat / 256 % 4 = 3)) ∧
    (∃ (s : State) (v : Word), s.wf = true ∧ (s.clipOpen = false ∨ v.toNat % 4 = 1)) ∧
    (∃ (s : State) (v : Word), s.wf = true ∧ (s.clipOpen = false ∨ v.toNat % 4 = 1)) ∧
    (∃ (s : State) (v : Word), s.wf = true ∧ s.clipOpen = true ∧ v.toNat % 4 ≠ 1) ∧
    (∃ (s : State), s.wf = true ∧ s.fc.basicDue = none) ∧
    (∃ (s : State) (x : Nat × Nat), s.wf = true ∧ s.fc.basicDue = some x ∧ x.1 ≤ 8) ∧
    (∃ (s : State), s.wf = true ∧ s.get FC_LEVEL_LEVEL = 2 ∧ true ∉ s.fc.deficits) ∧
    (∃ (s : State), s.wf = true ∧ (s.get FC_LEVEL_LEVEL ≠ 2 ∨ true ∈ s.fc.deficits)) ∧
    (∃ (s : State), s.wf = true ∧ (s.get FC_LEVEL_LEVEL ≠ 2 ∨ true ∈ s.fc.deficits)) :=
  ⟨⟨(run (mgc z) : State), by decide +kernel⟩,
   ⟨(z : State), (0x123401F0#32 : Word), by decide +kernel⟩,
   ⟨(z : State), (0xFFFF02FF#32 : Word), by decide +kernel⟩,
   ⟨(z : State), (0x000000EF#32 : Word), by decide +kernel⟩,
   ⟨(z : State), (0x000003FF#32 : Word), by decide +kernel⟩,
   ⟨(z : State), (3#32 : Word), by decide +kernel⟩,
   ⟨(fClip (fun c => { c with step := 3 }) z : State), (1#32 : Word), by decide +kernel⟩,
   ⟨(fClip (fun c => { c with step := 3 }) z : State), (2#32 : Word), by decide +kernel⟩,
   ⟨(z : State), by decide +kernel⟩,
   ⟨(fFc (fun c => { c with basicDue := some (8, 1) }) z : State), ((8, 1) : Nat × Nat), by decide +kernel⟩,
   ⟨(z.with [(FC_LEVEL_LEVEL, 2)] : State), by decide +kernel⟩,
   ⟨(z : State), by decide +kernel⟩,
   ⟨(fFc (fun c => { c with deficits := [true] }) (z.with [(FC_LEVEL_LEVEL, 2)]) : State), by decide +kernel⟩⟩

theorem witness_raising_a_fault :
    (∃ (s : State) (src : Nat) (given : Nat) (k : Nat), s.wf = true ∧ src < 256 ∧ s.severity src given < 4 ∧ swf (fun _ => 0) s.fc.lastSev = true ∧ (k < 0x480000 ∨ 0x4C0000 ≤ k)) ∧
    (∃ (s : State) (src : Nat) (given : Nat) (k : Nat), s.wf = true ∧ src < 256 ∧ s.severity src given < 4 ∧ swf (fun _ => 0) s.fc.lastSev = true ∧ (k < 0x480000 ∨ 0x4C0000 ≤ k)) ∧
    (∃ (s : State) (src : Nat) (given : Nat), s.wf = true ∧ src < 256 ∧ s.severity src given < 4 ∧ swf (fun _ => 0) s.fc.lastSev = true ∧ s.fc.log.length < 32) ∧
    (∃ (s : State) (src : Nat) (given : Nat), s.wf = true ∧ src < 256 ∧ s.severity src given < 4 ∧ swf (fun _ => 0) s.fc.lastSev = true ∧ s.fc.log.length < 32) ∧
    (∃ (s : State) (src : Nat) (given : Nat), s.wf = true ∧ src < 256 ∧ s.severity src given < 4 ∧ swf (fun _ => 0) s.fc.lastSev = true ∧ s.severity src given ≠ 3) ∧
    (∃ (s : State) (src : Nat) (given : Nat), s.wf = true ∧ src < 256 ∧ s.severity src given < 4 ∧ swf (fun _ => 0) s.fc.lastSev = true ∧ s.severity src given = 3) ∧
    (∃ (s : State) (src : Nat) (given : Nat), s.wf = true ∧ src < 256 ∧ s.severity src given < 4 ∧ swf (fun _ => 0) s.fc.lastSev = true ∧ s.severity src given = 2) :=
  ⟨⟨(z : State), (0xFF : Nat), (2 : Nat), (0 : Nat), by decide +kernel⟩,
   ⟨(run ((z.raise 0x01 3 4).raise 0x28 3 4) : State), (0x28 : Nat), (2 : Nat), (0x4C0000 : Nat), by decide +kernel⟩,
   ⟨(z : State), (0xFF : Nat), (2 : Nat), by decide +kernel⟩,
   ⟨(run ((z.raise 0x01 3 4).raise 0x28 3 4) : State), (0x28 : Nat), (2 : Nat), by decide +kernel⟩,
   ⟨(z : State), (0xF0 : Nat), (0 : Nat), by decide +kernel⟩,
   ⟨(z : State), (0xFF : Nat), (3 : Nat), by decide +kernel⟩,
   ⟨(z : State), (0xFF : Nat), (2 : Nat), by decide +kernel⟩⟩

theorem witness_gang_link :
    (∃ (s : State) (f : Nat) (l : Nat) (x : Int × Nat), s.wf = true ∧ s.role = 2 ∧ s.gang.up = true ∧ s.beaconRuns = true ∧ s.bu.lastEdge = some l ∧ s.gangError l (s.gangEdgeAt f) = x ∧ x.1.natAbs ≤ 32 * x.2) ∧
    (∃ (s : State) (f : Nat) (l : Nat) (x : Int × Nat), s.wf = true ∧ s.role = 2 ∧ s.gang.up = true ∧ s.beaconRuns = true ∧ s.bu.lastEdge = some l ∧ s.gangError l (s.gangEdgeAt f) = x ∧ 32 * x.2 < x.1.natAbs) ∧
    (∃ (s : State), s.wf = true ∧ s.role = 2 ∧ s.gang.up = true ∧ s.beaconRuns = true ∧ s.bu.lastEdge = none) ∧
    (∃ (s : State) (l : Nat), s.wf = true ∧ s.role = 2 ∧ s.gang.up = true ∧ s.beaconRuns = true ∧ s.bu.edgeDue = none ∧ s.bu.lastEdge = some l ∧ s.reachedPpW 1 (s.now8 - l) = true) ∧
    (∃ (s : State) (n : Nat), s.wf = true ∧ s.role ≠ 0 ∧ n ≤ 480) ∧
    (∃ (s : State) (n : Nat), s.wf = true ∧ 480 < n) ∧
    (∃ (s : State), s.wf = true ∧ s.role = 1 ∧ s.gang.up = true ∧ s.kpr.formed = none ∧ s.kpr.forming = none) ∧
    (∃ (s : State) (f : Frame), s.wf = true ∧ s.role = 1 ∧ s.gang.up = true ∧ (s.frames.find? fun f => f.info.ganged && f.followerEnd.isNone && !f.closed) = some f) ∧
    (∃ (s : State) (off : Nat), s.wf = true ∧ off < 0x2000000 ∧ s.awake = true ∧ s.role = 1 ∧ s.gang.up = true) ∧
    (∃ (s : State) (off : Nat), s.wf = true ∧ off < 0x2000000 ∧ s.awake = true ∧ s.role = 1 ∧ s.gang.up = false) :=
  ⟨⟨(fBu (fun b => { b with lastEdge := some 0 }) (gF (State.at_ (41666666 - 256) (run z))) : State), (5 : Nat), (0 : Nat), ((fBu (fun b => { b with lastEdge := some 0 }) (gF (State.at_ (41666666 - 256) (run z)))).gangError 0 ((gF (State.at_ (41666666 - 256) (run z))).gangEdgeAt 5) : Int × Nat), by decide +kernel⟩,
   ⟨(fBu (fun b => { b with lastEdge := some 0 }) (gF (run z)) : State), (5 : Nat), (0 : Nat), ((fBu (fun b => { b with lastEdge := some 0 }) (gF (run z))).gangError 0 ((gF (run z)).gangEdgeAt 5) : Int × Nat), by decide +kernel⟩,
   ⟨(gF (run z) : State), by decide +kernel⟩,
   ⟨(fBu (fun b => { b with lastEdge := some 0 }) (gF (State.at_ 41829428 (run z))) : State), (0 : Nat), by decide +kernel⟩,
   ⟨(z.with [(RSTC_STRAPS_GANG_ID, 2)] : State), (480 : Nat), by decide +kernel⟩,
   ⟨(gL z : State), (481 : Nat), by decide +kernel⟩,
   ⟨(gL z : State), by decide +kernel⟩,
   ⟨(frs [frame0 { info0 with ganged := true }] (gL (State.at_ 9 z)) : State), (frame0 { info0 with ganged := true } : Frame), by decide +kernel⟩,
   ⟨(gL z : State), (0x1FFFFFC : Nat), by decide +kernel⟩,
   ⟨(z.with [(RSTC_STRAPS_GANG_ID, 1)] : State), (0 : Nat), by decide +kernel⟩⟩

theorem witness_dictionary_access :
    (∃ (s : State) (h : Hpp) (i : Nat) (b : Nat) (op : Nat) (version : Nat) (c : Instr), s.wf = true ∧ c ∈ [Instr.hppRead h i b, .hppReadBlock h i b 0 64, .hppUnsupported h op version, .store h, .clipStart h] ∧ s.awake = false) ∧
    (∃ (s : State) (h : Hpp) (i : Nat) (b : Nat) (op : Nat) (version : Nat) (c : Instr), s.wf = true ∧ c ∈ [Instr.hppRead h i b, .hppReadBlock h i b 0 64, .hppUnsupported h op version, .store h, .clipStart h] ∧ s.awake = true ∧ h.carrier = .mailbox ∧ s.host = true ∧ s.role = 2) ∧
    (∃ (s : State) (h : Hpp) (i : Nat) (b : Nat) (op : Nat) (version : Nat) (c : Instr), s.wf = true ∧ c ∈ [Instr.hppRead h i b, .hppReadBlock h i b 0 64, .hppUnsupported h op version, .store h, .clipStart h] ∧ s.awake = true ∧ h.carrier = .mailbox ∧ s.host = true ∧ s.role ≠ 2 ∧ s.addressed h = true ∧ s.mgc.up = false ∧ (s.mgc.boot = 3 ∨ s.mgc.loader = 0)) ∧
    (∃ (s : State) (h : Hpp) (i : Nat) (b : Nat) (op : Nat) (version : Nat) (c : Instr) (k : KeptReply), s.wf = true ∧ c ∈ [Instr.hppRead h i b, .hppReadBlock h i b 0 64, .hppUnsupported h op version, .store h, .clipStart h] ∧ s.awake = true ∧ h.carrier = .mailbox ∧ s.host = true ∧ s.role ≠ 2 ∧ s.addressed h = true ∧ s.mgc.up = true ∧ s.kept h = some k) ∧
    (∃ (s : State) (h : Hpp) (i : Nat) (b : Nat) (e : DictEntry), s.wf = true ∧ s.hears h = true ∧ dictEntry (256 * (i % 65536) + b % 256) = some e ∧ (e.acc = .rw ∨ e.acc = .rws) ∧ (s.dictBytes e.key).length ≤ 1072) ∧
    (∃ (s : State) (h : Hpp) (i : Nat) (b : Nat) (e : DictEntry), s.wf = true ∧ s.hears h = true ∧ dictEntry (256 * (i % 65536) + b % 256) = some e ∧ (e.acc = .rw ∨ e.acc = .rws) ∧ (s.dictBytes e.key).length ≤ 1072) ∧
    (∃ (s : State) (h : Hpp) (i : Nat) (b : Nat) (e : DictEntry) (n : Nat), s.wf = true ∧ s.hears h = true ∧ dictEntry (256 * (i % 65536) + b % 256) = some e ∧ (e.acc = .rw ∨ e.acc = .rws) ∧ n ≤ 1024) ∧
    (∃ (s : State) (h : Hpp) (i : Nat) (b : Nat) (e : DictEntry), s.wf = true ∧ s.hears h = true ∧ dictEntry (256 * (i % 65536) + b % 256) = some e ∧ e.acc = .wo) ∧
    (∃ (s : State) (h : Hpp) (i : Nat) (b : Nat) (e : DictEntry), s.wf = true ∧ s.hears h = true ∧ dictEntry (256 * (i % 65536) + b % 256) = some e ∧ e.acc = .cmd ∧ e.key ≠ 0x118001 ∧ e.key ≠ 0x210001) ∧
    (∃ (s : State) (h : Hpp) (i : Nat) (b : Nat) (e : DictEntry), s.wf = true ∧ s.hears h = true ∧ dictEntry (256 * (i % 65536) + b % 256) = some e ∧ e.acc = .ro) ∧
    (∃ (s : State) (h : Hpp) (i : Nat) (b : Nat) (e : DictEntry) (typ : Nat) (v : List Byte), s.wf = true ∧ s.hears h = true ∧ dictEntry (256 * (i % 65536) + b % 256) = some e ∧ (e.acc = .rw ∨ e.acc = .rws) ∧ s.writeResult e typ (toNats v) = 0) ∧
    (∃ (s : State) (h : Hpp) (i : Nat) (b : Nat) (e : DictEntry) (typ : Nat) (v : List Byte), s.wf = true ∧ s.hears h = true ∧ dictEntry (256 * (i % 65536) + b % 256) = some e ∧ (e.acc = .rw ∨ e.acc = .rws) ∧ s.writeResult e typ (toNats v) = 0) ∧
    (∃ (s : State) (h : Hpp) (i : Nat) (b : Nat) (e : DictEntry) (typ : Nat) (v : List Byte), s.wf = true ∧ s.hears h = true ∧ dictEntry (256 * (i % 65536) + b % 256) = some e ∧ (e.acc = .rw ∨ e.acc = .rws) ∧ s.writeResult e typ (toNats v) = 0) ∧
    (∃ (s : State) (h : Hpp) (i : Nat) (b : Nat) (e : DictEntry) (typ : Nat) (v : List Byte), s.wf = true ∧ s.hears h = true ∧ dictEntry (256 * (i % 65536) + b % 256) = some e ∧ s.writeResult e typ (toNats v) ≠ 0) ∧
    (∃ (s : State) (h : Hpp) (i : Nat) (b : Nat) (e : DictEntry) (typ : Nat) (v : List Byte), s.wf = true ∧ s.hears h = true ∧ dictEntry (256 * (i % 65536) + b % 256) = some e ∧ (e.acc = .rw ∨ e.acc = .rws) ∧ blockResult e typ v.length = 0 ∧ s.writeResult e typ (toNats v) = 0 ∧ v.length ≤ 1024) ∧
    (∃ (s : State) (h : Hpp) (i : Nat) (b : Nat) (e : DictEntry) (typ : Nat) (total : Nat) (v : List Byte), s.wf = true ∧ s.hears h = true ∧ dictEntry (256 * (i % 65536) + b % 256) = some e ∧ isImage e.key = false ∧ blockResult e typ total = 0 ∧ v.length < total ∧ v.length ≤ 1024) ∧
    (∃ (s : State) (h : Hpp) (i : Nat) (b : Nat) (e : DictEntry) (typ : Nat) (o : Nat) (total : Nat) (v : List Byte), s.wf = true ∧ s.hears h = true ∧ dictEntry (256 * (i % 65536) + b % 256) = some e ∧ o ≠ 0 ∧ blockResult e typ total = 0 ∧ s.continues h e.key o total = none ∧ v.length ≤ 1024) ∧
    (∃ (s : State) (h : Hpp) (i : Nat) (b : Nat), s.wf = true ∧ s.hears h = true ∧ dictEntry (256 * (i % 65536) + b % 256) = none) ∧
    (∃ (s : State) (h : Hpp) (x : Nat × Nat) (v : List Nat), s.wf = true ∧ s.hears h = true ∧ (x, v) ∈ [((0x1000, 8), [s.role]), ((0x3000, 2), [s.get MGH_STATUS_SET_STATE]), ((0x5000, 1), [s.get FC_LEVEL_LEVEL]), ((0x5000, 5), le 8 s.dtcNs)]) ∧
    (∃ (s : State) (h : Hpp) (x : Nat × Nat) (v : List Nat), s.wf = true ∧ s.hears h = true ∧ (x, v) ∈ [((0x1000, 8), [s.role]), ((0x3000, 2), [s.get MGH_STATUS_SET_STATE]), ((0x5000, 1), [s.get FC_LEVEL_LEVEL]), ((0x5000, 5), le 8 s.dtcNs)]) ∧
    (∃ (s : State) (h : Hpp) (b : BlockSeq) (index : Nat) (sub : Nat), s.wf = true ∧ s.hears h = true ∧ s.sequence h.carrier h.peer (256 * index + sub) = some b ∧ b.last + 2 * 10 ^ 9 < s.now) ∧
    (∃ (s : State) (h : Hpp) (index : Nat) (sub : Nat), s.wf = true ∧ s.hears h = true ∧ ((∀ b, s.sequence h.carrier h.peer (256 * index + sub) = some b → s.now ≤ b.last + 2 * 10 ^ 9))) :=
  ⟨⟨(fKpr (fun k => { k with mode := .off }) z : State), (hM : Hpp), (0x1100 : Nat), (1 : Nat), (9 : Nat), (3 : Nat), (Instr.store hM : Instr), by decide +kernel⟩,
   ⟨((hst z).with [(RSTC_STRAPS_GANG_ID, 2)] : State), (hM : Hpp), (0x1100 : Nat), (1 : Nat), (9 : Nat), (3 : Nat), (Instr.store hM : Instr), by decide +kernel⟩,
   ⟨(hst z : State), (hM : Hpp), (0x1100 : Nat), (1 : Nat), (9 : Nat), (3 : Nat), (Instr.hppRead hM 0x1100 1 : Instr), by decide +kernel⟩,
   ⟨(fHpp (fun x => { x with replies := [krep] }) (host z) : State), (hM : Hpp), (0x1100 : Nat), (1 : Nat), (9 : Nat), (3 : Nat), (Instr.hppRead hM 0x1100 1 : Instr), (krep : KeptReply), by decide +kernel⟩,
   ⟨(host z : State), (hM : Hpp), (0x1100 : Nat), (1 : Nat), ((dictEntry 0x110001).getD dflt : DictEntry), by decide +kernel⟩,
   ⟨(udp z : State), (hU : Hpp), (0x1100 : Nat), (1 : Nat), ((dictEntry 0x110001).getD dflt : DictEntry), by decide +kernel⟩,
   ⟨(host z : State), (hM : Hpp), (0x1100 : Nat), (6 : Nat), ((dictEntry 0x110006).getD dflt : DictEntry), (1024 : Nat), by decide +kernel⟩,
   ⟨(host z : State), (hM : Hpp), (0x5010 : Nat), (1 : Nat), ((dictEntry 0x501001).getD dflt : DictEntry), by decide +kernel⟩,
   ⟨(host z : State), (hM : Hpp), (0x5010 : Nat), (3 : Nat), ((dictEntry 0x501003).getD dflt : DictEntry), by decide +kernel⟩,
   ⟨(host z : State), (hM : Hpp), (0x5000 : Nat), (1 : Nat), ((dictEntry 0x500001).getD dflt : DictEntry), by decide +kernel⟩,
   ⟨(udp z : State), (hU : Hpp), (0x1100 : Nat), (1 : Nat), ((dictEntry 0x110001).getD dflt : DictEntry), (1 : Nat), ([1#8] : List Byte), by decide +kernel⟩,
   ⟨(canS 0 (mgc z) : State), (hC : Hpp), (0x1100 : Nat), (1 : Nat), ((dictEntry 0x110001).getD dflt : DictEntry), (1 : Nat), ([2#8] : List Byte), by decide +kernel⟩,
   ⟨(canS 0 (mgc z) : State), (hC : Hpp), (0x1100 : Nat), (5 : Nat), ((dictEntry 0x110005).getD dflt : DictEntry), (1 : Nat), ([0#8] : List Byte), by decide +kernel⟩,
   ⟨(host z : State), (hM : Hpp), (0x1100 : Nat), (1 : Nat), ((dictEntry 0x110001).getD dflt : DictEntry), (1 : Nat), ([127#8] : List Byte), by decide +kernel⟩,
   ⟨(host z : State), (hM : Hpp), (0x1100 : Nat), (1 : Nat), ((dictEntry 0x110001).getD dflt : DictEntry), (1 : Nat), ([126#8] : List Byte), by decide +kernel⟩,
   ⟨(host z : State), (hM : Hpp), (0x1100 : Nat), (6 : Nat), ((dictEntry 0x110006).getD dflt : DictEntry), (((dictEntry 0x110006).getD dflt).typ : Nat), (2 : Nat), ([126#8] : List Byte), by decide +kernel⟩,
   ⟨(host z : State), (hM : Hpp), (0x1100 : Nat), (6 : Nat), ((dictEntry 0x110006).getD dflt : DictEntry), (((dictEntry 0x110006).getD dflt).typ : Nat), (1 : Nat), (2 : Nat), ([126#8] : List Byte), by decide +kernel⟩,
   ⟨(host z : State), (hM : Hpp), (0x9999 : Nat), (6 : Nat), by decide +kernel⟩,
   ⟨(host z : State), (hM : Hpp), ((0x1000, 8) : Nat × Nat), ([0] : List Nat), by decide +kernel⟩,
   ⟨(host z : State), (hM : Hpp), ((0x5000, 5) : Nat × Nat), (le 8 0 : List Nat), by decide +kernel⟩,
   ⟨(State.at_ 2000000001 (fHpp (fun h => { h with blocks := [seq0] }) (host z)) : State), (hM : Hpp), (seq0 : BlockSeq), (0x5010 : Nat), (1 : Nat), by decide +kernel⟩,
   ⟨(host z : State), (hM : Hpp), (0x5010 : Nat), (1 : Nat), by decide +kernel⟩⟩

theorem witness_clip_and_device_commands :
    (∃ (s : State) (h : Hpp), s.wf = true ∧ s.hears h = true ∧ (s.clipReads = 0 ∨ s.clipReads = 3)) ∧
    (∃ (s : State) (h : Hpp), s.wf = true ∧ s.hears h = true ∧ (s.clipReads = 1 ∨ s.clipReads = 2 ∨ s.clipReads = 4)) ∧
    (∃ (s : State) (h : Hpp), s.wf = true ∧ s.hears h = true ∧ s.clipReads ≠ 4 ∧ s.clip.stopReq = false ∧ s.mag.clip.isSome = true ∧ s.frames ≠ []) ∧
    (∃ (s : State) (h : Hpp), s.wf = true ∧ s.hears h = true ∧ s.clipReads ≠ 4 ∧ s.clip.stopReq = false ∧ s.mag.clip = none ∧ s.clip.step ≠ 0) ∧
    (∃ (s : State) (h : Hpp), s.wf = true ∧ s.hears h = true ∧ (s.clipReads = 4 ∨ s.clip.stopReq = true)) ∧
    (∃ (s : State) (h : Hpp), s.wf = true ∧ s.hears h = true ∧ s.clip.step = 0 ∧ s.mag.clip = none) ∧
    (∃ (s : State) (h : Hpp), s.wf = true ∧ s.hears h = true ∧ s.clipOpen = false ∧ s.hpp.job = none) ∧
    (∃ (s : State) (h : Hpp), s.wf = true ∧ s.hears h = true ∧ (s.clipOpen = true ∨ s.hpp.job.isSome = true)) ∧
    (∃ (s : State) (h : Hpp) (j : DecodeJob), s.wf = true ∧ s.hears h = true ∧ s.hpp.job = some j) ∧
    (∃ (s : State) (h : Hpp) (arg : Word), s.wf = true ∧ s.hears h = true ∧ arg.toNat % 16 = 1 ∧ s.clipOpen = false ∧ s.hpp.warmAt = none) ∧
    (∃ (s : State) (h : Hpp) (arg : Word), s.wf = true ∧ s.hears h = true ∧ arg.toNat % 16 = 1 ∧ s.clipOpen = true ∧ bitAt arg.toNat 31 = 0) ∧
    (∃ (s : State) (h : Hpp) (arg : Word), s.wf = true ∧ s.hears h = true ∧ arg.toNat % 16 = 1 ∧ s.clipOpen = true ∧ bitAt arg.toNat 31 = 1) ∧
    (∃ (s : State) (h : Hpp) (arg : Word), s.wf = true ∧ s.hears h = true ∧ arg.toNat % 16 = 2 ∧ s.beaconRuns = true) ∧
    (∃ (s : State) (h : Hpp) (arg : Word), s.wf = true ∧ s.hears h = true ∧ arg.toNat % 16 = 3 ∧ s.engState (resetEngine arg.toNat) ≠ 6 ∧ s.beaconRuns = true) ∧
    (∃ (s : State) (h : Hpp) (arg : Word), s.wf = true ∧ s.hears h = true ∧ arg.toNat % 16 = 3 ∧ s.engState (resetEngine arg.toNat) ≠ 6 ∧ s.beaconRuns = true) ∧
    (∃ (s : State) (h : Hpp) (arg : Word), s.wf = true ∧ s.hears h = true ∧ arg.toNat % 16 ≠ 1 ∧ arg.toNat % 16 ≠ 2 ∧ arg.toNat % 16 ≠ 3) :=
  ⟨⟨(host z : State), (hM : Hpp), by decide +kernel⟩,
   ⟨(fHpp (fun h => { h with clipState := 1 }) (host z) : State), (hM : Hpp), by decide +kernel⟩,
   ⟨(frs [f1] (fMag (fun m => { m with clip := some cat0 }) (host z)) : State), (hM : Hpp), by decide +kernel⟩,
   ⟨(fClip (fun c => { c with step := 3 }) (host z) : State), (hM : Hpp), by decide +kernel⟩,
   ⟨(fClip (fun c => { c with stopReq := true }) (host z) : State), (hM : Hpp), by decide +kernel⟩,
   ⟨(host z : State), (hM : Hpp), by decide +kernel⟩,
   ⟨(host z : State), (hM : Hpp), by decide +kernel⟩,
   ⟨(fHpp (fun h => { h with job := some dj0 }) (host z) : State), (hM : Hpp), by decide +kernel⟩,
   ⟨(fHpp (fun h => { h with job := some dj0 }) (host z) : State), (hM : Hpp), (dj0 : DecodeJob), by decide +kernel⟩,
   ⟨(host z : State), (hM : Hpp), (0xFFFFFFF1#32 : Word), by decide +kernel⟩,
   ⟨(fClip (fun c => { c with step := 3 }) (host z) : State), (hM : Hpp), (0x7FFFFFF1#32 : Word), by decide +kernel⟩,
   ⟨(fClip (fun c => { c with step := 3 }) (host z) : State), (hM : Hpp), (0xFFFFFFF1#32 : Word), by decide +kernel⟩,
   ⟨(run (host (dies z)) : State), (hM : Hpp), (0xFFFFFFF2#32 : Word), by decide +kernel⟩,
   ⟨(run (host (dies z)) : State), (hM : Hpp), (3#32 : Word), by decide +kernel⟩,
   ⟨(run (host z) : State), (hM : Hpp), (0xFFFFFFF3#32 : Word), by decide +kernel⟩,
   ⟨(host z : State), (hM : Hpp), (0#32 : Word), by decide +kernel⟩⟩

theorem witness_storage_commands :
    (∃ (s : State) (h : Hpp) (bays : Nat), s.wf = true ∧ s.hears h = true ∧ s.flag MGH_CTRL_EN = true ∧ s.flag MGH_CMD_STAT_BUSY = false ∧ 1 ≤ bays ∧ bays ≤ 15 ∧ s.mag.clip = none ∧ s.mag.rebuild = none ∧ ((∀ b < 4, bitAt bays b = 1 → s.bayUsed b = false))) ∧
    (∃ (s : State) (h : Hpp) (bays : Nat), s.wf = true ∧ s.hears h = true ∧ s.flag MGH_CTRL_EN = true ∧ s.flag MGH_CMD_STAT_BUSY = false ∧ 1 ≤ bays ∧ bays ≤ 15 ∧ s.mag.clip.isSome = true) ∧
    (∃ (s : State) (h : Hpp) (bays : Nat), s.wf = true ∧ s.hears h = true ∧ s.flag MGH_CTRL_EN = true ∧ s.flag MGH_CMD_STAT_BUSY = false ∧ 1 ≤ bays ∧ bays ≤ 15 ∧ s.mag.clip = none ∧ s.flag MGH_CTRL_READ_ONLY = false ∧ 1 ≤ s.setting 0x3000 11 ∧ s.setting 0x3000 11 ≤ 4 ∧ 2 ≤ s.setting 0x3000 13 ∧ s.setting 0x3000 13 ≤ 8 ∧ (baysOf bays).length = s.setting 0x3000 11 ∧ (∀ b ∈ baysOf bays, s.bayState b = 4)) ∧
    (∃ (s : State) (h : Hpp) (b : Superblock) (e : CatEntry), s.wf = true ∧ s.hears h = true ∧ s.flag MGH_CTRL_EN = true ∧ s.flag MGH_CMD_STAT_BUSY = false ∧ s.mag.set = some b ∧ s.mag.catalogue.getLast? = some (some e) ∧ s.mag.clip = none ∧ s.flag MGH_CTRL_READ_ONLY = false ∧ s.setComplete = true ∧ e.state = 2) ∧
    (∃ (s : State) (h : Hpp) (b : Superblock) (i : Nat) (m : Nat), s.wf = true ∧ s.hears h = true ∧ s.flag MGH_CTRL_EN = true ∧ s.flag MGH_CMD_STAT_BUSY = false ∧ s.mag.set = some b ∧ s.mag.clip = none ∧ s.flag MGH_CTRL_READ_ONLY = false ∧ s.setDegraded = true ∧ s.rebuildBay b = some i ∧ s.mag.members.findIdx? (·.isNone) = some m) :=
  ⟨⟨(bay 3 (mghS z) : State), (hM : Hpp), (8 : Nat), by decide +kernel⟩,
   ⟨(fMag (fun m => { m with clip := some cat0 }) (mghS z) : State), (hM : Hpp), (1 : Nat), by decide +kernel⟩,
   ⟨(fHpp (fun h => { h with dict := [(0x30000B, [1]), (0x30000D, [8])] }) (bay 3 (mghS z)) : State), (hM : Hpp), (8 : Nat), by decide +kernel⟩,
   ⟨(fMag (fun m => { m with set := some (sb0 false 1), members := [some 3], catalogue := [some { cat0 with state := 2 }] }) (bay 3 (mghS z)) : State), (hM : Hpp), (sb0 false 1 : Superblock), ({ cat0 with state := 2 } : CatEntry), by decide +kernel⟩,
   ⟨(fMag (fun m => { m with set := some (sb0 true 4), members := [some 0, some 1, some 2, none], missing := 3 }) ((bay 3 (bay 0 (bay 1 (bay 2 (mghS z))))).with [(MGH_MAG_STATE_ROLE 3, 4)]) : State), (hM : Hpp), (sb0 true 4 : Superblock), (3 : Nat), (3 : Nat), by decide +kernel⟩⟩

theorem witness_configuration_store :
    (∃ (s : State) (h : Hpp), s.wf = true ∧ s.hears h = true) ∧
    (∃ (s : State) (h : Hpp), s.wf = true ∧ s.hears h = true) ∧
    (∃ (s : State) (h : Hpp), s.wf = true ∧ s.hears h = true) ∧
    (∃ (s : State) (x : Nat), s.wf = true ∧ s.hpp.unsavedFrom = some x ∧ s.mgc.up = true ∧ s.setting 0x1180 6 ≠ 0 ∧ x + s.setting 0x1180 6 * 10 ^ 9 ≤ s.now ∧ s.hpp.storeState ≠ 2 ∧ (s.hpp.storeState ≠ 4 ∨ s.hpp.storeFrom.getD 0 < x + s.setting 0x1180 6 * 10 ^ 9)) ∧
    (∃ (s : State), s.wf = true ∧ (s.hpp.unsavedFrom = none ∨ s.mgc.up = false ∨ s.setting 0x1180 6 = 0 ∨ s.hpp.storeState = 2 ∨ (∀ x, s.hpp.unsavedFrom = some x → s.now < x + s.setting 0x1180 6 * 10 ^ 9))) ∧
    (∃ (s : State) (r : Nat) (c : ConfigSlot), s.wf = true ∧ s.mgc.up = true ∧ s.hpp.storeState = 1 ∧ 10 ^ 10 ≤ s.now ∧ s.kpr.powerFail = none ∧ ((∀ x, s.hpp.storeFrom = some x → x + 10 ^ 10 ≤ s.now)) ∧ r = s.storeRegion ∧ c = s.firstSlot r) ∧
    (∃ (s : State), s.wf = true ∧ s.storeMayStart = false) ∧
    (∃ (s : State) (r : Nat) (c : ConfigSlot) (k : Nat), s.wf = true ∧ s.hpp.storeSlot = some (r, c) ∧ s.hpp.storeState = 2 ∧ r ≤ 1 ∧ s.hpp.storeRetry = false ∧ k = (c.slot + 1) % 1024) ∧
    (∃ (s : State) (r : Nat) (c : ConfigSlot), s.wf = true ∧ s.hpp.storeSlot = some (r, c) ∧ s.hpp.storeState = 2 ∧ r ≤ 1 ∧ s.hpp.storeRetry = true) ∧
    (∃ (s : State), s.wf = true ∧ (s.hpp.storeSlot = none ∨ s.hpp.storeState ≠ 2)) :=
  ⟨⟨(host z : State), (hM : Hpp), by decide +kernel⟩,
   ⟨(fHpp (fun h => { h with storeState := 2 }) (host z) : State), (hM : Hpp), by decide +kernel⟩,
   ⟨(fHpp (fun h => { h with dict := [(0x110001, [1])] }) (canS 0 (mgc z)) : State), (hC : Hpp), by decide +kernel⟩,
   ⟨(State.at_ 60000000000 (fHpp (fun h => { h with unsavedFrom := some 0 }) (host z)) : State), (0 : Nat), by decide +kernel⟩,
   ⟨(z : State), by decide +kernel⟩,
   ⟨(State.at_ 10000000000 (fHpp (fun h => { h with storeState := 1, storeFrom := some 0 }) (host z)) : State), (0 : Nat), ((State.at_ 10000000000 (fHpp (fun h => { h with storeState := 1, storeFrom := some 0 }) (host z))).firstSlot 0 : ConfigSlot), by decide +kernel⟩,
   ⟨(z : State), by decide +kernel⟩,
   ⟨(fHpp (fun h => { h with storeState := 2, storeSlot := some (1, cs0) }) (host z) : State), (1 : Nat), (cs0 : ConfigSlot), (0 : Nat), by decide +kernel⟩,
   ⟨(fHpp (fun h => { h with storeState := 2, storeRetry := true, storeSlot := some (1, cs0) }) (host z) : State), (1 : Nat), (cs0 : ConfigSlot), by decide +kernel⟩,
   ⟨(z : State), by decide +kernel⟩⟩

theorem witness_updates :
    (∃ (s : State) (h : Hpp) (image : List Byte), s.wf = true ∧ s.hears h = true ∧ image.length ≤ 4 * 2 ^ 20 ∧ s.mgc.loader = 0 ∧ s.kpr.powerFail = none ∧ s.active ≤ 1 ∧ s.nor.fw.length = 2) ∧
    (∃ (s : State) (h : Hpp) (image : List Byte), s.wf = true ∧ s.hears h = true ∧ image.length ≤ 4 * 2 ^ 20 ∧ s.mgc.loader = 0 ∧ s.kpr.powerFail.isSome = true) ∧
    (∃ (s : State) (h : Hpp) (image : List Byte), s.wf = true ∧ s.hears h = true ∧ image.length ≤ 4 * 2 ^ 20 ∧ s.mgc.loader = 0 ∧ s.kpr.powerFail = none ∧ s.nor.ucInUse ≤ 1 ∧ s.nor.uc.length = 2) ∧
    (∃ (s : State) (h : Hpp), s.wf = true ∧ s.hears h = true ∧ s.mgc.fwStatus = 2) ∧
    (∃ (s : State) (h : Hpp), s.wf = true ∧ s.hears h = true ∧ s.mgc.fwStatus ≠ 2) ∧
    (∃ (s : State) (h : Hpp) (which : Nat), s.wf = true ∧ s.hears h = true ∧ s.trial ≠ 0 ∧ which ≤ 1) ∧
    (∃ (s : State) (h : Hpp) (which : Nat), s.wf = true ∧ s.hears h = true ∧ which ≤ 1 ∧ s.trial = 0 ∧ s.nor.daymark.length = 256) ∧
    (∃ (s : State) (h : Hpp) (which : Nat), s.wf = true ∧ s.hears h = true ∧ which ≤ 1 ∧ s.trial = 0 ∧ s.nor.daymark.length = 256) ∧
    (∃ (s : State) (h : Hpp) (which : Nat), s.wf = true ∧ s.hears h = true ∧ which ≤ 1 ∧ s.trial = 0 ∧ s.nor.daymark.length = 256) ∧
    (∃ (s : State) (h : Hpp), s.wf = true ∧ s.hears h = true ∧ s.mgc.ucStatus = 2) ∧
    (∃ (s : State) (h : Hpp), s.wf = true ∧ s.hears h = true ∧ s.mgc.ucStatus ≠ 2) :=
  ⟨⟨(host z : State), (hM : Hpp), ([1#8, 2#8] : List Byte), by decide +kernel⟩,
   ⟨(fKpr (fun k => { k with powerFail := some 1 }) (host z) : State), (hM : Hpp), ([1#8, 2#8] : List Byte), by decide +kernel⟩,
   ⟨(host z : State), (hM : Hpp), ([1#8, 2#8] : List Byte), by decide +kernel⟩,
   ⟨(fMgc (fun m => { m with fwStatus := 2 }) (host z) : State), (hM : Hpp), by decide +kernel⟩,
   ⟨(host z : State), (hM : Hpp), by decide +kernel⟩,
   ⟨(fNor (fun n => { n with boot := some ⟨4, 1, 1, 0, 0⟩ }) (host z) : State), (hM : Hpp), (1 : Nat), by decide +kernel⟩,
   ⟨(fMgc (fun m => { m with secEpoch := 63 }) (host z) : State), (hM : Hpp), (0 : Nat), by decide +kernel⟩,
   ⟨(fMgc (fun m => { m with secEpoch := 64 }) (host z) : State), (hM : Hpp), (0 : Nat), by decide +kernel⟩,
   ⟨(host z : State), (hM : Hpp), (1 : Nat), by decide +kernel⟩,
   ⟨(fMgc (fun m => { m with ucStatus := 2 }) (host z) : State), (hM : Hpp), by decide +kernel⟩,
   ⟨(host z : State), (hM : Hpp), by decide +kernel⟩⟩

theorem witness_interrupt_sources :
    (∃ (s : State) (n : Nat), s.wf = true ∧ s.icuWf = true ∧ n < 384 ∧ sourceKnown n = true) ∧
    (∃ (s : State) (n : Nat), s.wf = true ∧ s.icuWf = true ∧ n < 384 ∧ sourceKnown n = true) ∧
    (∃ (s : State) (n : Nat), s.wf = true ∧ s.icuWf = true ∧ n < 384 ∧ sourceKnown n = true) ∧
    (∃ (s : State) (v : Word), s.wf = true ∧ s.icuWf = true ∧ 384 ≤ v.toNat ∧ v.toNat ≤ 511) ∧
    (∃ (s : State) (v : Word), s.wf = true ∧ s.icuWf = true ∧ 384 ≤ v.toNat ∧ v.toNat ≤ 511) ∧
    (∃ (s : State) (v : Word), s.wf = true ∧ s.icuWf = true ∧ (v.toNat < 384 ∨ 511 < v.toNat)) ∧
    (∃ (s : State) (v : Word), s.wf = true ∧ s.icuWf = true ∧ (v.toNat < 384 ∨ 511 < v.toNat)) ∧
    (∃ (s : State) (n : Nat) (v : Word), s.wf = true ∧ s.icuWf = true ∧ n < 16 ∧ ((∀ b < 32, v.toNat.testBit b = true → sourceKnown (32 * n + b) = true))) ∧
    (∃ (s : State) (n : Nat) (v : Word), s.wf = true ∧ s.icuWf = true ∧ n < 16 ∧ ((∀ b < 32, v.toNat.testBit b = true → sourceKnown (32 * n + b) = true))) ∧
    (∃ (s : State) (n : Nat) (b : Nat), s.wf = true ∧ s.icuWf = true ∧ n < 16 ∧ b < 32 ∧ sourceKnown (32 * n + b) = false) ∧
    (∃ (s : State) (n : Nat), s.wf = true ∧ s.icuWf = true ∧ n < 512) :=
  ⟨⟨(z : State), (1 : Nat), by decide +kernel⟩,
   ⟨((src 57 (fun x => { x with input := true, count := 255 }) z).with [(ICU_SRC_SENSE 57, 2)] : State), (57 : Nat), by decide +kernel⟩,
   ⟨(src 10 (fun x => { x with input := true }) z : State), (10 : Nat), by decide +kernel⟩,
   ⟨(z : State), (384#32 : Word), by decide +kernel⟩,
   ⟨(pend 511 z : State), (511#32 : Word), by decide +kernel⟩,
   ⟨(z : State), (383#32 : Word), by decide +kernel⟩,
   ⟨(z : State), (0xFFFFFFFF#32 : Word), by decide +kernel⟩,
   ⟨(z : State), (15 : Nat), (0xFFFFFFFF#32 : Word), by decide +kernel⟩,
   ⟨(z : State), (0 : Nat), (6#32 : Word), by decide +kernel⟩,
   ⟨(z : State), (0 : Nat), (0 : Nat), by decide +kernel⟩,
   ⟨(pend 511 z : State), (511 : Nat), by decide +kernel⟩⟩

theorem witness_interrupt_claims :
    (∃ (s : State) (n : Nat), s.wf = true ∧ s.icuWf = true ∧ s.claims n 64) ∧
    (∃ (s : State), s.wf = true ∧ s.icuWf = true ∧ (∀ n, s.eligible n 64 = false)) ∧
    (∃ (s : State) (v : Word), s.wf = true ∧ s.icuWf = true ∧ v.toNat % 1024 ≠ 1023 ∧ (s.source (v.toNat % 1024)).inService = some 64) ∧
    (∃ (s : State) (v : Word), s.wf = true ∧ s.icuWf = true ∧ v.toNat % 1024 ≠ 1023 ∧ (s.source (v.toNat % 1024)).inService ≠ some 64) ∧
    (∃ (s : State) (k : Nat) (n : Nat), s.wf = true ∧ s.icuWf = true ∧ k < 64 ∧ s.claims n k) ∧
    (∃ (s : State) (k : Nat), s.wf = true ∧ s.icuWf = true ∧ k < 64 ∧ (∀ n, s.eligible n k = false)) ∧
    (∃ (s : State) (k : Nat) (v : Word), s.wf = true ∧ s.icuWf = true ∧ k < 64 ∧ v.toNat % 1024 ≠ 1023 ∧ (s.source (v.toNat % 1024)).inService = some k) ∧
    (∃ (s : State) (k : Nat) (v : Word), s.wf = true ∧ s.icuWf = true ∧ k < 64 ∧ v.toNat % 1024 = 1023) ∧
    (∃ (s : State) (k : Nat) (v : Word), s.wf = true ∧ s.icuWf = true ∧ k < 64 ∧ v.toNat % 1024 ≠ 1023 ∧ (s.source (v.toNat % 1024)).inService ≠ some k) ∧
    (∃ (s : State) (k : Nat), s.wf = true ∧ s.icuWf = true ∧ k < 64 ∧ s.due k = true ∧ s.host = true ∧ s.cxl.fn.msixEnable = true ∧ ((if s.flag ICU_HOST_SLEEP then s.flag (ICU_HV_MOD_WAKE k) = true else s.flag ICU_HOST_IDLE = true ∨ (s.vector k).held = true ∨ s.moderationPassed k = true))) ∧
    (∃ (s : State) (k : Nat), s.wf = true ∧ s.icuWf = true ∧ k < 64 ∧ s.due k = true ∧ s.host = true ∧ s.cxl.fn.msixEnable = true ∧ ((if s.flag ICU_HOST_SLEEP then s.flag (ICU_HV_MOD_WAKE k) = true else s.flag ICU_HOST_IDLE = true ∨ (s.vector k).held = true ∨ s.moderationPassed k = true))) ∧
    (∃ (s : State) (k : Nat), s.wf = true ∧ s.icuWf = true ∧ k < 64 ∧ s.due k = true ∧ s.host = true ∧ s.cxl.fn.msixEnable = true ∧ s.flag ICU_HOST_SLEEP = false ∧ s.flag ICU_HOST_IDLE = false ∧ (s.vector k).held = false ∧ s.moderationPassed k = false) ∧
    (∃ (s : State) (k : Nat), s.wf = true ∧ s.icuWf = true ∧ k < 64 ∧ s.due k = true ∧ (s.host = false ∨ s.cxl.fn.msixEnable = false ∨ (s.flag ICU_HOST_SLEEP = true ∧ s.flag (ICU_HV_MOD_WAKE k) = false))) ∧
    (∃ (s : State) (k : Nat), s.wf = true ∧ s.icuWf = true ∧ k < 64 ∧ s.due k = false) :=
  ⟨⟨(pend 384 (en 384 7 1 0 (z.with [(ICU_CTRL_EN, 1)])) : State), (384 : Nat), by decide +kernel, by decide +kernel, pend_claims 384 64 _ (by decide +kernel) (by decide +kernel)⟩,
   ⟨(z : State), by decide +kernel, by decide +kernel, (fun n => not_eligible _ n 64 (source_reset n))⟩,
   ⟨(src 384 (fun x => { x with inService := some 64 }) z : State), (384#32 : Word), by decide +kernel⟩,
   ⟨(z : State), (1022#32 : Word), by decide +kernel⟩,
   ⟨(due63 z : State), (63 : Nat), (384 : Nat), by decide +kernel, by decide +kernel, by decide +kernel, pend_claims 384 63 _ (by decide +kernel) (by decide +kernel)⟩,
   ⟨(z : State), (63 : Nat), by decide +kernel, by decide +kernel, by decide +kernel, (fun n => not_eligible _ n 63 (source_reset n))⟩,
   ⟨(src 384 (fun x => { x with inService := some 63 }) z : State), (63 : Nat), (384#32 : Word), by decide +kernel⟩,
   ⟨(z : State), (0 : Nat), (1023#32 : Word), by decide +kernel⟩,
   ⟨(z : State), (0 : Nat), (1022#32 : Word), by decide +kernel⟩,
   ⟨(due63 (msx (z.with [(ICU_HOST_IDLE, 1)])) : State), (63 : Nat), by decide +kernel⟩,
   ⟨(due63 (msx (z.with [(ICU_HOST_SLEEP, 1), (ICU_HV_MOD_WAKE 63, 1)])) : State), (63 : Nat), by decide +kernel⟩,
   ⟨({ due63 (msx (z.with [(ICU_HV_MOD_HOLDOFF 63, 5)])) with icu := { (due63 z).icu with vectors := [(63, ⟨false, some 0, 0, false⟩)] } } : State), (63 : Nat), by decide +kernel⟩,
   ⟨(due63 z : State), (63 : Nat), by decide +kernel⟩,
   ⟨(z : State), (63 : Nat), by decide +kernel⟩⟩

theorem witness_sleep_entry :
    (∃ (s : State), s.wf = true ∧ s.kpr.entry = none ∧ s.refusers = []) ∧
    (∃ (s : State), s.wf = true ∧ s.kpr.entry.isSome = true) ∧
    (∃ (s : State) (a : Agent) (c : Nat) (l : List Nat) (i : Instr), s.wf = true ∧ s.kpr.entry = none ∧ s.refusers = c :: l ∧ (i = .retain a ∨ i = .off a)) ∧
    (∃ (s : State) (a : Agent) (c : Nat) (l : List Nat) (i : Instr), s.wf = true ∧ s.kpr.entry = none ∧ s.refusers = c :: l ∧ (i = .retain a ∨ i = .off a)) ∧
    (∃ (s : State) (e : PowerEntry), s.wf = true ∧ s.kpr.entry = some e ∧ e.late = false ∧ s.kpr.kicks = [] ∧ s.kpr.heldOpen = false) ∧
    (∃ (s : State) (e : PowerEntry) (b : Nat), s.wf = true ∧ b < 8 ∧ s.kpr.entry = some e ∧ e.late = false ∧ bitAt (s.word AON_WAKE_EN_WAKE_PIN.off).toNat b = 1 ∧ s.kpr.kicks = [] ∧ s.kpr.heldOpen = false) ∧
    (∃ (s : State) (e : PowerEntry) (b : Nat), s.wf = true ∧ s.kpr.entry = some e ∧ e.abort = none ∧ bitAt (s.word AON_WAKE_EN_WAKE_PIN.off).toNat b = 0) ∧
    (∃ (s : State), s.wf = true ∧ (s.kpr.entry = none ∨ (∃ e, s.kpr.entry = some e ∧ e.late = true))) ∧
    (∃ (s : State), s.wf = true ∧ (s.kpr.entry = none ∨ (∃ e, s.kpr.entry = some e ∧ e.late = true))) ∧
    (∃ (s : State), s.wf = true ∧ (s.kpr.entry = none ∨ (∃ e, s.kpr.entry = some e ∧ e.abort.isSome = true))) ∧
    (∃ (s : State), s.wf = true ∧ (s.kpr.entry = none ∨ (∃ e, s.kpr.entry = some e ∧ e.abort.isSome = true))) ∧
    (∃ (s : State) (e : PowerEntry), s.wf = true ∧ s.kpr.entry = some e ∧ e.abort = none ∧ e.late = true ∧ e.toOff = true) ∧
    (∃ (s : State) (e : PowerEntry), s.wf = true ∧ s.kpr.entry = some e ∧ e.abort = none ∧ e.late = true ∧ e.toOff = false ∧ s.kpr.kicks = [] ∧ s.kpr.heldOpen = false) ∧
    (∃ (s : State) (e : PowerEntry), s.wf = true ∧ s.kpr.entry = some e ∧ e.abort = none ∧ e.late = false) ∧
    (∃ (s : State) (e : PowerEntry), s.wf = true ∧ s.kpr.entry = some e ∧ e.abort = none ∧ e.late = false) ∧
    (∃ (s : State), s.wf = true ∧ s.flag KPR_CTRL_EN = true ∧ s.get KPR_STATUS_STATE = 0 ∧ s.idleDue = true) ∧
    (∃ (s : State), s.wf = true ∧ (s.flag KPR_CTRL_EN = false ∨ s.get KPR_STATUS_STATE ≠ 0 ∨ s.idleDue = false)) :=
  ⟨⟨(State.at_ 5 z : State), by decide +kernel⟩,
   ⟨(ent true z : State), by decide +kernel⟩,
   ⟨(hst z : State), (.mgc : Agent), (0x20 : Nat), (([] : List Nat) : List Nat), (Instr.off .mgc : Instr), by decide +kernel⟩,
   ⟨(fHpp (fun h => { h with storeState := 1 }) (hst z) : State), (.mgc : Agent), (0x20 : Nat), ([0x41] : List Nat), (Instr.retain .mgc : Instr), by decide +kernel⟩,
   ⟨(entL false false (some 0x87) (run z) : State), (pe false false (some 0x87) : PowerEntry), by decide +kernel⟩,
   ⟨(ent true (wakeEn z) : State), (pe true false none : PowerEntry), (7 : Nat), by decide +kernel⟩,
   ⟨(ent true z : State), (pe true false none : PowerEntry), (7 : Nat), by decide +kernel⟩,
   ⟨(z : State), by decide +kernel⟩,
   ⟨(entL true true none z : State), by decide +kernel⟩,
   ⟨(z : State), by decide +kernel⟩,
   ⟨(entL true false (some 3) z : State), by decide +kernel⟩,
   ⟨(entL true true none (run z) : State), (pe true true none : PowerEntry), by decide +kernel⟩,
   ⟨(entL false true none (run z) : State), (pe false true none : PowerEntry), by decide +kernel⟩,
   ⟨(ent true (mem (run z)) : State), (pe true false none : PowerEntry), by decide +kernel⟩,
   ⟨(ent false (mem (run z)) : State), (pe false false none : PowerEntry), by decide +kernel⟩,
   ⟨(fKpr (fun k => { k with idleFrom := some 0 }) (State.at_ 1000000 (z.with [(KPR_CTRL_EN, 1), (KPR_IDLE_MS, 1)])) : State), by decide +kernel⟩,
   ⟨(z : State), by decide +kernel⟩⟩

theorem witness_wake_and_power :
    (∃ (s : State) (b : Nat), s.wf = true ∧ b < 8 ∧ bitAt (s.word AON_WAKE_EN_WAKE_PIN.off).toNat b = 0) ∧
    (∃ (s : State) (b : Nat) (e : PowerEntry), s.wf = true ∧ b < 8 ∧ b ≠ 6 ∧ bitAt (s.word AON_WAKE_EN_WAKE_PIN.off).toNat b = 1 ∧ s.kpr.mode = .on ∧ s.kpr.entry = some e ∧ s.now ≤ e.start + 400000) ∧
    (∃ (s : State) (b : Nat) (e : PowerEntry), s.wf = true ∧ b < 8 ∧ b ≠ 6 ∧ bitAt (s.word AON_WAKE_EN_WAKE_PIN.off).toNat b = 1 ∧ s.kpr.mode = .on ∧ s.kpr.entry = some e ∧ e.start + 400000 < s.now) ∧
    (∃ (s : State) (b : Nat), s.wf = true ∧ b < 8 ∧ bitAt (s.word AON_WAKE_EN_WAKE_PIN.off).toNat b = 1 ∧ s.kpr.mode = .off) ∧
    (∃ (s : State) (b : Nat), s.wf = true ∧ b < 8 ∧ s.kpr.mode = .on ∧ s.kpr.entry = none) ∧
    (∃ (s : State), s.wf = true ∧ (s.kpr.mode = .retain ∨ (s.kpr.mode = .on ∧ s.kpr.entry.isSome = true))) ∧
    (∃ (s : State), s.wf = true ∧ (s.kpr.mode = .retain ∨ (s.kpr.mode = .on ∧ s.kpr.entry.isSome = true))) ∧
    (∃ (s : State) (b : Nat), s.wf = true ∧ b < 8 ∧ b ≠ 6 ∧ bitAt (s.word AON_WAKE_EN_WAKE_PIN.off).toNat b = 1 ∧ s.kpr.mode = .retain ∧ s.kpr.kicks = [] ∧ s.kpr.heldOpen = false) ∧
    (∃ (s : State), s.wf = true ∧ (s.aon.mainPwrEn = true ∨ (s.aon.wakeDue = false ∧ s.aon.recordValid = true) ∨ (∃ x, s.aon.fellAt = some x ∧ s.slept x < 328))) ∧
    (∃ (s : State), s.wf = true ∧ s.aon.mainPwrEn = false ∧ (s.aon.wakeDue = true ∨ s.aon.recordValid = false) ∧ ((∀ x, s.aon.fellAt = some x → 328 ≤ s.slept x))) ∧
    (∃ (s : State), s.wf = true ∧ s.aon.mainPwrEn = false ∧ (s.aon.wakeDue = true ∨ s.aon.recordValid = false) ∧ ((∀ x, s.aon.fellAt = some x → 328 ≤ s.slept x))) ∧
    (∃ (s : State), s.wf = true ∧ (s.domain 0).inReset = false ∧ s.kpr.powerFail = none ∧ s.kpr.mode = .on ∧ s.kpr.entry = none ∧ s.mag.clip = none) ∧
    (∃ (s : State), s.wf = true ∧ s.kpr.powerFail = none ∧ (s.domain 0).inReset = true ∧ s.aon.mainPwrEn = true) ∧
    (∃ (s : State), s.wf = true ∧ s.kpr.powerFail = none ∧ (s.domain 0).inReset = true ∧ s.aon.mainPwrEn = false) ∧
    (∃ (s : State), s.wf = true ∧ s.kpr.powerFail = none ∧ (s.domain 0).inReset = false ∧ s.kpr.mode = .retain) ∧
    (∃ (s : State) (e : PowerEntry), s.wf = true ∧ s.kpr.powerFail = none ∧ (s.domain 0).inReset = false ∧ s.kpr.mode = .on ∧ s.kpr.entry = some e) ∧
    (∃ (s : State) (c : CatEntry), s.wf = true ∧ (s.domain 0).inReset = false ∧ s.kpr.powerFail = none ∧ s.kpr.mode = .on ∧ s.kpr.entry = none ∧ s.mag.clip = some c) ∧
    (∃ (s : State) (n : Nat), s.wf = true ∧ s.kpr.powerFail = some n ∧ s.kpr.mode ≠ .off) ∧
    (∃ (s : State), s.wf = true ∧ s.kpr.powerFail.isSome = true ∧ s.kpr.mode = .off ∧ bitAt (s.word AON_WAKE_EN_WAKE_PIN.off).toNat 6 = 1) ∧
    (∃ (s : State), s.wf = true ∧ (s.flag KPR_STATUS_HOLDUP = false ∨ s.kpr.powerFail = none ∨ s.mag.powerFail.isSome = true ∨ s.kpr.mode ≠ .on)) ∧
    (∃ (s : State), s.wf = true ∧ s.flag KPR_STATUS_HOLDUP = true ∧ s.kpr.powerFail.isSome = true ∧ s.mag.powerFail = none ∧ s.kpr.mode = .on) :=
  ⟨⟨(z : State), (7 : Nat), by decide +kernel⟩,
   ⟨(State.at_ 400000 (ent true (wakeEn z)) : State), (7 : Nat), (pe true false none : PowerEntry), by decide +kernel⟩,
   ⟨(State.at_ 400001 (ent true (wakeEn z)) : State), (7 : Nat), (pe true false none : PowerEntry), by decide +kernel⟩,
   ⟨(pmode .off (wakeEn z) : State), (6 : Nat), by decide +kernel⟩,
   ⟨(wakeEn z : State), (7 : Nat), by decide +kernel⟩,
   ⟨(pmode .retain (wakeEn z) : State), by decide +kernel⟩,
   ⟨(ent true (wakeEn z) : State), by decide +kernel⟩,
   ⟨(pmode .retain (wakeEn (run z)) : State), (7 : Nat), by decide +kernel⟩,
   ⟨(z : State), by decide +kernel⟩,
   ⟨(fAon (fun x => { x with mainPwrEn := false, recordValid := false }) z : State), by decide +kernel⟩,
   ⟨(fAon (fun x => { x with mainPwrEn := false, wakeDue := true, fellAt := some 0 }) (z.with [(AON_TICKS_TICKS, 328)]) : State), by decide +kernel⟩,
   ⟨(up0 (State.at_ 5 z) : State), by decide +kernel⟩,
   ⟨(dom0 ⟨true, 4, true, none, 0⟩ (State.at_ 5 z) : State), by decide +kernel⟩,
   ⟨(dom0 ⟨true, 4, true, none, 0⟩ (State.at_ 5 (fAon (fun x => { x with mainPwrEn := false }) z)) : State), by decide +kernel⟩,
   ⟨(up0 (pmode .retain (fTb (fun b => { b with sleepTicks := some 7 }) (mem z))) : State), by decide +kernel⟩,
   ⟨(up0 (ent false (State.at_ 5 z)) : State), (pe false false none : PowerEntry), by decide +kernel⟩,
   ⟨(up0 (fMag (fun m => { m with clip := some cat0 }) (State.at_ 5 (mem (run z)))) : State), (cat0 : CatEntry), by decide +kernel⟩,
   ⟨(pf3 z : State), (3 : Nat), by decide +kernel⟩,
   ⟨(pmode .off (pf3 (wakeEn z)) : State), by decide +kernel⟩,
   ⟨(z : State), by decide +kernel⟩,
   ⟨(pf3 (z.with [(KPR_STATUS_HOLDUP, 1)]) : State), by decide +kernel⟩⟩

theorem witness_keeper_timers :
    (∃ (s : State) (e : Nat), s.wf = true ∧ s.flag KPR_CTRL_EN = true ∧ s.beaconRuns = true ∧ s.bu.lastEdge = some e ∧ s.atLeastPmW (s.now8 - e + 1600000) = true) ∧
    (∃ (s : State), s.wf = true ∧ (s.flag KPR_CTRL_EN = false ∨ s.beaconRuns = false ∨ s.bu.lastEdge = none ∨ (∃ e, s.bu.lastEdge = some e ∧ s.atLeastPmW (s.now8 - e + 1600000) = false))) ∧
    (∃ (s : State), s.wf = true ∧ s.kpr.deficitRun = 16) ∧
    (∃ (s : State), s.wf = true ∧ s.kpr.deficitRun ≠ 16) ∧
    (∃ (s : State), s.wf = true ∧ (∀ x ∈ s.kpr.slots, ∀ d, x.1 ≠ .dieUngate d)) ∧
    (∃ (s : State) (d : Nat) (w : Bool), s.wf = true ∧ d < 2 ∧ s.kpr.slots = [(.dieUngate d, w)]) :=
  ⟨⟨(fKpr (fun k => { k with shortfall := some 0 }) (State.at_ 42000000 (fBu (fun b => { b with lastEdge := some 0 }) (run (z.with [(KPR_CTRL_EN, 1)])))) : State), (0 : Nat), by decide +kernel⟩,
   ⟨(z : State), by decide +kernel⟩,
   ⟨(fKpr (fun k => { k with deficitRun := 16 }) z : State), by decide +kernel⟩,
   ⟨(fKpr (fun k => { k with deficitRun := 17 }) z : State), by decide +kernel⟩,
   ⟨(dies (fKpr (fun k => { k with slots := [(.engineUngate 3, false), (.engineUngate 4, false), (.spareUngate 0, true), (.engineUngate 5, false), (.load 3, false), (.load 7, true)] }) z) : State), by decide +kernel, no_die_ungate (by decide +kernel)⟩,
   ⟨(fKpr (fun k => { k with slots := [(.dieUngate 1, true)] }) z : State), (1 : Nat), (true : Bool), by decide +kernel⟩⟩

set_option maxRecDepth 100000 in
theorem witness_magazine_bays :
    (∃ (s : State) (b : Nat), s.wf = true ∧ b < 4 ∧ (s.bay b).mag = none ∧ (s.flag MGH_CTRL_EN = false ∨ s.flag MGH_CTRL_AUTO_MOOR = false)) ∧
    (∃ (s : State) (b : Nat), s.wf = true ∧ b < 4 ∧ (s.bay b).mag = none ∧ s.flag MGH_CTRL_AUTO_MOOR = true ∧ s.flag MGH_CTRL_EN = true) ∧
    (∃ (s : State) (b : Nat), s.wf = true ∧ b < 4 ∧ (s.bay b).mag.isSome = true ∧ (s.bayState b ≠ 4 ∨ s.mag.clip = none)) ∧
    (∃ (s : State) (b : Nat), s.wf = true ∧ b < 4 ∧ (s.bay b).mag.isSome = true ∧ (s.bayState b ≠ 4 ∨ s.mag.clip = none)) ∧
    (∃ (s : State) (b : Nat), s.wf = true ∧ b < 4 ∧ (s.bay b).step = 1 ∧ (s.bay b).since + 10 ^ 8 ≤ s.now) ∧
    (∃ (s : State) (b : Nat), s.wf = true ∧ b < 4 ∧ ((s.bay b).step ≠ 1 ∨ s.now < (s.bay b).since + 10 ^ 8)) ∧
    (∃ (s : State) (b : Nat), s.wf = true ∧ b < 4 ∧ (s.bay b).step = 2 ∧ (s.bay b).since + 2 * 10 ^ 8 ≤ s.now) ∧
    (∃ (s : State) (b : Nat), s.wf = true ∧ b < 4 ∧ ((s.bay b).step ≠ 2 ∨ s.now < (s.bay b).since + 2 * 10 ^ 8)) ∧
    (∃ (s : State) (b : Nat), s.wf = true ∧ b < 4 ∧ (s.bay b).step = 3) ∧
    (∃ (s : State) (b : Nat), s.wf = true ∧ b < 4 ∧ (s.bay b).step ≠ 3) ∧
    (∃ (s : State) (b : Nat) (g : Magazine) (adminOk : Bool) (queuesOk : Bool), s.wf = true ∧ b < 4 ∧ (s.bay b).mag = some g ∧ (s.bay b).step = 4 ∧ identifyCode g adminOk queuesOk = 0) ∧
    (∃ (s : State) (b : Nat) (g : Magazine) (adminOk : Bool) (queuesOk : Bool), s.wf = true ∧ b < 4 ∧ (s.bay b).mag = some g ∧ (s.bay b).step = 4 ∧ identifyCode g adminOk queuesOk ≠ 0) ∧
    (∃ (s : State) (b : Nat) (g : Magazine) (adminOk : Bool) (queuesOk : Bool), s.wf = true ∧ b < 4 ∧ (s.bay b).mag = some g ∧ (s.bay b).step = 4 ∧ identifyCode g adminOk queuesOk ≠ 0) ∧
    (∃ (s : State) (b : Nat), s.wf = true ∧ b < 4 ∧ (s.bay b).step = 5 ∧ chosen (s.bay b).view = none) ∧
    (∃ (s : State) (b : Nat) (v : Nat) (x : Superblock) (c : Bool), s.wf = true ∧ b < 4 ∧ (s.bay b).step = 5 ∧ chosen (s.bay b).view = some (v, x, c) ∧ v ≠ 1) ∧
    (∃ (s : State) (b : Nat) (v : Nat) (x : Superblock) (c : Bool), s.wf = true ∧ b < 4 ∧ (s.bay b).step = 5 ∧ chosen (s.bay b).view = some (v, x, c) ∧ v = 1 ∧ s.duplicate b x = true) ∧
    (∃ (s : State) (b : Nat) (v : Nat) (x : Superblock) (c : Bool), s.wf = true ∧ b < 4 ∧ (s.bay b).step = 5 ∧ chosen (s.bay b).view = some (v, x, c) ∧ v = 1 ∧ s.duplicate b x = false) ∧
    (∃ (s : State) (b : Nat), s.wf = true ∧ b < 4 ∧ (s.bay b).step ≠ 5) ∧
    (∃ (s : State) (b : Nat) (cto : Nat) (step : Nat) (code : Nat) (ms : Nat), s.wf = true ∧ b < 4 ∧ cto = ((s.bay b).mag.map (·.timeout500)).getD 0 ∧ (step, code, ms) ∈ [(3, 1, 400), (4, 2, 400 + 500 * cto), (5, 3, 460 + 500 * cto)] ∧ (s.bay b).step = step ∧ (s.bay b).since + 10 ^ 6 * ms ≤ s.now) ∧
    (∃ (s : State) (b : Nat) (cto : Nat) (step : Nat) (code : Nat) (ms : Nat), s.wf = true ∧ b < 4 ∧ cto = ((s.bay b).mag.map (·.timeout500)).getD 0 ∧ (step, code, ms) ∈ [(3, 1, 400), (4, 2, 400 + 500 * cto), (5, 3, 460 + 500 * cto)] ∧ (s.bay b).step = step ∧ s.now < (s.bay b).since + 10 ^ 6 * ms) ∧
    (∃ (s : State) (b : Nat), s.wf = true ∧ b < 4 ∧ (s.bay b).step = 6) ∧
    (∃ (s : State) (b : Nat), s.wf = true ∧ b < 4 ∧ (s.bay b).step ≠ 6) ∧
    (∃ (s : State) (b : Nat) (x : Nat), s.wf = true ∧ b < 4 ∧ s.mag.afresh = some x ∧ x + 10 ^ 8 ≤ s.now) ∧
    (∃ (s : State) (b : Nat), s.wf = true ∧ b < 4 ∧ ((∀ x, s.mag.afresh = some x → s.now < x + 10 ^ 8))) ∧
    (∃ (s : State) (b : Nat), s.wf = true ∧ b < 4 ∧ (s.bayState b = 2 ∨ s.bayState b = 3)) ∧
    (∃ (s : State) (b : Nat), s.wf = true ∧ b < 4 ∧ (s.bayState b = 2 ∨ s.bayState b = 3)) ∧
    (∃ (s : State) (b : Nat), s.wf = true ∧ b < 4 ∧ (s.bayState b < 2 ∨ 4 < s.bayState b)) ∧
    (∃ (s : State) (b : Nat), s.wf = true ∧ b < 4 ∧ s.bayState b = 3 ∧ (s.bay b).readyAt + 10 ^ 6 * max 1 (s.get MGH_TIMEOUT_MS) ≤ s.now) ∧
    (∃ (s : State) (b : Nat), s.wf = true ∧ b < 4 ∧ (s.bayState b < 3 ∨ 4 < s.bayState b ∨ s.now < (s.bay b).readyAt + 10 ^ 6 * max 1 (s.get MGH_TIMEOUT_MS))) ∧
    (∃ (s : State) (b : Nat) (vec : Nat), s.wf = true ∧ b < 4 ∧ vec ≤ 4 ∧ (s.bay b).enabled = true) ∧
    (∃ (s : State) (b : Nat), s.wf = true ∧ b < 4 ∧ (s.bay b).enabled = false) ∧
    (∃ (s : State) (b : Nat), s.wf = true ∧ b < 4) :=
  ⟨⟨(z.with [(MGH_CTRL_AUTO_MOOR, 0)] : State), (3 : Nat), by decide +kernel⟩,
   ⟨(State.at_ 5 (z.with [(MGH_CTRL_EN, 1), (MGH_CTRL_AUTO_MOOR, 1)]) : State), (3 : Nat), by decide +kernel⟩,
   ⟨((bstep 3 4 z).with [(MGH_MAG_STATE_STATE 3, 2)] : State), (3 : Nat), by decide +kernel⟩,
   ⟨(bay 0 z : State), (0 : Nat), by decide +kernel⟩,
   ⟨(State.at_ 100000000 (bstep 0 1 z) : State), (0 : Nat), by decide +kernel⟩,
   ⟨(State.at_ 99999999 (bstep 0 1 z) : State), (0 : Nat), by decide +kernel⟩,
   ⟨(State.at_ 200000000 (bstep 3 2 z) : State), (3 : Nat), by decide +kernel⟩,
   ⟨(State.at_ 199999999 (bstep 3 2 z) : State), (3 : Nat), by decide +kernel⟩,
   ⟨(bstep 3 3 z : State), (3 : Nat), by decide +kernel⟩,
   ⟨(z : State), (3 : Nat), by decide +kernel⟩,
   ⟨(bstep 3 4 z : State), (3 : Nat), (mgz : Magazine), (true : Bool), (true : Bool), by decide +kernel⟩,
   ⟨(bstep 3 4 z : State), (3 : Nat), (mgz : Magazine), (false : Bool), (true : Bool), by decide +kernel⟩,
   ⟨(bstep 3 4 z : State), (3 : Nat), (mgz : Magazine), (true : Bool), (false : Bool), by decide +kernel⟩,
   ⟨(bstep 3 5 z : State), (3 : Nat), by decide +kernel⟩,
   ⟨(fBay 3 (fun x => { x with media := [(1, sb2)] }) (bstep 3 5 z) : State), (3 : Nat), (2 : Nat), (readSuper sb2 : Superblock), (true : Bool), by decide +kernel⟩,
   ⟨(fBay 0 (fun x => { x with media := [(1, sbQ.bytes)] }) (fBay 3 (fun x => { x with media := [(1, sbQ.bytes)] }) (bstep 3 5 (bay 0 z))) : State), (3 : Nat), (1 : Nat), (readSuper sbQ.bytes : Superblock), (true : Bool), by decide +kernel⟩,
   ⟨(fBay 3 (fun x => { x with media := [(1, sbQ.bytes)] }) (bstep 3 5 z) : State), (3 : Nat), (1 : Nat), (readSuper sbQ.bytes : Superblock), (true : Bool), by decide +kernel⟩,
   ⟨(z : State), (3 : Nat), by decide +kernel⟩,
   ⟨(State.at_ 400000000 (bstep 3 3 z) : State), (3 : Nat), (mgz.timeout500 : Nat), (3 : Nat), (1 : Nat), (400 : Nat), by decide +kernel⟩,
   ⟨(State.at_ 399999999 (bstep 3 3 z) : State), (3 : Nat), (mgz.timeout500 : Nat), (3 : Nat), (1 : Nat), (400 : Nat), by decide +kernel⟩,
   ⟨(fBay 3 (fun x => { x with unmoorDue := true, volatile := [(5, [1])] }) (bstep 3 6 z) : State), (3 : Nat), by decide +kernel⟩,
   ⟨(z : State), (3 : Nat), by decide +kernel⟩,
   ⟨(State.at_ 100000007 (fMag (fun m => { m with afresh := some 7 }) ((bstep 3 0 z).with [(MGH_MAG_STATE_STATE 3, 5)])) : State), (3 : Nat), (7 : Nat), by decide +kernel⟩,
   ⟨(z : State), (3 : Nat), by decide +kernel⟩,
   ⟨((bstep 3 5 z).with [(MGH_MAG_STATE_STATE 3, 3)] : State), (3 : Nat), by decide +kernel⟩,
   ⟨((bstep 0 4 z).with [(MGH_MAG_STATE_STATE 0, 2)] : State), (0 : Nat), by decide +kernel⟩,
   ⟨(z : State), (3 : Nat), by decide +kernel⟩,
   ⟨(State.at_ 2000000000 ((bstep 3 5 z).with [(MGH_MAG_STATE_STATE 3, 3), (MGH_MAG_ERR_TIMEOUTS 3, 65535), (MGH_TIMEOUT_MS, 500)]) : State), (3 : Nat), by decide +kernel⟩,
   ⟨(z : State), (3 : Nat), by decide +kernel⟩,
   ⟨(fBay 3 (fun x => { x with enabled := true }) ((bay 3 z).with [(MGH_MAG_ERR_CMD_ERR 3, 65535)]) : State), (3 : Nat), (4 : Nat), by decide +kernel⟩,
   ⟨(z : State), (3 : Nat), by decide +kernel⟩,
   ⟨(z : State), (0 : Nat), by decide +kernel⟩⟩

theorem witness_member_loss :
    (∃ (s : State) (b : Nat) (m : Nat) (x : Superblock), s.wf = true ∧ b < 4 ∧ s.bayState b = 4 ∧ s.mag.set = some x ∧ s.service.find? (fun p => p.2 == b) = some (m, b) ∧ s.mag.clip.isSome = true ∧ x.parity = true ∧ s.flag MGH_CTRL_DEGRADE_OK = true ∧ s.mag.missing = 0) ∧
    (∃ (s : State) (b : Nat) (m : Nat) (x : Superblock), s.wf = true ∧ b < 4 ∧ s.bayState b = 4 ∧ s.mag.set = some x ∧ s.service.find? (fun p => p.2 == b) = some (m, b) ∧ s.mag.clip.isSome = true ∧ (x.parity = false ∨ s.flag MGH_CTRL_DEGRADE_OK = false ∨ s.mag.missing ≠ 0)) ∧
    (∃ (s : State) (b : Nat) (m : Nat) (x : Superblock), s.wf = true ∧ b < 4 ∧ s.bayState b = 4 ∧ s.mag.set = some x ∧ s.service.find? (fun p => p.2 == b) = some (m, b) ∧ s.mag.clip.isSome = true ∧ (x.parity = false ∨ s.flag MGH_CTRL_DEGRADE_OK = false ∨ s.mag.missing ≠ 0)) ∧
    (∃ (s : State) (b : Nat) (m : Nat) (x : Superblock), s.wf = true ∧ b < 4 ∧ s.bayState b = 4 ∧ s.mag.set = some x ∧ s.service.find? (fun p => p.2 == b) = some (m, b) ∧ s.mag.clip.isSome = true ∧ (x.parity = false ∨ s.flag MGH_CTRL_DEGRADE_OK = false ∨ s.mag.missing ≠ 0)) ∧
    (∃ (s : State) (b : Nat) (m : Nat) (x : Superblock), s.wf = true ∧ b < 4 ∧ s.bayState b = 4 ∧ s.mag.set = some x ∧ s.service.find? (fun p => p.2 == b) = some (m, b) ∧ s.mag.clip.isSome = true ∧ (s.bay b).readyAt + 10 ^ 6 * max 1 (s.get MGH_TIMEOUT_MS) ≤ s.now) :=
  ⟨⟨((clp (set4 z)).with [(MGH_CTRL_DEGRADE_OK, 1)] : State), (3 : Nat), (3 : Nat), (sb0 true 4 : Superblock), by decide +kernel⟩,
   ⟨((clp (set4 z)).with [(MGH_CTRL_DEGRADE_OK, 0)] : State), (3 : Nat), (3 : Nat), (sb0 true 4 : Superblock), by decide +kernel⟩,
   ⟨(clp (set1 z) : State), (3 : Nat), (0 : Nat), (sb0 false 1 : Superblock), by decide +kernel⟩,
   ⟨((fMag (fun m => { m with missing := 1, members := [none, some 1, some 2, some 3], units := [su0] }) (clp (set4 z))).with [(MGH_CTRL_DEGRADE_OK, 1)] : State), (3 : Nat), (3 : Nat), (sb0 true 4 : Superblock), by decide +kernel⟩,
   ⟨(State.at_ 2000000000 ((clp (set1 z)).with [(MGH_TIMEOUT_MS, 500)]) : State), (3 : Nat), (0 : Nat), (sb0 false 1 : Superblock), by decide +kernel⟩⟩

theorem witness_magazine_commands :
    (∃ (s : State) (c : Instr), s.wf = true ∧ c ∈ [Instr.openClip .host, .deleteLast .host, .rebuild .host, .mghClrCounts .host]) ∧
    (∃ (s : State) (n : Nat) (c : Instr), s.wf = true ∧ c ∈ [Instr.moor .host n, .unmoor .host n, .format .host n, .closeClip .host n]) ∧
    (∃ (s : State) (n : Nat) (c : Instr), s.wf = true ∧ s.flag MGH_CTRL_EN = false ∧ c ∈ [Instr.moor .mgc n, .unmoor .mgc n, .format .mgc n, .closeClip .mgc n, .deleteLast .mgc, .rebuild .mgc]) ∧
    (∃ (s : State) (n : Nat) (p : Nat × Instr), s.wf = true ∧ s.flag MGH_CTRL_EN = true ∧ s.flag MGH_CMD_STAT_BUSY = true ∧ p ∈ [(0, Instr.moor .mgc n), (1, .unmoor .mgc n), (2, .format .mgc n), (4, .closeClip .mgc n), (5, .deleteLast .mgc), (6, .rebuild .mgc)]) ∧
    (∃ (s : State) (bays : Nat), s.wf = true ∧ s.flag MGH_CTRL_EN = true ∧ s.flag MGH_CMD_STAT_BUSY = false ∧ s.mag.clip = none ∧ s.mag.rebuild = none ∧ ((∀ b < 4, bitAt bays b = 1 → s.bayUsed b = false))) ∧
    (∃ (s : State) (bays : Nat), s.wf = true ∧ s.flag MGH_CTRL_EN = true ∧ s.flag MGH_CMD_STAT_BUSY = false ∧ (s.mag.clip.isSome = true ∨ s.mag.rebuild.isSome = true ∨ (∃ b < 4, bitAt bays b = 1 ∧ s.bayState b = 4 ∧ s.bayUsed b = true))) ∧
    (∃ (s : State) (bays : Nat), s.wf = true ∧ s.flag MGH_CTRL_EN = true ∧ s.flag MGH_CMD_STAT_BUSY = false ∧ (s.mag.clip.isSome = true ∨ s.mag.rebuild.isSome = true ∨ (∃ b < 4, bitAt bays b = 1 ∧ s.bayState b = 4 ∧ s.bayUsed b = true))) ∧
    (∃ (s : State) (bays : Nat), s.wf = true ∧ s.flag MGH_CTRL_EN = true ∧ s.flag MGH_CMD_STAT_BUSY = false ∧ s.mag.clip = none ∧ s.flag MGH_CTRL_READ_ONLY = false ∧ 1 ≤ s.get MGH_FMT0_WIDTH ∧ s.get MGH_FMT0_WIDTH ≤ 4 ∧ 2 ≤ s.get MGH_FMT0_CHUNK_LOG ∧ s.get MGH_FMT0_CHUNK_LOG ≤ 8 ∧ (baysOf bays).length = s.get MGH_FMT0_WIDTH ∧ (∀ b ∈ baysOf bays, s.bayState b = 4)) ∧
    (∃ (s : State) (bays : Nat), s.wf = true ∧ s.flag MGH_CTRL_EN = true ∧ s.flag MGH_CMD_STAT_BUSY = false ∧ s.mag.clip = none ∧ s.flag MGH_CTRL_READ_ONLY = false ∧ 1 ≤ s.get MGH_FMT0_WIDTH ∧ s.get MGH_FMT0_WIDTH ≤ 4 ∧ 2 ≤ s.get MGH_FMT0_CHUNK_LOG ∧ s.get MGH_FMT0_CHUNK_LOG ≤ 8 ∧ (baysOf bays).length = s.get MGH_FMT0_WIDTH ∧ (∀ b ∈ baysOf bays, s.bayState b = 4)) ∧
    (∃ (s : State) (bays : Nat) (r : Nat), s.wf = true ∧ s.flag MGH_CTRL_EN = true ∧ s.flag MGH_CMD_STAT_BUSY = false ∧ ((s.mag.clip.isSome = true ∧ r = 6) ∨ (s.mag.clip = none ∧ s.flag MGH_CTRL_READ_ONLY = true ∧ r = 5) ∨ (s.mag.clip = none ∧ s.flag MGH_CTRL_READ_ONLY = false ∧ (baysOf bays).length ≠ s.get MGH_FMT0_WIDTH ∧ r = 1))) ∧
    (∃ (s : State) (bays : Nat) (r : Nat), s.wf = true ∧ s.flag MGH_CTRL_EN = true ∧ s.flag MGH_CMD_STAT_BUSY = false ∧ ((s.mag.clip.isSome = true ∧ r = 6) ∨ (s.mag.clip = none ∧ s.flag MGH_CTRL_READ_ONLY = true ∧ r = 5) ∨ (s.mag.clip = none ∧ s.flag MGH_CTRL_READ_ONLY = false ∧ (baysOf bays).length ≠ s.get MGH_FMT0_WIDTH ∧ r = 1))) ∧
    (∃ (s : State) (b : Superblock), s.wf = true ∧ s.flag MGH_CTRL_EN = true ∧ s.flag MGH_CMD_STAT_BUSY = false ∧ s.mag.set = some b ∧ s.setComplete = true ∧ s.mag.catalogue.length < b.catBlocks ∧ s.flag MGH_CTRL_READ_ONLY = false ∧ s.mag.clip = none ∧ s.get KPR_STATUS_STATE ≠ 2) ∧
    (∃ (s : State) (r : Nat), s.wf = true ∧ s.flag MGH_CTRL_EN = true ∧ s.flag MGH_CMD_STAT_BUSY = false ∧ s.get KPR_STATUS_STATE ≠ 2 ∧ ((s.setComplete = false ∧ r = 2) ∨ (s.setComplete = true ∧ (∀ b, s.mag.set = some b → s.mag.catalogue.length < b.catBlocks) ∧ ((s.flag MGH_CTRL_READ_ONLY = true ∧ r = 5) ∨ (s.flag MGH_CTRL_READ_ONLY = false ∧ s.mag.clip.isSome = true ∧ r = 6))))) ∧
    (∃ (s : State) (r : Nat), s.wf = true ∧ s.flag MGH_CTRL_EN = true ∧ s.flag MGH_CMD_STAT_BUSY = false ∧ s.get KPR_STATUS_STATE ≠ 2 ∧ ((s.setComplete = false ∧ r = 2) ∨ (s.setComplete = true ∧ (∀ b, s.mag.set = some b → s.mag.catalogue.length < b.catBlocks) ∧ ((s.flag MGH_CTRL_READ_ONLY = true ∧ r = 5) ∨ (s.flag MGH_CTRL_READ_ONLY = false ∧ s.mag.clip.isSome = true ∧ r = 6))))) ∧
    (∃ (s : State) (r : Nat), s.wf = true ∧ s.flag MGH_CTRL_EN = true ∧ s.flag MGH_CMD_STAT_BUSY = false ∧ s.mag.clip.isSome = true ∧ s.mag.closing = none ∧ 1 ≤ r ∧ r ≤ 6 ∧ s.mag.units ≠ []) ∧
    (∃ (s : State) (r : Nat), s.wf = true ∧ s.flag MGH_CTRL_EN = true ∧ s.flag MGH_CMD_STAT_BUSY = false ∧ s.mag.set.isSome = true ∧ s.mag.clip.isSome = true ∧ s.mag.closing = none ∧ 1 ≤ r ∧ r ≤ 6 ∧ s.mag.units = [] ∧ s.mag.durable = [] ∧ s.mag.round = none ∧ s.mag.lossDue = false ∧ s.mag.powerFail = none) ∧
    (∃ (s : State) (r : Nat) (x : Nat), s.wf = true ∧ s.flag MGH_CTRL_EN = true ∧ s.flag MGH_CMD_STAT_BUSY = false ∧ ((s.mag.clip = none ∧ x = 7) ∨ (s.mag.clip.isSome = true ∧ (s.mag.closing.isSome = true ∨ r % 8 = 0 ∨ r % 8 = 7) ∧ x = 1))) ∧
    (∃ (s : State) (r : Nat) (x : Nat), s.wf = true ∧ s.flag MGH_CTRL_EN = true ∧ s.flag MGH_CMD_STAT_BUSY = false ∧ ((s.mag.clip = none ∧ x = 7) ∨ (s.mag.clip.isSome = true ∧ (s.mag.closing.isSome = true ∨ r % 8 = 0 ∨ r % 8 = 7) ∧ x = 1))) ∧
    (∃ (s : State) (b : Superblock) (e : CatEntry), s.wf = true ∧ s.flag MGH_CTRL_EN = true ∧ s.flag MGH_CMD_STAT_BUSY = false ∧ s.mag.set = some b ∧ s.mag.catalogue.getLast? = some (some e) ∧ s.mag.clip = none ∧ s.flag MGH_CTRL_READ_ONLY = false ∧ s.setComplete = true ∧ e.state = 2) ∧
    (∃ (s : State) (b : Superblock) (e : CatEntry), s.wf = true ∧ s.flag MGH_CTRL_EN = true ∧ s.flag MGH_CMD_STAT_BUSY = false ∧ s.mag.set = some b ∧ s.mag.catalogue.getLast? = some (some e) ∧ s.mag.clip = none ∧ s.flag MGH_CTRL_READ_ONLY = false ∧ s.setComplete = true ∧ e.state ≠ 2) ∧
    (∃ (s : State) (b : Superblock) (i : Nat) (m : Nat), s.wf = true ∧ s.flag MGH_CTRL_EN = true ∧ s.flag MGH_CMD_STAT_BUSY = false ∧ s.mag.set = some b ∧ s.mag.clip = none ∧ s.flag MGH_CTRL_READ_ONLY = false ∧ s.setDegraded = true ∧ s.rebuildBay b = some i ∧ s.mag.members.findIdx? (·.isNone) = some m) ∧
    (∃ (s : State) (r : Nat), s.wf = true ∧ s.flag MGH_CTRL_EN = true ∧ s.flag MGH_CMD_STAT_BUSY = false ∧ ((s.mag.set = none ∧ r = 8) ∨ (s.mag.set.isSome = true ∧ s.mag.clip.isSome = true ∧ r = 6) ∨ (s.mag.set.isSome = true ∧ s.mag.clip = none ∧ ((s.flag MGH_CTRL_READ_ONLY = true ∧ r = 5) ∨ (s.flag MGH_CTRL_READ_ONLY = false ∧ s.setDegraded = false ∧ r = 8))))) ∧
    (∃ (s : State) (r : Nat), s.wf = true ∧ s.flag MGH_CTRL_EN = true ∧ s.flag MGH_CMD_STAT_BUSY = false ∧ ((s.mag.set = none ∧ r = 8) ∨ (s.mag.set.isSome = true ∧ s.mag.clip.isSome = true ∧ r = 6) ∨ (s.mag.set.isSome = true ∧ s.mag.clip = none ∧ ((s.flag MGH_CTRL_READ_ONLY = true ∧ r = 5) ∨ (s.flag MGH_CTRL_READ_ONLY = false ∧ s.setDegraded = false ∧ r = 8))))) ∧
    (∃ (s : State), s.wf = true ∧ s.get KPR_STATUS_STATE = 2) ∧
    (∃ (s : State) (b : Superblock) (i : Nat) (m : Nat), s.wf = true ∧ s.mag.set = some b ∧ s.mag.rebuild = some i ∧ s.mag.members.findIdx? (·.isNone) = some m ∧ i < 4) :=
  ⟨⟨(host z : State), (Instr.rebuild .host : Instr), by decide +kernel⟩,
   ⟨(host z : State), (7 : Nat), (Instr.closeClip .host 7 : Instr), by decide +kernel⟩,
   ⟨(z.with [(MGH_CTRL_EN, 0)] : State), (7 : Nat), (Instr.closeClip .mgc 7 : Instr), by decide +kernel⟩,
   ⟨((mghS z).with [(MGH_CMD_STAT_BUSY, 1)] : State), (15 : Nat), ((4, Instr.closeClip .mgc 15) : Nat × Instr), by decide +kernel⟩,
   ⟨(set4 (mghS z) : State), (9 : Nat), by decide +kernel⟩,
   ⟨(clp (set4 (mghS z)) : State), (9 : Nat), by decide +kernel⟩,
   ⟨(fBay 3 (fun x => { x with rqRun := true }) (set4 (mghS z)) : State), (9 : Nat), by decide +kernel⟩,
   ⟨((bay 3 (mghS z)).with [(MGH_FMT0_WIDTH, 1), (MGH_FMT0_CHUNK_LOG, 8)] : State), (8 : Nat), by decide +kernel⟩,
   ⟨((bay 0 (bay 1 (bay 2 (bay 3 (mghS z))))).with [(MGH_FMT0_WIDTH, 4), (MGH_FMT0_CHUNK_LOG, 2)] : State), (15 : Nat), by decide +kernel⟩,
   ⟨(clp (set4 (mghS z)) : State), (9 : Nat), (6 : Nat), by decide +kernel⟩,
   ⟨((mghS z).with [(MGH_FMT0_WIDTH, 4)] : State), (9 : Nat), (1 : Nat), by decide +kernel⟩,
   ⟨(set1 (mghS z) : State), (sb0 false 1 : Superblock), by decide +kernel⟩,
   ⟨(mghS z : State), (2 : Nat), by decide +kernel⟩,
   ⟨(clp (set1 (mghS z)) : State), (6 : Nat), by decide +kernel⟩,
   ⟨(fMag (fun m => { m with units := [su0] }) (clp (set1 (mghS z))) : State), (6 : Nat), by decide +kernel⟩,
   ⟨(clp (set1 (mghS z)) : State), (6 : Nat), by decide +kernel⟩,
   ⟨(mghS z : State), (3 : Nat), (7 : Nat), by decide +kernel⟩,
   ⟨(clp (set1 (mghS z)) : State), (15 : Nat), (1 : Nat), by decide +kernel⟩,
   ⟨(fMag (fun m => { m with catalogue := [some { cat0 with state := 2 }] }) (set1 (mghS z)) : State), (sb0 false 1 : Superblock), ({ cat0 with state := 2 } : CatEntry), by decide +kernel⟩,
   ⟨(fMag (fun m => { m with catalogue := [some cat0] }) (set1 (mghS z)) : State), (sb0 false 1 : Superblock), (cat0 : CatEntry), by decide +kernel⟩,
   ⟨((fMag (fun m => { m with members := [some 0, some 1, some 2, none], missing := 3 }) (set4 (mghS z))).with [(MGH_MAG_STATE_ROLE 3, 4)] : State), (sb0 true 4 : Superblock), (3 : Nat), (3 : Nat), by decide +kernel⟩,
   ⟨(mghS z : State), (8 : Nat), by decide +kernel⟩,
   ⟨(clp (set4 (mghS z)) : State), (6 : Nat), by decide +kernel⟩,
   ⟨(z.with [(KPR_STATUS_STATE, 2)] : State), by decide +kernel⟩,
   ⟨((fMag (fun m => { m with members := [some 0, some 1, some 2, none], missing := 3, rebuild := some 3 }) (set4 (mghS z))).with [(MGH_CMD_STAT_BUSY, 1)] : State), (sb0 true 4 : Superblock), (3 : Nat), (3 : Nat), by decide +kernel⟩⟩

theorem witness_commit_rounds :
    (∃ (s : State) (b : Superblock) (c : CatEntry), s.wf = true ∧ s.mag.set = some b ∧ s.mag.clip = some c ∧ (∀ p ∈ s.service, p.2 < 4) ∧ s.mag.powerFail = none ∧ s.mag.round = none ∧ (s.mag.units.any (·.ended) = true ∨ s.roundRows b ≤ s.stagedRows b ∨ s.mag.durable ≠ [] ∨ s.mag.lossDue = true)) ∧
    (∃ (s : State) (b : Superblock) (c : CatEntry), s.wf = true ∧ s.mag.set = some b ∧ s.mag.clip = some c ∧ (∀ p ∈ s.service, p.2 < 4) ∧ s.mag.powerFail = none ∧ s.mag.round = none ∧ (s.mag.units.any (·.ended) = true ∨ s.roundRows b ≤ s.stagedRows b ∨ s.mag.durable ≠ [] ∨ s.mag.lossDue = true)) ∧
    (∃ (s : State) (b : Superblock) (c : CatEntry), s.wf = true ∧ s.mag.set = some b ∧ s.mag.clip = some c ∧ (∀ p ∈ s.service, p.2 < 4) ∧ s.mag.powerFail = none ∧ s.mag.round = none ∧ (s.mag.units.any (·.ended) = true ∨ s.roundRows b ≤ s.stagedRows b ∨ s.mag.durable ≠ [] ∨ s.mag.lossDue = true)) ∧
    (∃ (s : State) (b : Superblock) (c : CatEntry), s.wf = true ∧ s.mag.set = some b ∧ s.mag.clip = some c ∧ (∀ p ∈ s.service, p.2 < 4) ∧ s.mag.powerFail = none ∧ s.mag.round.isSome = true) ∧
    (∃ (s : State) (b : Superblock) (c : CatEntry) (u : StagedUnit), s.wf = true ∧ s.mag.set = some b ∧ s.mag.clip = some c ∧ (∀ p ∈ s.service, p.2 < 4) ∧ s.mag.powerFail = none ∧ u ∈ s.mag.units ∧ s.mag.round = none ∧ u.written < u.ready b ∧ u.since + 10 ^ 6 ≤ s.now) ∧
    (∃ (s : State) (b : Superblock) (c : CatEntry), s.wf = true ∧ s.mag.set = some b ∧ s.mag.clip = some c ∧ (∀ p ∈ s.service, p.2 < 4) ∧ s.mag.powerFail = none ∧ ((∀ u ∈ s.mag.units, u.ready b ≤ u.written ∨ s.now < u.since + 10 ^ 6))) ∧
    (∃ (s : State) (b : Superblock) (c : CatEntry) (r : Round) (j : Nat) (us : List Nat), s.wf = true ∧ s.mag.set = some b ∧ s.mag.clip = some c ∧ (∀ p ∈ s.service, p.2 < 4) ∧ s.mag.powerFail = none ∧ s.mag.round = some r ∧ r.last = some j ∧ s.mag.closing = none ∧ (∀ p ∈ s.service, us.getD p.2 0 < 2 ^ 32)) :=
  ⟨⟨(fMag (fun m => { m with durable := [fe0] }) (clp (set1 (mghS z))) : State), (sb0 false 1 : Superblock), (cat0 : CatEntry), by decide +kernel⟩,
   ⟨(fMag (fun m => { m with units := [su0] }) (clp (set1 (mghS z))) : State), (sb0 false 1 : Superblock), (cat0 : CatEntry), by decide +kernel⟩,
   ⟨(fMag (fun m => { m with durable := List.replicate 3 fe0, lossDue := true }) (clp (set4 (mghS z))) : State), (sb0 true 4 : Superblock), (cat0 : CatEntry), by decide +kernel⟩,
   ⟨(fMag (fun m => { m with round := some ⟨[fe0], some 3, 1⟩ }) (clp (set1 (mghS z))) : State), (sb0 false 1 : Superblock), (cat0 : CatEntry), by decide +kernel⟩,
   ⟨(State.at_ 1000000 (fMag (fun m => { m with units := [su0] }) (clp (set1 (mghS z)))) : State), (sb0 false 1 : Superblock), (cat0 : CatEntry), (su0 : StagedUnit), by decide +kernel⟩,
   ⟨(State.at_ 999999 (fMag (fun m => { m with units := [su0] }) (clp (set1 (mghS z)))) : State), (sb0 false 1 : Superblock), (cat0 : CatEntry), by decide +kernel⟩,
   ⟨(fMag (fun m => { m with round := some ⟨[fe0], some 3, 1⟩ }) (clp (set1 (mghS z))) : State), (sb0 false 1 : Superblock), (cat0 : CatEntry), ((⟨[fe0], some 3, 1⟩ : Round) : Round), (3 : Nat), ([0, 0, 0, 3] : List Nat), by decide +kernel⟩⟩

set_option maxRecDepth 100000 in
theorem witness_scrub_and_reads :
    (∃ (s : State) (b : Superblock) (n : Nat), s.wf = true ∧ s.mag.set = some b ∧ n = s.service.length * 4096 * b.chunk ∧ s.get MGH_SCRUB_ROW_ROW < s.mag.appendRow ∧ s.scrubs n = false) ∧
    (∃ (s : State) (b : Superblock) (n : Nat) (m : Nat) (k : Nat) (c : List Nat), s.wf = true ∧ s.mag.set = some b ∧ n = s.service.length * 4096 * b.chunk ∧ s.get MGH_SCRUB_ROW_ROW < s.mag.appendRow ∧ s.scrubs n = true ∧ b.parity = true ∧ s.setComplete = true ∧ s.mag.members[m]? = some (some k) ∧ k < 4 ∧ b.chunkOf (s.media.filter fun p => p.1 != m) m (s.get MGH_SCRUB_ROW_ROW) = some c ∧ s.flag MGH_CTRL_READ_ONLY = false) ∧
    (∃ (s : State) (b : Superblock) (n : Nat), s.wf = true ∧ s.mag.set = some b ∧ n = s.service.length * 4096 * (s.metaLbas b).length ∧ s.mag.appendRow ≤ s.get MGH_SCRUB_ROW_ROW ∧ s.scrubs n = false) ∧
    (∃ (s : State) (b : Superblock) (n : Nat), s.wf = true ∧ s.mag.set = some b ∧ n = s.service.length * 4096 * (s.metaLbas b).length ∧ s.mag.appendRow ≤ s.get MGH_SCRUB_ROW_ROW ∧ s.scrubs n = true ∧ s.badMeta b = []) ∧
    (∃ (s : State) (b : Superblock) (n : Nat) (m : Nat) (k : Nat) (lba : Nat) (l : List Nat), s.wf = true ∧ s.mag.set = some b ∧ n = s.service.length * 4096 * (s.metaLbas b).length ∧ s.mag.appendRow ≤ s.get MGH_SCRUB_ROW_ROW ∧ s.scrubs n = true ∧ s.badMeta b = [(m, lba)] ∧ s.mag.members[m]? = some (some k) ∧ k < 4 ∧ s.flag MGH_CTRL_READ_ONLY = false ∧ (s.media.filter fun p => p.1 != m).findSome? (fun p => if b.metaOk lba (blockOn p.2 lba) then some (blockOn p.2 lba) else none) = some l) ∧
    (∃ (s : State) (b : Superblock) (bay : Nat), s.wf = true ∧ s.mag.set = some b ∧ bay < 4 ∧ (s.bay bay).rqRun = false) ∧
    (∃ (s : State) (b : Superblock) (bay : Nat) (a : Nat) (l : List Nat), s.wf = true ∧ s.mag.set = some b ∧ bay < 4 ∧ (s.bay bay).rqRun = true ∧ a = s.getAddr (MGH_MAG_RQ_BASE_ADDR bay) + 32 * s.get (MGH_MAG_RQ_HEAD_INDEX bay) ∧ s.usable a 24 ∧ (s.memRead a 24).1 = some l ∧ rdLe l 20 4 % 2 = 0) ∧
    (∃ (s : State) (b : Superblock) (bay : Nat) (a : Nat) (l : List Nat) (n : Nat) (dst : Nat), s.wf = true ∧ s.mag.set = some b ∧ bay < 4 ∧ (s.bay bay).rqRun = true ∧ a = s.getAddr (MGH_MAG_RQ_BASE_ADDR bay) + 32 * s.get (MGH_MAG_RQ_HEAD_INDEX bay) ∧ s.usable a 24 ∧ (s.memRead a 24).1 = some l ∧ rdLe l 20 4 % 2 = 1 ∧ n = rdLe l 16 4 ∧ dst = rdLe l 8 8 ∧ s.bayState bay = 4 ∧ 1 ≤ n ∧ n ≤ 2048 ∧ dst % 64 = 0 ∧ s.usable dst (4096 * n)) ∧
    (∃ (s : State) (b : Superblock) (bay : Nat) (a : Nat) (l : List Nat) (n : Nat) (dst : Nat) (st : Nat) (ok : Bool), s.wf = true ∧ s.mag.set = some b ∧ bay < 4 ∧ (s.bay bay).rqRun = true ∧ a = s.getAddr (MGH_MAG_RQ_BASE_ADDR bay) + 32 * s.get (MGH_MAG_RQ_HEAD_INDEX bay) ∧ s.usable a 24 ∧ (s.memRead a 24).1 = some l ∧ rdLe l 20 4 % 2 = 1 ∧ n = rdLe l 16 4 ∧ dst = rdLe l 8 8 ∧ ((s.bayState bay ≠ 4 ∧ st = 3) ∨ (s.bayState bay = 4 ∧ (n = 0 ∨ 2048 < n ∨ dst % 64 ≠ 0) ∧ st = 2) ∨ (s.bayState bay = 4 ∧ 1 ≤ n ∧ n ≤ 2048 ∧ dst % 64 = 0 ∧ ok = false ∧ st = 1))) ∧
    (∃ (s : State) (b : Superblock) (bay : Nat) (a : Nat) (l : List Nat) (n : Nat) (dst : Nat) (st : Nat) (ok : Bool), s.wf = true ∧ s.mag.set = some b ∧ bay < 4 ∧ (s.bay bay).rqRun = true ∧ a = s.getAddr (MGH_MAG_RQ_BASE_ADDR bay) + 32 * s.get (MGH_MAG_RQ_HEAD_INDEX bay) ∧ s.usable a 24 ∧ (s.memRead a 24).1 = some l ∧ rdLe l 20 4 % 2 = 1 ∧ n = rdLe l 16 4 ∧ dst = rdLe l 8 8 ∧ ((s.bayState bay ≠ 4 ∧ st = 3) ∨ (s.bayState bay = 4 ∧ (n = 0 ∨ 2048 < n ∨ dst % 64 ≠ 0) ∧ st = 2) ∨ (s.bayState bay = 4 ∧ 1 ≤ n ∧ n ≤ 2048 ∧ dst % 64 = 0 ∧ ok = false ∧ st = 1))) :=
  ⟨⟨(setS [some 3] false 5 z : State), (sbS false 1 : Superblock), (4096 : Nat), by decide +kernel⟩,
   ⟨((setS [some 0, some 1, some 2, some 3] true 5 (mghS z)).with [(MGH_SCRUB_ROW_ROW, 4)] : State), (sbS true 4 : Superblock), (16384 : Nat), (3 : Nat), (3 : Nat), (List.replicate 4096 0 : List Nat), by decide +kernel⟩,
   ⟨(setS [some 3] false 0 z : State), (sbS false 1 : Superblock), (0 : Nat), by decide +kernel⟩,
   ⟨(setS [some 3] false 0 (mghS z) : State), (sbS false 1 : Superblock), (0 : Nat), by decide +kernel⟩,
   ⟨(fMag (fun m => { m with catalogue := [none] }) (fBay 0 (fun x => { x with media := [(3, catB.toBytes)] }) (fBay 1 (fun x => { x with media := [(3, catB.toBytes)] }) (fBay 2 (fun x => { x with media := [(3, catB.toBytes)] }) (setS [some 0, some 1, some 2, some 3] true 0 (mghS z))))) : State), (sbS true 4 : Superblock), (16384 : Nat), (3 : Nat), (3 : Nat), (3 : Nat), (blockOn [(3, catB.toBytes)] 3 : List Nat), by decide +kernel⟩,
   ⟨(set1 (mghS z) : State), (sb0 false 1 : Superblock), (3 : Nat), by decide +kernel⟩,
   ⟨(fBay 3 (fun x => { x with rqRun := true }) (set1 (mem (mgc z))) : State), (sb0 false 1 : Superblock), (3 : Nat), (0 : Nat), (List.replicate 24 0 : List Nat), by decide +kernel⟩,
   ⟨(wq2 (fBay 3 (fun x => { x with rqRun := true, media := [(7, [1, 2])] }) ((set1 (mem (mgc z))).bytesAt 0 (le 8 7 ++ le 8 65536 ++ le 4 1 ++ le 4 1))) : State), (sb0 false 1 : Superblock), (3 : Nat), (0 : Nat), (le 8 7 ++ le 8 65536 ++ le 4 1 ++ le 4 1 : List Nat), (1 : Nat), (65536 : Nat), by decide +kernel⟩,
   ⟨(fBay 3 (fun x => { x with rqRun := true, media := [(7, [1, 2])] }) ((set1 (mem (mgc z))).bytesAt 0 (le 8 7 ++ le 8 65536 ++ le 4 1 ++ le 4 1)) : State), (sb0 false 1 : Superblock), (3 : Nat), (0 : Nat), (le 8 7 ++ le 8 65536 ++ le 4 1 ++ le 4 1 : List Nat), (1 : Nat), (65536 : Nat), (1 : Nat), (false : Bool), by decide +kernel⟩,
   ⟨(fBay 3 (fun x => { x with rqRun := true, media := [(7, [1, 2])] }) ((set1 (mem (mgc z))).bytesAt 0 (le 8 7 ++ le 8 65537 ++ le 4 1 ++ le 4 1)) : State), (sb0 false 1 : Superblock), (3 : Nat), (0 : Nat), (le 8 7 ++ le 8 65537 ++ le 4 1 ++ le 4 1 : List Nat), (1 : Nat), (65537 : Nat), (2 : Nat), (true : Bool), by decide +kernel⟩⟩

theorem witness_dram_accesses :
    (∃ (s : State) (r : DramReq) (l : List EccFinding), s.wf = true ∧ r.data = none ∧ s.allOn r.addr r.len = true ∧ s.reqWaits s.lmc.held r = false ∧ (reqDevice r = false ∨ r.addr + max r.len 1 ≤ 2 ^ 32) ∧ (∀ e ∈ l, e = .clean) ∧ s.poisonedIn r.addr r.len = false) ∧
    (∃ (s : State) (r : DramReq) (l : List EccFinding), s.wf = true ∧ r.data = none ∧ s.allOn r.addr r.len = true ∧ s.reqWaits s.lmc.held r = false ∧ (reqDevice r = false ∨ r.addr + max r.len 1 ≤ 2 ^ 32) ∧ (∀ e ∈ l, e = .clean) ∧ s.poisonedIn r.addr r.len = true) ∧
    (∃ (s : State) (r : DramReq) (l : List EccFinding) (y : Nat) (h : Nat) (q : Nat), s.wf = true ∧ r.data = none ∧ s.allOn r.addr r.len = true ∧ s.reqWaits s.lmc.held r = false ∧ (reqDevice r = false ∨ r.addr + max r.len 1 ≤ 2 ^ 32) ∧ linesOf r.addr r.len = [r.addr / 64] ∧ l = [.uncorrectable y h] ∧ s.serving (64 * (r.addr / 64)) = some q ∧ q < 8 ∧ s.lmc.migration = none) ∧
    (∃ (s : State) (r : DramReq), s.wf = true ∧ r.data = none ∧ s.allOn r.addr r.len = true ∧ s.reqWaits s.lmc.held r = true) ∧
    (∃ (s : State) (r : DramReq) (d : List Byte) (l : List EccFinding), s.wf = true ∧ r.data = some d ∧ s.allOn r.addr d.length = true ∧ (∀ x ∈ linesOf r.addr d.length, s.dramWaits (64 * x) = false ∧ s.biasWaits (64 * x) = false) ∧ s.lmc.held = [] ∧ (∀ ch, (s.wqOf ch).length + (linesOf r.addr d.length).length ≤ 64) ∧ (reqDevice r = false ∨ r.addr + d.length ≤ 2 ^ 32) ∧ (∀ e ∈ l, e = .clean)) ∧
    (∃ (s : State) (r : DramReq), s.wf = true ∧ s.allOn r.addr (reqSize r) = false ∧ r.data = none) ∧
    (∃ (s : State) (r : DramReq) (d : List (Byte)), s.wf = true ∧ s.allOn r.addr (reqSize r) = false ∧ r.data = some d ∧ d ≠ [] ∧ r.addr % 64 + d.length ≤ 64) ∧
    (∃ (s : State) (ch : Nat), s.wf = true ∧ s.chOn ch = true ∧ s.chTrains ch = false ∧ s.lmc.held = [] ∧ (s.wqOf ch).length ≤ 64 ∧ (s.get LMC_WQ_HIGH ≤ (s.wqOf ch).length ∨ (∃ e ∈ s.wqOf ch, s.aged e.since = true))) ∧
    (∃ (s : State) (ch : Nat), s.wf = true ∧ s.chOn ch = true ∧ s.chTrains ch = false ∧ s.lmc.held = [] ∧ (s.wqOf ch).length ≤ 64 ∧ (s.wqOf ch).length < s.get LMC_WQ_HIGH ∧ (∀ e ∈ s.wqOf ch, s.aged e.since = false)) ∧
    (∃ (s : State) (ch : Nat), s.wf = true ∧ (s.chOn ch = false ∨ s.chTrains ch = true)) ∧
    (∃ (s : State) (ch : Nat) (cs : Nat) (bank : Nat) (k : Nat), s.wf = true ∧ swf (fun _ => DramBank.mk none false 0 2) s.lmc.banks = true ∧ ch < 4 ∧ cs < 2 ∧ bank < 16 ∧ k = 16 * (2 * ch + cs) + bank ∧ (s.bank k).left = true ∧ 10 * s.get LMC_SCHED_OPEN_MAX ≤ s.now - (s.bank k).last ∧ s.chOn ch = true) ∧
    (∃ (s : State) (r : Nat) (bank : Nat), s.wf = true ∧ swf (fun _ => DramBank.mk none false 0 2) s.lmc.banks = true ∧ r < 8 ∧ bank < 16 ∧ s.rank r ≠ 0 ∧ s.rank r ≠ 5 ∧ s.chOn (r / 2) = true ∧ s.chTrains (r / 2) = false) ∧
    (∃ (s : State) (r : Nat) (l : List (Nat × Bool × Int)), s.wf = true ∧ r < 8 ∧ l ≠ [] ∧ s.rank r ≠ 0 ∧ s.rank r ≠ 5 ∧ s.chOn (r / 2) = true) ∧
    (∃ (s : State) (r : Nat), s.wf = true ∧ r < 8 ∧ s.get LMC_SCRUB_HOURS ≠ 0 ∧ [1, 2, 3, 4].contains (s.rank r) = true ∧ s.chOn (r / 2) = true ∧ s.chTrains (r / 2) = false ∧ s.lmc.migration = none) ∧
    (∃ (s : State) (r : Nat), s.wf = true ∧ r < 8 ∧ s.get LMC_SCRUB_HOURS = 0) :=
  ⟨⟨(dms rd0 ((mem z).bytesAt 62 [1, 2, 3, 4]) : State), (rd0 : DramReq), (([] : List EccFinding) : List EccFinding), by decide +kernel⟩,
   ⟨({ dms rd0 ((mem z).bytesAt 62 [1, 2, 3, 4]) with poison := [(1, true)] } : State), (rd0 : DramReq), (([] : List EccFinding) : List EccFinding), by decide +kernel⟩,
   ⟨(dms rd1 ((clean1 (mem z)).bytesAt 62 [1, 2]) : State), (rd1 : DramReq), ([EccFinding.uncorrectable 5 1] : List EccFinding), (5 : Nat), (1 : Nat), (0 : Nat), by decide +kernel⟩,
   ⟨(fCxl (fun c => { c with change := some ⟨0, true⟩ }) (dms ⟨1, 2 ^ 32, 4, none⟩ (mem z)) : State), (⟨1, 2 ^ 32, 4, none⟩ : DramReq), by decide +kernel⟩,
   ⟨(mem z : State), (wr0 : DramReq), ([1#8, 2#8, 0#8] : List Byte), (([] : List EccFinding) : List EccFinding), by decide +kernel, by decide +kernel, by decide +kernel, by decide +kernel, by decide +kernel, (fun _ => (by decide : 2 ≤ 64)), by decide +kernel⟩,
   ⟨(z : State), (rd0 : DramReq), by decide +kernel⟩,
   ⟨(z : State), (⟨1, 62, 2, some [1#8, 2#8]⟩ : DramReq), ([1#8, 2#8] : List (Byte)), by decide +kernel⟩,
   ⟨(fLmc (fun m => { m with wq := (List.range 50).map fun i => ⟨i, 0, i, 3, [], false⟩ }) (mem z) : State), (0 : Nat), by decide +kernel⟩,
   ⟨(mem z : State), (0 : Nat), by decide +kernel⟩,
   ⟨(z : State), (3 : Nat), by decide +kernel⟩,
   ⟨(fLmc (fun m => { m with banks := [(127, ⟨some 3, true, 0, 2⟩)] }) (State.at_ 10000 (mem z)) : State), (3 : Nat), (1 : Nat), (15 : Nat), (127 : Nat), by decide +kernel⟩,
   ⟨(fLmc (fun m => { m with banks := [(127, ⟨some 3, false, 0, 2⟩)] }) ((mem z).with [(LMC_RANK_STATE 7, 1)]) : State), (7 : Nat), (15 : Nat), by decide +kernel⟩,
   ⟨((mem z).with [(LMC_RANK_STATE 0, 1)] : State), (0 : Nat), (([(31, true, 9)] : List (Nat × Bool × Int)) : List (Nat × Bool × Int)), by decide +kernel⟩,
   ⟨((mem z).with [(LMC_RANK_STATE 7, 4), (LMC_SCRUB_HOURS, 5)] : State), (7 : Nat), by decide +kernel⟩,
   ⟨(z.with [(LMC_SCRUB_HOURS, 0)] : State), (7 : Nat), by decide +kernel⟩⟩

theorem witness_memory_controller :
    (∃ (s : State), s.wf = true ∧ s.flag LMC_CTRL_EN = false) ∧
    (∃ (s : State), s.wf = true ∧ s.flag LMC_CTRL_EN = true) ∧
    (∃ (s : State) (ranks : List (List Nat)) (rfm : Bool) (failed : Bool), s.wf = true ∧ s.lmc.initFrom.isSome = true ∧ s.initErr ranks rfm failed ≠ 0) ∧
    (∃ (s : State) (ranks : List (List Nat)) (rfm : Bool) (failed : Bool), s.wf = true ∧ s.lmc.initFrom.isSome = true ∧ s.initErr ranks rfm failed = 0) ∧
    (∃ (s : State), s.wf = true ∧ s.lmc.initFrom = none) ∧
    (∃ (s : State) (r : Nat) (drift : Nat), s.wf = true ∧ r < 8 ∧ s.lmc.timing.length = 8 ∧ s.beaconRuns = true ∧ s.flag LMC_TRAIN_AUTO = true ∧ s.get LMC_TRAIN_DRIFT ≤ drift ∧ [1, 2, 3, 4].contains (s.rank r) = true) ∧
    (∃ (s : State) (x : RankTiming) (d : Nat), s.wf = true ∧ x ∈ s.lmc.timing ∧ x.due = some d ∧ 10 ^ 9 ≤ s.now - d) ∧
    (∃ (s : State) (r : Nat), s.wf = true ∧ r < 8 ∧ s.beaconRuns = true ∧ s.lmc.held = [] ∧ s.lmc.training.length = 4 ∧ s.lmc.training.getD (r / 2) none = some r) ∧
    (∃ (s : State) (r : Nat) (d : Nat), s.wf = true ∧ r < 8 ∧ s.beaconRuns = false ∧ s.rank r = 1 ∧ s.lmc.retireDue = none ∧ s.lmc.migration = none ∧ s.spareRank r = some d) ∧
    (∃ (s : State) (r : Nat), s.wf = true ∧ r < 8 ∧ s.rank r = 1 ∧ s.lmc.retireDue = none ∧ s.lmc.migration = none ∧ s.spareRank r = none) ∧
    (∃ (s : State) (r : Nat), s.wf = true ∧ r < 8 ∧ s.rank r = 2 ∧ s.lmc.retireDue ≠ some r) ∧
    (∃ (s : State) (r : Nat) (d : Nat), s.wf = true ∧ r < 8 ∧ s.beaconRuns = true ∧ s.get LMC_CE_LIMIT_COUNT ≠ 0 ∧ s.get LMC_CE_LIMIT_COUNT ≤ (s.lmc.timing.getD r RankTiming.reset).ceCount ∧ (s.lmc.timing.getD r RankTiming.reset).ceHour = s.dtcNs / (3600 * 10 ^ 9) ∧ s.rank r = 1 ∧ s.lmc.retireDue = none ∧ s.lmc.migration = none ∧ s.spareRank r = some d ∧ s.lmc.noSpare.contains r = false) ∧
    (∃ (s : State) (r : Nat), s.wf = true ∧ r < 8 ∧ s.flag (LMC_CH_STAT_FROZEN (r / 2)) = true ∧ s.lmc.held = [] ∧ (∀ e ∈ s.wqOf (r / 2), e.old.length = 64)) ∧
    (∃ (s : State) (r : Nat), s.wf = true ∧ r < 8 ∧ s.flag (LMC_CH_STAT_FROZEN (r / 2)) = false) ∧
    (∃ (s : State) (g : Migration), s.wf = true ∧ s.lmc.migration = some g ∧ g.copied = false ∧ s.get LMC_MIG_PTR_BYTES < s.lmc.rankBytes ∧ ((∀ r, r = g.src ∨ r = g.dst → s.chOn (rankCh r) = true ∧ s.chTrains (rankCh r) = false))) ∧
    (∃ (s : State) (g : Migration), s.wf = true ∧ s.lmc.migration = some g ∧ s.lmc.rankBytes ≤ s.get LMC_MIG_PTR_BYTES ∧ s.beaconRuns = true) ∧
    (∃ (s : State) (g : Migration), s.wf = true ∧ s.lmc.migration = some g ∧ s.lmc.rankBytes ≤ s.get LMC_MIG_PTR_BYTES ∧ s.beaconRuns = false ∧ g.src < 8 ∧ g.dst < 8 ∧ g.src ≠ g.dst) :=
  ⟨⟨(State.at_ 5 z : State), by decide +kernel⟩,
   ⟨(z.with [(LMC_CTRL_EN, 1)] : State), by decide +kernel⟩,
   ⟨(fLmc (fun m => { m with initFrom := some 0 }) z : State), (([] : List (List Nat)) : List (List Nat)), (false : Bool), (false : Bool), by decide +kernel⟩,
   ⟨(fLmc (fun m => { m with initFrom := some 0 }) z : State), ([[32, 32], [32, 32], [32, 32], [32, 32]] : List (List Nat)), (false : Bool), (false : Bool), by decide +kernel⟩,
   ⟨(z : State), by decide +kernel⟩,
   ⟨(run ((mem z).with [(LMC_RANK_STATE 7, 1)]) : State), (7 : Nat), (65535 : Nat), by decide +kernel⟩,
   ⟨(tim 2 (fun t => { t with due := some 0 }) (State.at_ 1000000000 (mem z)) : State), ({ RankTiming.reset with due := some 0 } : RankTiming), (0 : Nat), by decide +kernel⟩,
   ⟨(fLmc (fun m => { m with training := m.training.set 3 (some 7) }) (run (mem z)) : State), (7 : Nat), by decide +kernel⟩,
   ⟨(clean1 (mem z) : State), (0 : Nat), (2 : Nat), by decide +kernel⟩,
   ⟨((mem z).with [(LMC_RANK_STATE 0, 1)] : State), (0 : Nat), by decide +kernel⟩,
   ⟨((mem z).with [(LMC_RANK_STATE 3, 2)] : State), (3 : Nat), by decide +kernel⟩,
   ⟨(tim 0 (fun t => { t with ceCount := 4096, ceHour := 0 }) (run ((clean1 (mem z)).with [(LMC_CE_LIMIT_COUNT, 4096)])) : State), (0 : Nat), (2 : Nat), by decide +kernel⟩,
   ⟨(fLmc (fun m => { m with wq := [⟨1, 3, 0, 3, List.replicate 64 0#8, false⟩, ⟨2, 0, 0, 3, [], false⟩] }) (z.with [(LMC_CH_STAT_FROZEN 3, 1)]) : State), (6 : Nat), by decide +kernel⟩,
   ⟨(z : State), (6 : Nat), by decide +kernel⟩,
   ⟨(fLmc (fun m => { m with migration := some ⟨0, 2, false⟩ }) (mem z) : State), ((⟨0, 2, false⟩ : Migration) : Migration), by decide +kernel, by decide +kernel, by decide +kernel, by decide +kernel, (fun r h => by rcases h with rfl | rfl <;> decide +kernel)⟩,
   ⟨(fLmc (fun m => { m with migration := some ⟨0, 2, false⟩ }) (run ((mem z).with [(LMC_MIG_PTR_BYTES, 2 ^ 33)])) : State), ((⟨0, 2, false⟩ : Migration) : Migration), by decide +kernel⟩,
   ⟨(fLmc (fun m => { m with migration := some ⟨0, 2, false⟩ }) ((mem z).with [(LMC_MIG_PTR_BYTES, 2 ^ 33)]) : State), ((⟨0, 2, false⟩ : Migration) : Migration), by decide +kernel⟩⟩

theorem witness_output_queues :
    (∃ (s : State) (q : Nat) (epoch : Nat) (row : Nat) (column : Nat) (kind : Nat) (flags : Nat) (body : List (Byte)), s.wf = true ∧ q < 72 ∧ (s.queue q).lanes.length = 2 ∧ s.flag OQ_CTRL_EN = true ∧ (s.lane q 0).ptr = (s.lane q 0).copy ∧ 64 ≤ q ∧ (s.lane q 0).gap = none ∧ (s.lane q 0).fill + (QEntry.mk epoch row column kind flags (toNats body) none).size + 4096 ≤ s.laneCap q) ∧
    (∃ (s : State) (q : Nat) (epoch : Nat) (row : Nat) (column : Nat) (flags : Nat) (body : List (Byte)), s.wf = true ∧ q < 72 ∧ (s.queue q).lanes.length = 2 ∧ s.flag OQ_CTRL_EN = true ∧ (s.lane q 0).ptr = (s.lane q 0).copy ∧ 64 ≤ q ∧ (s.lane q 0).entries.all (fun e => !e.isTile) = true ∧ (QEntry.mk epoch row column 3 flags (toNats body) none).size + 4096 ≤ s.laneCap q) ∧
    (∃ (s : State) (q : Nat) (epoch : Nat) (row : Nat) (column : Nat) (flags : Nat) (body : List (Byte)), s.wf = true ∧ q < 72 ∧ (s.queue q).lanes.length = 2 ∧ s.flag OQ_CTRL_EN = true ∧ (s.lane q 0).ptr = (s.lane q 0).copy ∧ 64 ≤ q ∧ (s.lane q 0).gap = none ∧ s.laneCap q < (s.lane q 0).fill + (QEntry.mk epoch row column 3 flags (toNats body) none).size + 4096) ∧
    (∃ (s : State) (q : Nat) (epoch : Nat) (kind : Nat), s.wf = true ∧ q < 72 ∧ (s.queue q).lanes.length = 2 ∧ s.flag OQ_CTRL_EN = true ∧ (s.lane q 0).ptr = (s.lane q 0).copy ∧ q < 64 ∧ kind ≤ 2 ∧ s.frameOf (epoch % 2 ^ 32) = none) ∧
    (∃ (s : State) (q : Nat) (off : Nat) (data : List Byte), s.wf = true ∧ q < 72 ∧ (s.queue q).lanes.length = 2 ∧ s.flag OQ_CTRL_EN = true ∧ (s.lane q 0).ptr = (s.lane q 0).copy ∧ pushQueue q = true ∧ (data.length = 4 ∨ data.length = 8 ∨ data.length = 64) ∧ off % data.length = 0 ∧ off + data.length ≤ 4096) ∧
    (∃ (s : State) (q : Nat) (off : Nat) (data : List Byte), s.wf = true ∧ q < 72 ∧ (s.queue q).lanes.length = 2 ∧ s.flag OQ_CTRL_EN = true ∧ (s.lane q 0).ptr = (s.lane q 0).copy ∧ pushQueue q = true ∧ (data.length = 4 ∨ data.length = 8 ∨ data.length = 64) ∧ off % data.length = 0 ∧ off + data.length ≤ 4096) ∧
    (∃ (s : State) (q : Nat) (data : List Byte), s.wf = true ∧ q < 72 ∧ (s.queue q).lanes.length = 2 ∧ s.flag OQ_CTRL_EN = true ∧ (s.lane q 0).ptr = (s.lane q 0).copy ∧ pushQueue q = true ∧ data.length ≠ 4 ∧ data.length ≠ 8 ∧ data.length ≠ 64) ∧
    (∃ (s : State) (q : Nat), s.wf = true ∧ q < 72 ∧ (s.queue q).lanes.length = 2 ∧ s.flag OQ_CTRL_EN = true ∧ (s.lane q 0).ptr = (s.lane q 0).copy ∧ pushQueue q = false) ∧
    (∃ (s : State) (q : Nat) (l : List Nat), s.wf = true ∧ q < 72 ∧ (s.queue q).lanes.length = 2 ∧ s.flag OQ_CTRL_EN = true ∧ (s.lane q 0).ptr = (s.lane q 0).copy ∧ q = 69 ∧ (s.queue q).push = l ∧ l ≠ [] ∧ (rdLe l 0 4 + 2 ^ 32 - s.epoch) % 2 ^ 32 ≤ 16 ∧ s.metaWritten (rdLe l 0 4) = false ∧ (s.lane q 0).gap = none ∧ (s.lane q 0).fill + (QEntry.mk (rdLe l 0 4) 0xFFFF 0xFF 3 0 (l.drop 4) none).size + 4096 ≤ s.laneCap q) ∧
    (∃ (s : State) (q : Nat) (l : List Nat), s.wf = true ∧ q < 72 ∧ (s.queue q).lanes.length = 2 ∧ s.flag OQ_CTRL_EN = true ∧ (s.lane q 0).ptr = (s.lane q 0).copy ∧ pushQueue q = true ∧ (s.queue q).push = l ∧ l ≠ [] ∧ 16 < (rdLe l 0 4 + 2 ^ 32 - s.epoch) % 2 ^ 32) ∧
    (∃ (s : State) (q : Nat) (e : QEntry) (es : List QEntry), s.wf = true ∧ q < 72 ∧ (s.queue q).lanes.length = 2 ∧ s.flag OQ_CTRL_EN = true ∧ (s.lane q 0).ptr = (s.lane q 0).copy ∧ 67 ≤ q ∧ (s.lane q 0).entries = e :: es) ∧
    (∃ (s : State) (q : Nat), s.wf = true ∧ q < 72 ∧ (s.queue q).lanes.length = 2 ∧ s.flag OQ_CTRL_EN = true ∧ (s.lane q 0).ptr = (s.lane q 0).copy ∧ q < 67) ∧
    (∃ (s : State) (q : Nat), s.wf = true ∧ q < 72 ∧ (s.queue q).lanes.length = 2 ∧ s.flag OQ_CTRL_EN = true ∧ (s.lane q 0).ptr = (s.lane q 0).copy ∧ 67 ≤ q ∧ (s.lane q 0).entries = []) :=
  ⟨⟨(oq z : State), (64 : Nat), (5 : Nat), (1 : Nat), (1 : Nat), (3 : Nat), (0 : Nat), ([1#8] : List (Byte)), by decide +kernel⟩,
   ⟨(setLane 64 fullL (oq z) : State), (64 : Nat), (5 : Nat), (1 : Nat), (1 : Nat), (0 : Nat), ([1#8] : List (Byte)), by decide +kernel⟩,
   ⟨(setLane 64 fullL (oq z) : State), (64 : Nat), (5 : Nat), (1 : Nat), (1 : Nat), (0 : Nat), ([1#8] : List (Byte)), by decide +kernel⟩,
   ⟨(oq z : State), (63 : Nat), (5 : Nat), (2 : Nat), by decide +kernel⟩,
   ⟨(oq z : State), (69 : Nat), (4032 : Nat), (List.replicate 64 1#8 : List Byte), by decide +kernel⟩,
   ⟨(oq z : State), (69 : Nat), (4092 : Nat), (List.replicate 4 1#8 : List Byte), by decide +kernel⟩,
   ⟨(oq z : State), (69 : Nat), (List.replicate 3 1#8 : List Byte), by decide +kernel⟩,
   ⟨(oq z : State), (64 : Nat), by decide +kernel⟩,
   ⟨(fQ 69 (fun o => { o with push := [16, 0, 0, 0, 9] }) (oq z) : State), (69 : Nat), ([16, 0, 0, 0, 9] : List Nat), by decide +kernel⟩,
   ⟨(fQ 69 (fun o => { o with push := [17, 0, 0, 0, 9] }) (oq z) : State), (69 : Nat), ([17, 0, 0, 0, 9] : List Nat), by decide +kernel⟩,
   ⟨(setLane 67 (laneOf [five]) (oq z) : State), (67 : Nat), (five : QEntry), (([] : List QEntry) : List QEntry), by decide +kernel⟩,
   ⟨(oq z : State), (64 : Nat), by decide +kernel⟩,
   ⟨(oq z : State), (67 : Nat), by decide +kernel⟩⟩

theorem witness_pixel_port_lanes :
    (∃ (s : State) (a : Agent) (l : Fld), s.wf = true ∧ l = (if a = .host then BU_LAST_WR_EPOCH_HOST_EPOCH else BU_LAST_WR_EPOCH_MGC_EPOCH) ∧ s.flag KPR_STATUS_HOLDUP = false ∧ s.flag PPR_CTRL_EN = false) ∧
    (∃ (s : State) (a : Agent) (l : Fld), s.wf = true ∧ l = (if a = .host then BU_LAST_WR_EPOCH_HOST_EPOCH else BU_LAST_WR_EPOCH_MGC_EPOCH) ∧ s.flag KPR_STATUS_HOLDUP = false ∧ s.flag PPR_CTRL_EN = true) ∧
    (∃ (s : State) (a : Agent) (l : Fld) (n : Nat), s.wf = true ∧ l = (if a = .host then BU_LAST_WR_EPOCH_HOST_EPOCH else BU_LAST_WR_EPOCH_MGC_EPOCH) ∧ s.flag KPR_STATUS_HOLDUP = false ∧ n < 17 ∧ n < s.ppr.lanes.length ∧ s.laneOn n = true ∧ (s.ppl n).lock = false) ∧
    (∃ (s : State) (a : Agent) (l : Fld) (k : Nat), s.wf = true ∧ l = (if a = .host then BU_LAST_WR_EPOCH_HOST_EPOCH else BU_LAST_WR_EPOCH_MGC_EPOCH) ∧ s.flag KPR_STATUS_HOLDUP = false ∧ s.linkEn k = true ∧ s.linkUp k = false ∧ s.substBusy k = false ∧ ((∀ b, aget s.ppr.trainAt k = some b → b + 100000 ≤ s.now))) ∧
    (∃ (s : State) (a : Agent) (l : Fld) (k : Nat), s.wf = true ∧ l = (if a = .host then BU_LAST_WR_EPOCH_HOST_EPOCH else BU_LAST_WR_EPOCH_MGC_EPOCH) ∧ s.flag KPR_STATUS_HOLDUP = false ∧ s.linkEn k = true ∧ s.linkUp k = false ∧ s.substBusy k = false ∧ ((∀ b, aget s.ppr.trainAt k = some b → b + 100000 ≤ s.now))) ∧
    (∃ (s : State) (a : Agent) (l : Fld) (n : Nat) (logical : Nat) (link : Nat), s.wf = true ∧ l = (if a = .host then BU_LAST_WR_EPOCH_HOST_EPOCH else BU_LAST_WR_EPOCH_MGC_EPOCH) ∧ s.flag KPR_STATUS_HOLDUP = false ∧ n < 17 ∧ n < s.ppr.lanes.length ∧ s.laneOn n = true ∧ (s.ppl n).lock = true ∧ s.markerBad n logical link = true) ∧
    (∃ (s : State) (a : Agent) (l : Fld) (n : Nat) (logical : Nat) (link : Nat), s.wf = true ∧ l = (if a = .host then BU_LAST_WR_EPOCH_HOST_EPOCH else BU_LAST_WR_EPOCH_MGC_EPOCH) ∧ s.flag KPR_STATUS_HOLDUP = false ∧ n < 17 ∧ n < s.ppr.lanes.length ∧ s.laneOn n = true ∧ (s.ppl n).lock = true ∧ s.markerBad n logical link = true) ∧
    (∃ (s : State) (a : Agent) (l : Fld) (n : Nat) (logical : Nat) (link : Nat) (slot : Nat), s.wf = true ∧ l = (if a = .host then BU_LAST_WR_EPOCH_HOST_EPOCH else BU_LAST_WR_EPOCH_MGC_EPOCH) ∧ s.flag KPR_STATUS_HOLDUP = false ∧ n < 17 ∧ n < s.ppr.lanes.length ∧ s.laneOn n = true ∧ (s.ppl n).lock = true ∧ s.markerBad n logical link = false ∧ s.ppr.subst = none ∧ (s.ppl n).count.isSome = true ∧ (s.ppl n).logical = logical ∧ (s.ppl n).link = link ∧ slot = (s.ppl n).slot + 4096 ∧ (∀ k, s.linkUp k = false)) :=
  ⟨⟨(State.at_ 9 (z.with [(PPR_CTRL_LINK_EN, 15)]) : State), (.mgc : Agent), (BU_LAST_WR_EPOCH_MGC_EPOCH : Fld), by decide +kernel⟩,
   ⟨(State.at_ 9 (pp z) : State), (.mgc : Agent), (BU_LAST_WR_EPOCH_MGC_EPOCH : Fld), by decide +kernel⟩,
   ⟨(pp z : State), (.mgc : Agent), (BU_LAST_WR_EPOCH_MGC_EPOCH : Fld), (16 : Nat), by decide +kernel⟩,
   ⟨(State.at_ 100000 (fPpr (fun x => { x with trainAt := [(3, 0)] }) (pp z)) : State), (.mgc : Agent), (BU_LAST_WR_EPOCH_MGC_EPOCH : Fld), (3 : Nat), by decide +kernel⟩,
   ⟨(fPpr (fun x => { x with trainAt := [] }) (pp z) : State), (.mgc : Agent), (BU_LAST_WR_EPOCH_MGC_EPOCH : Fld), (0 : Nat), by decide +kernel⟩,
   ⟨(lk 0 (pp z) : State), (.mgc : Agent), (BU_LAST_WR_EPOCH_MGC_EPOCH : Fld), (0 : Nat), (29 : Nat), (0 : Nat), by decide +kernel⟩,
   ⟨(lk 16 (pp z) : State), (.mgc : Agent), (BU_LAST_WR_EPOCH_MGC_EPOCH : Fld), (16 : Nat), (0 : Nat), (3 : Nat), by decide +kernel⟩,
   ⟨(fPpr (fun x => { x with lanes := modAt x.lanes 0 fun l => { l with count := some 3, slot := 7 } }) (lk 0 (pp z)) : State), (.mgc : Agent), (BU_LAST_WR_EPOCH_MGC_EPOCH : Fld), (0 : Nat), (0 : Nat), (0 : Nat), (4103 : Nat), by decide +kernel, by decide +kernel, by decide +kernel, by decide +kernel, by decide +kernel, by decide +kernel, by decide +kernel, by decide +kernel, by decide +kernel, by decide +kernel, by decide +kernel, by decide +kernel, by decide +kernel, (fun k => by simp only [State.linkUp]; rw [show State.get _ PPR_LINK_STATUS_LINK_UP = 0 by decide +kernel]; simp [bitAt])⟩⟩

theorem witness_pixel_port_messages :
    (∃ (s : State) (i : Nat) (k : Nat), s.wf = true ∧ (s.ppr.bc.findIdx? fun m => m.code == 1 && m.link == k) = some i) ∧
    (∃ (s : State) (i : Nat) (k : Nat) (c : Nat) (x : Subst), s.wf = true ∧ (c = 2 ∨ c = 3) ∧ (s.ppr.bc.findIdx? fun m => m.code == c && m.link == k) = some i ∧ s.ppr.subst = some x) ∧
    (∃ (s : State) (m : BcMsg) (ms : List BcMsg), s.wf = true ∧ s.ppr.bc = m :: ms ∧ m.sent + 4000 ≤ s.now ∧ m.again = false) ∧
    (∃ (s : State) (m : BcMsg) (ms : List BcMsg), s.wf = true ∧ s.ppr.bc = m :: ms ∧ m.sent + 4000 ≤ s.now ∧ m.again = true ∧ m.code = 1) ∧
    (∃ (s : State) (m : BcMsg) (ms : List BcMsg), s.wf = true ∧ s.ppr.bc = m :: ms ∧ m.sent + 4000 ≤ s.now ∧ m.again = true ∧ m.code ≠ 1) ∧
    (∃ (s : State) (m : BcMsg) (ms : List BcMsg), s.wf = true ∧ s.ppr.bc = m :: ms ∧ s.now < m.sent + 4000) ∧
    (∃ (s : State), s.wf = true ∧ s.get PPR_CTRL_SPARE_EN = 1 ∧ s.get PPR_LINK_STATUS_SPARE_USE = 31 ∧ s.get PPR_LINK_STATUS_SPARE_BUSY = 0) ∧
    (∃ (s : State), s.wf = true ∧ (s.get PPR_CTRL_SPARE_EN = 0 ∨ s.get PPR_LINK_STATUS_SPARE_USE ≠ 31 ∨ s.get PPR_LINK_STATUS_SPARE_BUSY = 1)) ∧
    (∃ (s : State), s.wf = true ∧ (s.get PPR_CTRL_SPARE_EN = 0 ∨ s.get PPR_LINK_STATUS_SPARE_USE ≠ 31 ∨ s.get PPR_LINK_STATUS_SPARE_BUSY = 1)) ∧
    (∃ (s : State), s.wf = true ∧ s.get PPR_LINK_STATUS_SPARE_USE = s.get PPR_SUBST_LANE ∧ s.get PPR_LINK_STATUS_SPARE_BUSY = 0) ∧
    (∃ (s : State), s.wf = true ∧ (s.get PPR_LINK_STATUS_SPARE_USE ≠ s.get PPR_SUBST_LANE ∨ s.get PPR_LINK_STATUS_SPARE_BUSY = 1)) ∧
    (∃ (s : State) (n : Nat) (errors : Nat), s.wf = true ∧ n < 17 ∧ n < s.ppr.lanes.length ∧ s.get PPR_SUB_THRESH_COUNT < errors ∧ s.lanePowered n = true) ∧
    (∃ (s : State) (n : Nat) (errors : Nat), s.wf = true ∧ n < 17 ∧ n < s.ppr.lanes.length ∧ s.get PPR_SUB_THRESH_COUNT < errors ∧ s.lanePowered n = true) ∧
    (∃ (s : State) (k : Nat) (l : List Byte) (p : Packet) (c : Instr), s.wf = true ∧ s.linkEn k = true ∧ s.linkUp k = true ∧ s.get FC_LEVEL_LEVEL ≠ 3 ∧ s.flag KPR_STATUS_HOLDUP = false ∧ p = packetOf (toNats l) ∧ packetCrcOk (toNats l) = false ∧ c ∈ [Instr.linePacket k l, .metadataPacket k l]) ∧
    (∃ (s : State) (k : Nat) (l : List Byte) (p : Packet), s.wf = true ∧ s.linkEn k = true ∧ s.linkUp k = true ∧ s.get FC_LEVEL_LEVEL ≠ 3 ∧ s.flag KPR_STATUS_HOLDUP = false ∧ p = packetOf (toNats l) ∧ packetCrcOk (toNats l) = true ∧ s.ppr.lastLine = false ∧ s.ppr.dropped = false ∧ s.ppr.cnt = some p.frameCnt ∧ p.typ = 1 ∧ s.lineOk p = false) ∧
    (∃ (s : State) (k : Nat) (l : List Byte) (p : Packet), s.wf = true ∧ s.linkEn k = true ∧ s.linkUp k = true ∧ s.get FC_LEVEL_LEVEL ≠ 3 ∧ s.flag KPR_STATUS_HOLDUP = false ∧ p = packetOf (toNats l) ∧ packetCrcOk (toNats l) = true ∧ s.ppr.lastLine = false ∧ s.ppr.dropped = false ∧ s.ppr.cnt = some p.frameCnt ∧ p.typ = 1 ∧ s.lineOk p = true ∧ s.ppr.lines ≠ [] ∧ s.ppr.buf = [] ∧ p.line ≤ s.ppr.nextLine ∧ s.buffered k < 2 ∧ s.rowsDue p.line ≤ s.ppr.rowsDone ∧ s.ppr.rowsDone < s.fmtRows) ∧
    (∃ (s : State) (k : Nat) (l : List Byte) (p : Packet), s.wf = true ∧ s.linkEn k = true ∧ s.linkUp k = true ∧ s.get FC_LEVEL_LEVEL ≠ 3 ∧ s.flag KPR_STATUS_HOLDUP = false ∧ p = packetOf (toNats l) ∧ packetCrcOk (toNats l) = true ∧ s.ppr.lastLine = false ∧ s.ppr.dropped = false ∧ s.ppr.cnt = some p.frameCnt ∧ p.typ = 2 ∧ p.pixels ≤ 4096 ∧ p.bytes = packetLen p.pixels ∧ s.ppr.metaPackets < 256 ∧ s.ppr.metaBytes + p.pixels ≤ 65536 ∧ s.frameOf s.epoch = none) ∧
    (∃ (s : State) (k : Nat) (l : List Byte) (p : Packet), s.wf = true ∧ s.linkEn k = true ∧ s.linkUp k = true ∧ s.get FC_LEVEL_LEVEL ≠ 3 ∧ s.flag KPR_STATUS_HOLDUP = false ∧ p = packetOf (toNats l) ∧ packetCrcOk (toNats l) = true ∧ s.ppr.lastLine = false ∧ s.ppr.dropped = false ∧ s.ppr.cnt = some p.frameCnt ∧ p.typ = 2 ∧ 4096 < p.pixels) :=
  ⟨⟨(msg [⟨2, 0, 0, false, 0⟩, ⟨1, 15, 0, false, 0⟩] (pp z) : State), (1 : Nat), (0 : Nat), by decide +kernel⟩,
   ⟨(fPpr (fun x => { x with subst := some ⟨3, true, false⟩ }) (msg [⟨2, 0, 0, false, 0⟩] (pp z)) : State), (0 : Nat), (0 : Nat), (2 : Nat), ((⟨3, true, false⟩ : Subst) : Subst), by decide +kernel⟩,
   ⟨(State.at_ 4000 (msg [⟨1, 15, 0, false, 0⟩] (pp z)) : State), ((⟨1, 15, 0, false, 0⟩ : BcMsg) : BcMsg), (([] : List BcMsg) : List BcMsg), by decide +kernel⟩,
   ⟨(State.at_ 4000 (msg [⟨1, 15, 0, true, 0⟩] (pp z)) : State), ((⟨1, 15, 0, true, 0⟩ : BcMsg) : BcMsg), (([] : List BcMsg) : List BcMsg), by decide +kernel⟩,
   ⟨(State.at_ 4000 (msg [⟨2, 15, 0, true, 0⟩] (pp z)) : State), ((⟨2, 15, 0, true, 0⟩ : BcMsg) : BcMsg), (([] : List BcMsg) : List BcMsg), by decide +kernel⟩,
   ⟨(State.at_ 3999 (msg [⟨2, 15, 0, true, 0⟩] (pp z)) : State), ((⟨2, 15, 0, true, 0⟩ : BcMsg) : BcMsg), (([] : List BcMsg) : List BcMsg), by decide +kernel⟩,
   ⟨((pp z).with [(PPR_SUBST_LANE, 15)] : State), by decide +kernel⟩,
   ⟨(z.with [(PPR_CTRL_SPARE_EN, 0)] : State), by decide +kernel⟩,
   ⟨((pp z).with [(PPR_LINK_STATUS_SPARE_USE, 15)] : State), by decide +kernel⟩,
   ⟨((pp z).with [(PPR_LINK_STATUS_SPARE_USE, 15), (PPR_SUBST_LANE, 15)] : State), by decide +kernel⟩,
   ⟨((pp z).with [(PPR_SUBST_LANE, 15)] : State), by decide +kernel⟩,
   ⟨((pp z).with [(PPR_SUB_THRESH_COUNT, 65534)] : State), (16 : Nat), (65535 : Nat), by decide +kernel⟩,
   ⟨((pp z).with [(PPR_SUB_THRESH_COUNT, 5)] : State), (0 : Nat), (6 : Nat), by decide +kernel⟩,
   ⟨(rdo z : State), (0 : Nat), (List.replicate 24 1#8 : List Byte), (pk (List.replicate 24 1#8) : Packet), (Instr.metadataPacket 0 (List.replicate 24 1#8) : Instr), by decide +kernel⟩,
   ⟨(rdo z : State), (0 : Nat), (pktB 1 0 3 14 5 12 [1, 0x20, 0, 3, 0x40, 0] : List Byte), (pk (pktB 1 0 3 14 5 12 [1, 0x20, 0, 3, 0x40, 0]) : Packet), by decide +kernel⟩,
   ⟨(fPpr (fun x => { x with nextLine := 20 }) (rdo z) : State), (0 : Nat), (linB : List Byte), (pk linB : Packet), by decide +kernel⟩,
   ⟨(fPpr (fun x => { x with metaPackets := 255, metaBytes := 65536 - 4096 }) (rdo z) : State), (0 : Nat), (metB : List Byte), (pk metB : Packet), by decide +kernel⟩,
   ⟨(rdo z : State), (0 : Nat), (pktB 2 0 3 0 4097 0 [7] : List Byte), (pk (pktB 2 0 3 0 4097 0 [7]) : Packet), by decide +kernel⟩⟩

set_option maxRecDepth 100000 in
theorem witness_decode_jobs :
    (∃ (s : State), s.wf = true ∧ s.hpp.job = none) ∧
    (∃ (s : State) (j : DecodeJob), s.wf = true ∧ s.hpp.job = some j ∧ s.jobReady j = false) ∧
    (∃ (s : State) (j : DecodeJob), s.wf = true ∧ s.hpp.job = some j ∧ s.jobReady j = true ∧ j.source ≠ 0 ∧ s.scanUnit (j.src + j.pos) (2 ^ 24) [] = none) ∧
    (∃ (s : State) (j : DecodeJob) (a : Nat) (l : List Nat) (u : UnitResult) (r : Nat), s.wf = true ∧ s.hpp.job = some j ∧ s.jobReady j = true ∧ j.source ≠ 0 ∧ s.scanUnit (j.src + j.pos) (2 ^ 24) [] = some (a, l) ∧ ((unitIndex l).map (missingBefore s.hpp.ctx) = none ∨ (unitIndex l).map (missingBefore s.hpp.ctx) = some []) ∧ u = decodeUnit s.hpp.ctx j.conceal none l ∧ r = j.report + 32 * (j.i % max 1 j.buffers) ∧ u.pic = none ∧ u.metas.flatMap (·.2) = [] ∧ s.usable r u.report.bytes.length) ∧
    (∃ (s : State) (j : DecodeJob) (a : Nat) (l : List Nat) (u : UnitResult) (r : Nat) (p : Picture) (d : Nat), s.wf = true ∧ s.hpp.job = some j ∧ s.jobReady j = true ∧ j.source ≠ 0 ∧ s.scanUnit (j.src + j.pos) (2 ^ 24) [] = some (a, l) ∧ ((unitIndex l).map (missingBefore s.hpp.ctx) = none ∨ (unitIndex l).map (missingBefore s.hpp.ctx) = some []) ∧ u = decodeUnit s.hpp.ctx j.conceal none l ∧ r = j.report + 32 * (j.i % max 1 j.buffers) ∧ u.pic = some p ∧ d = j.dst + j.i % max 1 j.buffers * j.pitch * p.height ∧ (∀ x ∈ p.lines, 2 * x.length ≤ j.pitch) ∧ u.metas.flatMap (·.2) = [] ∧ s.usable d (j.pitch * p.height) ∧ s.usable r u.report.bytes.length ∧ (r + u.report.bytes.length ≤ d ∨ d + j.pitch * p.height ≤ r)) ∧
    (∃ (s : State) (j : DecodeJob) (a : Nat) (l : List Nat) (i : Nat) (is : List Nat), s.wf = true ∧ s.hpp.job = some j ∧ s.jobReady j = true ∧ j.source ≠ 0 ∧ s.scanUnit (j.src + j.pos) (2 ^ 24) [] = some (a, l) ∧ (unitIndex l).map (missingBefore s.hpp.ctx) = some (i :: is) ∧ j.i + 1 < j.count) ∧
    (∃ (s : State) (j : DecodeJob) (v : SetView) (e : CatEntry) (f : FrameEntry) (l : List Nat), s.wf = true ∧ s.hpp.job = some j ∧ s.jobReady j = true ∧ j.source = 0 ∧ s.assessed = some v ∧ v.catalogue.getD j.clip none = some e ∧ j.pos < (clipEnd v.head e).1 ∧ v.unit e j.pos = some f ∧ v.sb.readUnit v.media f = some l ∧ j.i + 1 < j.count) ∧
    (∃ (s : State) (j : DecodeJob) (v : SetView) (e : CatEntry), s.wf = true ∧ s.hpp.job = some j ∧ s.jobReady j = true ∧ j.source = 0 ∧ s.assessed = some v ∧ v.catalogue.getD j.clip none = some e ∧ (clipEnd v.head e).1 ≤ j.pos) ∧
    (∃ (s : State) (j : DecodeJob), s.wf = true ∧ s.hpp.job = some j ∧ s.jobReady j = true ∧ j.source = 0 ∧ s.assessed = none) :=
  ⟨⟨(z : State), by decide +kernel⟩,
   ⟨(djS { dj0 with buffers := 0 } : State), ({ dj0 with buffers := 0 } : DecodeJob), by decide +kernel⟩,
   ⟨(fHpp (fun h => { h with job := some dj0 }) z : State), (dj0 : DecodeJob), by decide +kernel⟩,
   ⟨(djW dj1 : State), (dj1 : DecodeJob), (65536 : Nat), (unl (djW dj1) : List Nat), (decodeUnit (djW dj1).hpp.ctx 0 none (unl (djW dj1)) : UnitResult), (262144 : Nat), by decide +kernel⟩,
   ⟨(withPic (djW dj1) : State), (dj1 : DecodeJob), (65536 : Nat), (unl (djW dj1) : List Nat), (decodeUnit (withPic (djW dj1)).hpp.ctx 0 none (unl (djW dj1)) : UnitResult), (262144 : Nat), (((decodeUnit (withPic (djW dj1)).hpp.ctx 0 none (unl (djW dj1))).pic).getD ⟨0, 0, 0, false, 0, [], []⟩ : Picture), (131072 : Nat), by decide +kernel⟩,
   ⟨(fHpp (fun h => { h with ctx := { h.ctx with expect := some (2 ^ 32 - 1) } }) (djW dj1) : State), (dj1 : DecodeJob), (65536 : Nat), (unl (djW dj1) : List Nat), (2 ^ 32 - 1 : Nat), (([] : List Nat) : List Nat), by decide +kernel⟩,
   ⟨(recS djC : State), (djC : DecodeJob), (vQ : SetView), (catQ : CatEntry), (feB : FrameEntry), (unit0 : List Nat), by decide +kernel⟩,
   ⟨(recS { djC with pos := 1, i := 1 } : State), ({ djC with pos := 1, i := 1 } : DecodeJob), (vQ : SetView), (catQ : CatEntry), by decide +kernel⟩,
   ⟨(fHpp (fun h => { h with job := some djC }) (mem z) : State), (djC : DecodeJob), by decide +kernel⟩⟩

theorem witness_proxy_path :
    (∃ (s : State) (base : Nat) (pitch : Nat) (w : Nat) (h : Nat), s.wf = true ∧ base = s.getAddr PXP_REVIEW_BASE_ADDR ∧ pitch = s.getAddr PXP_REVIEW_PITCH_BYTES ∧ w = s.get PXP_REVIEW_FMT0 % 65536 ∧ h = s.get PXP_REVIEW_FMT0 / 65536 ∧ s.proxyOn = true ∧ s.get PXP_CTRL_SRC ≠ 0 ∧ s.flag PXP_STATUS_DEVELOPING = false) ∧
    (∃ (s : State) (base : Nat) (pitch : Nat) (w : Nat) (h : Nat), s.wf = true ∧ base = s.getAddr PXP_REVIEW_BASE_ADDR ∧ pitch = s.getAddr PXP_REVIEW_PITCH_BYTES ∧ w = s.get PXP_REVIEW_FMT0 % 65536 ∧ h = s.get PXP_REVIEW_FMT0 / 65536 ∧ s.proxyOn = true ∧ s.get PXP_CTRL_SRC ≠ 0 ∧ s.flag PXP_STATUS_DEVELOPING = false) ∧
    (∃ (s : State), s.wf = true ∧ s.proxyOn = true ∧ s.get PXP_CTRL_SRC ≠ 0 ∧ s.flag PXP_STATUS_DEVELOPING = true) ∧
    (∃ (s : State), s.wf = true ∧ (s.proxyOn = false ∨ s.get PXP_CTRL_SRC = 0)) ∧
    (∃ (s : State) (p : ProxyInput), s.wf = true ∧ s.proxy.input = some p ∧ s.proxyOn = true) ∧
    (∃ (s : State) (p : ProxyInput), s.wf = true ∧ s.proxy.input = some p ∧ s.proxyOn = false) ∧
    (∃ (s : State), s.wf = true ∧ s.proxy.input = none) ∧
    (∃ (s : State), s.wf = true ∧ s.proxyOn = true ∧ s.proxy.lastTick ≠ some s.proxyK ∧ s.proxy.newest = none) ∧
    (∃ (s : State) (p : ProxyPicture), s.wf = true ∧ s.proxyOn = true ∧ s.proxy.lastTick ≠ some s.proxyK ∧ s.proxy.newest = some p) ∧
    (∃ (s : State), s.wf = true ∧ (s.proxyOn = false ∨ s.proxy.lastTick = some s.proxyK)) ∧
    (∃ (s : State), s.wf = true ∧ swf (fun i => i / 4) s.proxy.lut = true) :=
  ⟨⟨((prx z).with [(PXP_CTRL_SRC, 1), (PXP_REVIEW_FMT0, 2 * 65536 + 4), (PXP_REVIEW_FMT1, 3)] : State), (0 : Nat), (0 : Nat), (4 : Nat), (2 : Nat), by decide +kernel⟩,
   ⟨((prx (mem z)).with [(PXP_CTRL_SRC, 1), (PXP_REVIEW_FMT0, 2 * 65536 + 4), (PXP_REVIEW_FMT1, 3)] : State), (0 : Nat), (0 : Nat), (4 : Nat), (2 : Nat), by decide +kernel⟩,
   ⟨((prx z).with [(PXP_CTRL_SRC, 1), (PXP_STATUS_DEVELOPING, 1)] : State), by decide +kernel⟩,
   ⟨(z : State), by decide +kernel⟩,
   ⟨(fPxy (fun x => { x with input := some pin0 }) (prx z) : State), (pin0 : ProxyInput), by decide +kernel⟩,
   ⟨(fPxy (fun x => { x with input := some pin0 }) z : State), (pin0 : ProxyInput), by decide +kernel⟩,
   ⟨(z : State), by decide +kernel⟩,
   ⟨(prx z : State), by decide +kernel⟩,
   ⟨(fPxy (fun x => { x with newest := some pic0, taken := true }) (prx z) : State), (pic0 : ProxyPicture), by decide +kernel⟩,
   ⟨(z : State), by decide +kernel⟩,
   ⟨(z.with [(PXP_LUT_SEL_INDEX, 4095)] : State), by decide +kernel⟩⟩

theorem witness_power_on_and_pins :
    (∃ (s : State) (x : Domain), s.wf = true ∧ s.aon.mainPwrEn = true ∧ s.rstc.porDone = false ∧ s.rstc.resetN = true ∧ s.rstc.domains.head? = some x ∧ x.inReset = true ∧ x.counted = false ∧ x.released = none ∧ s.porHolds = false) ∧
    (∃ (s : State), s.wf = true ∧ (s.aon.mainPwrEn = false ∨ (s.rstc.porDone = true ∧ s.kpr.mode ≠ .off) ∨ s.porHolds = true)) ∧
    (∃ (s : State) (x : Domain), s.wf = true ∧ s.aon.mainPwrEn = true ∧ s.rstc.porDone = false ∧ s.porHolds = false ∧ s.rstc.resetN = false ∧ s.rstc.domains.head? = some x) ∧
    (∃ (s : State), s.wf = true ∧ s.rstc.resetN = true ∧ s.kpr.mode ≠ .off ∧ (s.domain 0).inReset = true ∧ (s.domain 0).reach = 4) ∧
    (∃ (s : State) (x : Domain), s.wf = true ∧ s.rstc.resetN = true ∧ s.kpr.mode ≠ .off ∧ s.cxl.cache = [] ∧ s.rstc.domains.head? = some x ∧ x.inReset = false ∧ s.lmc.held = []) ∧
    (∃ (s : State), s.wf = true ∧ s.rstc.resetN = true ∧ s.kpr.mode = .off) ∧
    (∃ (s : State), s.wf = true ∧ (s.domain 0).inReset = false) ∧
    (∃ (s : State) (x : Domain), s.wf = true ∧ s.rstc.domains.head? = some x ∧ x.inReset = true ∧ x.reach = 3 ∧ x.counted = false ∧ x.released = none ∧ s.rstc.porDone = true) ∧
    (∃ (s : State), s.wf = true ∧ s.aon.mainPwrEn = false) ∧
    (∃ (s : State) (d : Nat) (x : Domain), s.wf = true ∧ d < 4 ∧ s.rstc.domains[d]? = some x ∧ (x.inReset = false ∨ s.now < x.since + 10240 ∨ (1 ≤ d ∧ bitAt (s.get RSTC_STATUS_LOCK_FAIL) (d - 1) = 1))) ∧
    (∃ (s : State) (d : Nat) (x : Domain), s.wf = true ∧ d < 4 ∧ s.rstc.domains[d]? = some x ∧ x.inReset = true ∧ x.since + 10240 ≤ s.now ∧ x.released = none ∧ ((1 ≤ d → bitAt (s.get RSTC_STATUS_LOCK_FAIL) (d - 1) = 0))) ∧
    (∃ (s : State) (r : Nat) (c : Bool) (n : Nat) (m : Nat), s.wf = true ∧ s.rstc.domains[3]? = some ⟨true, r, c, some n, m⟩ ∧ m + 10240 ≤ s.now ∧ bitAt (s.get RSTC_STATUS_LOCK_FAIL) 2 = 0) ∧
    (∃ (s : State) (c : Bool) (n : Nat) (m : Nat), s.wf = true ∧ s.rstc.domains[0]? = some ⟨true, 3, c, some n, m⟩ ∧ m + 10240 ≤ s.now) ∧
    (∃ (s : State) (d : Nat) (n : Nat) (c : Bool) (m : Nat), s.wf = true ∧ d < 2 ∧ s.mgc.up = false ∧ s.rstc.domains[1 + d]? = some ⟨true, 4, c, some n, m⟩ ∧ m + 10240 ≤ s.now ∧ bitAt (s.get RSTC_STATUS_LOCK_FAIL) d = 0) ∧
    (∃ (s : State) (d : Nat) (n : Nat) (r : Nat) (m : Nat), s.wf = true ∧ 1 ≤ d ∧ d < 4 ∧ s.rstc.domains[d]? = some ⟨true, r, false, some n, m⟩ ∧ n + 10 ^ 7 ≤ s.now) ∧
    (∃ (s : State) (d : Nat) (x : Domain), s.wf = true ∧ s.rstc.domains[d]? = some x ∧ (d = 0 ∨ x.inReset = false ∨ x.counted = true ∨ x.released = none ∨ (∃ n, x.released = some n ∧ s.now < n + 10 ^ 7))) ∧
    (∃ (s : State) (a : Agent) (d : Nat) (e : EngId) (c : Instr), s.wf = true ∧ s.awake = false ∧ c ∈ [Instr.rstcWarm a, .rstcCold a, .rstcLink a, .rstcDie a d, .rstcEngine a e, .watchdogExpiry, .hppWarmResetApply]) :=
  ⟨⟨(iod ⟨true, 4, false, none, 0⟩ (fRst (fun r => { r with porDone := false }) (State.at_ 1000000 z)) : State), ((⟨true, 4, false, none, 0⟩ : Domain) : Domain), by decide +kernel⟩,
   ⟨(fAon (fun r => { r with mainPwrEn := false }) z : State), by decide +kernel⟩,
   ⟨(iod ⟨true, 4, false, none, 0⟩ (fRst (fun r => { r with porDone := false, resetN := false }) (State.at_ 1000000 z)) : State), ((⟨true, 4, false, none, 0⟩ : Domain) : Domain), by decide +kernel⟩,
   ⟨(dom0 ⟨true, 4, true, none, 0⟩ z : State), by decide +kernel⟩,
   ⟨(fTb (fun x => { x with dtc := 7 }) ((run (up0 ((mem z).bytesAt 5 [1]))).with [(FAL_QFLOOR_Q, 5), (AON_WAKE_EN_WAKE_PIN, 3)]) : State), ((⟨false, 0, false, none, 0⟩ : Domain) : Domain), by decide +kernel⟩,
   ⟨(pmode .off z : State), by decide +kernel⟩,
   ⟨(up0 (fRst (fun r => { r with resetN := false }) z) : State), by decide +kernel⟩,
   ⟨(iod ⟨true, 3, false, none, 0⟩ (fRst (fun r => { r with resetN := false }) (State.at_ 5 z)) : State), ((⟨true, 3, false, none, 0⟩ : Domain) : Domain), by decide +kernel⟩,
   ⟨(fAon (fun r => { r with mainPwrEn := false }) z : State), by decide +kernel⟩,
   ⟨(z : State), (3 : Nat), (z.domain 3 : Domain), by decide +kernel⟩,
   ⟨(State.at_ 10240 (fRst (fun r => { r with domains := r.domains.set 3 ⟨true, 4, false, none, 0⟩ }) z) : State), (3 : Nat), ((⟨true, 4, false, none, 0⟩ : Domain) : Domain), by decide +kernel⟩,
   ⟨(State.at_ 10240 (fRst (fun r => { r with domains := r.domains.set 3 ⟨true, 4, false, some 0, 0⟩ }) z) : State), (4 : Nat), (false : Bool), (0 : Nat), (0 : Nat), by decide +kernel⟩,
   ⟨(State.at_ 10240 (iod ⟨true, 3, false, some 9, 0⟩ ((mem z).bytesAt 5 [1])) : State), (false : Bool), (9 : Nat), (0 : Nat), by decide +kernel⟩,
   ⟨(State.at_ 10240 (fRst (fun r => { r with domains := r.domains.set 2 ⟨true, 4, false, some 9, 0⟩ }) z) : State), (1 : Nat), (9 : Nat), (false : Bool), (0 : Nat), by decide +kernel⟩,
   ⟨(fRst (fun r => { r with domains := r.domains.set 3 ⟨true, 4, false, some 0, 0⟩ }) (State.at_ (10 ^ 7) z) : State), (3 : Nat), (0 : Nat), (4 : Nat), (0 : Nat), by decide +kernel⟩,
   ⟨(up0 z : State), (0 : Nat), ((⟨false, 0, false, none, 0⟩ : Domain) : Domain), by decide +kernel⟩,
   ⟨(pmode .off z : State), (.mgc : Agent), (1 : Nat), (eL : EngId), (Instr.rstcDie .mgc 1 : Instr), by decide +kernel⟩⟩

theorem witness_requested_resets :
    (∃ (s : State) (d : Nat), s.wf = true ∧ s.awake = true ∧ d < 2 ∧ s.beaconRuns = true) ∧
    (∃ (s : State) (d : Nat), s.wf = true ∧ s.awake = true ∧ d < 2 ∧ s.beaconRuns = false ∧ s.dieOff d = false) ∧
    (∃ (s : State) (d : Nat), s.wf = true ∧ s.awake = true ∧ d < 2 ∧ s.beaconRuns = false ∧ s.dieOff d = true) ∧
    (∃ (s : State) (e : EngId), s.wf = true ∧ s.awake = true ∧ s.beaconRuns = true ∧ s.engState (engNum e) ≠ 6) ∧
    (∃ (s : State) (e : EngId), s.wf = true ∧ s.awake = true ∧ s.engState (engNum e) = 6) ∧
    (∃ (s : State), s.wf = true ∧ s.awake = true ∧ s.cxl.cache = [] ∧ s.host = false) ∧
    (∃ (s : State), s.wf = true ∧ s.awake = true ∧ s.cxl.cache = [] ∧ s.lmc.held = [] ∧ s.rstc.resetN = true ∧ s.rstc.porDone = true ∧ s.flag RSTC_WDOG_EN = true ∧ s.mgc.wdogFrom + max 1 (s.get RSTC_WDOG_MS) * 10 ^ 6 ≤ s.now) ∧
    (∃ (s : State), s.wf = true ∧ s.awake = true ∧ (s.flag RSTC_WDOG_EN = false ∨ s.now < s.mgc.wdogFrom + 10 ^ 6)) ∧
    (∃ (s : State), s.wf = true ∧ s.awake = true ∧ (s.flag RSTC_WDOG_EN = false ∨ s.now < s.mgc.wdogFrom + 10 ^ 6)) ∧
    (∃ (s : State) (v : Word), s.wf = true ∧ s.awake = true ∧ v.toNat % 256 = 0xA5) ∧
    (∃ (s : State) (v : Word), s.wf = true ∧ s.awake = true ∧ v.toNat % 256 ≠ 0xA5) ∧
    (∃ (s : State) (v : Word), s.wf = true ∧ s.awake = true ∧ (bitAt v.toNat 16 = 1 ∨ s.flag RSTC_WDOG_EN = false ∨ s.get FC_PHASE_PHASE = 2)) ∧
    (∃ (s : State) (v : Word), s.wf = true ∧ s.awake = true ∧ bitAt v.toNat 16 = 0 ∧ s.flag RSTC_WDOG_EN = true ∧ s.get FC_PHASE_PHASE ≠ 2) ∧
    (∃ (s : State) (n : Nat), s.wf = true ∧ s.awake = true ∧ s.cxl.cache = [] ∧ s.lmc.held = [] ∧ s.rstc.resetN = true ∧ s.rstc.porDone = true ∧ s.hpp.warmAt = some n ∧ n ≤ s.now) ∧
    (∃ (s : State), s.wf = true ∧ s.awake = true ∧ (s.hpp.warmAt = none ∨ (∃ n, s.hpp.warmAt = some n ∧ s.now < n))) :=
  ⟨⟨(up0 (run (dies z)) : State), (1 : Nat), by decide +kernel⟩,
   ⟨(up0 (dies z) : State), (1 : Nat), by decide +kernel⟩,
   ⟨(up0 z : State), (1 : Nat), by decide +kernel⟩,
   ⟨(up0 (run (dies z)) : State), (eL : EngId), by decide +kernel⟩,
   ⟨(up0 (st 66 6 (dies z)) : State), (eL : EngId), by decide +kernel⟩,
   ⟨(up0 z : State), by decide +kernel⟩,
   ⟨(up0 (State.at_ 1000000 (z.with [(RSTC_WDOG_EN, 1), (RSTC_WDOG_MS, 0)])) : State), by decide +kernel⟩,
   ⟨(up0 (State.at_ 999999 (z.with [(RSTC_WDOG_EN, 1), (RSTC_WDOG_MS, 0)])) : State), by decide +kernel⟩,
   ⟨(up0 z : State), by decide +kernel⟩,
   ⟨(up0 (State.at_ 999999 z) : State), (0xFFFFFFA5#32 : Word), by decide +kernel⟩,
   ⟨(up0 z : State), (0xA4#32 : Word), by decide +kernel⟩,
   ⟨(up0 (z.with [(RSTC_WDOG_EN, 0)]) : State), (0xFFFF#32 : Word), by decide +kernel⟩,
   ⟨(up0 (z.with [(RSTC_WDOG_EN, 1)]) : State), (0xFFFF#32 : Word), by decide +kernel⟩,
   ⟨(up0 (fHpp (fun h => { h with warmAt := some 0 }) z) : State), (0 : Nat), by decide +kernel⟩,
   ⟨(up0 (fHpp (fun h => { h with warmAt := some 1 }) z) : State), by decide +kernel⟩⟩

theorem witness_service_life :
    (∃ (s : State), s.wf = true ∧ s.mgc.up = true ∧ (s.log.hourAt = none ∨ (∃ x, s.log.hourAt = some x ∧ (x + hourNs ≤ s.dtcNs ∨ s.dtcNs < x)))) ∧
    (∃ (s : State), s.wf = true ∧ (s.mgc.up = false ∨ (∃ x, s.log.hourAt = some x ∧ x ≤ s.dtcNs ∧ s.dtcNs < x + hourNs))) ∧
    (∃ (s : State), s.wf = true ∧ s.log.refillAt + 10 ^ 10 ≤ s.now) ∧
    (∃ (s : State), s.wf = true ∧ s.now < s.log.refillAt + 10 ^ 10) ∧
    (∃ (s : State), s.wf = true ∧ s.mgc.up = true ∧ s.get KPR_STATUS_STATE = 0 ∧ s.kpr.mode = .on ∧ ((∀ x, s.log.agedAt = some x → x + hourNs ≤ s.log.cur.runNs))) ∧
    (∃ (s : State), s.wf = true ∧ s.ageDue = false) :=
  ⟨⟨(mgc z : State), by decide +kernel⟩,
   ⟨(z : State), by decide +kernel⟩,
   ⟨(State.at_ (10 ^ 10) z : State), by decide +kernel⟩,
   ⟨(z : State), by decide +kernel⟩,
   ⟨(mgc z : State), by decide +kernel⟩,
   ⟨(z : State), by decide +kernel⟩⟩

theorem witness_time_base :
    (∃ (s : State), s.wf = true) ∧
    (∃ (s : State), s.wf = true ∧ s.ref = 1 ∧ s.get TB_QUALITY_STATE = 2) ∧
    (∃ (s : State), s.wf = true ∧ s.ref = 1 ∧ s.get TB_QUALITY_STATE ≠ 2) ∧
    (∃ (s : State), s.wf = true ∧ s.ref ≠ 1) ∧
    (∃ (s : State) (r : Nat), s.wf = true ∧ r < 3 ∧ s.role ≠ 2 ∧ s.get TB_CTRL_REF ≠ r) ∧
    (∃ (s : State), s.wf = true ∧ s.role = 2) ∧
    (∃ (s : State), s.wf = true ∧ s.role ≠ 2 ∧ s.get TB_CTRL_REF ≠ 3) :=
  ⟨⟨((State.at_ 10000000000 (run z)).with [(TB_SET_VALUE, 2 ^ 40)] : State), by decide +kernel⟩,
   ⟨(z.with [(TB_CTRL_REF, 1), (TB_QUALITY_STATE, 2)] : State), by decide +kernel⟩,
   ⟨(z.with [(TB_CTRL_REF, 1)] : State), by decide +kernel⟩,
   ⟨(z : State), by decide +kernel⟩,
   ⟨(z.with [(TB_QUALITY_STATE, 2)] : State), (2 : Nat), by decide +kernel⟩,
   ⟨(gF z : State), by decide +kernel⟩,
   ⟨(z : State), by decide +kernel⟩⟩

theorem witness_linear_timecode :
    (∃ (s : State) (ns : Nat) (n : Nat) (d : Nat), s.wf = true ∧ ltcRate (s.get TB_LTC_CTRL_RATE) = (n, d) ∧ 10 * ((10 ^ 9 * d : Nat) - (n * ns : Nat) : Int).natAbs ≤ n * ns) ∧
    (∃ (s : State) (w : Nat) (n : Nat) (d : Nat), s.wf = true ∧ s.tb.ltcLast = some w ∧ ltcRate (s.get TB_LTC_CTRL_RATE) = (n, d) ∧ 2 * 10 ^ 9 * d ≤ n * (s.now - w)) ∧
    (∃ (s : State), s.wf = true ∧ s.genDue = true ∧ s.get TB_LTC_CTRL_OUT_EN = 1 ∧ s.get TB_LTC_CTRL_GEN_MODE = 1 ∧ s.tb.genLoad = true) ∧
    (∃ (s : State), s.wf = true ∧ s.genDue = true ∧ s.get TB_LTC_CTRL_OUT_EN = 1 ∧ s.get TB_LTC_CTRL_GEN_MODE = 1 ∧ s.tb.genLoad = false) ∧
    (∃ (s : State), s.wf = true ∧ s.genDue = true ∧ s.get TB_LTC_CTRL_OUT_EN = 1 ∧ s.get TB_LTC_CTRL_GEN_MODE = 2 ∧ s.get TB_LTC_STAT_IN_VALID = 1) ∧
    (∃ (s : State), s.wf = true ∧ s.genDue = true ∧ s.get TB_LTC_CTRL_OUT_EN = 1 ∧ s.get TB_LTC_CTRL_GEN_MODE = 2 ∧ s.get TB_LTC_STAT_IN_VALID = 0 ∧ s.tb.genLoad = false) ∧
    (∃ (s : State), s.wf = true ∧ s.genDue = true ∧ s.get TB_LTC_CTRL_OUT_EN = 1 ∧ s.get TB_LTC_CTRL_GEN_MODE = 3) ∧
    (∃ (s : State), s.wf = true ∧ (s.get TB_LTC_CTRL_GEN_MODE = 0 ∨ s.genDue = false)) :=
  ⟨⟨(fTb (fun x => { x with ltcLast := some 0 }) z : State), (41666666 : Nat), (24 : Nat), (1 : Nat), by decide +kernel⟩,
   ⟨(State.at_ 83333334 (fTb (fun x => { x with ltcLast := some 0 }) z) : State), (0 : Nat), (24 : Nat), (1 : Nat), by decide +kernel⟩,
   ⟨(fTb (fun x => { x with genLoad := true }) (z.with [(TB_LTC_CTRL_GEN_MODE, 1), (TB_LTC_CTRL_OUT_EN, 1), (TB_LTC_PRESET_FRAMES, 5)]) : State), by decide +kernel⟩,
   ⟨(z.with [(TB_LTC_CTRL_GEN_MODE, 1), (TB_LTC_CTRL_OUT_EN, 1)] : State), by decide +kernel⟩,
   ⟨(z.with [(TB_LTC_CTRL_GEN_MODE, 2), (TB_LTC_CTRL_OUT_EN, 1), (TB_LTC_STAT_IN_VALID, 1)] : State), by decide +kernel⟩,
   ⟨(z.with [(TB_LTC_CTRL_GEN_MODE, 2), (TB_LTC_CTRL_OUT_EN, 1)] : State), by decide +kernel⟩,
   ⟨(z.with [(TB_LTC_CTRL_GEN_MODE, 3), (TB_LTC_CTRL_OUT_EN, 1)] : State), by decide +kernel⟩,
   ⟨(z : State), by decide +kernel⟩⟩

end Sys2Proof.Tests
end

section
/-! SUPPORT. The coding tools of ELOA: decorrelation (R97, R98), the lifting of a line (R100, R101), numbers of a fixed width as
bits, stuffing (R120, R121) and escape stripes (R129, R130). -/

namespace Sys2Proof.Machine

/-! ### Colour decorrelation -/

/-- R98 on what R97 gives: g1 + g2 and g1 − g2 have the same parity, so the two floors lose nothing together. -/
theorem recorr_forward (d : Nat) (r g1 g2 b gs : Int) (hgs : gs = (g1 + g2) / 2) :
    recorr d (gs - 2 ^ (d - 1)) (g1 - g2) (r - gs) (b - gs) = (r, g1, g2, b) := by
  have hg2 : gs - (g1 - g2) / 2 = g2 := by omega
  simp [recorr, hg2]

/-- The ranges of R97 for samples of `d` bits. -/
theorem decorr_range {d : Nat} {r g1 g2 b : Int} (hd : 0 < d) (h : ∀ v ∈ [r, g1, g2, b], 0 ≤ v ∧ v ≤ 2 ^ d - 1) :
    -2 ^ (d - 1) ≤ (decorr d r g1 g2 b).1 ∧ (decorr d r g1 g2 b).1 ≤ 2 ^ (d - 1) - 1 ∧
      ∀ v ∈ [(decorr d r g1 g2 b).2.1, (decorr d r g1 g2 b).2.2.1, (decorr d r g1 g2 b).2.2.2], -(2 ^ d - 1) ≤ v ∧ v ≤ 2 ^ d - 1 := by
  have hpow : (2 : Int) ^ d = 2 * 2 ^ (d - 1) := by rw [← pow_succ', Nat.sub_add_cancel hd]
  simp only [List.forall_mem_cons, List.not_mem_nil, false_implies, implies_true, and_true, decorr] at h ⊢
  omega

/-! ### The lifting of a line -/

/-- An entry of a list given by its index. -/
theorem getD_map_range {α : Type} (f : Nat → α) {n k : Nat} (h : k < n) (v : α) : ((List.range n).map f).getD k v = f k := by
  simp [h]

@[simp] theorem lift_low_length (x : List Int) : (lift x).1.length = x.length / 2 := by simp [lift]

@[simp] theorem lift_high_length (x : List Int) : (lift x).2.length = x.length / 2 := by simp [lift]

/-- The high band of R100, with x[n] = x[n−2]. -/
theorem lift_high (x : List Int) (he : x.length % 2 = 0) {k : Nat} (hk : k < x.length / 2) :
    (lift x).2.getD k 0 =
      x.getD (2 * k + 1) 0 - (x.getD (2 * k) 0 + x.getD (if 2 * k + 2 = x.length then 2 * k else 2 * k + 2) 0) / 2 := by
  have hodd : 2 * k + 1 ≠ x.length := by omega
  have heven : 2 * k ≠ x.length := by omega
  have hext : (if 2 * k + 2 = x.length then x.length - 2 else 2 * k + 2) = if 2 * k + 2 = x.length then 2 * k else 2 * k + 2 := by
    split <;> omega
  simp only [lift, getD_map_range _ hk, hodd, heven, hext, if_false]

/-- The low band of R100, with d[−1] = d[0]. -/
theorem lift_low (x : List Int) {k : Nat} (hk : k < x.length / 2) :
    (lift x).1.getD k 0 = x.getD (2 * k) 0 + ((lift x).2.getD (k - 1) 0 + (lift x).2.getD k 0 + 2) / 4 := by
  have heven : 2 * k ≠ x.length := by omega
  simp only [lift, getD_map_range _ hk, heven, if_false]

@[simp] theorem unlift_length (s d : List Int) : (unlift s d).length = 2 * s.length := by simp [unlift]

/-- The even samples of R101. -/
theorem unlift_even (s d : List Int) {k : Nat} (hk : k < s.length) :
    (unlift s d).getD (2 * k) 0 = s.getD k 0 - (d.getD (k - 1) 0 + d.getD k 0 + 2) / 4 := by
  have hi : 2 * k < 2 * s.length := by omega
  have hdiv : 2 * k / 2 = k := by omega
  simp only [unlift, getD_map_range _ hi, hdiv, getD_map_range _ hk, Nat.mul_mod_right, if_true]

/-- The odd samples of R101, with x[n] = x[n−2]. -/
theorem unlift_odd (s d : List Int) {k : Nat} (hk : k < s.length) :
    (unlift s d).getD (2 * k + 1) 0 =
      d.getD k 0 + ((unlift s d).getD (2 * k) 0 + (unlift s d).getD (if k + 1 = s.length then 2 * k else 2 * k + 2) 0) / 2 := by
  have hnext : (if k + 1 = s.length then 2 * k else 2 * k + 2) = 2 * (if k + 1 = s.length then s.length - 1 else k + 1) := by
    split <;> omega
  have hj : (if k + 1 = s.length then s.length - 1 else k + 1) < s.length := by split <;> omega
  have hi : 2 * k + 1 < 2 * s.length := by omega
  have hdiv : (2 * k + 1) / 2 = k := by omega
  have hmod : (2 * k + 1) % 2 ≠ 0 := by omega
  rw [hnext, unlift_even s d hk, unlift_even s d hj]
  simp only [unlift, getD_map_range _ hi, hdiv, hmod, getD_map_range _ hk, getD_map_range _ hj, if_false]

/-- R101 on what R100 gives: each lifting step is undone, the even samples first. -/
theorem unlift_lift (x : List Int) (he : x.length % 2 = 0) : unlift (lift x).1 (lift x).2 = x := by
  have even {k : Nat} (hk : k < x.length / 2) : (unlift (lift x).1 (lift x).2).getD (2 * k) 0 = x.getD (2 * k) 0 := by
    rw [unlift_even _ _ (by simpa using hk), lift_low x hk]; omega
  have odd {k : Nat} (hk : k < x.length / 2) : (unlift (lift x).1 (lift x).2).getD (2 * k + 1) 0 = x.getD (2 * k + 1) 0 := by
    rw [unlift_odd _ _ (by simpa using hk), lift_high x he hk, lift_low_length, even hk]
    by_cases hlast : 2 * k + 2 = x.length
    · rw [if_pos hlast, if_pos (by omega), even hk]; omega
    · rw [if_neg hlast, if_neg (by omega), show 2 * k + 2 = 2 * (k + 1) by omega, even (by omega)]; omega
  refine List.ext_getElem (by simp; omega) fun i hi hi' => ?_
  rw [← List.getD_eq_getElem _ 0 hi, ← List.getD_eq_getElem _ 0 hi']
  obtain ⟨k, rfl | rfl⟩ : ∃ k, i = 2 * k ∨ i = 2 * k + 1 := ⟨i / 2, by omega⟩
  · exact even (by omega)
  · exact odd (by omega)

/-! ### Bits and numbers -/

@[simp] theorem length_bitsOf (d v : Nat) : (bitsOf d v).length = d := by
  induction d with
  | zero => rfl
  | succ n ih => simp [bitsOf, ih]

theorem bitsOf_lt_two {d v b : Nat} (h : b ∈ bitsOf d v) : b < 2 := by
  induction d with
  | zero => simp [bitsOf] at h
  | succ n ih =>
    rcases List.mem_cons.mp h with rfl | h
    · exact Nat.mod_lt _ (by decide)
    · exact ih h

/-- The bits of a byte are its eight low bits. -/
theorem byteBits_eq_bitsOf : byteBits = bitsOf 8 := by
  funext b; simp [byteBits, bitsOf]

/-- A bit put below a number is the last of its bits. -/
theorem bitsOf_snoc (d a : Nat) {v : Nat} (hv : v < 2) : bitsOf (d + 1) (a * 2 + v) = bitsOf d a ++ [v] := by
  induction d with
  | zero => simp [bitsOf]; omega
  | succ n ih =>
    have hhigh : (a * 2 + v) / 2 ^ (n + 1) = a / 2 ^ n := by
      rw [pow_succ', ← Nat.div_div_eq_div_mul, show (a * 2 + v) / 2 = a by omega]
    rw [bitsOf, ih, hhigh]; rfl

/-- A number shifted left has zeros for its last bits. -/
theorem bitsOf_shift (d j a : Nat) : bitsOf (d + j) (a * 2 ^ j) = bitsOf d a ++ List.replicate j 0 := by
  induction j with
  | zero => simp
  | succ j ih =>
    rw [← Nat.add_assoc, pow_succ, ← Nat.mul_assoc, ← Nat.add_zero (a * 2 ^ j * 2), bitsOf_snoc _ _ (by decide), ih,
      List.replicate_succ', List.append_assoc]

theorem ofBits_snoc (l : List Nat) (b : Nat) : ofBits (l ++ [b]) = 2 * ofBits l + b % 2 := by
  simp [ofBits]

theorem ofBits_lt (l : List Nat) : ofBits l < 2 ^ l.length := by
  induction l using List.reverseRecOn with
  | nil => decide
  | append_singleton l b ih => rw [ofBits_snoc, List.length_append, List.length_singleton, pow_succ]; omega

/-- The bits of the number that bits spell. -/
theorem bitsOf_ofBits (l : List Nat) (h : ∀ b ∈ l, b < 2) : bitsOf l.length (ofBits l) = l := by
  induction l using List.reverseRecOn with
  | nil => rfl
  | append_singleton l b ih =>
    have hb : b < 2 := h b (by simp)
    rw [ofBits_snoc, Nat.mod_eq_of_lt hb, Nat.mul_comm, List.length_append, List.length_singleton, bitsOf_snoc _ _ hb,
      ih fun c hc => h c (by simp [hc])]

/-- The number that a number's bits spell. -/
theorem ofBits_bitsOf {d v : Nat} (h : v < 2 ^ d) : ofBits (bitsOf d v) = v := by
  induction d generalizing v with
  | zero => simp at h; simp [bitsOf, ofBits, h]
  | succ n ih =>
    have hv : v = v / 2 * 2 + v % 2 := by omega
    rw [hv, bitsOf_snoc _ _ (Nat.mod_lt _ (by decide)), ofBits_snoc, ih (by rw [pow_succ] at h; omega)]
    omega

/-! ### A list cut into pieces of equal length -/

/-- Piece `i` of a list cut into pieces of `d` elements. -/
def piece (d i : Nat) (l : List Nat) : List Nat := (l.drop (i * d)).take d

theorem length_piece {d i m : Nat} {l : List Nat} (hi : i < m) (hl : m * d ≤ l.length) : (piece d i l).length = d := by
  have h : (i + 1) * d ≤ l.length := (Nat.mul_le_mul_right d hi).trans hl
  rw [Nat.succ_mul] at h
  simp [piece]; omega

theorem mem_of_mem_piece {d i b : Nat} {l : List Nat} (h : b ∈ piece d i l) : b ∈ l :=
  List.mem_of_mem_drop (List.mem_of_mem_take h)

/-- The pieces put together again. -/
theorem flatMap_piece (d m : Nat) (l : List Nat) : (List.range m).flatMap (piece d · l) = l.take (m * d) := by
  induction m with
  | zero => simp
  | succ m ih => rw [List.range_succ, List.flatMap_append, ih, List.flatMap_singleton, Nat.succ_mul, List.take_add]; rfl

/-- The pieces of a list put together from pieces. -/
theorem piece_flatMap {α : Type} {d i : Nat} (f : α → List Nat) (l : List α) (h : ∀ a ∈ l, (f a).length = d) (hi : i < l.length) :
    piece d i (l.flatMap f) = f l[i] := by
  induction l generalizing i with
  | nil => simp at hi
  | cons a l ih =>
    have ha : (f a).length = d := h a (by simp)
    cases i with
    | zero => simp [piece, ← ha]
    | succ i =>
      rw [List.getElem_cons_succ, ← ih (fun b hb => h b (by simp [hb])) (by simpa using hi), piece, List.flatMap_cons,
        show (i + 1) * d = (f a).length + i * d by rw [ha]; ring, List.drop_length_add_append, piece]

/-- Pieces of a piece are pieces of the whole. -/
theorem piece_piece {d w x : Nat} (y : Nat) (l : List Nat) (hx : x < w) : piece d x (piece (w * d) y l) = piece d (y * w + x) l := by
  have h : (x + 1) * d ≤ w * d := Nat.mul_le_mul_right d hx
  rw [Nat.succ_mul] at h
  rw [piece, piece, List.drop_take, List.take_take, List.drop_drop, min_eq_left (by omega), piece,
    show y * (w * d) + x * d = (y * w + x) * d by ring]

/-! ### Numbers of equal width packed into bits -/

/-- The `m` numbers of `d` bits at the front of a bit list. -/
def unpack (d m : Nat) (l : List Nat) : List Nat := (List.range m).map fun i => ofBits (piece d i l)

@[simp] theorem length_unpack (d m : Nat) (l : List Nat) : (unpack d m l).length = m := by simp [unpack]

theorem unpack_lt {d m x : Nat} {l : List Nat} (h : x ∈ unpack d m l) : x < 2 ^ d := by
  obtain ⟨i, -, rfl⟩ := List.mem_map.mp h
  exact (ofBits_lt _).trans_le (Nat.pow_le_pow_right (by decide) (by simp [piece]))

/-- Unpacking what was packed. -/
theorem unpack_flatMap_bitsOf {d : Nat} (l : List Nat) (h : ∀ x ∈ l, x < 2 ^ d) : unpack d l.length (l.flatMap (bitsOf d)) = l := by
  refine List.ext_getElem (by simp) fun i _ hi => ?_
  simp only [unpack, List.getElem_map, List.getElem_range]
  rw [piece_flatMap _ _ (fun _ _ => length_bitsOf _ _) hi, ofBits_bitsOf (h _ (List.getElem_mem hi))]

/-- Packing what was unpacked. -/
theorem flatMap_bitsOf_unpack {d m : Nat} {l : List Nat} (hb : ∀ b ∈ l, b < 2) (hl : m * d ≤ l.length) :
    (unpack d m l).flatMap (bitsOf d) = l.take (m * d) := by
  rw [unpack, List.flatMap_map, ← flatMap_piece]
  refine List.flatMap_congr fun i hi => ?_
  have hlen : (piece d i l).length = d := length_piece (List.mem_range.mp hi) hl
  have hbits := bitsOf_ofBits (piece d i l) fun b h => hb b (mem_of_mem_piece h)
  rwa [hlen] at hbits

theorem flatMap_bitsOf_lt_two {d b : Nat} {l : List Nat} (h : b ∈ l.flatMap (bitsOf d)) : b < 2 := by
  obtain ⟨x, -, hx⟩ := List.mem_flatMap.mp h
  exact bitsOf_lt_two hx

theorem length_flatMap_bitsOf (d : Nat) (l : List Nat) : (l.flatMap (bitsOf d)).length = l.length * d := by
  simp [List.length_flatMap]

theorem flatMap_byteBits_lt_two {l : List Nat} : ∀ b ∈ l.flatMap byteBits, b < 2 := by
  rw [byteBits_eq_bitsOf]; exact fun b hb => flatMap_bitsOf_lt_two hb

theorem length_flatMap_byteBits (l : List Nat) : (l.flatMap byteBits).length = l.length * 8 := by
  rw [byteBits_eq_bitsOf, length_flatMap_bitsOf]

theorem packBits_append_byte {a : List Nat} (t : List Nat) (h : a.length = 8) : packBits (a ++ t) = ofBits a :: packBits t := by
  match a, h with
  | [_, _, _, _, _, _, _, _], _ => rfl

/-- Whole bytes of bits are grouped as numbers of eight bits. -/
theorem packBits_eq_unpack (m : Nat) (l : List Nat) (h : l.length = m * 8) : packBits l = unpack 8 m l := by
  induction m generalizing l with
  | zero => simp at h; simp [h, packBits, unpack]
  | succ m ih =>
    have hfirst : (l.take 8).length = 8 := by simp; omega
    rw [← List.take_append_drop 8 l, packBits_append_byte _ hfirst, ih _ (by simp; omega), List.take_append_drop]
    simp [unpack, piece, List.range_succ_eq_map, List.drop_drop, Nat.succ_mul, Nat.add_comm]

/-- The bytes of a bit list give its bits back. -/
theorem flatMap_byteBits_packBits {m : Nat} {l : List Nat} (hb : ∀ b ∈ l, b < 2) (h : l.length = m * 8) :
    (packBits l).flatMap byteBits = l := by
  rw [byteBits_eq_bitsOf, packBits_eq_unpack m l h, flatMap_bitsOf_unpack hb h.ge, ← h, List.take_length]

/-- The bits of bytes give the bytes back. -/
theorem packBits_flatMap_byteBits {l : List Nat} (h : ∀ x ∈ l, x < 256) : packBits (l.flatMap byteBits) = l := by
  rw [byteBits_eq_bitsOf, packBits_eq_unpack l.length _ (length_flatMap_bitsOf 8 l), unpack_flatMap_bitsOf l h]

/-! ### Stuffing -/

/-- One byte destuffed: after 0xFF a byte below 0x80 gives seven bits, and otherwise a byte gives eight. -/
theorem destuffBits_cons {b : Nat} (t : List Nat) (afterFF : Bool) (h : b < 2 ^ (8 - afterFF.toNat)) :
    destuffBits (b :: t) afterFF = (destuffBits t (b == 0xFF)).map (bitsOf (8 - afterFF.toNat) b ++ ·) := by
  cases afterFF with
  | false => simp [destuffBits, byteBits_eq_bitsOf]
  | true =>
    have hb : ¬ 128 ≤ b := by simpa using h
    simp [destuffBits, byteBits_eq_bitsOf, bitsOf, hb]

/-- Destuffing follows the stuffing of R120 bit by bit. The `n` bits waiting hold a stuffed bit first when the byte before them is
0xFF; destuffing gives the others, then the bits still to come, then the padding of the last byte. -/
theorem destuffBits_stuffBits (l : List Nat) (acc n : Nat) (afterFF : Bool) (hl : ∀ v ∈ l, v < 2) (hn : n < 8)
    (hc : afterFF.toNat ≤ n) (ha : acc < 2 ^ (n - afterFF.toNat)) :
    ∃ j < 8, destuffBits (stuffBits l acc n) afterFF = some (bitsOf (n - afterFF.toNat) acc ++ l ++ List.replicate j 0) := by
  induction l generalizing acc n afterFF with
  | nil =>
    rcases Nat.eq_zero_or_pos n with rfl | hpos
    · exact ⟨0, by decide, by simp [stuffBits, destuffBits, bitsOf]⟩
    · have hwidth : 8 - afterFF.toNat = n - afterFF.toNat + (8 - n) := by omega
      have hbyte : acc * 2 ^ (8 - n) < 2 ^ (8 - afterFF.toNat) := by
        rw [hwidth, pow_add]; exact Nat.mul_lt_mul_of_pos_right ha (by positivity)
      refine ⟨8 - n, by omega, ?_⟩
      rw [stuffBits, if_pos hpos, destuffBits_cons _ _ hbyte, hwidth, bitsOf_shift]
      simp [destuffBits]
  | cons v t ih =>
    have hv : v < 2 := hl v (by simp)
    have ht : ∀ u ∈ t, u < 2 := fun u hu => hl u (by simp [hu])
    have hwidth : n + 1 - afterFF.toNat = n - afterFF.toNat + 1 := by omega
    have hacc : acc * 2 + v < 2 ^ (n + 1 - afterFF.toNat) := by rw [hwidth, pow_succ]; omega
    have hbits : bitsOf (n + 1 - afterFF.toNat) (acc * 2 + v) = bitsOf (n - afterFF.toNat) acc ++ [v] := by
      rw [hwidth, bitsOf_snoc _ _ hv]
    simp only [stuffBits]
    by_cases hfull : n + 1 = 8
    · rw [hfull] at hacc hbits
      rw [if_pos hfull]
      by_cases hff : acc * 2 + v = 0xFF
      · obtain ⟨j, hj, e⟩ := ih 0 1 true ht (by decide) (by decide) (by decide)
        refine ⟨j, hj, ?_⟩
        rw [if_pos hff, destuffBits_cons _ _ hacc, hbits, hff]
        simp [e, bitsOf]
      · obtain ⟨j, hj, e⟩ := ih 0 0 false ht (by decide) (by decide) (by decide)
        refine ⟨j, hj, ?_⟩
        rw [if_neg hff, destuffBits_cons _ _ hacc, hbits, beq_false_of_ne hff]
        simp [e, bitsOf]
    · obtain ⟨j, hj, e⟩ := ih (acc * 2 + v) (n + 1) afterFF ht (by omega) (by omega) hacc
      refine ⟨j, hj, ?_⟩
      rw [if_neg hfull, e, hbits]
      simp

/-- Destuffing a stuffed segment gives its raw bytes: the padding is too short to form one (R121). -/
theorem destuff_stuff {raw : List Nat} (h : ∀ x ∈ raw, x < 256) : destuff (stuff raw) = some raw := by
  have hlen := length_flatMap_byteBits raw
  obtain ⟨j, hj, e⟩ := destuffBits_stuffBits (raw.flatMap byteBits) 0 0 false flatMap_byteBits_lt_two (by decide) (by decide) (by decide)
  have hwhole : (raw.length * 8 + j) / 8 * 8 = (raw.flatMap byteBits).length := by omega
  rw [destuff, stuff, e, Option.map_some, show bitsOf (0 - false.toNat) 0 = [] from rfl, List.nil_append, List.length_append,
    List.length_replicate, hlen, hwhole, List.take_left, packBits_flatMap_byteBits h]

/-- The raw bytes of every segment are bytes. -/
theorem destuff_lt {seg raw : List Nat} (h : destuff seg = some raw) : ∀ x ∈ raw, x < 256 := by
  obtain ⟨b, -, rfl⟩ := Option.map_eq_some_iff.mp h
  rw [packBits_eq_unpack (b.length / 8) _ (by simp; omega)]
  exact fun x hx => unpack_lt hx

/-! ### Escape stripes -/

/-- A tile-stripe of 16 rows of `w` samples of `d` bits. -/
def IsStripe (d w : Nat) (t : List (List Nat)) : Prop := t.length = 16 ∧ ∀ r ∈ t, r.length = w ∧ ∀ x ∈ r, x < 2 ^ d

/-- The tile-stripe at the front of a bit list, row by row. -/
def unpackStripe (d w : Nat) (bits : List Nat) : List (List Nat) :=
  (List.range 16).map fun y => unpack d w (piece (w * d) y bits)

theorem isStripe_unpackStripe (d w : Nat) (bits : List Nat) : IsStripe d w (unpackStripe d w bits) := by
  refine ⟨by simp [unpackStripe], fun r hr => ?_⟩
  obtain ⟨y, -, rfl⟩ := List.mem_map.mp hr
  exact ⟨length_unpack _ _ _, fun x hx => unpack_lt hx⟩

theorem length_stripe_bits {d w : Nat} {t : List (List Nat)} (h : IsStripe d w t) :
    (t.flatten.flatMap (bitsOf d)).length = 2 * w * d * 8 := by
  obtain ⟨hlen, hrow⟩ := h
  have hflat : t.flatten.length = t.length * w := by
    rw [List.length_flatten, List.map_congr_left fun r hr => (hrow r hr).1]; simp
  rw [length_flatMap_bitsOf, hflat, hlen]; ring

/-- Raster order is row after row. -/
theorem flatten_flatMap_bitsOf (d : Nat) (t : List (List Nat)) : t.flatten.flatMap (bitsOf d) = t.flatMap (·.flatMap (bitsOf d)) := by
  rw [← List.flatMap_id, List.flatMap_assoc]; rfl

/-- A tile-stripe's bits in raster order give the tile-stripe back. -/
theorem unpackStripe_bits {d w : Nat} {t : List (List Nat)} (h : IsStripe d w t) :
    unpackStripe d w (t.flatten.flatMap (bitsOf d)) = t := by
  obtain ⟨hlen, hrow⟩ := h
  refine List.ext_getElem (by simp [unpackStripe, hlen]) fun y _ hy => ?_
  obtain ⟨hw, hlt⟩ := hrow t[y] (List.getElem_mem hy)
  have hbits : ∀ r ∈ t, (r.flatMap (bitsOf d)).length = w * d := fun r hr => by rw [length_flatMap_bitsOf, (hrow r hr).1]
  simp only [unpackStripe, List.getElem_map, List.getElem_range]
  rw [flatten_flatMap_bitsOf, piece_flatMap _ t hbits hy, ← hw, unpack_flatMap_bitsOf _ hlt]

/-- Bits for a tile-stripe are the bits of the tile-stripe they give, in raster order. -/
theorem bits_unpackStripe {d w : Nat} {bits : List Nat} (hb : ∀ b ∈ bits, b < 2) (hl : bits.length = 2 * w * d * 8) :
    (unpackStripe d w bits).flatten.flatMap (bitsOf d) = bits := by
  have hlen : 16 * (w * d) = bits.length := by rw [hl]; ring
  have hrow : ∀ y ∈ List.range 16, (unpack d w (piece (w * d) y bits)).flatMap (bitsOf d) = piece (w * d) y bits := fun y hy => by
    have hrowLen : (piece (w * d) y bits).length = w * d := length_piece (List.mem_range.mp hy) hlen.le
    rw [flatMap_bitsOf_unpack (fun b h => hb b (mem_of_mem_piece h)) hrowLen.ge, List.take_of_length_le hrowLen.le]
  rw [flatten_flatMap_bitsOf, unpackStripe, List.flatMap_map, List.flatMap_congr hrow, flatMap_piece, hlen, List.take_length]

theorem flatMap_range_getD {α β : Type} (l : List α) (v : α) (f : α → List β) :
    (List.range l.length).flatMap (fun i => f (l.getD i v)) = l.flatMap f := by
  have hl : (List.range l.length).map (l.getD · v) = l := List.ext_getElem (by simp) fun i _ hi => by simp [hi]
  conv_rhs => rw [← hl, List.flatMap_map]

/-- The payload of a tile-stripe is its bits in raster order, as bytes. -/
theorem escapePayload_eq_packBits {d w : Nat} {t : List (List Nat)} (h : IsStripe d w t) :
    escapePayload d w t = packBits (t.flatten.flatMap (bitsOf d)) := by
  obtain ⟨hlen, hrow⟩ := h
  have hw : ∀ r ∈ t, (List.range w).flatMap (fun x => bitsOf d (r.getD x 0)) = r.flatMap (bitsOf d) := fun r hr => by
    rw [← (hrow r hr).1, flatMap_range_getD]
  rw [flatten_flatMap_bitsOf, ← List.flatMap_congr hw, ← flatMap_range_getD t [], hlen]; rfl

theorem length_escapePayload {d w : Nat} {t : List (List Nat)} (h : IsStripe d w t) : (escapePayload d w t).length = 2 * w * d := by
  rw [escapePayload_eq_packBits h, packBits_eq_unpack _ _ (length_stripe_bits h), length_unpack]

theorem escapePayload_lt {d w : Nat} {t : List (List Nat)} (h : IsStripe d w t) : ∀ x ∈ escapePayload d w t, x < 256 := by
  rw [escapePayload_eq_packBits h, packBits_eq_unpack _ _ (length_stripe_bits h)]
  exact fun x hx => unpack_lt hx

theorem escapePayload_bits {d w : Nat} {t : List (List Nat)} (h : IsStripe d w t) :
    (escapePayload d w t).flatMap byteBits = t.flatten.flatMap (bitsOf d) := by
  rw [escapePayload_eq_packBits h, flatMap_byteBits_packBits (fun _ hb => flatMap_bitsOf_lt_two hb) (length_stripe_bits h)]

/-- The tile-stripe that a payload's bytes give has that payload. -/
theorem escapePayload_unpackStripe {d w : Nat} {y : List Nat} (hy : ∀ x ∈ y, x < 256) (hl : y.length = 2 * w * d) :
    escapePayload d w (unpackStripe d w (y.flatMap byteBits)) = y := by
  have hlen : (y.flatMap byteBits).length = 2 * w * d * 8 := by rw [length_flatMap_byteBits, hl]
  rw [escapePayload_eq_packBits (isStripe_unpackStripe d w _), bits_unpackStripe flatMap_byteBits_lt_two hlen, packBits_flatMap_byteBits hy]

theorem map_xor_lt {k : Nat} {l : List Nat} (hk : k < 256) (hl : ∀ x ∈ l, x < 256) : ∀ x ∈ l.map (· ^^^ k), x < 256 := by
  intro x hx
  obtain ⟨a, ha, rfl⟩ := List.mem_map.mp hx
  exact Nat.xor_lt_two_pow (n := 8) (hl a ha) hk

theorem map_xor_map_xor (k : Nat) (l : List Nat) : (l.map (· ^^^ k)).map (· ^^^ k) = l := by
  simp [Function.comp_def]

/-- A segment too short for a payload is malformed (R130). -/
theorem escapeSamples_short {d w : Nat} {seg raw : List Nat} (h : destuff seg = some raw) (hl : raw.length < 2 * w * d + 1) :
    escapeSamples d w seg = none := by
  simp [escapeSamples, h, hl]

/-- R130: the first raw byte is the key, whatever it is, and the next 2wd raw bytes XOR the key are the payload. -/
theorem escapeSamples_key {d w k : Nat} {seg l : List Nat} (h : destuff seg = some (k :: l)) (hl : 2 * w * d ≤ l.length) :
    escapeSamples d w seg = some (unpackStripe d w (((l.take (2 * w * d)).map (· ^^^ k)).flatMap byteBits)) := by
  have hlong : ¬ (k :: l).length < 2 * w * d + 1 := by simp; omega
  simp only [escapeSamples, h, hlong, if_false, Option.some.injEq, unpackStripe, unpack]
  exact List.map_congr_left fun y _ => List.map_congr_left fun x hx => congrArg ofBits (piece_piece y _ (List.mem_range.mp hx)).symm

/-- A tile-stripe's segment decodes to the tile-stripe under every key. -/
theorem escapeSamples_escapeSeg {d w k : Nat} {t : List (List Nat)} (hk : k < 256) (h : IsStripe d w t) :
    escapeSamples d w (escapeSeg k (escapePayload d w t)) = some t := by
  have hbytes : ∀ x ∈ k :: (escapePayload d w t).map (· ^^^ k), x < 256 :=
    List.forall_mem_cons.mpr ⟨hk, map_xor_lt hk (escapePayload_lt h)⟩
  have hlen : ((escapePayload d w t).map (· ^^^ k)).length = 2 * w * d := by rw [List.length_map, length_escapePayload h]
  rw [escapeSeg, escapeSamples_key (destuff_stuff hbytes) hlen.ge, ← hlen, List.take_length, map_xor_map_xor, escapePayload_bits h,
    unpackStripe_bits h]

end Sys2Proof.Machine

namespace Sys2Proof.Proofs

open Sys2Proof Sys2Proof.Machine

/-- Settles O17: the inverse gives a cell back by the parity of g1 + g2 and g1 − g2; the other parts are R97 and R98 as written. -/
theorem decorrelation : Obligations.Decorrelation := by
  refine ⟨fun d r g1 g2 b gs hgs => ⟨?_, recorr_forward d r g1 g2 b gs hgs, decorr_range⟩, fun d shifted gd cr cb gs g2 hgs hg2 => ?_⟩
  · rw [hgs]; rfl
  · rw [hg2, hgs]; rfl

/-- Settles O18: each lifting step of R100 is undone by its own step of R101, the even samples first. -/
theorem waveletLine : Obligations.WaveletLine := by
  have hpred (k : Nat) : (if k = 0 then 0 else k - 1) = k - 1 := by split <;> omega
  refine ⟨fun x he _ => ⟨lift_low_length x, lift_high_length x, fun k hk => ⟨lift_high x he hk, ?_⟩, unlift_lift x he⟩,
    fun s d _ _ => ⟨unlift_length s d, fun k hk => ⟨?_, unlift_odd s d hk⟩⟩⟩
  · rw [hpred, lift_low x hk]
  · rw [hpred, unlift_even s d hk]

/-- Settles O21: destuffing gives the key and the XORed payload back, a second XOR undoes the first, and a payload and its tile-stripe
are the same bits cut at 8 and at `d`. -/
theorem escapeStripes : Obligations.EscapeStripes := by
  rintro d w n rfl
  refine ⟨fun k t hk hlen hrow => ?_, fun seg raw hraw => ⟨escapeSamples_short hraw, fun k l e hl => ?_⟩⟩
  · have ht : IsStripe d w t := ⟨hlen, hrow⟩
    exact ⟨length_escapePayload ht, escapePayload_bits ht, rfl, escapeSamples_escapeSeg hk ht⟩
  · rw [e] at hraw
    obtain ⟨hk, hbytes⟩ := List.forall_mem_cons.mp (destuff_lt hraw)
    have hpayload : ∀ x ∈ (l.take (2 * w * d)).map (· ^^^ k), x < 256 := map_xor_lt hk fun x hx => hbytes x (List.mem_of_mem_take hx)
    obtain ⟨hlen, hrow⟩ := isStripe_unpackStripe d w (((l.take (2 * w * d)).map (· ^^^ k)).flatMap byteBits)
    exact ⟨_, escapeSamples_key hraw hl, hlen, hrow, escapePayload_unpackStripe hpayload (by simp [hl])⟩

end Sys2Proof.Proofs
end

section
/-! SUPPORT. The Interrupt Controller (R440 to R445): reads of a source and of a vector after a write, the source that a claim takes, what a
complete does, and when a vector sends, holds or waits; and that raising a fault counts it once. -/

namespace Sys2Proof.Machine

variable {s t : State}

/-! ### Sparse maps -/

/-- A read of the key written, of a value other than its default: true of every list, canonical or not. -/
theorem sget_sput_of_ne_default {α : Type} [DecidableEq α] {d : Nat → α} {k : Nat} {v : α} (l : List (Nat × α)) (hv : v ≠ d k) :
    sget d (sput d l k v) k = v := by
  induction l with
  | nil => simp [sput, entryOf, hv, sget]
  | cons e rest ih =>
    by_cases below : e.1 < k
    · have hne : k ≠ e.1 := by omega
      simp [sput, below, sget, hne, ih]
    · simp [sput, below, entryOf, hv, sget]

theorem sget_of_not_mem_keys {α : Type} {d : Nat → α} {k : Nat} {l : List (Nat × α)} (h : k ∉ l.map (·.1)) : sget d l k = d k := by
  induction l with
  | nil => rfl
  | cons e rest ih =>
    obtain ⟨hne, hrest⟩ := not_or.mp (mt List.mem_cons.mpr h)
    simp only [sget, hne, if_false, ih hrest]

/-- The keys of a canonical list rise. -/
theorem pairwise_keys_of_swfFrom {α : Type} [DecidableEq α] {d : Nat → α} {l : List (Nat × α)} {b : Nat} (h : swfFrom d b l = true) :
    (l.map (·.1)).Pairwise (· < ·) ∧ ∀ k ∈ l.map (·.1), b ≤ k := by
  induction l generalizing b with
  | nil => simp
  | cons e rest ih =>
    simp only [swfFrom, Bool.and_eq_true, decide_eq_true_eq] at h
    obtain ⟨⟨hb, -⟩, hrest⟩ := h
    obtain ⟨hlt, hge⟩ := ih hrest
    refine ⟨List.pairwise_cons.mpr ⟨hge, hlt⟩, List.forall_mem_cons.mpr ⟨hb, fun k hk => ?_⟩⟩
    have := hge k hk
    omega

/-! ### Sources and vectors -/

theorem State.icuWf_iff : s.icuWf = true ↔ swf (fun _ => (⟨0, false, false, none, false⟩ : IcuSource)) s.icu.sources = true ∧
    swf (fun _ => (⟨false, none, 0, false⟩ : IcuVector)) s.icu.vectors = true := by
  rw [State.icuWf, Bool.and_eq_true]

theorem State.source_putSource (h : s.icuWf = true) (n m : Nat) (x : IcuSource) :
    (s.putSource n x).source m = if m = n then x else s.source m :=
  sget_sput_from _ _ 0 _ _ _ (State.icuWf_iff.mp h).1

theorem State.vector_putVector (h : s.icuWf = true) (k j : Nat) (x : IcuVector) :
    (s.putVector k x).vector j = if j = k then x else s.vector j :=
  sget_sput_from _ _ 0 _ _ _ (State.icuWf_iff.mp h).2

theorem State.source_putSource_same (h : s.icuWf = true) (n : Nat) (x : IcuSource) : (s.putSource n x).source n = x :=
  (State.source_putSource h n n x).trans (if_pos rfl)

theorem State.source_putSource_other (h : s.icuWf = true) {n m : Nat} (x : IcuSource) (hm : m ≠ n) :
    (s.putSource n x).source m = s.source m :=
  (State.source_putSource h n m x).trans (if_neg hm)

theorem State.vector_putVector_same (h : s.icuWf = true) (k : Nat) (x : IcuVector) : (s.putVector k x).vector k = x :=
  (State.vector_putVector h k k x).trans (if_pos rfl)

theorem State.icuWf_putVector (h : s.icuWf = true) (k : Nat) (x : IcuVector) : (s.putVector k x).icuWf = true :=
  State.icuWf_iff.mpr ⟨(State.icuWf_iff.mp h).1, swf_sput _ _ _ _ (State.icuWf_iff.mp h).2⟩

@[simp] theorem State.source_putVector (k n : Nat) (x : IcuVector) : (s.putVector k x).source n = s.source n := rfl

@[simp] theorem State.vector_putSource (n k : Nat) (x : IcuSource) : (s.putSource n x).vector k = s.vector k := rfl

/-- An operation that leaves the registers and the memories alone. -/
theorem KeepsBut.of_same {l : List Nat} (hregs : t.regs = s.regs) (hdram : t.dram = s.dram) (hpoison : t.poison = s.poison)
    (hhost : t.hostMem = s.hostMem) : KeepsBut l s t :=
  ⟨fun k _ => by rw [State.word, State.word, hregs], hdram, hpoison, hhost⟩

theorem KeepsBut.trans {l : List Nat} {r : State} (h : KeepsBut l r s) (k : KeepsBut l s t) : KeepsBut l r t := by
  obtain ⟨hw, hd, hp, hh⟩ := h
  obtain ⟨kw, kd, kp, kh⟩ := k
  exact ⟨fun j hj => (kw j hj).trans (hw j hj), kd.trans hd, kp.trans hp, kh.trans hh⟩

theorem KeepsBut.putSource (l : List Nat) (n : Nat) (x : IcuSource) : KeepsBut l s (s.putSource n x) := .of_same rfl rfl rfl rfl

theorem KeepsBut.putVector (l : List Nat) (k : Nat) (x : IcuVector) : KeepsBut l s (s.putVector k x) := .of_same rfl rfl rfl rfl

/-! ### The source that a claim takes (R440, R442) -/

theorem State.mem_of_highest {l : List Nat} {n : Nat} (h : s.highest l = some n) : n ∈ l := by
  induction l generalizing n with
  | nil => cases h
  | cons a rest ih =>
    cases hm : s.highest rest with
    | none =>
      simp only [State.highest, hm] at h
      exact Option.some.inj h ▸ List.mem_cons_self
    | some m =>
      have hmem : m ∈ rest := ih hm
      simp only [State.highest, hm] at h
      split at h
      · exact List.mem_cons_of_mem a (Option.some.inj h ▸ hmem)
      · exact Option.some.inj h ▸ List.mem_cons_self

/-- Of a rising list, the highest is the one that no other beats: by a greater priority, or the same with a lower number. -/
theorem State.highest_eq_some {l : List Nat} {n : Nat} (hl : l.Pairwise (· < ·)) (hn : n ∈ l)
    (hbest : ∀ m ∈ l, s.get (ICU_SRC_PRIO m) < s.get (ICU_SRC_PRIO n) ∨ s.get (ICU_SRC_PRIO m) = s.get (ICU_SRC_PRIO n) ∧ n ≤ m) :
    s.highest l = some n := by
  induction l with
  | nil => cases hn
  | cons a rest ih =>
    obtain ⟨hrise, hrest⟩ := List.pairwise_cons.mp hl
    obtain ⟨ha, hbestRest⟩ := List.forall_mem_cons.mp hbest
    rcases List.mem_cons.mp hn with rfl | hn
    · cases hm : s.highest rest with
      | none => simp [State.highest, hm]
      | some m =>
        have hle : ¬ s.get (ICU_SRC_PRIO n) < s.get (ICU_SRC_PRIO m) := by
          have := hbestRest m (State.mem_of_highest hm)
          omega
        simp [State.highest, hm, hle]
    · have hgt : s.get (ICU_SRC_PRIO a) < s.get (ICU_SRC_PRIO n) := by
        have := hrise n hn
        omega
      simp [State.highest, ih hrest hn hbestRest, hgt]

/-- An eligible source is pending, so it is listed. -/
theorem State.mem_sources_of_eligible {n ctx : Nat} (h : s.eligible n ctx = true) : n ∈ s.icu.sources.map (·.1) := by
  by_contra hn
  have hidle : s.source n = ⟨0, false, false, none, false⟩ := sget_of_not_mem_keys hn
  simp [State.eligible, State.isPending, hidle] at h

theorem State.mem_eligibles {n ctx : Nat} : n ∈ s.eligibles ctx ↔ s.eligible n ctx = true := by
  rw [State.eligibles, List.mem_filter]
  exact ⟨And.right, fun h => ⟨State.mem_sources_of_eligible h, h⟩⟩

theorem State.pairwise_eligibles (h : s.icuWf = true) (ctx : Nat) : (s.eligibles ctx).Pairwise (· < ·) :=
  (pairwise_keys_of_swfFrom (State.icuWf_iff.mp h).1).1.filter _

theorem State.highest_eligibles_of_claims {n ctx : Nat} (h : s.icuWf = true) (hc : s.claims n ctx) :
    s.highest (s.eligibles ctx) = some n :=
  State.highest_eq_some (State.pairwise_eligibles h ctx) (State.mem_eligibles.mpr hc.1) fun m hm =>
    hc.2 m (State.mem_eligibles.mp hm)

theorem State.eligibles_eq_nil {ctx : Nat} (h : ∀ n, s.eligible n ctx = false) : s.eligibles ctx = [] :=
  List.filter_eq_nil_iff.mpr fun n _ => by simp [h n]

theorem State.claim_of_claims {n ctx : Nat} (h : s.icuWf = true) (hc : s.claims n ctx) :
    s.claim ctx = (s.putSource n { s.source n with count := 0, pend := false, soft := false, inService := some ctx }).answer
      (.word (BitVec.ofNat 32 (n + 65536 * (s.source n).count))) := by
  simp only [State.claim, State.highest_eligibles_of_claims h hc]

/-- A spurious claim (R442), which arms a host vector (R444). -/
theorem State.claim_of_none_eligible {ctx : Nat} (h : ∀ n, s.eligible n ctx = false) :
    s.claim ctx = (if ctx < 64 then s.putVector ctx { s.vector ctx with disarmed := false } else s).answer (.word 1023#32) := by
  simp only [State.claim, State.eligibles_eq_nil h, State.highest]

/-- What a claim that takes source `n` changes, in every context (R442, R443). -/
theorem State.claim_takes {n ctx : Nat} (h : s.icuWf = true) (hc : s.claims n ctx) :
    (s.claim ctx).resp = .word (BitVec.ofNat 32 (n + 65536 * (s.source n).count)) ∧
      (s.claim ctx).source n = { s.source n with count := 0, pend := false, soft := false, inService := some ctx } ∧
      (∀ m, m ≠ n → (s.claim ctx).source m = s.source m) ∧ (s.claim ctx).icu.vectors = s.icu.vectors ∧ KeepsBut [] s (s.claim ctx) := by
  rw [State.claim_of_claims h hc]
  exact ⟨rfl, State.source_putSource_same h n _, fun m hm => State.source_putSource_other h _ hm, rfl, .of_same rfl rfl rfl rfl⟩

/-! ### Completes (R442, R444) -/

theorem State.complete_spurious (ctx off : Nat) : s.complete ctx 1023 off = s := if_pos rfl

theorem State.complete_of_inService {ctx id off : Nat} (hid : id ≠ 1023) (hs : (s.source id).inService = some ctx) :
    s.complete ctx id off = s.putSource id { s.source id with inService := none } := by
  rw [State.complete, if_neg hid, if_pos hs]

theorem State.complete_of_not_inService {ctx id off : Nat} (hid : id ≠ 1023) (hs : (s.source id).inService ≠ some ctx) :
    s.complete ctx id off = s.cfg off := by
  rw [State.complete, if_neg hid, if_neg hs]

/-- A good complete clears the in-service bit of its source and no other (R442). -/
theorem State.complete_completes {ctx id off : Nat} (h : s.icuWf = true) (hid : id ≠ 1023) (hs : (s.source id).inService = some ctx) :
    (s.complete ctx id off).source id = { s.source id with inService := none } ∧
      (∀ m, m ≠ id → (s.complete ctx id off).source m = s.source m) ∧ (∀ k, (s.complete ctx id off).vector k = s.vector k) ∧
      KeepsBut [] s (s.complete ctx id off) := by
  rw [State.complete_of_inService hid hs]
  exact ⟨State.source_putSource_same h id _, fun m hm => State.source_putSource_other h _ hm, fun _ => rfl, .putSource _ _ _⟩

/-! ### Messages of the host vectors (R444, R445) -/

theorem State.msix_of_not_due {k : Nat} (h : s.due k = false) :
    s.msix k = if (s.vector k).held then s.putVector k { s.vector k with held := false } else s := by
  rw [State.msix, if_neg (by simp [h])]

/-- A due vector whose message the host's state keeps back is held. -/
theorem State.msix_of_held {k : Nat} (hdue : s.due k = true) (h : s.host = false ∨ s.cxl.fn.msixEnable = false ∨
    (s.flag ICU_HOST_SLEEP = true ∧ s.flag (ICU_HV_MOD_WAKE k) = false)) :
    s.msix k = s.putVector k { s.vector k with held := true } := by
  rw [State.msix, if_pos hdue]
  rcases h with hhost | hmsix | ⟨hsleep, hwake⟩
  · simp [hhost]
  · simp [hmsix]
  · simp [hsleep, hwake]

/-- A due vector under moderation waits. -/
theorem State.msix_of_moderated {k : Nat} (hdue : s.due k = true) (hhost : s.host = true) (hmsix : s.cxl.fn.msixEnable = true)
    (hsleep : s.flag ICU_HOST_SLEEP = false) (hidle : s.flag ICU_HOST_IDLE = false) (hheld : (s.vector k).held = false)
    (hmod : s.moderationPassed k = false) : s.msix k = s := by
  simp [State.msix, hdue, hhost, hmsix, hsleep, hidle, hheld, hmod]

/-- A due vector whose message may go out sends it. -/
theorem State.msix_of_free {k : Nat} (hdue : s.due k = true) (hhost : s.host = true) (hmsix : s.cxl.fn.msixEnable = true)
    (hfree : if s.flag ICU_HOST_SLEEP then s.flag (ICU_HV_MOD_WAKE k) = true
      else s.flag ICU_HOST_IDLE = true ∨ (s.vector k).held = true ∨ s.moderationPassed k = true) : s.msix k = s.sendMsix k := by
  have hgo : ¬ ((!s.host) = true ∨ (!s.cxl.fn.msixEnable) = true) := by simp [hhost, hmsix]
  rw [State.msix, if_pos hdue]
  dsimp only
  rw [if_neg hgo]
  cases hsleep : s.flag ICU_HOST_SLEEP with
  | true =>
    rw [hsleep, if_pos rfl] at hfree
    rw [if_pos rfl, if_pos hfree]
  | false =>
    rw [hsleep, if_neg Bool.false_ne_true] at hfree
    rw [if_neg Bool.false_ne_true, if_pos (by simpa [or_assoc] using hfree)]

theorem State.sendMsix_of_unmasked {k : Nat} (h : bitAt s.cxl.fn.masked k = 0) :
    s.sendMsix k = (s.putVector k ⟨true, some s.now, 0, false⟩).emit (.msix k) := if_pos h

theorem State.sendMsix_of_masked {k : Nat} (h : bitAt s.cxl.fn.masked k ≠ 0) :
    s.sendMsix k = { s.putVector k ⟨true, some s.now, 0, false⟩ with
      cxl := { s.cxl with fn := { s.cxl.fn with pba := s.cxl.fn.pba ||| 2 ^ k } } } := if_neg h

/-- Whether masked or not, what is sent disarms the vector and changes nothing else of the controller. -/
theorem State.sendMsix_icu (k : Nat) : (s.sendMsix k).icu = (s.putVector k ⟨true, some s.now, 0, false⟩).icu := by
  unfold State.sendMsix
  dsimp only
  split <;> rfl

theorem KeepsBut.sendMsix (l : List Nat) (k : Nat) : KeepsBut l s (s.sendMsix k) := by
  by_cases h : bitAt s.cxl.fn.masked k = 0
  · rw [State.sendMsix_of_unmasked h]; exact .of_same rfl rfl rfl rfl
  · rw [State.sendMsix_of_masked h]; exact .of_same rfl rfl rfl rfl

theorem State.vector_sendMsix (h : s.icuWf = true) (k : Nat) : (s.sendMsix k).vector k = ⟨true, some s.now, 0, false⟩ := by
  rw [State.vector, State.sendMsix_icu]
  exact State.vector_putVector_same h k _

/-! ### Raising a fault counts it (R418, R420) -/

@[simp] theorem State.logbook_fc (typ : Nat) (d : List Nat) : (s.logbook typ d).fc = s.fc := by
  unfold State.logbook; dsimp only; split <;> rfl

@[simp] theorem State.icuPulse_fc (n : Nat) : (s.icuPulse n).fc = s.fc := by
  unfold State.icuPulse State.icuEvent
  split
  · rfl
  · dsimp only; split <;> rfl

@[simp] theorem State.setLevel_fc (level kind cause : Nat) : (s.setLevel level kind cause).fc = s.fc := by
  simp [State.setLevel]

/-- SAFE marks only that its later steps follow. -/
theorem State.enterSafe_tally (kind cause : Nat) :
    (s.enterSafe kind cause).fc.count = s.fc.count ∧ (s.enterSafe kind cause).fc.seq = s.fc.seq := by
  unfold State.enterSafe
  split <;> simp

theorem Raised.of_tally {r : State} {src : Nat} (h : Raised src r s) (he : t.fc.count = s.fc.count ∧ t.fc.seq = s.fc.seq) :
    Raised src r t := by
  obtain ⟨hcount, hseq⟩ := he
  rwa [Raised, hcount, hseq]

theorem State.recordFault_raised (r : FaultRec) : Raised r.source s (s.recordFault r) :=
  ⟨sget_sput_of_ne_default _ (by omega), rfl⟩

theorem State.raiseAs_raised (src given unit info : Nat) : Raised src s (s.raiseAs src given unit info) := by
  unfold State.raiseAs
  extract_lets sev r s1 l1 l2 s2 s3 s4 s5 s6 s7
  have h3 : Raised src s s3 := (State.recordFault_raised (s := s) r).of_tally (by simp [s3, s2, s1])
  have h6 : Raised src s s6 := h3.of_tally (by simp [s6, s5, s4])
  have h7 : Raised src s s7 := by
    show Raised src s (if src = 0x55 then s6.wantBasic 0 0x55 else s6)
    split
    · exact h6.of_tally ⟨rfl, rfl⟩
    · exact h6
  split
  · exact h3
  · split
    · exact h7.of_tally (State.enterSafe_tally _ _)
    · exact h7

/-- An access that is discarded and logged (R416). -/
theorem State.cfg_raised (off : Nat) : Raised 0x01 s (s.cfg off) := State.raiseAs_raised _ _ _ _

theorem SameMemory.cfg (off : Nat) : SameMemory s (s.cfg off) := ⟨s.cfg_dram off, s.cfg_poison off, s.cfg_hostMem off⟩

/-! ### The commands, from the MGC and of a host vector -/

theorem exec_icuMgcClaim_mgc (s : State) : exec (.icuMgcClaim .mgc) s = .next (s.claim 64) := rfl

theorem exec_icuMgcComplete_mgc (v : Word) (s : State) :
    exec (.icuMgcComplete .mgc v) s = .next (s.complete 64 (v.toNat % 1024) ICU_MGC_COMPLETE_ID.off) := rfl

theorem exec_icuHvClaim {k : Nat} (hk : k < 64) (s : State) : exec (.icuHvClaim k) s = .next (s.claim k) := by
  show execIcuHvClaim k s = _
  rw [execIcuHvClaim, Nat.mod_eq_of_lt hk]

/-- Every complete arms the vector (R444). -/
theorem exec_icuHvComplete {k : Nat} (hk : k < 64) (v : Word) (s : State) : exec (.icuHvComplete k v) s =
    .next ((s.putVector k { s.vector k with disarmed := false }).complete k (v.toNat % 1024) (ICU_HV_COMPLETE_ID k).off) := by
  show execIcuHvComplete k v s = _
  rw [execIcuHvComplete, Nat.mod_eq_of_lt hk]

theorem exec_msixHoldoffExpiry {k : Nat} (hk : k < 64) (s : State) : exec (.msixHoldoffExpiry k) s = .next (s.msix k) := by
  show execMsixHoldoffExpiry k s = _
  rw [execMsixHoldoffExpiry, Nat.mod_eq_of_lt hk]

end Sys2Proof.Machine

namespace Sys2Proof.Proofs

open Sys2Proof Sys2Proof.Machine

/-- Settles O57: the eligible sources stand in rising order, so that the highest is the one of R440; a claim and a complete are one write
of one source, in every context; and each state of the host picks one branch of R445. -/
theorem interruptClaims : Obligations.InterruptClaims := by
  intro s _ hicu
  refine ⟨fun n hc => ?mgcClaim, fun hnone => ?mgcSpurious, ⟨_, rfl, rfl, rfl, .of_same rfl rfl rfl rfl⟩, fun v hid hs => ?mgcComplete,
    fun v hid => ?mgcComplete1023, fun v hid hs => ?mgcCompleteBad, fun v => ⟨_, rfl, rfl, State.cfg_raised _, .cfg _⟩,
    fun k n hk hc => ⟨_, exec_icuHvClaim hk s, State.claim_takes hicu hc⟩, fun k hk hnone => ?hvSpurious, fun k v hk hid hs => ?hvComplete,
    fun k v hk hid => ?hvComplete1023, fun k v hk hid hs => ?hvCompleteBad, fun k hk hdue hhost hmsix hfree => ?send,
    fun k hk hdue hhost hmsix hsleep hidle hheld hmod => ?wait, fun k hk hdue hback => ?hold, fun k hk hdue => ?notDue⟩
  case mgcClaim =>
    obtain ⟨hresp, hsame, hother, -, hframe⟩ := State.claim_takes hicu hc
    exact ⟨_, exec_icuMgcClaim_mgc s, hresp, hsame, hother, hframe⟩
  case mgcSpurious =>
    refine ⟨_, exec_icuMgcClaim_mgc s, ?_⟩
    rw [State.claim_of_none_eligible hnone, if_neg (by decide)]
    exact ⟨rfl, rfl, .of_same rfl rfl rfl rfl⟩
  case mgcComplete =>
    obtain ⟨hsame, hother, -, hframe⟩ := State.complete_completes hicu hid hs
    exact ⟨_, exec_icuMgcComplete_mgc v s, hsame, hother, hframe⟩
  case mgcComplete1023 =>
    refine ⟨_, exec_icuMgcComplete_mgc v s, ?_⟩
    rw [hid, State.complete_spurious]
  case mgcCompleteBad =>
    refine ⟨_, exec_icuMgcComplete_mgc v s, ?_⟩
    rw [State.complete_of_not_inService hid hs]
    exact ⟨rfl, State.cfg_raised _, .cfg _⟩
  case hvSpurious =>
    refine ⟨_, exec_icuHvClaim hk s, ?_⟩
    rw [State.claim_of_none_eligible hnone, if_pos hk]
    exact ⟨rfl, State.vector_putVector_same hicu k _, rfl, .of_same rfl rfl rfl rfl⟩
  case hvComplete =>
    obtain ⟨hsame, hother, hvector, hframe⟩ := State.complete_completes (State.icuWf_putVector hicu k _) hid hs
    exact ⟨_, exec_icuHvComplete hk v s, hsame, (hvector k).trans (State.vector_putVector_same hicu k _), hother,
      (KeepsBut.putVector _ _ _).trans hframe⟩
  case hvComplete1023 =>
    refine ⟨_, exec_icuHvComplete hk v s, ?_⟩
    rw [hid, State.complete_spurious]
    exact ⟨State.vector_putVector_same hicu k _, rfl, .putVector _ _ _⟩
  case hvCompleteBad =>
    refine ⟨_, exec_icuHvComplete hk v s, ?_⟩
    rw [State.complete_of_not_inService hid (by rwa [State.source_putVector])]
    exact ⟨State.cfg_raised (s := s.putVector _ _) _, .cfg (s := s.putVector _ _) _⟩
  case send =>
    refine ⟨_, exec_msixHoldoffExpiry hk s, ?_⟩
    rw [State.msix_of_free hdue hhost hmsix hfree]
    refine ⟨State.vector_sendMsix hicu k, by rw [State.sendMsix_icu]; rfl, fun hopen => ?_, fun hmask => ?_, .sendMsix _ _⟩
    · rw [State.sendMsix_of_unmasked hopen]; exact ⟨rfl, rfl⟩
    · rw [State.sendMsix_of_masked hmask]; exact ⟨rfl, rfl⟩
  case wait => exact ⟨_, exec_msixHoldoffExpiry hk s, State.msix_of_moderated hdue hhost hmsix hsleep hidle hheld hmod⟩
  case hold =>
    refine ⟨_, exec_msixHoldoffExpiry hk s, ?_⟩
    rw [State.msix_of_held hdue hback]
    exact ⟨rfl, State.vector_putVector_same hicu k _, .putVector _ _ _⟩
  case notDue =>
    refine ⟨_, exec_msixHoldoffExpiry hk s, ?_⟩
    rw [State.msix_of_not_due hdue]
    split
    next => exact ⟨rfl, by rw [State.vector_putVector_same hicu], rfl, .putVector _ _ _⟩
    next hheld => exact ⟨rfl, by simpa using hheld, rfl, .of_same rfl rfl rfl rfl⟩

end Sys2Proof.Proofs
end
